-- ==== Sys2Proof/Word.lean ====
section
/-! DEFINITION. The words of the model: widths the spec gives, and the numbers of its units. -/

namespace Sys2Proof

/-- A register or half a native word (16 R470, 00 R9). -/
abbrev Word := BitVec 64
/-- A byte. -/
abbrev Byte := BitVec 8
/-- A native word of 128 bits (00 R9). -/
abbrev Native := BitVec 128
/-- The 64 data bytes of a line; byte `k` is bits `[8k+7:8k]` (00 R9). -/
abbrev LineData := BitVec 512
/-- The 16 metadata bytes of a line (06 R183). -/
abbrev LineMeta := BitVec 128
/-- The byte enables of a line, bit `k` for byte `k` (02 R53). -/
abbrev ByteMask := BitVec 64
/-- A directory entry (04 R122). -/
abbrev DirEntry := BitVec 32
/-- A set of hosts: bit `h` for host `h`. -/
abbrev HostSet := BitVec 16

/-- A host, and the number of its port (02 R45). -/
abbrev HostId := Fin 16
/-- A physical slice PS0 to PS17 (01 R17). -/
abbrev PhysSlice := Fin 18
/-- A media channel MC0 to MC37 (01 R17). -/
abbrev Channel := Fin 38
/-- A parity group PG0 to PG3 (01 R17). -/
abbrev Group := Fin 4
/-- A fault source 0x00 to 0x5F (11 R344). -/
abbrev SourceId := Fin 96
/-- A pod queue instance (13 R409). -/
abbrev QueueId := Fin 76
/-- A DMA channel DC0 to DC15 (14 R431). -/
abbrev DmaChannel := Fin 16
/-- A physical control core CC0 to CC4 (01 R17). -/
abbrev CoreId := Fin 5
/-- A logical control core (08 R267). -/
abbrev LogicalCore := Fin 4

end Sys2Proof
end

