-- ==== Sys2Proof/Syntax.lean ====
section
/-! DEFINITION. The commands Cesal takes: one constructor per row of spec/opcode_table.json, with the row's operands.
An operand named `op`, `msg`, `trk` or `req` is the number of the media operation, spill-map message, tracker or waiting
request that the event concerns (assumption log 9). -/

namespace Sys2Proof

/-- A back-invalidate snoop response (02 R63, 03 R87). -/
inductive SnoopRsp where
  | i | s | e
  deriving DecidableEq, Repr

/-- A link width report (17 Table 17.2); `down` is the code HP_STATUS.WIDTH keeps for a link that is down (02 R48). -/
inductive LinkWidth where
  | x8 | x16 | x2 | down
  deriving DecidableEq, Repr

/-- A channel's read status (06 Table 6.4). -/
inductive ReadStatus where
  | ok | corrected | unwritten | uncorrectable | busyMigrating
  deriving DecidableEq, Repr

/-- What a checker finds in a word it reads (10 R312). -/
inductive Found where
  | good | corrected | uncorrectable
  deriving DecidableEq, Repr

/-- The two mailboxes (13 R421). -/
inductive Mailbox where
  | primary | secondary
  deriving DecidableEq, Repr

/-- Where a remap port's macros lie: a slice (SL_REMAP) or the device (GLB_REMAP) (10 R338). -/
inductive RemapUnit where
  | slice (p : PhysSlice) | device
  deriving DecidableEq, Repr

/-- The three cases of a word remap (11 R372). -/
inductive RemapCause where
  | confirmedUncorrectable | failedReload | correctedFinding (lower : Bool) (injected : Bool)
  deriving DecidableEq, Repr

/-- The parts of a scrub pass that read on-chip arrays (10 R326). -/
inductive ScrubPart where
  | slice (p : PhysSlice) | control
  deriving DecidableEq, Repr

/-- The arrays a scrub visit reads (10 Table 10.1, Table 10.4); `tagPair` is both copies of one tag word, `sfPair` an
entry together with its echo. -/
inductive ScrubArray where
  | hcData | tagA | tagB | tagPair | filter | echo | sfPair | region | spillMap | sram
  deriving DecidableEq, Repr

/-- The size of a load of PQ_DATA (13 R415, 16 R471). -/
inductive PqAccess where
  | full | low | high | narrow
  deriving DecidableEq, Repr

/-- The S2M credit classes a host advertises (02 R69): completions, data, back-invalidate snoops. -/
inductive S2mClass where
  | ndr | drs | bisnp
  deriving DecidableEq, Repr

/-- The buses that carry SPDM (12 R387). -/
inductive SpdmBus where
  | doe | mctp
  deriving DecidableEq, Repr

/-- A firmware image (12 R384): the header, which is block 0, with the image format, the train, the oldest train whose data SRAM layout
the image accepts, the entry offset, the block count and the SHA-384 of the blocks from block 1 on; `content` names the bytes of those
blocks (log 7). `valid` is false of a slot that holds no image. -/
structure FwImage where
  valid : Bool
  format : BitVec 32
  train : BitVec 16
  oldestLayout : BitVec 16
  entry : Nat
  blocks : Nat
  hashes : List (BitVec 384)
  content : Nat
  deriving DecidableEq, Repr

/-- What the Acorn ROM's next step finds (12 R383): the self-test results, the factory signature. -/
structure AcornInput where
  healthy : BitVec 5
  signatureOk : Bool
  deriving DecidableEq, Repr

/-- The commands, one constructor per row of spec/opcode_table.json, in the table's order. -/
inductive Instr where
  /-- RD_SHARED (R97): A MemRd SnpData or MemRdData from a host is taken at its home and served by Table 3.6. -/
  | rdShared (h : HostId) (addr : Word) (tag : BitVec 16)
  /-- RD_OWN (R98): A MemRd SnpInv from a host is served by Table 3.7, invalidating other copies and granting E. -/
  | rdOwn (h : HostId) (addr : Word) (tag : BitVec 16)
  /-- RD_CUR (R99): A MemRd SnpCur or No-Op from a host returns the current value and grants no state, by Table 3.8. -/
  | rdCur (h : HostId) (addr : Word) (tag : BitVec 16)
  /-- INV_OWN (R100): A MemInv SnpInv from a host invalidates other copies and grants E without data. -/
  | invOwn (h : HostId) (addr : Word) (tag : BitVec 16)
  /-- INV_FLUSH (R100): Any other MemInv from a host writes back and drops every other host copy, with Cmp. -/
  | invFlush (h : HostId) (addr : Word) (tag : BitVec 16)
  /-- WR_FULL (R101): A MemWr from a host writes a whole line, invalidating other copies, by Table 3.10. -/
  | wrFull (h : HostId) (addr : Word) (tag : BitVec 16) (data : LineData) (poison shared : Bool)
  /-- WR_PTL (R101): A MemWrPtl from a host merges its enabled bytes into the line, with the special cases of R53. -/
  | wrPtl (h : HostId) (addr : Word) (tag : BitVec 16) (data : LineData) (be : ByteMask) (poison shared : Bool)
  /-- CLN_EVCT (R102): A MemClnEvct from a host updates only on-chip state and is answered with Cmp. -/
  | clnEvct (h : HostId) (addr : Word) (tag : BitVec 16)
  /-- SPEC (R56): A MemSpecRd may fill the line clean from media; it sends no snoop and no response. -/
  | spec (h : HostId) (addr : Word)
  /-- UNSUPPORTED_REQUEST (R55): An unsupported M2S request is answered with Cmp without touching any array, and PROTO_ERR is set. -/
  | unsupportedRequest (h : HostId) (rwd : Bool) (opcode : BitVec 4) (addr : Word) (tag : BitVec 16)
  /-- BIRSP (R87): A back-invalidate snoop response is matched by BITag and combined into the state being formed. -/
  | birsp (h : HostId) (bitag : BitVec 8) (rsp : SnoopRsp) (blk : Bool) (addr : Word)
  /-- BICONFLICT (R232): A BIConflict from a host is answered at once with BIConflictAck, changing no state. -/
  | biconflict (h : HostId) (addr : Word)
  /-- BI_WARN_EXPIRY (R67): A snoop outstanding for WARN_US sets BI_WARN and raises a BI-warning notice. -/
  | biWarnExpiry (h : HostId) (bitag : BitVec 8)
  /-- BI_FENCE_EXPIRY (R68): A snoop outstanding for FENCE_MS husks the port and the host departs. -/
  | biFenceExpiry (h : HostId) (bitag : BitVec 8)
  /-- SNOOP_REOFFER (R61): A snoop held for a full snoop table is offered again when an entry frees. -/
  | snoopReoffer (h : HostId)
  /-- LINK_UP (R492): The controller reports a port's link up, updating HP_STATUS.LINK. -/
  | linkUp (h : HostId)
  /-- LINK_DOWN (R71): The controller reports a port's link down, which departs its host. -/
  | linkDown (h : HostId)
  /-- HOT_RESET (R71): The controller reports a hot reset of a port, which departs its host. -/
  | hotReset (h : HostId)
  /-- BI_ENABLE_CHANGE (R71): The host's BI decoder enable changes; a change from 1 to 0 is a departure. -/
  | biEnableChange (h : HostId) (en : Bool)
  /-- WIDTH_REPORT (R492): The controller reports a port's link width; a host-initiated increase triggers DORMANT exit. -/
  | widthReport (h : HostId) (w : LinkWidth) (hostInitiated : Bool)
  /-- L0P_REFUSED (R79): A host refuses the L0p request, setting HP_STATUS.L0P_REFUSED. -/
  | l0pRefused (h : HostId)
  /-- GPF_PHASE1 (R78): GPF Phase 1 on a port requires no action of Cesal. -/
  | gpfPhase1 (h : HostId)
  /-- GPF_PHASE2 (R285): GPF Phase 2 on a port enters DRAIN where GPF_DRAIN is 1, or awaits the port's writes otherwise. -/
  | gpfPhase2 (h : HostId)
  /-- GPF_PHASE2_ACK (R78): Phase 2 is acknowledged once every tracker-holding write from the port has completed. -/
  | gpfPhase2Ack (h : HostId)
  /-- HP_HUSK_WRITE (R71): Firmware writes HP_CTRL.HUSK = 1, departing the host. -/
  | hpHuskWrite (h : HostId)
  /-- HP_ENABLE_CLEAR (R71): Firmware writes HP_CTRL.ENABLE = 0 on an unhusked port, departing the host. -/
  | hpEnableClear (h : HostId)
  /-- HUSK_CLEAR (R74): Firmware writes HP_CTRL.HUSK = 0, accepted only after sweep end and a link reset with the link up. -/
  | huskClear (h : HostId)
  /-- FORGET_HOST_WALK_STEP (R137): A forget-host walk processes one filter set for the departed hosts it includes. -/
  | forgetHostWalkStep (p : PhysSlice)
  /-- URGENT_PASS_LINE_VISIT (R140): An urgent directed pass reads one line's metadata and resolves entries naming the listed host. -/
  | urgentPassLineVisit (p : PhysSlice)
  /-- TRACKER_FREE (R222): A tracker whose completion conditions are all met frees its line. -/
  | trackerFree (p : PhysSlice) (trk : Nat)
  /-- FILTER_WAY_RETRY (R114): A request waiting for an eligible filter way retries its allocation. -/
  | filterWayRetry (p : PhysSlice) (trk : Nat)
  /-- HC_WAY_RETRY (R154): A request waiting for a replaceable home-cache way retries its Dirty allocation. -/
  | hcWayRetry (p : PhysSlice) (trk : Nat)
  /-- BUDGET_WAIT_PROCEED (R160): A request waiting for the dirty budget proceeds when the slice's dirty count falls below quota. -/
  | budgetWaitProceed (p : PhysSlice)
  /-- REQUEST_AGED (R228): A waiting request that has waited AGE_US becomes aged. -/
  | requestAged (p : PhysSlice) (req : Nat)
  /-- SPILL_MAP_SET (R125): A segment holder receives a set message, sets the chunk's bit and acknowledges. -/
  | spillMapSet (msg : Nat)
  /-- SPILL_MAP_SET_ACK (R125): The acknowledgement of a spill map set reaches the home, releasing the waiting tracker or way. -/
  | spillMapSetAck (msg : Nat)
  /-- SPILL_MAP_QUERY (R126): A segment holder answers a home's query for a chunk's spill map bit. -/
  | spillMapQuery (msg : Nat)
  /-- SPILL_TOKEN_TICK (R119): At each us tick the spill limiter gains SPILL_RATE tokens up to SPILL_BURST. -/
  | spillTokenTick
  /-- IA_RD (R103): An internal agent read of bytes within one line is served by Table 3.12a. -/
  | iaRd (stream : BitVec 6) (addr : Word) (len : Nat)
  /-- IA_WR (R103): An internal agent write of enabled bytes within one line is served by Table 3.12a. -/
  | iaWr (stream : BitVec 6) (addr : Word) (data : LineData) (be : ByteMask)
  /-- ACQUIRE_LOAD (R265): A control core acquire load holds later accesses until its data returns. -/
  | acquireLoad (k : LogicalCore) (addr : Word) (size : Nat)
  /-- RELEASE_STORE (R265): A control core release store issues only after earlier accesses complete. -/
  | releaseStore (k : LogicalCore) (addr : Word) (size : Nat) (data : Native)
  /-- RESERVED_LOAD (R273): A reserved load snoops owners of the granule's lines and records a reservation. -/
  | reservedLoad (k : LogicalCore) (addr : Word) (size : Nat) (acq : Bool)
  /-- CONDITIONAL_STORE (R275): A conditional store writes only if the core's reservation names its granule. -/
  | conditionalStore (k : LogicalCore) (addr : Word) (size : Nat) (data : Native) (rel : Bool)
  /-- COMPLETION_BARRIER (R276): A completion barrier completes when every earlier load and store of the core has completed. -/
  | completionBarrier (k : LogicalCore)
  /-- FABRIC_TIMEOUT (R277): A store to a unit that does not answer is answered with an error after 10 us. -/
  | fabricTimeout (k : LogicalCore) (addr : Word)
  /-- MEDIA_READ_REQUEST (R195): A demand read is placed in its channel's dispatch queue and stamped with a deadline. -/
  | mediaReadRequest (op : Nat)
  /-- MEDIA_LINE_WRITE (R191): A line write reaches the coalescer and is held or released as a batch. -/
  | mediaLineWrite (op : Nat)
  /-- METADATA_ONLY_WRITE (R187): A metadata-only write forms its own batch as a read-modify-write of line and parity metadata. -/
  | metadataOnlyWrite (op : Nat)
  /-- COALESCE_WINDOW_EXPIRY (R191): The oldest held write of a stripe reaches the window and the stripe's writes are released as a
  batch. -/
  | coalesceWindowExpiry (g : Group) (stripe : Nat)
  /-- DISPATCH_PLACE_FREE (R510): An operation waiting at a media stop enters its dispatch queue as a place frees. -/
  | dispatchPlaceFree (c : Channel)
  /-- MEDIA_READ_STATUS (R193): A channel answers a read with a status, acted on by Table 6.4. -/
  | mediaReadStatus (op : Nat) (st : ReadStatus)
  /-- BUSY_MIGRATING_REISSUE (R193): A read answered busy-migrating is reissued to the channel 250 ns later. -/
  | busyMigratingReissue (op : Nat)
  /-- HEDGE_DEADLINE (R195): A demand read passes its deadline and is hedged by reads of the other eight channels. -/
  | hedgeDeadline (op : Nat)
  /-- MEDIA_WRITE_STATUS (R189): A channel answers a write of a batch; the batch closes when all its writes are acknowledged. -/
  | mediaWriteStatus (op : Nat) (ok : Bool)
  /-- WRITE_RETRY (R508): A failed batch write is reissued raw 250 ns later, husking the channel after the third repeat. -/
  | writeRetry (op : Nat)
  /-- HEDGE_TRAINING (R198): At each whole second, bands with enough samples are retrained and histograms cleared. -/
  | hedgeTraining
  /-- CHANNEL_LIGHT_SLEEP (R290): In DORMANT a woken channel returns to light sleep after 200 us without an operation. -/
  | channelLightSleep (c : Channel)
  /-- MINOR_COUNTER_EXHAUSTED (R207): The cipher refuses a sealed write, which is held and its page queued for re-key. -/
  | minorCounterExhausted (op : Nat)
  /-- REKEY_STEP (R208): The re-key sequencer re-keys one line of a page under a service tracker. -/
  | rekeyStep
  /-- MAC_FAILURE (R209): A sealed read failing its MAC is reconstructed once and repaired or poisoned. -/
  | macFailure (op : Nat)
  /-- COUNTER_UNREADABLE (R210): The cipher reports an unreadable counter or tree node and its range is entered as integrity-unknown. -/
  | counterUnreadable (base limit : Word)
  /-- CHANNEL_RETIRE (R202): A write of MF_CTRL.RETIRE husks a channel and degrades its group. -/
  | channelRetire (c : Channel)
  /-- MF_GROUP_MAP_WRITE (R214): A write to MF_GROUP_MAP, outside SPROUT a spare into the lost slot, starting a rebuild. -/
  | mfGroupMapWrite (g : Group) (v : Word)
  /-- REBUILD_RESUME (R218): A write of MF_REBUILD_STATUS.ACTIVE in SPROUT resumes a rebuild on entry to SERVE. -/
  | rebuildResume (v : Word)
  /-- APERTURE_READ (R205): A data engine read of the rebuild aperture returns a line rebuilt from the other eight slots. -/
  | apertureRead (addr : Word) (len : Nat) (c : DmaChannel)
  /-- APERTURE_WRITE (R205): A data engine write at index LINE writes the spare and advances LINE on acknowledgement. -/
  | apertureWrite (addr : Word) (len : Nat) (c : DmaChannel) (data : LineData) (md : LineMeta)
  /-- RESYNC_START (R213): A write of MF_CTRL.RESYNC in SPROUT arms the parity resync for entry to SERVE. -/
  | resyncStart
  /-- RESYNC_STRIPE_CHECK (R206): The resync reads one stripe and rewrites its parity if it does not match. -/
  | resyncStripeCheck
  /-- MF_HEDGE_TABLE_LATCH (R217): A write with LATCH loads the deadline, trained flag and hedge count of a channel and band. -/
  | mfHedgeTableLatch (v : Word)
  /-- MEDIA_DATA_RETURN (R104): Media read data and directory reach the slice, which sources and places the data. -/
  | mediaDataReturn (op : Nat)
  /-- MEDIA_WRITE_ACK (R163): Media acknowledges a clean, eviction, write-through or metadata write to its slice. -/
  | mediaWriteAck (op : Nat)
  /-- CLEANER_STEP (R162): An active cleaner visits one set and issues clean writes for eligible Dirty lines. -/
  | cleanerStep (p : PhysSlice)
  /-- DIRTY_BUDGET_WRITE (R159): A write of GLB_DIRTY_BUDGET sets the dirty budget, ignored above 128. -/
  | dirtyBudgetWrite (v : Word)
  /-- PERSIST_MODE_WRITE (R167): A write of GLB_PERSIST_CTRL.WT selects write-back or write-through. -/
  | persistModeWrite (v : Word)
  /-- RANGE_CLEAN (R174): HC_RANGE_OP START with OP CLEAN begins writing back Dirty lines of the range. -/
  | rangeClean (force discard : Bool)
  /-- RANGE_INVALIDATE (R174): HC_RANGE_OP START with OP INVALIDATE begins dropping lines of the range. -/
  | rangeInvalidate (force discard : Bool)
  /-- RANGE_CLEAN_INVALIDATE (R174): HC_RANGE_OP START with OP CLEAN_INVALIDATE acts as INVALIDATE without flags. -/
  | rangeCleanInvalidate (force discard : Bool)
  /-- RANGE_LOCK (R175): HC_RANGE_OP START with OP LOCK fills and locks lines of the range in ways 0 to 3. -/
  | rangeLock (force discard : Bool)
  /-- RANGE_UNLOCK (R174): HC_RANGE_OP START with OP UNLOCK unlocks locked lines of the range. -/
  | rangeUnlock (force discard : Bool)
  /-- RANGE_AGENT_LINE (R174): A range agent acts on one line of the range under a tracker. -/
  | rangeAgentLine (p : PhysSlice)
  /-- PFW_N_ASSERT (R501): Four low samples of PFW_N recognise a power-fail warning, entering DRAIN or HOLD. -/
  | pfwNAssert
  /-- DRAIN_HOST_PHASE_END (R283): Every HP's Phase 2 is acknowledged or T_host passes, and firmware requests HOLD. -/
  | drainHostPhaseEnd
  /-- DRAIN_SNOOP_TIMEOUT (R284): A snoop outstanding 20 us after step 3 begins is resolved as at departure. -/
  | drainSnoopTimeout (h : HostId) (bitag : BitVec 8)
  /-- CIPHER_FLUSH_DONE (R283): The cipher unit reports its counter flush done and firmware writes the closing record. -/
  | cipherFlushDone
  /-- RECORD_CLOSE_ACK (R283): The configuration store acknowledges the CLOSE entry and Cesal enters HOLD. -/
  | recordCloseAck
  /-- AUTOMATIC_RESTART (R296): PFW_N deasserted for 10 ms after a PFW_N drain restarts Cesal into SPROUT. -/
  | automaticRestart
  /-- BLOCK_RESET_ASSERT (R296): Block reset assertion stops Cesal unordered and enters HOLD. -/
  | blockResetAssert
  /-- BLOCK_RESET_RELEASE (R500): Block reset release begins SPROUT on the second 25 MHz edge. -/
  | blockResetRelease (railsReady : Bool)
  /-- MODE_REQ_SERVE (R293): GLB_MODE_REQ with TARGET 2 and GO requests SERVE, checked by Table 9.5. -/
  | modeReqServe
  /-- MODE_REQ_DORMANT (R300): GLB_MODE_REQ with TARGET 3 and GO requests entry to DORMANT. -/
  | modeReqDormant
  /-- MODE_REQ_REPAIR (R304): GLB_MODE_REQ with TARGET 5 and GO enters REPAIR. -/
  | modeReqRepair
  /-- MODE_REQ_HOLD (R283): GLB_MODE_REQ with TARGET 0 in DRAIN runs steps 3 to 5 of the DRAIN sequence. -/
  | modeReqHold
  /-- DORMANT_IDLE_DWELL (R300): The request count stays below ENTRY_RATE for ENTRY_MS intervals and entry to DORMANT begins. -/
  | dormantIdleDwell
  /-- DORMANT_ENTRY_STEP_END (R300): A step of DORMANT entry ends and the next begins. -/
  | dormantEntryStepEnd
  /-- DORMANT_ENTRY_TIMEOUT (R300): Entry step 1 has run 1 ms and the entry aborts. -/
  | dormantEntryTimeout
  /-- DORMANT_EXIT_COUNT (R301): Requests in 10 us reach EXIT_COUNT and exit from DORMANT begins. -/
  | dormantExitCount
  /-- DORMANT_EXIT_STEP_END (R302): A step of DORMANT exit ends; at the last MODE reads 2. -/
  | dormantExitStepEnd
  /-- CONTROL_COMPLEX_LOSS (R304): Loss of a control core with no spare enters REPAIR. -/
  | controlComplexLoss
  /-- REPAIR_CAUSE_RELEASE (R304): A REPAIR cause held within 1 ms of the last exit is acted on when that time passes. -/
  | repairCauseRelease
  /-- REPAIR_TIMEOUT (R305): 5 ms after entry REPAIR ends, intake resumes and a severe event is raised. -/
  | repairTimeout
  /-- RESET_INVALIDATION_DONE (R298): The SPROUT reset invalidation of every slice ends. -/
  | resetInvalidationDone
  /-- ACORN_ROM_SEQUENCE (R383): The Acorn ROM advances through its boot steps on the boot core. -/
  | acornRomSequence (r : AcornInput)
  /-- RING_ENUMERATION (R392): The ring controller passes a token round the stops, collecting slice IDs and health. -/
  | ringEnumeration (answers : List Nat)
  /-- MEASURED_LOAD_BLOCK (R385): A firmware block is drained from the boot intake queue, checked and hashed into the bank. -/
  | measuredLoadBlock (readOk : Bool)
  /-- OPP_TARGET_WRITE (R307): A write of SL_DVFS.OPP_TARGET starts a rail ramp and clock switch. -/
  | oppTargetWrite (p : PhysSlice) (opp : BitVec 3)
  /-- REGULATOR_SETTLED (R498): A slice regulator reports settled and the slice switches its clock. -/
  | regulatorSettled (p : PhysSlice)
  /-- REGULATOR_TIMEOUT (R498): A regulator not settled 5 us after the ramp should end raises an event. -/
  | regulatorTimeout (p : PhysSlice)
  /-- THERMAL_READING (R309): Each ms the power manager reads temperature and moves the thermal ceiling. -/
  | thermalReading (tj : BitVec 8)
  /-- CLOCK_MONITOR_CHECK (R496): Each ms each island clock is compared with the 25 MHz reference. -/
  | clockMonitorCheck (outOfTolerance : List Nat)
  /-- MINOR_EVENT (R345): A corrected event on a source's minor pair is totalled and counted. -/
  | minorEvent (src : SourceId) (info : BitVec 40)
  /-- MAJOR_EVENT (R348): An uncorrectable event on a major pair is counted and opens or merges a severe record. -/
  | majorEvent (src : SourceId) (info : BitVec 40)
  /-- FATAL_DECLARATION (R342): A source holds its major pair at error for 16 cycles, recording a fatal event. -/
  | fatalDeclaration (src : SourceId) (info : BitVec 40)
  /-- WIRING_FAULT (R343): A pair held at an invalid level for 4 cycles records a wiring event and escalates the source. -/
  | wiringFault (src : SourceId) (onMajor : Bool)
  /-- WINDOW_RESTART (R346): A window counter restarts at its timestamp tick. -/
  | windowRestart (src : SourceId) (counterB : Bool)
  /-- HANDLING_CLOSE (R350): Firmware writes FLT_HANDLING.HANDLING to close the open record. -/
  | handlingClose
  /-- PERM_CLEAR (R347): Firmware writes 1 to FLT_SRC_COUNT.PERM, letting the counters count afresh. -/
  | permClear (src : SourceId)
  /-- WATCHDOG_FEED (R353): A write of FLT_WD_FEED.FEED reloads the watchdog, the first after SPROUT starting PIP. -/
  | watchdogFeed
  /-- WATCHDOG_EXPIRY (R353): The watchdog reaches 0 and records a fatal event. -/
  | watchdogExpiry
  /-- PIP_TOGGLE (R352): PIP changes level each PERIOD x 100 us while running. -/
  | pipToggle
  /-- HC_MOVE (R363): A write of SL_CTRL.HC_MOVE moves a home-cache way into the spare way. -/
  | hcMove (p : PhysSlice) (way : Fin 16)
  /-- SF_MOVE (R363): A write of SL_CTRL.SF_MOVE moves a filter way into the spare way. -/
  | sfMove (p : PhysSlice) (way : Fin 16)
  /-- MOVE_SET_STEP (R363): A way move copies one set into way 16 and advances MOVE_SET. -/
  | moveSetStep (p : PhysSlice)
  /-- SF_DRAIN (R366): A write of SL_CTRL.SF_DRAIN starts the filter drain of a slice retirement. -/
  | sfDrain (p : PhysSlice)
  /-- SF_DRAIN_STEP (R366): The filter drain visits a set and spills its valid entries. -/
  | sfDrainStep (p : PhysSlice)
  /-- SLICE_HUSK_WRITE (R364): A write of SL_CTRL.HUSK husks a slice, clearing its logical VALID. -/
  | sliceHuskWrite (p : PhysSlice)
  /-- SLICE_RETIREMENT (R366): Firmware retires a physical slice and cuts its logical slice over to a spare. -/
  | sliceRetirement (p : PhysSlice)
  /-- WAY_RETIREMENT (R362): Firmware chooses way or slice retirement on a slice's permanent escalation. -/
  | wayRetirement (p : PhysSlice)
  /-- CHANNEL_RETIREMENT (R369): Firmware retires a channel, brings in a spare and runs the rebuild. -/
  | channelRetirement (c : Channel)
  /-- CONTROL_CORE_RETIREMENT (R371): Firmware halts a failing core and starts the spare under its logical number. -/
  | controlCoreRetirement (c : CoreId)
  /-- WORD_REMAP (R372): Firmware installs a failing macro word into a spare on a confirmed finding. -/
  | wordRemap (u : RemapUnit) (macroId : BitVec 10) (word : BitVec 11) (cause : RemapCause)
  /-- REMAP_READ_ENTRY (R338): SL_REMAP or GLB_REMAP OP 01 reads a remap entry into WORD and STATE. -/
  | remapReadEntry (u : RemapUnit) (macroId : BitVec 10) (entry : Fin 8)
  /-- INSTALL_WITH_COPY (R336): OP 10 starts copying a macro word into a spare while the array serves. -/
  | installWithCopy (u : RemapUnit) (macroId : BitVec 10) (entry : Fin 8) (word : BitVec 11)
  /-- REMAP_COPY_EXECUTE (R336): The copy engine reads the word and writes the spare in two port-free cycles, activating the entry. -/
  | remapCopyExecute (u : RemapUnit)
  /-- INSTALL_ZEROED (R337): OP 11 in SPROUT activates a spare written as zeros. -/
  | installZeroed (u : RemapUnit) (macroId : BitVec 10) (entry : Fin 8) (word : BitVec 11)
  /-- ECC_TEST_UNLOCK_KEY (R340): A write of SL_ECC_TEST_UNLOCK.KEY advances or clears the unlock sequence. -/
  | eccTestUnlockKey (p : PhysSlice) (key : BitVec 16)
  /-- ECC_UNLOCK_EXPIRY (R340): UNLOCKED clears 1 ms after it was set. -/
  | eccUnlockExpiry (p : PhysSlice)
  /-- ECC_TEST_ARM (R341): A write setting SL_ECC_TEST.ARM arms an injection while unlocked. -/
  | eccTestArm (p : PhysSlice) (v : Word)
  /-- SCRUB_START_PASS (R330): A write of SCRUB_START.START clears summaries and begins a scrub pass. -/
  | scrubStartPass (v : Word)
  /-- SCRUB_STOP (R329): A write of SCRUB_START.STOP ends the running pass as aborted. -/
  | scrubStop
  /-- SCRUB_VISIT (R326): A scrub part reads one on-chip location at its pace and acts on findings. -/
  | scrubVisit (part : ScrubPart) (a : ScrubArray) (index : Nat) (found : Found)
  /-- SCRUB_MEDIA_STRIPE_VISIT (R328): The media part reads one stripe raw and repairs parity or lines. -/
  | scrubMediaStripeVisit (found : List Found)
  /-- SCRUB_REVISIT (R252): A deferred finding is reread under a background tracker once the location is free. -/
  | scrubRevisit (p : PhysSlice) (found : Found)
  /-- PATROL_PERIOD (R334): At each SCRUB_PERIOD_S firmware starts a patrol scrub pass. -/
  | patrolPeriod
  /-- SWEEPER_CHUNK_VISIT (R511): Every active slice begins its visit of a chunk's lines at the chunk's share. -/
  | sweeperChunkVisit
  /-- SWEEPER_LINE (R132): The sweeper acts on one line's directory entry by Table 4.7. -/
  | sweeperLine (p : PhysSlice)
  /-- SWEEPER_CHUNK_VISIT_END (R133): A chunk visit ends and the holder clears its spill map bit if clean. -/
  | sweeperChunkVisitEnd
  /-- PROGRESS_COMMIT (R135): Every 10 minutes of SERVE firmware commits sweeper or rebuild progress. -/
  | progressCommit
  /-- REGION_PORT_READ (R37): GLB_REGION_PORT OP 01 reads a region entry into ENTRY. -/
  | regionPortRead (index : BitVec 14)
  /-- REGION_PORT_WRITE (R39): GLB_REGION_PORT OP 10 writes a checked entry to all region table copies. -/
  | regionPortWrite (index : BitVec 14) (entry : BitVec 32)
  /-- SLICE_MAP_WRITE (R31): A write of GLB_SLICE_MAP0 or 1, checked by R31, sets PS fields and HOLD bits. -/
  | sliceMapWrite (high : Bool) (v : Word)
  /-- HASH_CTRL_WRITE (R32): A write of GLB_HASH_CTRL sets MODE or LOCK. -/
  | hashCtrlWrite (v : Word)
  /-- SL_LOGICAL_ID_WRITE (R393): A write of SL_LOGICAL_ID assigns a slice's logical number. -/
  | slLogicalIdWrite (p : PhysSlice) (v : Word)
  /-- BOOT_CORE_MAP_WRITE (R375): A write of BOOT_CORE_MAP rebinds logical cores, ignored if invalid. -/
  | bootCoreMapWrite (v : Word)
  /-- PQ_DATA_READ (R415): A load of PQ_DATA pops one item, swapping banks when the drain bank is empty. -/
  | pqDataRead (q : QueueId) (size : PqAccess)
  /-- PQ_FILL_WRITE (R414): A write of PQ_FILL appends bytes to the capture queue or rewinds its packet. -/
  | pqFillWrite (v : Word)
  /-- PQ_RESET (R411): A write of PQ_CTRL.RESET empties the queue without a fault event. -/
  | pqReset (q : QueueId)
  /-- POINTER_MISMATCH_RESET (R405): A pointer copy mismatch resets the queue and reports a major event. -/
  | pointerMismatchReset (q : QueueId)
  /-- CROSSING_REPLAY (R406): After a reset the crossing sender replays unread items from its retry buffer. -/
  | crossingReplay (q : QueueId)
  /-- MAILBOX_DOORBELL (R423): The submitter sets a mailbox doorbell, raising a DOORBELL notice. -/
  | mailboxDoorbell (mb : Mailbox) (opcode : BitVec 16) (input : List Byte)
  /-- P_COMPLETE (R423): Firmware writes MBX_CTRL.P_COMPLETE, clearing the primary doorbell. -/
  | pComplete
  /-- S_COMPLETE (R423): Firmware writes MBX_CTRL.S_COMPLETE, clearing the secondary doorbell. -/
  | sComplete
  /-- P_BG_DONE (R424): Firmware writes P_BG_DONE, raising the primary background completion interrupt. -/
  | pBgDone
  /-- S_BG_DONE (R424): Firmware writes S_BG_DONE, raising the secondary background completion interrupt. -/
  | sBgDone
  /-- GET_HOME_STATUS (R429): Command 0xC100 returns a snapshot of home status registers. -/
  | getHomeStatus (mb : Mailbox)
  /-- SET_DIRTY_BUDGET (R168): Command 0xC101 sets the dirty budget, in the background when lowering. -/
  | setDirtyBudget (mb : Mailbox)
  /-- SET_PERSISTENCE_MODE (R169): Command 0xC102 selects write-back or write-through. -/
  | setPersistenceMode (mb : Mailbox)
  /-- REQUEST_MODE (R295): Command 0xC103 requests SERVE, DORMANT or ordered shutdown. -/
  | requestMode (mb : Mailbox)
  /-- START_RANGE_OPERATION (R179): Command 0xC110 starts a range maintenance operation. -/
  | startRangeOperation (mb : Mailbox)
  /-- GET_RANGE_SUMMARY (R179): Command 0xC111 returns the range summaries and status. -/
  | getRangeSummary (mb : Mailbox)
  /-- START_SCRUB_PASS (R333): Command 0xC120 starts a scrub pass. -/
  | startScrubPass (mb : Mailbox)
  /-- GET_SCRUB_SUMMARY (R333): Command 0xC121 returns the scrub summaries and status. -/
  | getScrubSummary (mb : Mailbox)
  /-- GET_FAULT_HISTORY (R373): Command 0xC130 returns the fault history records. -/
  | getFaultHistory (mb : Mailbox)
  /-- SET_FAULT_POLICY (R373): Command 0xC131 writes a source's fault policy and its owner record. -/
  | setFaultPolicy (mb : Mailbox)
  /-- GET_SPARE_INVENTORY (R373): Command 0xC140 returns the spares remaining. -/
  | getSpareInventory (mb : Mailbox)
  /-- RETIRE_UNIT (R373): Command 0xC141 runs the retirement procedure for a named unit. -/
  | retireUnit (mb : Mailbox)
  /-- SET_OWNER_LOSS_POLICY (R145): Command 0xC150 rewrites a region's OLOSS field. -/
  | setOwnerLossPolicy (mb : Mailbox)
  /-- GET_OWNER_LOSS_LIST (R144): Command 0xC151 returns owner-loss list entries, optionally consuming them. -/
  | getOwnerLossList (mb : Mailbox)
  /-- SET_HEDGE_POLICY (R219): Command 0xC160 writes MF_HEDGE_CTRL and optionally resets training. -/
  | setHedgePolicy (mb : Mailbox)
  /-- READ_COUNTER_SNAPSHOT (R469): Command 0xC170 optionally takes a snapshot and returns snapshot counters. -/
  | readCounterSnapshot (mb : Mailbox)
  /-- CONFIGURE_SAMPLING (R469): Command 0xC171 writes the sampling seed and control registers. -/
  | configureSampling (mb : Mailbox)
  /-- READ_SAMPLE_BUFFER (R469): Command 0xC172 returns and removes sample records. -/
  | readSampleBuffer (mb : Mailbox)
  /-- GET_OWNER_SETTING (R380): Command 0xC180 returns a key's value in force and its factory value. -/
  | getOwnerSetting (mb : Mailbox)
  /-- SET_OWNER_SETTING (R380): Command 0xC181 writes a new owner copy with the changed setting. -/
  | setOwnerSetting (mb : Mailbox)
  /-- RESEAL_REGION (R211): Command 0xC190 rebuilds a region's tree nodes and clears its integrity-unknown ranges. -/
  | resealRegion (mb : Mailbox)
  /-- SET_REGION_ENTRY (R40): Command 0xC1A0 changes a region entry with host recall where needed. -/
  | setRegionEntry (mb : Mailbox)
  /-- GET_REGION_ENTRY (R430): Command 0xC1A1 returns a region entry in force and its owner record. -/
  | getRegionEntry (mb : Mailbox)
  /-- GET_FW_INFO (R395): The CXL Get FW Info command reports the firmware slots. -/
  | getFwInfo (mb : Mailbox)
  /-- TRANSFER_FW (R395): The CXL Transfer FW command writes the slot not in force. -/
  | transferFw (mb : Mailbox) (slot : BitVec 2) (image : FwImage)
  /-- ACTIVATE_FW_OFFLINE (R395): Activate FW offline appends an ACTIVE_SLOT entry for the next SPROUT. -/
  | activateFwOffline (mb : Mailbox) (slot : BitVec 2)
  /-- ACTIVATE_FW_ONLINE (R396): Activate FW online loads the standby bank and switches to it live. -/
  | activateFwOnline (mb : Mailbox) (slot : BitVec 2)
  /-- GET_EVENT_RECORDS (R427): The CXL Get Event Records command returns records from a device event log. -/
  | getEventRecords (mb : Mailbox) (log : Fin 4)
  /-- CLEAR_EVENT_RECORDS (R427): The CXL Clear Event Records command clears records from a device event log. -/
  | clearEventRecords (mb : Mailbox) (log : Fin 4) (count : Nat)
  /-- SPDM_GET_VERSION (R387): An SPDM GET_VERSION request is answered by the responder. -/
  | spdmGetVersion (via : SpdmBus)
  /-- SPDM_GET_CAPABILITIES (R387): An SPDM GET_CAPABILITIES request is answered. -/
  | spdmGetCapabilities (via : SpdmBus)
  /-- SPDM_NEGOTIATE_ALGORITHMS (R387): An SPDM NEGOTIATE_ALGORITHMS request is answered with P-384 and SHA-384. -/
  | spdmNegotiateAlgorithms (via : SpdmBus)
  /-- SPDM_GET_DIGESTS (R387): An SPDM GET_DIGESTS request is answered. -/
  | spdmGetDigests (via : SpdmBus)
  /-- SPDM_GET_CERTIFICATE (R387): An SPDM GET_CERTIFICATE request returns the slot 0 chain. -/
  | spdmGetCertificate (via : SpdmBus) (slot : BitVec 8) (offset len : Nat)
  /-- SPDM_CHALLENGE (R387): An SPDM CHALLENGE request is answered with a signature by the identity key. -/
  | spdmChallenge (via : SpdmBus) (slot : BitVec 8) (nonce : BitVec 256)
  /-- SPDM_GET_MEASUREMENTS (R387): An SPDM GET_MEASUREMENTS request returns the measurement blocks. -/
  | spdmGetMeasurements (via : SpdmBus) (index : BitVec 8) (signed : Bool) (nonce : BitVec 256)
  /-- BOOT_LOAD (R396): A write of BOOT_ACT.LOAD starts a measured load of a slot into the standby bank. -/
  | bootLoad (slot : BitVec 2)
  /-- BOOT_SWITCH (R396): A write of BOOT_ACT.SWITCH switches banks and restarts every core in trial. -/
  | bootSwitch
  /-- BOOT_CONFIRM (R396): A write of BOOT_ACT.CONFIRM ends the trial and keeps the new image. -/
  | bootConfirm
  /-- TRIAL_EXPIRY (R397): No CONFIRM within TRIAL_MS rolls the control complex back to the old image. -/
  | trialExpiry
  /-- CONFIG_PROGRAM_ACK (R495): The configuration store acknowledges a 64-byte program. -/
  | configProgramAck
  /-- DMA_GO (R444): A write of DC_CTRL.GO makes an idle or halted channel ready. -/
  | dmaGo (c : DmaChannel)
  /-- DMA_PAUSE (R446): Setting DC_CTRL.PAUSE stops a data channel without loss. -/
  | dmaPause (c : DmaChannel)
  /-- DMA_RESUME (R446): Clearing DC_CTRL.PAUSE makes a paused data channel ready again. -/
  | dmaResume (c : DmaChannel)
  /-- DMA_DISABLE (R447): Setting DC_CTRL.DISABLE drops a utility channel's work. -/
  | dmaDisable (c : DmaChannel)
  /-- DMA_DRAIN_DONE (R447): A draining utility channel's last response returns and it becomes idle. -/
  | dmaDrainDone (c : DmaChannel)
  /-- DMA_CHANNEL_START (R433): When the running list ends, halts or pauses, the engine starts the next ready channel. -/
  | dmaChannelStart (engine : Fin 2)
  /-- DESCRIPTOR_FETCH (R438): A fetched descriptor is checked and its streams range-checked before data access. -/
  | descriptorFetch (c : DmaChannel) (bytes : BitVec 1024)
  /-- DMA_READ_RESPONSE (R448): A DMA read response returns data or poison, halting the channel on poison. -/
  | dmaReadResponse (c : DmaChannel) (data : LineData) (poison : Bool)
  /-- DESCRIPTOR_COMPLETE (R445): Every write of a descriptor is acknowledged; the engine moves on or completes the list. -/
  | descriptorComplete (c : DmaChannel)
  /-- DMA_BUS_ERROR (R449): An error response halts every running or ready channel of the engine. -/
  | dmaBusError (c : DmaChannel) (addr : Word) (lastWrite : Bool)
  /-- PMU_SNAP (R459): A write of PMU_CTRL.SNAP copies every counter at one always-on edge. -/
  | pmuSnap
  /-- PEAK_CLR (R235): A write of SL_TOR_STATUS.PEAK_CLR resets TRK_PEAK. -/
  | peakClr (p : PhysSlice)
  /-- SAMPLE_CTRL_WRITE (R463): A write of PMU_SAMPLE_CTRL sets sampling, ignored if jitter exceeds N. -/
  | sampleCtrlWrite (v : Word)
  /-- SAMPLE_SEED_WRITE (R463): A write of PMU_SAMPLE_SEED reloads every slice's LFSR. -/
  | sampleSeedWrite (v : Word)
  /-- SAMPLE_CLEAR (R465): A write of PMU_SAMPLE_CTRL.CLEAR empties the sample buffer. -/
  | sampleClear
  /-- SAMPLE_DATA_READ (R468): A read of PMU_SAMPLE_DATA[3] returns word 3 and removes the record. -/
  | sampleDataRead
  /-- REGISTER_WRITE (R473): A register store to a field with no behaviour of its own is applied by the owning unit. -/
  | registerWrite (off : Nat) (v : Word)
  /-- HOST_CREDIT_ADVERTISED (R69): The controller's link layer reports that a host has advertised an S2M credit, releasing a held
  response or back-invalidate snoop for that class. -/
  | hostCreditAdvertised (h : HostId) (cls : S2mClass) (n : Nat)
  /-- POWER_LOSS (R280): Power to the controller is lost in any mode, losing every volatile structure while media keeps each line
  whole in its old or new stored form. -/
  | powerLoss
  /-- POWER_ON_RESET (R499): The always-on island leaves its own power-on reset once the AON rail is in tolerance and 64 reference
  cycles have passed, after which PFW_N is sampled and PIP is held at 0. -/
  | powerOnReset
  /-- PFW_N_DEASSERT (R501): PFW_N returns high, starting the 10 ms deasserted count of Table 9.6, which a single low sample restarts. -/
  | pfwNDeassert
  /-- STANDARD_MEMORY_DEVICE_COMMAND (R428): A standard CXL memory-device command needed for enumeration is answered on a mailbox with
  the values of Table 2.5. -/
  | standardMemoryDeviceCommand (mb : Mailbox) (opcode : BitVec 16)
  deriving DecidableEq, Repr

end Sys2Proof
end

