-- ==== Sys2Proof/Decode.lean ====
section
/-! DEFINITION. The commands that words spell. -/

namespace Sys2Proof

/-- Every row of spec/opcode_table.json has an empty list of encoding fields: a command is an event at one of Cesal's surfaces, not a
word that something fetches (00 R3, 17 R491). No word spells one. -/
def decodeTableWord (_nbits _w : Nat) : Option Instr := none

end Sys2Proof
end

