-- ==== Sys2Proof/Config.lean ====
section
/-! DEFINITION. What the spec leaves to the implementation or does not state: opaque constants, of which nothing can be
proved but that they are functions (assumption log 1). -/

namespace Sys2Proof.Config

/-- A value the spec leaves undefined, drawn at the counter `State.freeTick` (log 1). -/
opaque freeWord : Nat → BitVec 64
/-- A line of undefined bytes, drawn at the counter `State.freeTick` (log 1). -/
opaque freeLine : Nat → BitVec 512
/-- A free choice between two outcomes the spec allows (log 1). -/
opaque freeBool : Nat → Bool
/-- The AES-256 counter-mode keystream of a key slot, a line number, a major and a minor counter (06 R185; log 6). -/
opaque keystream : Nat → Nat → Nat → Nat → BitVec 512
/-- The MAC the cipher unit computes over a stored line under a key slot, line number and counters (06 R183; log 6). -/
opaque macRaw : Nat → Nat → Nat → Nat → BitVec 512 → BitVec 64
/-- Bytes 12 to 15 of a line's metadata, owned by the cipher unit (06 Table 6.2; log 6). -/
opaque cipherOwned : Nat → Nat → Nat → BitVec 32
/-- SHA-384 of a firmware image, layer or block, named by an identifying number (12 R385; log 7). -/
opaque sha384 : Nat → BitVec 384
/-- The device identity key's signature over a digest (12 R387; log 7). -/
opaque sign : BitVec 384 → BitVec 768
/-- The bytes of the certificate chain of slot 0, which the factory layer stores (12 R387; log 7). -/
opaque certChain : List (BitVec 8)
/-- A byte of the Acorn ROM (12 Table 12.1; log 7). -/
opaque romByte : Nat → BitVec 8
/-- A byte of the firmware image that a number names (12 R384; log 7). -/
opaque imageByte : Nat → Nat → BitVec 8
/-- The block power estimate of PWR_STATUS.POWER in units of 0.1 W at a time (09 R310; log 1). -/
opaque powerEstimate : Nat → BitVec 10
/-- The firmware build number (13 Table 13.15; log 8). -/
opaque buildNumber : BitVec 16
/-- The lines of a region whose own counters the cipher unit cannot read (06 R211; log 8). -/
opaque unreadableLines : Nat → List Nat

/-- The vendor identifier of Cesal's event records (13 R427; log 18). -/
opaque eventUuid : BitVec 128

end Sys2Proof.Config
end

