-- ==== Sys2Proof/Machine/State.lean ====
section
/-! DEFINITION. The state of Cesal as plain data, the reasons a step can stop, and the state after reset.

Registers are 64-bit words kept under their offset (16 R470); everything the registers do not hold has a field of its own.
A sparse table `Tbl` lists the entries that differ from a default, in rising order of key, so that equal tables are equal
data; `Tbl.look` and `Tbl.put` are in Machine/Ops.lean. -/

namespace Sys2Proof.Machine

/-- A sparse table: key and value pairs, keys strictly rising, no value equal to its key's default. -/
abbrev Tbl (α : Type) := List (Nat × α)

/-- Why the machine stops with a fault. -/
inductive Fault where
  /-- Raised by BLOCK_RESET_RELEASE when the rails were not in tolerance for 100 us: 17 R499 leaves the state undefined
  until the next HOLD. Safe: the model stops where the spec gives no state. -/
  | stateUndefined
  deriving DecidableEq, Repr

/-- Why a step is refused. -/
inductive Refusal where
  /-- A command whose meaning is not written yet, by its mnemonic. Safe. -/
  | notModelled (mnemonic : String)
  deriving DecidableEq, Repr

/-! ### Lines and coherence -/

/-- The home request classes (02 Table 2.6, 03 R103, 08 R273, R275) and the agents' own requests (07 Table 7.1). -/
inductive ReqClass where
  | rdShared | rdOwn | rdCur | invOwn | invFlush | wrFull | wrPtl | clnEvct | spec
  | iaRd | iaWr | resLoad | condStore | sweep | scrub | range | rekey | urgent
  deriving DecidableEq, Repr

/-- Who sent a request: a host, or IA with its ring stream (01 R23). -/
inductive Agent where
  | host (h : HostId) | ia (stream : Nat)
  deriving DecidableEq, Repr

/-- A request at its home. `line` is DPA[47:6]; `be` the bytes it reads or writes; `core` the logical core of a reserved
or conditional access; `inc` the incarnation of the host that sent it, 0 for IA (02 R72, R73). -/
structure Request where
  id : Nat
  cls : ReqClass
  agent : Agent
  line : Nat
  tag : BitVec 16
  data : LineData
  be : ByteMask
  poison : Bool
  shared : Bool
  core : Option LogicalCore
  born : Nat
  inc : BitVec 12
  deriving DecidableEq, Repr

/-- The tracking state of a line (03 Table 3.1); an owner-lost state carries the incarnation recorded (04 Table 4.10). -/
inductive Tracking where
  | i | s (v : HostSet) | e (g : HostId) | x (v : HostSet) | ol (g : HostId) (inc : BitVec 12)
  deriving DecidableEq, Repr

/-- The data state of a line (03 Table 3.2). -/
inductive DataState where
  | absent | evicting | clean | dirty
  deriving DecidableEq, Repr

/-- The three back-invalidate snoops (03 R87). -/
inductive SnoopKind where
  | inv | data | cur
  deriving DecidableEq, Repr

/-- How a snoop was answered: by the host, or resolved at the departure of a possible owner or of a sharer (02 R72). -/
inductive SnoopAnswer where
  | i | s | e | lost | dropped
  deriving DecidableEq, Repr

/-- One snoop of a tracker or of a victim; `owned` says that the host answered BIRspE as a possible owner (02 R72). -/
structure Snoop where
  host : HostId
  line : Nat
  kind : SnoopKind
  answer : Option SnoopAnswer
  owned : Bool
  deriving DecidableEq, Repr

/-- The tracker classes (07 Table 7.1). -/
inductive TrackerClass where
  | service | demand | background
  deriving DecidableEq, Repr

/-- What a tracker waits for next. `query`: the spill map bit. `dir`: the directory entry from media. `snoop`: answers.
`data`: the line's data from media. `budget`, `hcWay`: 05 R160, R154. `ack`: the state after to be recorded, or a media
acknowledgement before the response. `done`: response sent, or none. -/
inductive Phase where
  | query | dir | snoop | data | budget | hcWay | ack | done
  deriving DecidableEq, Repr

/-- A request tracker (07 R220 to R222). `entry` is the directory entry the state was taken from; `mediaRead` the number
of the media read outstanding; `metaBad` a metadata read without result; `asked` a spill map query sent; `budget` the
dirty budget granted; `buffer` the line buffer of 03 R106; `setAcks`, `poisonOps`, `writeOps` and `wtOp` what
07 R222 has to see ended; `region` the region entry in force when it was allocated (01 R38); `classed` that its request's first pass has
been counted in a slot (15 R460). -/
structure Tracker where
  id : Nat
  req : Request
  tcls : TrackerClass
  phase : Phase
  view : Tracking
  after : Tracking
  fromDir : Bool
  entry : Option DirEntry
  metaBad : Bool
  asked : Bool
  budget : Bool
  snoops : List Snoop
  mediaRead : Option Nat
  data : Option LineData
  poison : Bool
  buffer : Option LineData
  wtOp : Option Nat
  setAcks : Nat
  poisonOps : List Nat
  writeOps : List Nat
  victim : Option Nat
  recorded : Bool
  responded : Bool
  sampled : Bool
  flags : BitVec 16
  allocAt : Nat
  region : BitVec 32
  classed : Bool
  deriving DecidableEq, Repr

/-- An entry of a slice's wait queue; `marked` is the mark of 07 R230, `since` when it began to wait, `aged` 07 R228. -/
structure Waiting where
  req : Request
  marked : Bool
  aged : Bool
  since : Nat
  deriving DecidableEq, Repr

/-- A snoop filter entry (04 Table 4.1); `lstate` holds two bits a line. -/
structure FilterEntry where
  tag : Nat
  valid : Bool
  presence : HostSet
  lstate : BitVec 8
  owner : HostId
  oinc : BitVec 4
  deriving DecidableEq, Repr

/-- A physical filter way: the entry and its tag echo (10 R316). -/
structure FilterWay where
  entry : FilterEntry
  echoTag : Nat
  echoValid : Bool
  deriving DecidableEq, Repr

/-- A victim being spilled or recalled (04 R116, R117, R118): its place, the entry, the metadata reads, writes and
acknowledgement it awaits, the snoops of a recall. -/
structure Victim where
  id : Nat
  set : Nat
  way : Nat
  entry : FilterEntry
  spill : Bool
  scrubRecall : Bool
  reads : List (Nat × Nat)
  writes : List Nat
  setAck : Bool
  snoops : List Snoop
  deriving DecidableEq, Repr

/-- A home-cache tag word (05 Table 5.1). -/
structure TagWord where
  tag : Nat
  valid : Bool
  dirty : Bool
  lock : Bool
  poison : Bool
  fillPending : Bool
  cleaning : Bool
  dirValid : Bool
  dir : DirEntry
  deriving DecidableEq, Repr

/-- A physical home-cache way: both copies of the tag word, and the line (05 R148, R149). -/
structure CacheWay where
  tagA : TagWord
  tagB : TagWord
  data : LineData
  deriving DecidableEq, Repr

/-- Who holds a snoop: a tracker or a victim of a slice (02 R61, 04 R117). -/
inductive SnoopOwner where
  | tracker (p : PhysSlice) (id : Nat) | victim (p : PhysSlice) (id : Nat)
  deriving DecidableEq, Repr

/-- A snoop writeback; a partial one to an Absent line waits for the line's media read `op` (03 R104). `inc` is the incarnation of
the host that sent it (02 R72). -/
structure Writeback where
  owner : SnoopOwner
  host : HostId
  tag : BitVec 16
  line : Nat
  data : LineData
  be : ByteMask
  poison : Bool
  op : Nat
  inc : BitVec 12
  deriving DecidableEq, Repr

/-- An eviction buffer entry and its media write (05 R151). -/
structure EvictEntry where
  op : Nat
  line : Nat
  data : LineData
  poison : Bool
  dirValid : Bool
  dir : DirEntry
  deriving DecidableEq, Repr

/-- The stored errors of a code word (10 R312, R313): the bits flipped, chaff; whether an injection left them, and with
NO_ESCALATE (10 R341). -/
structure WordError where
  flips : List Nat
  chaff : Bool
  injected : Bool
  quiet : Bool
  deriving DecidableEq, Repr

/-- The states of a remap entry (10 R335). -/
inductive RemapState where
  | free | copying | active | activeChaff
  deriving DecidableEq, Repr

/-- A remap entry: its state and the word it names. -/
structure RemapEntry where
  state : RemapState
  word : Nat
  deriving DecidableEq, Repr

/-- A forget-host walk (04 R137, R138): the next set, how many sets it still has to cover for each host, and the sets to
revisit, each for a host. -/
structure Walk where
  pos : Nat
  hosts : List (HostId × Nat)
  revisit : List (Nat × HostId)
  deriving DecidableEq, Repr

/-- A slice's part of a chunk visit of the sweeper (04 R132, R511): the next line's place in the chunk, still clean, the
lines whose requests have yet to be made, because the background agents hold as many as they may (07 Table 7.1). -/
structure SweepPart where
  chunk : Nat
  pos : Nat
  clean : Bool
  retry : List Nat
  deriving DecidableEq, Repr

/-- A running way move (11 R363). -/
structure WayMove where
  filter : Bool
  way : Nat
  set : Nat
  deriving DecidableEq, Repr

/-- A regulator ramp: the operating point it goes to (09 R307, 17 R498). -/
structure Ramp where
  target : Nat
  up : Bool
  deriving DecidableEq, Repr

/-- The range agent of a slice (05 R174, R175): the next set, or line of a LOCK; the lines of the eviction buffer still to examine, once
the walk is over; whether the examination is over too; the write-backs it awaits, with whether each line is to be dropped; the
lines it has counted in MATCHED (05 R177). -/
structure RangePart where
  pos : Nat
  buffer : Option (List Nat)
  ebDone : Bool
  waits : List (Nat × Bool)
  counted : List Nat
  deriving DecidableEq, Repr

/-- A home slice: everything that its registers do not hold. -/
structure Slice where
  trackers : List Tracker
  waitq : List Waiting
  wbs : List Writeback
  ingress : List Request
  filter : Tbl FilterWay
  sfPtr : Tbl Nat
  victims : List Victim
  cache : Tbl CacheWay
  hcPtr : Tbl Nat
  evict : List EvictEntry
  cleanSet : Nat
  dormantWays : Bool
  budgetQ : List Nat
  segOnes : Bool
  segment : Tbl Bool
  setInVisit : Bool
  walk : Option Walk
  sweep : Option SweepPart
  urgentPos : Nat
  urgentRetry : List Nat
  reserved : Tbl Nat
  range : Option RangePart
  scrubPos : Nat
  deferred : List (ScrubArray × Nat)
  move : Option WayMove
  drainSet : Option Nat
  tagLost : List Nat
  blind : List Nat
  errors : Tbl WordError
  remap : Tbl RemapEntry
  copying : Option (Nat × Nat × Nat)
  ecc : Option Nat
  eccUntil : Option Nat
  lfsr : BitVec 32
  countdown : Nat
  ramp : Option Ramp
  regions : Tbl (BitVec 32)
  dirtyWhenWt : List Nat
  passes : Nat
  deriving DecidableEq, Repr

/-! ### Host ports -/

/-- The completions of an S2M NDR (02 R55, 03 R109). -/
inductive Cmp where
  | cmp | cmpS | cmpE
  deriving DecidableEq, Repr

/-- DevLoad (02 Table 2.7). -/
inductive DevLoad where
  | light | optimal | moderate | severe
  deriving DecidableEq, Repr

/-- MetaField of a CXL.mem message (02 R54, R57). -/
inductive MetaField where
  | meta0State | noOp
  deriving DecidableEq, Repr

/-- An S2M message (02 R57 to R61, R64). A snoop names its first line and how many lines it covers. -/
inductive S2m where
  | memData (tag : BitVec 16) (data : LineData) (poison : Bool) (load : DevLoad)
  | cmp (tag : BitVec 16) (c : Cmp) (load : DevLoad)
  | biSnp (bitag : Nat) (kind : SnoopKind) (line : Nat) (lines : Nat)
  | biConflictAck (line : Nat) (load : DevLoad)
  deriving DecidableEq, Repr

/-- A snoop as a home hands it to a port (02 R61, R62). -/
structure SnoopReq where
  owner : SnoopOwner
  kind : SnoopKind
  line : Nat
  lines : Nat
  deriving DecidableEq, Repr

/-- An entry of a port's snoop table (02 R61 to R68). -/
structure SnoopEntry where
  req : SnoopReq
  since : Nat
  warned : Bool
  answered : List Nat
  deriving DecidableEq, Repr

/-- A host port: everything its registers do not hold. `park` is the park buffer of its stop, `ingress` what its ingress crossing
keeps while that stop does not drain it (01 R30), `held` what REPAIR holds (09 R304). -/
structure Port where
  table : Tbl (Option SnoopEntry)
  offered : List SnoopReq
  egress : List S2m
  ndr : Nat
  drs : Nat
  bisnp : Nat
  park : List Request
  ingress : List Request
  held : List Request
  linkReset : Bool
  gpf2 : Bool
  gpfAcked : Bool
  narrowed : Bool
  lastViolation : Option Nat
  lastProto : Option Nat
  drained : List Nat
  lastWarn : Option Nat
  baseInc : BitVec 12
  passInc : BitVec 12
  urgent : Option (BitVec 12)
  deriving DecidableEq, Repr

/-- A spill map message between slices (04 R125, R126): a set, its acknowledgement, or a query, of chunk `chunk`, for the
tracker or victim `owner` of the home. -/
structure SpillMsg where
  set : Bool
  chunk : Nat
  holder : PhysSlice
  owner : SnoopOwner
  acked : Bool
  deriving DecidableEq, Repr

/-! ### Media front -/

/-- The stored form of a line on a channel (06 R183, R184). -/
structure Stored where
  data : LineData
  md : LineMeta
  deriving DecidableEq, Repr

/-- What an operation of the media front is for, and whom its answer goes to. -/
inductive OpSource where
  | tracker (p : PhysSlice) (id : Nat)
  | trackerDir (p : PhysSlice) (id : Nat)
  | writeThrough (p : PhysSlice) (id : Nat)
  | poisonRecord (p : PhysSlice) (id : Nat)
  | writeback (owner : SnoopOwner) (h : HostId) (tag : BitVec 16) (inc : BitVec 12)
  | wbRead (p : PhysSlice) (line : Nat)
  | victim (p : PhysSlice) (id : Nat) (k : Nat)
  | evict (p : PhysSlice)
  | clean (p : PhysSlice) (set way : Nat)
  | rangeWrite (p : PhysSlice)
  | directory (p : PhysSlice)
  | walk (p : PhysSlice)
  | sweeper (p : PhysSlice) (line : Nat)
  | urgent (p : PhysSlice) (line : Nat)
  | fill (p : PhysSlice) (lock : Bool)
  | rekey
  | reseal
  deriving DecidableEq, Repr

/-- The four line operations (06 R185, R187). -/
inductive OpKind where
  | readSealed | readMeta | writeLine | writeMeta
  deriving DecidableEq, Repr

/-- The final status of a read (06 R193). -/
inductive FinalStatus where
  | ok | unwritten | uncorrectable
  deriving DecidableEq, Repr

/-- Where an operation stands: on the ring to its media stop; waiting there (06 R510); reading from its channel; waiting
for its primary or its reconstruction; held by the coalescer; waiting for the stripe; in the open batch; refused by the
cipher (06 R207); answered. -/
inductive OpState where
  | wire | stop | reading | held | waiting | batch | refused
  | answered (st : FinalStatus) | acked (dropped : Bool)
  deriving DecidableEq, Repr

/-- A line operation of the media front; `placedAt` numbers a write by its arrival. -/
structure MediaOp where
  kind : OpKind
  line : Nat
  src : OpSource
  cls : Nat
  state : OpState
  data : LineData
  dir : DirEntry
  heldAt : Nat
  deadline : Nat
  band : Nat
  hedged : Bool
  recon : Option Nat
  placedAt : Nat
  deriving DecidableEq, Repr

/-- What a channel operation serves. -/
inductive ChanUse where
  | primary (op : Nat)
  | recon (r slot : Nat)
  | batchRead (b slot : Nat)
  | batchWrite (b slot : Nat)
  | repair
  | aperture
  deriving DecidableEq, Repr

/-- An operation of a channel (17 R493): `queued` is false while it waits at the media stop, `extra` says that it holds one of the
places of 06 R510, `issued` that it has left its dispatch queue for the channel; `tries` counts the repeats of 06 R508, `failed` and
`migrating` that the next issue is due 250 ns after the last answer. -/
structure ChanOp where
  chan : Channel
  index : Nat
  write : Bool
  metaOnly : Bool
  form : Stored
  use : ChanUse
  cls : Nat
  queued : Bool
  extra : Bool
  issued : Bool
  tries : Nat
  failed : Bool
  migrating : Bool
  deriving DecidableEq, Repr

/-- Why a reconstruction runs (06 R195, Table 6.4, R202, R209, R205); `apertureWait` is the rebuild of an aperture write that has yet to
begin, behind the stripe's earlier batches; `batch` is for a raw read of the batch of that number. -/
inductive ReconWhy where
  | hedge | uncorrectable | lostSlot | mac | aperture (c : DmaChannel) | apertureWrite | apertureWait | batch (bid : Nat)
  deriving DecidableEq, Repr

/-- A reconstruction in progress: the stripe and the slot rebuilt, the forms returned by slot, the metadata taken from an
open metadata batch, the slots awaited, whether a read failed, whether the primary was uncorrectable
(06 R186, R194, R196, R197). -/
structure Recon where
  op : Nat
  why : ReconWhy
  group : Nat
  stripe : Nat
  slot : Nat
  got : List (Nat × Stored)
  mdOver : List (Nat × LineMeta)
  await : List Nat
  bad : Bool
  primaryBad : Bool
  deriving DecidableEq, Repr

/-- The cipher unit's counters of a line: major and 7-bit minor (06 R207). -/
structure LineCounter where
  major : Nat
  minor : Nat
  deriving DecidableEq, Repr

/-- An open batch of a stripe (06 R187, R189): its operations; the stored forms read by slot, none where a slot could not
be read; the slots read but unwritten; the reads and writes awaited by slot; the forms it writes; the operations whose
data is dropped; the counters under which the cipher unit has sealed its lines. -/
structure Batch where
  group : Nat
  stripe : Nat
  ops : List Nat
  metaOnly : Bool
  old : List (Nat × Option Stored)
  blank : List Nat
  await : List Nat
  writing : Bool
  new : List (Nat × Stored)
  writes : List Nat
  dropped : List Nat
  sealed : List (Nat × LineCounter)
  deriving DecidableEq, Repr

/-- The training record of a channel and band (06 R198, R217). -/
structure BandTable where
  trained : Bool
  deadline : Nat
  hist : List Nat
  hedges : Nat
  hedgesLast : Nat
  deriving DecidableEq, Repr

/-- The re-key sequencer (06 R207, R208): queued pages, the page in work, its lowest line not yet re-keyed, the next line
to start, the lines above the lowest that are done. -/
structure Rekey where
  queue : List Nat
  page : Option Nat
  pos : Nat
  next : Nat
  done : List Nat
  deriving DecidableEq, Repr

/-- The media front. `slots` counts, for each channel, the issue slots so far and those since class 5 had one (06 R192). -/
structure MediaFront where
  ops : Tbl (Option MediaOp)
  chops : Tbl (Option ChanOp)
  recons : Tbl (Option Recon)
  batches : Tbl (Option Batch)
  bands : Tbl BandTable
  limiter : Tbl (List (Nat × Nat))
  rekey : Rekey
  window : List (Nat × Bool)
  resyncAt : Option Nat
  resyncArmed : Bool
  resyncFixed : Nat
  resumeArmed : Bool
  unknown : List (Nat × Nat)
  unknownRegions : List Nat
  dropped : Tbl Nat
  sleeping : List Nat
  lastOp : Tbl Nat
  lostMore : Tbl (List Nat)
  stopLine : Tbl Nat
  slots : Tbl (Nat × Nat)
  deriving DecidableEq, Repr

/-! ### Queues, mailboxes, control complex -/

/-- An item of a pod queue (13 R399 to R408): the word, its priority, its valid-byte count, whether it ends a packet. -/
structure PqItem where
  word : Native
  prio : Nat
  vbc : Nat
  eop : Bool
  deriving DecidableEq, Repr

/-- A pod queue: its two banks, the bytes of the open word of packing mode, the latched half of 13 R415, and the words of the
packet now being read. A packet is written whole. What a crossing holds is with its port, slice or stop
(log 11). -/
structure PodQueue where
  fill : List PqItem
  drain : List PqItem
  openBytes : List Byte
  latched : Word
  reading : List Native
  deriving DecidableEq, Repr

/-- A mailbox's command, status and background command registers, payload and payload length, the number
of the doorbell that submitted the command, whether firmware has answered it, and the two interrupt enables (13 R421, R423,
R425). -/
structure MbxState where
  opcode : BitVec 16
  rc : BitVec 16
  payload : List Byte
  len : Nat
  since : Nat
  answered : Bool
  bgOpcode : BitVec 16
  bgPercent : Nat
  bgRc : BitVec 16
  intEnable : Bool
  bgIntEnable : Bool
  deriving DecidableEq, Repr

/-- A piece of a control core's store that awaits its acknowledgement in the write buffer: its request, the store it belongs to, its
address and bytes (08 R266, R270). -/
structure HeldStore where
  id : Nat
  store : Nat
  addr : Nat
  bytes : List Byte
  deriving DecidableEq, Repr

/-- A control core (08 R265 to R277, 11 R371): where it last started to run, as far as the spec says (12 Table 12.7, R396); the accesses
it holds back, the loads and stores under way, the requests of reserved loads that have yet to pass their snoops, the acquire load whose
data it awaits, the release stores not yet acknowledged, its exceptions: the precise ones taken, the imprecise one pending, and the
imprecise ones taken, with what the last of them reported. -/
structure Core where
  queue : List Instr
  halted : Bool
  husked : Bool
  startAt : Option Word
  loads : List Nat
  stores : List HeldStore
  granule : List Nat
  acquire : Option Nat
  releases : List Nat
  alignFaults : Nat
  precise : Nat
  preciseAddr : Word
  busErrAddr : Option Word
  busErrCount : Nat
  imprecise : Nat
  impreciseAddr : Word
  impreciseStores : Nat
  deriving DecidableEq, Repr

/-- A DMA descriptor (14 Table 14.2). -/
structure Descriptor where
  last : Bool
  next : Word
  op : BitVec 2
  acq : Bool
  rel : Bool
  waitAll : Bool
  irqEnd : Bool
  srcBase : Word
  dstBase : Word
  srcRowBytes : Nat
  srcRows : Nat
  srcStride : Int
  dstRowBytes : Nat
  dstRows : Nat
  dstStride : Int
  pattern : Native
  deriving DecidableEq, Repr

/-- What a DMA channel's outstanding read serves (14 R434 to R446). -/
inductive DmaRead where
  | descriptor | source | destination | result
  deriving DecidableEq, Repr

/-- A DMA channel (14 R431 to R450): the descriptor in progress; the stream bytes written or compared; the bytes read and not
yet used, with the metadata of lines read from the aperture; the compare result; the read and the writes outstanding; the
result write of a compare issued; a halt that waits for the writes before it: code, side and address. -/
structure DmaState where
  desc : Option Descriptor
  wr : Nat
  held : List Byte
  heldDst : List Byte
  heldMd : List LineMeta
  mismatches : Nat
  firstMismatch : Option Nat
  reading : Option DmaRead
  writesOut : List Nat
  resultOut : Bool
  halting : Option (Nat × Nat × Word)
  deriving DecidableEq, Repr

/-- A DMA engine: the channel running, the channel that ran last, whether it stopped on a bus error (14 R433, R449). -/
structure Engine where
  running : Option DmaChannel
  lastRun : Nat
  stopped : Bool
  deriving DecidableEq, Repr

/-- A record of a configuration layer (12 R377). -/
structure ConfigRecord where
  key : Nat
  value : Word
  crcOk : Bool
  deriving DecidableEq, Repr

/-- An owner copy of the configuration store (12 R377 to R379). -/
structure OwnerCopy where
  valid : Bool
  seq : Nat
  records : List ConfigRecord
  deriving DecidableEq, Repr

/-- The entries of the repair record (12 Table 12.6). -/
inductive RepairEntry where
  | close
  | epoch (epoch : BitVec 12) (distrust : Bool)
  | pass (passEpoch startEpoch : BitVec 12) (nextChunk : Nat)
  | sliceMap (lo hi : Word)
  | groupMap (maps : List Word)
  | retired (unit number : Nat)
  | spareWay (p : Nat) (filter : Bool) (way : Nat)
  | remap (device : Bool) (p macroId entry word : Nat) (chaff : Bool)
  | hpDisabled (mask : HostSet)
  | coreMap (m : BitVec 12)
  | rebuild (group slot target line : Nat)
  | patrol (chunk : Nat)
  | ownerLoss (entries : List Word)
  | activeSlot (slot : Nat)
  deriving DecidableEq, Repr

/-- A program of the configuration store that awaits its acknowledgement (17 R495). -/
inductive StoreWrite where
  | repair (e : RepairEntry)
  | owner (copyB : Bool) (c : OwnerCopy)
  | image (slot : Nat) (i : FwImage)
  deriving DecidableEq, Repr

/-- The configuration store (12 R376 to R382). `sanitised` stands for the controller's record that a sanitise of all media has completed
since the last SPROUT (11 R370, log 124). -/
structure Store where
  factory : List ConfigRecord
  copyA : OwnerCopy
  copyB : OwnerCopy
  repair : List RepairEntry
  repairSeq : Nat
  half : Bool
  slot1 : FwImage
  slot2 : FwImage
  programs : List StoreWrite
  stopped : Bool
  sanitised : Bool
  deriving DecidableEq, Repr

/-- A measurement log entry (12 R388). -/
structure LogEntry where
  index : Nat
  event : Nat
  actCount : Nat
  time : Nat
  digest : BitVec 384
  deriving DecidableEq, Repr

/-- A measured load in progress (12 R385): the slot, the bank, the blocks hashed, the failures of this block. -/
structure Load where
  slot : Nat
  bankB : Bool
  block : Nat
  failures : Nat
  boot : Bool
  deriving DecidableEq, Repr

/-- The boot state of the control complex (12 R383 to R397). `bankA` and `bankB` say which whole image a bank holds; `bankBlocks`
lists the number of the bytes of each block of the two banks, and `bankEdits` the bytes that stores have changed since, bank B after
bank A. -/
structure Boot where
  step : Nat
  invalidated : Bool
  bankA : Option FwImage
  bankB : Option FwImage
  bankBlocks : Tbl Nat
  bankEdits : Tbl (Option Byte)
  load : Option Load
  triedOther : Bool
  halted : Bool
  log : List LogEntry
  trialUntil : Option Nat
  running : FwImage
  slot : Nat
  epochWritten : Bool
  patrolNext : Nat
  deriving DecidableEq, Repr

/-- A retirement procedure in progress at its step (11 R361 to R371). -/
structure Retire where
  unit : Nat
  number : Nat
  step : Nat
  spare : Nat
  deriving DecidableEq, Repr

/-- A background command (13 R425). -/
structure Background where
  mb : Mailbox
  opcode : BitVec 16
  arg : Nat
  arg2 : Nat
  deriving DecidableEq, Repr

/-- Firmware train 7.2's own records. -/
structure Firmware where
  bg : Option Background
  retiring : List Retire
  logs : Tbl (List (List Native))
  overflow : Tbl Nat
  corrected : List (Nat × Nat)
  arrayEvents : List (Nat × Nat × BitVec 40)
  ownerBudget : Option (Nat × Bool)
  patrol : Option Nat
  shutdown : Bool
  lastCommit : Nat
  lastRebuildCommit : Nat
  deriving DecidableEq, Repr

/-! ### Always-on island and modes -/

/-- The steps of Table 8.6 (08 R283). -/
inductive DrainStep where
  | flush | close | cipher | record
  deriving DecidableEq, Repr

/-- The always-on island and the mode controller's own state (09, 17 R499 to R503). -/
structure AlwaysOn where
  power : Bool
  porDone : Bool
  blockReset : Bool
  pfwLow : Bool
  highSince : Option Nat
  mayRestart : Bool
  releaseWaits : Bool
  time : Nat
  pip : Bool
  lastEdge : Nat
  wdStart : Nat
  fed : Bool
  drain : Option DrainStep
  drainAt : Nat
  closeAt : Nat
  entryStep : Nat
  entryAt : Nat
  exitStep : Nat
  seqCause : Nat
  seqHp : Nat
  exitCause : Option (Nat × Nat)
  idleMs : Nat
  allocsMs : Nat
  allocs10 : List (Nat × Nat)
  repairAt : Nat
  repairEnd : Option Nat
  dormantEnd : Option Nat
  heldCause : Bool
  repairAfterExit : Bool
  hotSeen : Bool
  deriving DecidableEq, Repr

/-- What crosses Cesal's boundary outward (17 R491), in order. -/
inductive Out where
  | s2m (h : HostId) (m : S2m) (ldId : BitVec 4) (field : MetaField)
  | ringError (source destination line : Nat)
  | creditReturn (h : HostId) (rwd : Bool)
  | l0p (h : HostId) (narrow : Bool)
  | gpfAck (h : HostId)
  | iaData (stream : Nat) (line : Nat) (data : LineData)
  | iaError (stream : Nat) (line : Nat) (poisoned : Bool)
  | iaAck (stream : Nat) (line : Nat)
  | iaCond (k : LogicalCore) (ok : Bool)
  | coreData (k : LogicalCore) (addr : Word) (data : Native)
  | chanRead (op : Nat) (c : Channel) (index : Nat) (metaOnly : Bool)
  | chanWrite (op : Nat) (c : Channel) (index : Nat) (metaOnly : Bool)
  | lightSleep (c : Channel)
  | cipherRekey (page : Nat)
  | cipherFlush
  | cipherRebuild (region : Nat)
  | storeProgram
  | voltage (p : PhysSlice) (opp : Nat)
  | interrupt (q : Nat)
  | mbxDone (mb : Mailbox) (irq : Bool)
  | mbxBgDone (mb : Mailbox) (irq : Bool)
  | eventInterrupt (h : Nat)
  | spdm (via : SpdmBus) (r : Nat) (body : List Nat) (signature : Option (BitVec 768))
  | apertureData (data : LineData) (md : LineMeta)
  | apertureError
  | pqItem (q : QueueId) (w : Native)
  | sampleWord (w : Word)
  | pipEdge (level : Bool)
  deriving DecidableEq, Repr

/-- The state of Cesal. `valid` holds the three copies of each control macro's valid bits (10 R317); `scrubVisits` counts the stripe
visits of second `scrubSecond` (10 R328). `sweepUs` counts the us of sweeping since the last chunk's share began, none before the
first (04 R134). -/
structure State where
  pending : List Instr
  regs : Tbl Word
  ports : Tbl Port
  slices : Tbl Slice
  fabric : Tbl (Option SpillMsg)
  iaPark : List Request
  iaIngress : List Request
  iaHeld : List Request
  iaLastViolation : Option Nat
  mf : MediaFront
  media : Tbl (Option Stored)
  counters : Tbl LineCounter
  history : Tbl Native
  minors : Tbl Nat
  queues : Tbl PodQueue
  mbxP : MbxState
  mbxS : MbxState
  cores : Tbl Core
  sram : List Host.Cell
  sramReserved : Tbl Nat
  valid : Tbl (BitVec 2048)
  devErrors : Tbl WordError
  devRemap : Tbl RemapEntry
  devCopying : Option (Nat × Nat × Nat)
  ownerLoss : List Word
  dma : Tbl DmaState
  engines : Tbl Engine
  pmu : Tbl Nat
  snap : Tbl Nat
  samples : List (BitVec 256)
  store : Store
  boot : Boot
  fw : Firmware
  aon : AlwaysOn
  sweepActive : Bool
  sweepDue : Bool
  sweepUs : Option Nat
  urgentSet : List Nat
  scrubStripe : Nat
  scrubSecond : Nat
  scrubVisits : Nat
  scrubWord : Nat
  out : List Out
  nextId : Nat
  freeTick : Nat
  deriving DecidableEq, Repr

/-! ### Reset -/

/-- A filter way that holds nothing (04 R111: VALID 0). -/
def FilterWay.empty : FilterWay :=
  ⟨⟨0, false, 0#16, 0#8, 0, 0#4⟩, 0, false⟩

/-- A tag word of all zeros: an empty way (05 R148). -/
def TagWord.empty : TagWord := ⟨0, false, false, false, false, false, false, false, 0#32⟩

/-- An empty cache way. The data array is not cleared (05 R180); its reset value is a DESIGN CHOICE (log 4). -/
def CacheWay.empty : CacheWay := ⟨TagWord.empty, TagWord.empty, 0#512⟩

/-- A slice as reset invalidation leaves it (09 R298). -/
def Slice.empty : Slice where
  trackers := []
  waitq := []
  wbs := []
  ingress := []
  filter := []
  sfPtr := []
  victims := []
  cache := []
  hcPtr := []
  evict := []
  cleanSet := 0
  dormantWays := false
  budgetQ := []
  segOnes := false
  segment := []
  setInVisit := false
  walk := none
  sweep := none
  urgentPos := 0
  urgentRetry := []
  reserved := []
  range := none
  scrubPos := 0
  deferred := []
  move := none
  drainSet := none
  tagLost := []
  blind := []
  errors := []
  remap := []
  copying := none
  ecc := none
  eccUntil := none
  lfsr := 0#32
  countdown := 0
  ramp := none
  regions := []
  dirtyWhenWt := []
  passes := 0

/-- A port in HOLD. No S2M credits are held before a host advertises them: DESIGN CHOICE (log 4). -/
def Port.empty : Port where
  table := []
  offered := []
  egress := []
  ndr := 0
  drs := 0
  bisnp := 0
  park := []
  ingress := []
  held := []
  linkReset := false
  gpf2 := false
  gpfAcked := false
  narrowed := false
  lastViolation := none
  lastProto := none
  drained := []
  lastWarn := none
  baseInc := 0#12
  passInc := 0#12
  urgent := none

/-- The training record of a band not yet trained (06 R195). -/
def BandTable.untrained : BandTable := ⟨false, 900, [], 0, 0⟩

/-- The media front in HOLD. -/
def MediaFront.empty : MediaFront where
  ops := []
  chops := []
  recons := []
  batches := []
  bands := []
  limiter := []
  rekey := ⟨[], none, 0, 0, []⟩
  window := []
  resyncAt := none
  resyncArmed := false
  resyncFixed := 0
  resumeArmed := false
  unknown := []
  unknownRegions := []
  dropped := []
  sleeping := []
  lastOp := []
  lostMore := []
  stopLine := []
  slots := []

/-- An empty pod queue (13 R405). -/
def PodQueue.empty : PodQueue := ⟨[], [], [], 0#64, []⟩

/-- A mailbox at reset; CXL prescribes its layout, its values here are a DESIGN CHOICE (log 4). -/
def MbxState.empty : MbxState := ⟨0#16, 0#16, [], 0, 0, false, 0#16, 0, 0#16, false, false⟩

/-- A control core that runs nothing. -/
def Core.idle : Core := ⟨[], true, false, none, [], [], [], none, [], 0, 0, 0#64, none, 0, 0, 0#64, 0⟩

/-- An idle DMA channel. -/
def DmaState.idle : DmaState := ⟨none, 0, [], [], [], 0, none, none, [], false, none⟩

/-- An idle DMA engine. -/
def Engine.idle : Engine := ⟨none, 15, false⟩

/-- The number of the bytes of block `k` of the content `c`, from block 1 on; block 0 is the header (12 R384; log 7). -/
def contentBlock (c k : Nat) : Nat := 2 * (c * 64 + k)

/-- The number under which the SHA-384 of a block's bytes stands (log 7). -/
def blockHashed (n : Nat) : Nat := 8 * n + 5

/-- The firmware image the factory stores in slot 1; its contents are not in the spec: DESIGN CHOICE (log 5). -/
def FwImage.factory : FwImage :=
  ⟨true, 1#32, 0x0702#16, 0x0702#16, 4096, 60, (List.range 59).map fun k => Config.sha384 (blockHashed (contentBlock 1 (k + 1))), 1⟩

/-- An empty firmware slot. -/
def FwImage.none : FwImage := ⟨false, 0#32, 0#16, 0#16, 0, 0, [], 0⟩

/-- The fault source types of 11 Table 11.9: threshold N, window W in us, CE_SHIFT and ACTION as FLT_SRC_CFG holds them. -/
def faultFactory (s : Nat) : Word :=
  let cfg (n w shift action : Nat) : Word :=
    BitVec.ofNat 64 (n + shift * 2 ^ 8 + action * 2 ^ 12 + w * 2 ^ 32)
  if s < 0x10 then cfg 4 1000000 15 1
  else if s < 0x22 then cfg 4 1000000 8 1
  else if s < 0x48 then cfg 32 60000000 10 1
  else if s = 0x48 then cfg 8 1000000 8 0
  else if s = 0x49 then cfg 1 1000000 15 0
  else if s < 0x4F then cfg 3 1000000 15 1
  else if s = 0x4F then cfg 16 1000000 6 0
  else if s < 0x52 then cfg 8 1000000 15 0
  else if s < 0x57 then cfg 4 1000000 15 0
  else if s = 0x57 then cfg 4 1000000 15 2
  else if s = 0x58 then cfg 8 60000000 15 0
  else if s = 0x59 then cfg 2 1000000 15 2
  else if s = 0x5A then cfg 8 1000000 15 0
  else if s = 0x5C then cfg 1 1000000 15 0
  else 0#64

/-- The factory layer's records with the factory defaults the chapters state (12 R378). Key 0x0001 is a DESIGN CHOICE:
every region is installed (log 5). -/
def factoryRecords : List ConfigRecord :=
  [⟨0x0001, 16384#64, true⟩] ++
  (List.range 16).map (fun n => ⟨0x0010 + n, 0x40_60_000A_0064_29#64, true⟩) ++
  [⟨0x0020, 64#64, true⟩, ⟨0x0021, 0#64, true⟩, ⟨0x0022, 1000#64, true⟩, ⟨0x0023, 0#64, true⟩,
   ⟨0x0024, 0x324B#64, true⟩, ⟨0x0025, 0x1_0004#64, true⟩, ⟨0x0026, 0x2040_0032#64, true⟩,
   ⟨0x0027, 24#64, true⟩, ⟨0x0030, 0x1012_C384_203E_3141#64, true⟩, ⟨0x0031, 0x201#64, true⟩,
   ⟨0x0040, 7#64, true⟩, ⟨0x0041, 0x00C8_000A_0401#64, true⟩, ⟨0x0042, 0x0569#64, true⟩,
   ⟨0x0051, 0#64, true⟩, ⟨0x0058, 60#64, true⟩, ⟨0x0059, 7#64, true⟩, ⟨0x0060, 10#64, true⟩,
   ⟨0x0061, 200#64, true⟩, ⟨0x0070, 0#64, true⟩] ++
  (List.range 96).map (fun s => ⟨0x0100 + s, faultFactory s, true⟩)

/-- The factory repair record (01 R28, 04 R136, 06 R214, 12 R382): identity maps, epochs 0, slot 1. -/
def factoryRepair : List RepairEntry :=
  [.epoch 0#12 false, .pass 0#12 0#12 0,
   .sliceMap 0x0706_0504_0302_0100#64 0x0F0E_0D0C_0B0A_0908#64,
   .groupMap [0x81c61440c2040#64, 0x1140f38d30b289#64, 0x1a6585d65544d2#64, 0x238a181f79d71b#64],
   .coreMap 0x688#12, .activeSlot 1, .close]

/-- The configuration store as the factory ships it. -/
def Store.factoryState : Store where
  factory := factoryRecords
  copyA := ⟨false, 0, []⟩
  copyB := ⟨false, 0, []⟩
  repair := factoryRepair
  repairSeq := 1
  half := false
  slot1 := FwImage.factory
  slot2 := FwImage.none
  programs := []
  stopped := false
  sanitised := false

/-- The boot state in HOLD. -/
def Boot.empty : Boot :=
  ⟨0, false, none, none, [], [], none, false, false, [], none, FwImage.none, 0, false, 0⟩

/-- Firmware's records before it runs. -/
def Firmware.empty : Firmware := ⟨none, [], [], [], [], [], none, none, false, 0, 0⟩

/-- The always-on island in HOLD, with the block reset asserted and PFW_N high (log 4). -/
def AlwaysOn.reset : AlwaysOn where
  power := true
  porDone := true
  blockReset := true
  pfwLow := false
  highSince := none
  mayRestart := false
  releaseWaits := false
  time := 0
  pip := false
  lastEdge := 0
  wdStart := 0
  fed := false
  drain := none
  drainAt := 0
  closeAt := 0
  entryStep := 0
  entryAt := 0
  exitStep := 0
  seqCause := 0
  seqHp := 0
  exitCause := none
  idleMs := 0
  allocsMs := 0
  allocs10 := []
  repairAt := 0
  repairEnd := none
  dormantEnd := none
  heldCause := false
  repairAfterExit := false
  hotSeen := false

/-- Cesal right after reset: HOLD (00 R16), nothing commanded, every table at its defaults. -/
def State.reset : State where
  pending := []
  regs := []
  ports := []
  slices := []
  fabric := []
  iaPark := []
  iaIngress := []
  iaHeld := []
  iaLastViolation := none
  mf := MediaFront.empty
  media := []
  counters := []
  history := []
  minors := []
  queues := []
  mbxP := MbxState.empty
  mbxS := MbxState.empty
  cores := []
  sram := []
  sramReserved := []
  valid := []
  devErrors := []
  devRemap := []
  devCopying := none
  ownerLoss := []
  dma := []
  engines := []
  pmu := []
  snap := []
  samples := []
  store := Store.factoryState
  boot := Boot.empty
  fw := Firmware.empty
  aon := AlwaysOn.reset
  sweepActive := false
  sweepDue := false
  sweepUs := none
  urgentSet := []
  scrubStripe := 0
  scrubSecond := 0
  scrubVisits := 0
  scrubWord := 0
  out := []
  nextId := 0
  freeTick := 0

end Sys2Proof.Machine
end

