-- ==== Sys2Proof/Machine/Registers.lean ====
section
/-! DEFINITION. The registers of Cesal: offsets, fields, access codes and reset values (chapter 16 and the chapters that
own them), and reading and writing a field. A register is `NAME.reg`, a field `NAME.FIELD`, as the spec names them. -/

namespace Sys2Proof.Machine

/-- A field of a register: the register's offset, the field's lowest bit and its width. -/
structure Fld where
  off : Nat
  lo : Nat
  w : Nat
  deriving DecidableEq, Repr

/-- The value of bits `[lo + w - 1 : lo]` of a word. -/
def getBits (v : Word) (lo w : Nat) : Nat := (v.extractLsb' lo w).toNat

/-- The word with bits `[lo + w - 1 : lo]` replaced by the low `w` bits of `x`. -/
def putBits (v : Word) (lo w x : Nat) : Word :=
  (v &&& ~~~(((BitVec.allOnes w).setWidth 64) <<< lo)) ||| (((BitVec.ofNat w x).setWidth 64) <<< lo)

/-- What a register store does to each bit: `rw` takes the value written, `w1c` is cleared by a 1 (00 R14). -/
structure Access where
  rw : Word
  w1c : Word
  deriving DecidableEq, Repr

/-- A word after a store under its access codes; RO, WO and RSV bits keep their value (00 R14). -/
def Access.apply (a : Access) (old v : Word) : Word :=
  ((old &&& ~~~a.rw) ||| (v &&& a.rw)) &&& ~~~(v &&& a.w1c)

/-- The offset of GLB_ID (01 R42). -/
def GLB_ID.reg : Nat := 0x00000
/-- GLB_ID.BLOCK (01 R42). -/
def GLB_ID.BLOCK : Fld := ⟨GLB_ID.reg, 0, 32⟩

/-- The offset of GLB_VERSION (01 R42). -/
def GLB_VERSION.reg : Nat := 0x00008
/-- GLB_VERSION.STEP (01 R42). -/
def GLB_VERSION.STEP : Fld := ⟨GLB_VERSION.reg, 0, 8⟩
/-- GLB_VERSION.SERIES (01 R42). -/
def GLB_VERSION.SERIES : Fld := ⟨GLB_VERSION.reg, 8, 8⟩

/-- The offset of GLB_MODE (09 R291). -/
def GLB_MODE.reg : Nat := 0x00010
/-- GLB_MODE.MODE (09 R291). -/
def GLB_MODE.MODE : Fld := ⟨GLB_MODE.reg, 0, 3⟩
/-- GLB_MODE.CHANGING (09 R291). -/
def GLB_MODE.CHANGING : Fld := ⟨GLB_MODE.reg, 3, 1⟩
/-- GLB_MODE.PREV (09 R291). -/
def GLB_MODE.PREV : Fld := ⟨GLB_MODE.reg, 4, 3⟩
/-- GLB_MODE.CAUSE (09 R291). -/
def GLB_MODE.CAUSE : Fld := ⟨GLB_MODE.reg, 8, 4⟩
/-- GLB_MODE.CAUSE_HP (09 R291). -/
def GLB_MODE.CAUSE_HP : Fld := ⟨GLB_MODE.reg, 12, 4⟩
/-- GLB_MODE.DORMANT_ENTRIES (09 R291). -/
def GLB_MODE.DORMANT_ENTRIES : Fld := ⟨GLB_MODE.reg, 16, 16⟩
/-- GLB_MODE.REPAIR_ENTRIES (09 R291). -/
def GLB_MODE.REPAIR_ENTRIES : Fld := ⟨GLB_MODE.reg, 32, 16⟩

/-- The offset of GLB_MODE_REQ (09 R292). -/
def GLB_MODE_REQ.reg : Nat := 0x00018
/-- GLB_MODE_REQ.TARGET (09 R292). -/
def GLB_MODE_REQ.TARGET : Fld := ⟨GLB_MODE_REQ.reg, 0, 3⟩
/-- GLB_MODE_REQ.GO (09 R292). -/
def GLB_MODE_REQ.GO : Fld := ⟨GLB_MODE_REQ.reg, 3, 1⟩
/-- GLB_MODE_REQ.ERR (09 R292). -/
def GLB_MODE_REQ.ERR : Fld := ⟨GLB_MODE_REQ.reg, 4, 1⟩
/-- GLB_MODE_REQ.ERR_CODE (09 R292). -/
def GLB_MODE_REQ.ERR_CODE : Fld := ⟨GLB_MODE_REQ.reg, 8, 4⟩

/-- The offset of GLB_CAPS (01 R42). -/
def GLB_CAPS.reg : Nat := 0x00020
/-- GLB_CAPS.DPA_REGIONS (01 R42). -/
def GLB_CAPS.DPA_REGIONS : Fld := ⟨GLB_CAPS.reg, 33, 15⟩

/-- The offset of GLB_SLICE_MAP0 (01 R28). -/
def GLB_SLICE_MAP0.reg : Nat := 0x00030
/-- GLB_SLICE_MAP0.BYTES (01 R28). -/
def GLB_SLICE_MAP0.BYTES : Fld := ⟨GLB_SLICE_MAP0.reg, 0, 64⟩

/-- The offset of GLB_SLICE_MAP1 (01 R28). -/
def GLB_SLICE_MAP1.reg : Nat := 0x00038
/-- GLB_SLICE_MAP1.BYTES (01 R28). -/
def GLB_SLICE_MAP1.BYTES : Fld := ⟨GLB_SLICE_MAP1.reg, 0, 64⟩

/-- The offset of GLB_HASH_CTRL (01 R32). -/
def GLB_HASH_CTRL.reg : Nat := 0x00040
/-- GLB_HASH_CTRL.MODE (01 R32). -/
def GLB_HASH_CTRL.MODE : Fld := ⟨GLB_HASH_CTRL.reg, 0, 1⟩
/-- GLB_HASH_CTRL.LOCK (01 R32). -/
def GLB_HASH_CTRL.LOCK : Fld := ⟨GLB_HASH_CTRL.reg, 1, 1⟩
/-- GLB_HASH_CTRL.MAP_ERR (01 R32). -/
def GLB_HASH_CTRL.MAP_ERR : Fld := ⟨GLB_HASH_CTRL.reg, 2, 1⟩

/-- The offset of GLB_DIRTY_BUDGET (05 R159). -/
def GLB_DIRTY_BUDGET.reg : Nat := 0x00050
/-- GLB_DIRTY_BUDGET.BUDGET_MIB (05 R159). -/
def GLB_DIRTY_BUDGET.BUDGET_MIB : Fld := ⟨GLB_DIRTY_BUDGET.reg, 0, 8⟩
/-- GLB_DIRTY_BUDGET.AT_QUOTA (05 R159). -/
def GLB_DIRTY_BUDGET.AT_QUOTA : Fld := ⟨GLB_DIRTY_BUDGET.reg, 8, 1⟩
/-- GLB_DIRTY_BUDGET.DIRTY_LINES (05 R159). -/
def GLB_DIRTY_BUDGET.DIRTY_LINES : Fld := ⟨GLB_DIRTY_BUDGET.reg, 32, 22⟩

/-- The offset of GLB_PERSIST_CTRL (05 R167). -/
def GLB_PERSIST_CTRL.reg : Nat := 0x00058
/-- GLB_PERSIST_CTRL.WT (05 R167). -/
def GLB_PERSIST_CTRL.WT : Fld := ⟨GLB_PERSIST_CTRL.reg, 0, 1⟩
/-- GLB_PERSIST_CTRL.WT_CLEAN (05 R167). -/
def GLB_PERSIST_CTRL.WT_CLEAN : Fld := ⟨GLB_PERSIST_CTRL.reg, 1, 1⟩

/-- The offset of GLB_EPOCH (04 R130). -/
def GLB_EPOCH.reg : Nat := 0x00060
/-- GLB_EPOCH.EPOCH (04 R130). -/
def GLB_EPOCH.EPOCH : Fld := ⟨GLB_EPOCH.reg, 0, 12⟩
/-- GLB_EPOCH.DISTRUST (04 R130). -/
def GLB_EPOCH.DISTRUST : Fld := ⟨GLB_EPOCH.reg, 12, 1⟩

/-- The offset of GLB_PASS_EPOCH (04 R136). -/
def GLB_PASS_EPOCH.reg : Nat := 0x00068
/-- GLB_PASS_EPOCH.PASS_EPOCH (04 R136). -/
def GLB_PASS_EPOCH.PASS_EPOCH : Fld := ⟨GLB_PASS_EPOCH.reg, 0, 12⟩
/-- GLB_PASS_EPOCH.START_EPOCH (04 R136). -/
def GLB_PASS_EPOCH.START_EPOCH : Fld := ⟨GLB_PASS_EPOCH.reg, 12, 12⟩
/-- GLB_PASS_EPOCH.PASS_HOURS (04 R136). -/
def GLB_PASS_EPOCH.PASS_HOURS : Fld := ⟨GLB_PASS_EPOCH.reg, 24, 8⟩
/-- GLB_PASS_EPOCH.NEXT_CHUNK (04 R136). -/
def GLB_PASS_EPOCH.NEXT_CHUNK : Fld := ⟨GLB_PASS_EPOCH.reg, 32, 22⟩
/-- GLB_PASS_EPOCH.URGENT (04 R136). -/
def GLB_PASS_EPOCH.URGENT : Fld := ⟨GLB_PASS_EPOCH.reg, 54, 1⟩
/-- GLB_PASS_EPOCH.PAUSE (04 R136). -/
def GLB_PASS_EPOCH.PAUSE : Fld := ⟨GLB_PASS_EPOCH.reg, 55, 1⟩

/-- The offset of GLB_HOST_INCARN (02 R73). -/
def GLB_HOST_INCARN.reg (h : Nat) : Nat := 0x00100 + 8 * h
/-- GLB_HOST_INCARN.INCARN (02 R73). -/
def GLB_HOST_INCARN.INCARN (h : Nat) : Fld := ⟨GLB_HOST_INCARN.reg h, 0, 12⟩

/-- The offset of GLB_REGION_PORT (01 R37). -/
def GLB_REGION_PORT.reg : Nat := 0x00200
/-- GLB_REGION_PORT.INDEX (01 R37). -/
def GLB_REGION_PORT.INDEX : Fld := ⟨GLB_REGION_PORT.reg, 0, 14⟩
/-- GLB_REGION_PORT.OP (01 R37). -/
def GLB_REGION_PORT.OP : Fld := ⟨GLB_REGION_PORT.reg, 14, 2⟩
/-- GLB_REGION_PORT.BUSY (01 R37). -/
def GLB_REGION_PORT.BUSY : Fld := ⟨GLB_REGION_PORT.reg, 16, 1⟩
/-- GLB_REGION_PORT.ERR (01 R37). -/
def GLB_REGION_PORT.ERR : Fld := ⟨GLB_REGION_PORT.reg, 17, 1⟩
/-- GLB_REGION_PORT.ENTRY (01 R37). -/
def GLB_REGION_PORT.ENTRY : Fld := ⟨GLB_REGION_PORT.reg, 32, 32⟩

/-- The offset of GLB_REMAP (10 R338). -/
def GLB_REMAP.reg : Nat := 0x00210
/-- GLB_REMAP.MACRO (10 R338). -/
def GLB_REMAP.MACRO : Fld := ⟨GLB_REMAP.reg, 0, 10⟩
/-- GLB_REMAP.ENTRY (10 R338). -/
def GLB_REMAP.ENTRY : Fld := ⟨GLB_REMAP.reg, 10, 3⟩
/-- GLB_REMAP.OP (10 R338). -/
def GLB_REMAP.OP : Fld := ⟨GLB_REMAP.reg, 13, 2⟩
/-- GLB_REMAP.BUSY (10 R338). -/
def GLB_REMAP.BUSY : Fld := ⟨GLB_REMAP.reg, 15, 1⟩
/-- GLB_REMAP.ERR (10 R338). -/
def GLB_REMAP.ERR : Fld := ⟨GLB_REMAP.reg, 16, 1⟩
/-- GLB_REMAP.WORD (10 R338). -/
def GLB_REMAP.WORD : Fld := ⟨GLB_REMAP.reg, 17, 11⟩
/-- GLB_REMAP.STATE (10 R338). -/
def GLB_REMAP.STATE : Fld := ⟨GLB_REMAP.reg, 28, 2⟩
/-- GLB_REMAP.FREE (10 R338). -/
def GLB_REMAP.FREE : Fld := ⟨GLB_REMAP.reg, 30, 4⟩

/-- The offset of HP_CTRL (02 R47). -/
def HP_CTRL.reg (h : Nat) : Nat := 0x10000 + 0x400 * h
/-- HP_CTRL.ENABLE (02 R47). -/
def HP_CTRL.ENABLE (h : Nat) : Fld := ⟨HP_CTRL.reg h, 0, 1⟩
/-- HP_CTRL.MERGE (02 R47). -/
def HP_CTRL.MERGE (h : Nat) : Fld := ⟨HP_CTRL.reg h, 1, 1⟩
/-- HP_CTRL.BLK_EN (02 R47). -/
def HP_CTRL.BLK_EN (h : Nat) : Fld := ⟨HP_CTRL.reg h, 2, 1⟩
/-- HP_CTRL.GPF_DRAIN (02 R47). -/
def HP_CTRL.GPF_DRAIN (h : Nat) : Fld := ⟨HP_CTRL.reg h, 3, 1⟩
/-- HP_CTRL.HUSK (02 R47). -/
def HP_CTRL.HUSK (h : Nat) : Fld := ⟨HP_CTRL.reg h, 4, 1⟩
/-- HP_CTRL.L0P_DORMANT (02 R47). -/
def HP_CTRL.L0P_DORMANT (h : Nat) : Fld := ⟨HP_CTRL.reg h, 5, 1⟩

/-- The offset of HP_STATUS (02 R48). -/
def HP_STATUS.reg (h : Nat) : Nat := 0x10008 + 0x400 * h
/-- HP_STATUS.LINK (02 R48). -/
def HP_STATUS.LINK (h : Nat) : Fld := ⟨HP_STATUS.reg h, 0, 1⟩
/-- HP_STATUS.BI_EN (02 R48). -/
def HP_STATUS.BI_EN (h : Nat) : Fld := ⟨HP_STATUS.reg h, 1, 1⟩
/-- HP_STATUS.HUSKED (02 R48). -/
def HP_STATUS.HUSKED (h : Nat) : Fld := ⟨HP_STATUS.reg h, 2, 1⟩
/-- HP_STATUS.MERGED_AWAY (02 R48). -/
def HP_STATUS.MERGED_AWAY (h : Nat) : Fld := ⟨HP_STATUS.reg h, 3, 1⟩
/-- HP_STATUS.WIDTH (02 R48). -/
def HP_STATUS.WIDTH (h : Nat) : Fld := ⟨HP_STATUS.reg h, 4, 2⟩
/-- HP_STATUS.L0P_REFUSED (02 R48). -/
def HP_STATUS.L0P_REFUSED (h : Nat) : Fld := ⟨HP_STATUS.reg h, 6, 1⟩
/-- HP_STATUS.SWEEP (02 R48). -/
def HP_STATUS.SWEEP (h : Nat) : Fld := ⟨HP_STATUS.reg h, 7, 1⟩
/-- HP_STATUS.BI_WARN (02 R48). -/
def HP_STATUS.BI_WARN (h : Nat) : Fld := ⟨HP_STATUS.reg h, 8, 1⟩
/-- HP_STATUS.BI_FENCE (02 R48). -/
def HP_STATUS.BI_FENCE (h : Nat) : Fld := ⟨HP_STATUS.reg h, 9, 1⟩
/-- HP_STATUS.PROTO_ERR (02 R48). -/
def HP_STATUS.PROTO_ERR (h : Nat) : Fld := ⟨HP_STATUS.reg h, 10, 1⟩
/-- HP_STATUS.BI_OUT (02 R48). -/
def HP_STATUS.BI_OUT (h : Nat) : Fld := ⟨HP_STATUS.reg h, 16, 8⟩

/-- The offset of HP_BI_TIMERS (02 R66). -/
def HP_BI_TIMERS.reg (h : Nat) : Nat := 0x10010 + 0x400 * h
/-- HP_BI_TIMERS.WARN_US (02 R66). -/
def HP_BI_TIMERS.WARN_US (h : Nat) : Fld := ⟨HP_BI_TIMERS.reg h, 0, 16⟩
/-- HP_BI_TIMERS.FENCE_MS (02 R66). -/
def HP_BI_TIMERS.FENCE_MS (h : Nat) : Fld := ⟨HP_BI_TIMERS.reg h, 16, 16⟩

/-- The offset of HP_OWNER_LOSS (02 R75). -/
def HP_OWNER_LOSS.reg (h : Nat) : Nat := 0x10018 + 0x400 * h
/-- HP_OWNER_LOSS.LOST_LINES (02 R75). -/
def HP_OWNER_LOSS.LOST_LINES (h : Nat) : Fld := ⟨HP_OWNER_LOSS.reg h, 0, 32⟩
/-- HP_OWNER_LOSS.DEPARTURES (02 R75). -/
def HP_OWNER_LOSS.DEPARTURES (h : Nat) : Fld := ⟨HP_OWNER_LOSS.reg h, 32, 16⟩
/-- HP_OWNER_LOSS.LIST_OVF (02 R75). -/
def HP_OWNER_LOSS.LIST_OVF (h : Nat) : Fld := ⟨HP_OWNER_LOSS.reg h, 48, 1⟩

/-- The offset of HP_CREDITS (02 R69). -/
def HP_CREDITS.reg (h : Nat) : Nat := 0x10020 + 0x400 * h
/-- HP_CREDITS.REQ_CRED (02 R69). -/
def HP_CREDITS.REQ_CRED (h : Nat) : Fld := ⟨HP_CREDITS.reg h, 0, 8⟩
/-- HP_CREDITS.RWD_CRED (02 R69). -/
def HP_CREDITS.RWD_CRED (h : Nat) : Fld := ⟨HP_CREDITS.reg h, 8, 8⟩
/-- HP_CREDITS.BIRSP_CRED (02 R69). -/
def HP_CREDITS.BIRSP_CRED (h : Nat) : Fld := ⟨HP_CREDITS.reg h, 16, 8⟩
/-- HP_CREDITS.TRK_MAX (02 R69). -/
def HP_CREDITS.TRK_MAX (h : Nat) : Fld := ⟨HP_CREDITS.reg h, 32, 8⟩
/-- HP_CREDITS.BISNP_MAX (02 R69). -/
def HP_CREDITS.BISNP_MAX (h : Nat) : Fld := ⟨HP_CREDITS.reg h, 40, 8⟩

/-- The offset of SL_CTRL (11 R364). -/
def SL_CTRL.reg (p : Nat) : Nat := 0x20000 + 0x1000 * p
/-- SL_CTRL.SF_DRAIN (11 R364). -/
def SL_CTRL.SF_DRAIN (p : Nat) : Fld := ⟨SL_CTRL.reg p, 0, 1⟩
/-- SL_CTRL.HUSK (11 R364). -/
def SL_CTRL.HUSK (p : Nat) : Fld := ⟨SL_CTRL.reg p, 1, 1⟩
/-- SL_CTRL.HC_MOVE (11 R364). -/
def SL_CTRL.HC_MOVE (p : Nat) : Fld := ⟨SL_CTRL.reg p, 2, 1⟩
/-- SL_CTRL.SF_MOVE (11 R364). -/
def SL_CTRL.SF_MOVE (p : Nat) : Fld := ⟨SL_CTRL.reg p, 3, 1⟩
/-- SL_CTRL.MOVE_WAY (11 R364). -/
def SL_CTRL.MOVE_WAY (p : Nat) : Fld := ⟨SL_CTRL.reg p, 4, 4⟩
/-- SL_CTRL.MOVE_BUSY (11 R364). -/
def SL_CTRL.MOVE_BUSY (p : Nat) : Fld := ⟨SL_CTRL.reg p, 8, 1⟩
/-- SL_CTRL.MOVE_SET (11 R364). -/
def SL_CTRL.MOVE_SET (p : Nat) : Fld := ⟨SL_CTRL.reg p, 10, 15⟩
/-- SL_CTRL.SF_SPARE_FOR (11 R364). -/
def SL_CTRL.SF_SPARE_FOR (p : Nat) : Fld := ⟨SL_CTRL.reg p, 25, 5⟩

/-- The offset of SL_STATUS (11 R365). -/
def SL_STATUS.reg (p : Nat) : Nat := 0x20008 + 0x1000 * p
/-- SL_STATUS.ACTIVE (11 R365). -/
def SL_STATUS.ACTIVE (p : Nat) : Fld := ⟨SL_STATUS.reg p, 0, 1⟩
/-- SL_STATUS.SPARE (11 R365). -/
def SL_STATUS.SPARE (p : Nat) : Fld := ⟨SL_STATUS.reg p, 1, 1⟩
/-- SL_STATUS.HUSKED (11 R365). -/
def SL_STATUS.HUSKED (p : Nat) : Fld := ⟨SL_STATUS.reg p, 2, 1⟩
/-- SL_STATUS.CREDITED (11 R365). -/
def SL_STATUS.CREDITED (p : Nat) : Fld := ⟨SL_STATUS.reg p, 3, 1⟩
/-- SL_STATUS.CLEARED (11 R365). -/
def SL_STATUS.CLEARED (p : Nat) : Fld := ⟨SL_STATUS.reg p, 4, 1⟩
/-- SL_STATUS.QUIESCENT (11 R365). -/
def SL_STATUS.QUIESCENT (p : Nat) : Fld := ⟨SL_STATUS.reg p, 5, 1⟩
/-- SL_STATUS.TAG_LOST (11 R365). -/
def SL_STATUS.TAG_LOST (p : Nat) : Fld := ⟨SL_STATUS.reg p, 6, 1⟩
/-- SL_STATUS.UNUSABLE (11 R365). -/
def SL_STATUS.UNUSABLE (p : Nat) : Fld := ⟨SL_STATUS.reg p, 7, 1⟩
/-- SL_STATUS.BLIND_SETS (11 R365). -/
def SL_STATUS.BLIND_SETS (p : Nat) : Fld := ⟨SL_STATUS.reg p, 8, 7⟩
/-- SL_STATUS.SF_VALID (11 R365). -/
def SL_STATUS.SF_VALID (p : Nat) : Fld := ⟨SL_STATUS.reg p, 16, 20⟩

/-- The offset of SL_LOGICAL_ID (12 R391). -/
def SL_LOGICAL_ID.reg (p : Nat) : Nat := 0x20010 + 0x1000 * p
/-- SL_LOGICAL_ID.LS (12 R391). -/
def SL_LOGICAL_ID.LS (p : Nat) : Fld := ⟨SL_LOGICAL_ID.reg p, 0, 4⟩
/-- SL_LOGICAL_ID.VALID (12 R391). -/
def SL_LOGICAL_ID.VALID (p : Nat) : Fld := ⟨SL_LOGICAL_ID.reg p, 4, 1⟩
/-- SL_LOGICAL_ID.STOP (12 R391). -/
def SL_LOGICAL_ID.STOP (p : Nat) : Fld := ⟨SL_LOGICAL_ID.reg p, 8, 6⟩
/-- SL_LOGICAL_ID.PHYS (12 R391). -/
def SL_LOGICAL_ID.PHYS (p : Nat) : Fld := ⟨SL_LOGICAL_ID.reg p, 16, 5⟩
/-- SL_LOGICAL_ID.HEALTH (12 R391). -/
def SL_LOGICAL_ID.HEALTH (p : Nat) : Fld := ⟨SL_LOGICAL_ID.reg p, 24, 2⟩

/-- The offset of SL_DVFS (09 R308). -/
def SL_DVFS.reg (p : Nat) : Nat := 0x20018 + 0x1000 * p
/-- SL_DVFS.OPP_TARGET (09 R308). -/
def SL_DVFS.OPP_TARGET (p : Nat) : Fld := ⟨SL_DVFS.reg p, 0, 3⟩
/-- SL_DVFS.OPP_NOW (09 R308). -/
def SL_DVFS.OPP_NOW (p : Nat) : Fld := ⟨SL_DVFS.reg p, 3, 3⟩
/-- SL_DVFS.BUSY (09 R308). -/
def SL_DVFS.BUSY (p : Nat) : Fld := ⟨SL_DVFS.reg p, 6, 1⟩
/-- SL_DVFS.CAPPED (09 R308). -/
def SL_DVFS.CAPPED (p : Nat) : Fld := ⟨SL_DVFS.reg p, 7, 1⟩
/-- SL_DVFS.SWITCHES (09 R308). -/
def SL_DVFS.SWITCHES (p : Nat) : Fld := ⟨SL_DVFS.reg p, 8, 32⟩

/-- The offset of SL_TOR_STATUS (07 R235). -/
def SL_TOR_STATUS.reg (p : Nat) : Nat := 0x20020 + 0x1000 * p
/-- SL_TOR_STATUS.TRK_USED (07 R235). -/
def SL_TOR_STATUS.TRK_USED (p : Nat) : Fld := ⟨SL_TOR_STATUS.reg p, 0, 10⟩
/-- SL_TOR_STATUS.IA_USED (07 R235). -/
def SL_TOR_STATUS.IA_USED (p : Nat) : Fld := ⟨SL_TOR_STATUS.reg p, 10, 7⟩
/-- SL_TOR_STATUS.BG_USED (07 R235). -/
def SL_TOR_STATUS.BG_USED (p : Nat) : Fld := ⟨SL_TOR_STATUS.reg p, 17, 7⟩
/-- SL_TOR_STATUS.WQ_USED (07 R235). -/
def SL_TOR_STATUS.WQ_USED (p : Nat) : Fld := ⟨SL_TOR_STATUS.reg p, 24, 12⟩
/-- SL_TOR_STATUS.AGED (07 R235). -/
def SL_TOR_STATUS.AGED (p : Nat) : Fld := ⟨SL_TOR_STATUS.reg p, 36, 1⟩
/-- SL_TOR_STATUS.TRK_PEAK (07 R235). -/
def SL_TOR_STATUS.TRK_PEAK (p : Nat) : Fld := ⟨SL_TOR_STATUS.reg p, 48, 10⟩
/-- SL_TOR_STATUS.PEAK_CLR (07 R235). -/
def SL_TOR_STATUS.PEAK_CLR (p : Nat) : Fld := ⟨SL_TOR_STATUS.reg p, 63, 1⟩

/-- The offset of SL_SF_CTRL (04 R120). -/
def SL_SF_CTRL.reg (p : Nat) : Nat := 0x20028 + 0x1000 * p
/-- SL_SF_CTRL.SPILL_RATE (04 R120). -/
def SL_SF_CTRL.SPILL_RATE (p : Nat) : Fld := ⟨SL_SF_CTRL.reg p, 0, 8⟩
/-- SL_SF_CTRL.SPILL_BURST (04 R120). -/
def SL_SF_CTRL.SPILL_BURST (p : Nat) : Fld := ⟨SL_SF_CTRL.reg p, 8, 12⟩
/-- SL_SF_CTRL.TOKENS (04 R120). -/
def SL_SF_CTRL.TOKENS (p : Nat) : Fld := ⟨SL_SF_CTRL.reg p, 20, 12⟩
/-- SL_SF_CTRL.FORGET (04 R120). -/
def SL_SF_CTRL.FORGET (p : Nat) : Fld := ⟨SL_SF_CTRL.reg p, 32, 16⟩

/-- The offset of SL_HC_CTRL (05 R164). -/
def SL_HC_CTRL.reg (p : Nat) : Nat := 0x20030 + 0x1000 * p
/-- SL_HC_CTRL.SPARE_FOR (05 R164). -/
def SL_HC_CTRL.SPARE_FOR (p : Nat) : Fld := ⟨SL_HC_CTRL.reg p, 0, 5⟩
/-- SL_HC_CTRL.NO_ALLOC (05 R164). -/
def SL_HC_CTRL.NO_ALLOC (p : Nat) : Fld := ⟨SL_HC_CTRL.reg p, 5, 1⟩
/-- SL_HC_CTRL.CLEAN_HI (05 R164). -/
def SL_HC_CTRL.CLEAN_HI (p : Nat) : Fld := ⟨SL_HC_CTRL.reg p, 8, 8⟩
/-- SL_HC_CTRL.CLEAN_LO (05 R164). -/
def SL_HC_CTRL.CLEAN_LO (p : Nat) : Fld := ⟨SL_HC_CTRL.reg p, 16, 8⟩
/-- SL_HC_CTRL.CLEANER (05 R164). -/
def SL_HC_CTRL.CLEANER (p : Nat) : Fld := ⟨SL_HC_CTRL.reg p, 24, 1⟩
/-- SL_HC_CTRL.AT_QUOTA (05 R164). -/
def SL_HC_CTRL.AT_QUOTA (p : Nat) : Fld := ⟨SL_HC_CTRL.reg p, 25, 1⟩
/-- SL_HC_CTRL.EB_FULL (05 R164). -/
def SL_HC_CTRL.EB_FULL (p : Nat) : Fld := ⟨SL_HC_CTRL.reg p, 26, 1⟩
/-- SL_HC_CTRL.DIRTY_COUNT (05 R164). -/
def SL_HC_CTRL.DIRTY_COUNT (p : Nat) : Fld := ⟨SL_HC_CTRL.reg p, 32, 18⟩
/-- SL_HC_CTRL.EB_USED (05 R164). -/
def SL_HC_CTRL.EB_USED (p : Nat) : Fld := ⟨SL_HC_CTRL.reg p, 50, 6⟩

/-- The offset of SL_WAITQ_AGING (07 R236). -/
def SL_WAITQ_AGING.reg (p : Nat) : Nat := 0x20038 + 0x1000 * p
/-- SL_WAITQ_AGING.AGE_US (07 R236). -/
def SL_WAITQ_AGING.AGE_US (p : Nat) : Fld := ⟨SL_WAITQ_AGING.reg p, 0, 16⟩
/-- SL_WAITQ_AGING.IA_MAX (07 R236). -/
def SL_WAITQ_AGING.IA_MAX (p : Nat) : Fld := ⟨SL_WAITQ_AGING.reg p, 16, 7⟩
/-- SL_WAITQ_AGING.BG_MAX (07 R236). -/
def SL_WAITQ_AGING.BG_MAX (p : Nat) : Fld := ⟨SL_WAITQ_AGING.reg p, 24, 6⟩
/-- SL_WAITQ_AGING.AGED_COUNT (07 R236). -/
def SL_WAITQ_AGING.AGED_COUNT (p : Nat) : Fld := ⟨SL_WAITQ_AGING.reg p, 32, 32⟩

/-- The offset of SL_REMAP (10 R338). -/
def SL_REMAP.reg (p : Nat) : Nat := 0x20040 + 0x1000 * p
/-- SL_REMAP.MACRO (10 R338). -/
def SL_REMAP.MACRO (p : Nat) : Fld := ⟨SL_REMAP.reg p, 0, 10⟩
/-- SL_REMAP.ENTRY (10 R338). -/
def SL_REMAP.ENTRY (p : Nat) : Fld := ⟨SL_REMAP.reg p, 10, 3⟩
/-- SL_REMAP.OP (10 R338). -/
def SL_REMAP.OP (p : Nat) : Fld := ⟨SL_REMAP.reg p, 13, 2⟩
/-- SL_REMAP.BUSY (10 R338). -/
def SL_REMAP.BUSY (p : Nat) : Fld := ⟨SL_REMAP.reg p, 15, 1⟩
/-- SL_REMAP.ERR (10 R338). -/
def SL_REMAP.ERR (p : Nat) : Fld := ⟨SL_REMAP.reg p, 16, 1⟩
/-- SL_REMAP.WORD (10 R338). -/
def SL_REMAP.WORD (p : Nat) : Fld := ⟨SL_REMAP.reg p, 17, 11⟩
/-- SL_REMAP.STATE (10 R338). -/
def SL_REMAP.STATE (p : Nat) : Fld := ⟨SL_REMAP.reg p, 28, 2⟩
/-- SL_REMAP.FREE (10 R338). -/
def SL_REMAP.FREE (p : Nat) : Fld := ⟨SL_REMAP.reg p, 30, 4⟩

/-- The offset of SL_ECC_TEST (10 R341). -/
def SL_ECC_TEST.reg (p : Nat) : Nat := 0x20048 + 0x1000 * p
/-- SL_ECC_TEST.ARRAY (10 R341). -/
def SL_ECC_TEST.ARRAY (p : Nat) : Fld := ⟨SL_ECC_TEST.reg p, 0, 4⟩
/-- SL_ECC_TEST.ON_WRITE (10 R341). -/
def SL_ECC_TEST.ON_WRITE (p : Nat) : Fld := ⟨SL_ECC_TEST.reg p, 4, 1⟩
/-- SL_ECC_TEST.MATCH_ANY (10 R341). -/
def SL_ECC_TEST.MATCH_ANY (p : Nat) : Fld := ⟨SL_ECC_TEST.reg p, 5, 1⟩
/-- SL_ECC_TEST.LOWER_WORD (10 R341). -/
def SL_ECC_TEST.LOWER_WORD (p : Nat) : Fld := ⟨SL_ECC_TEST.reg p, 6, 1⟩
/-- SL_ECC_TEST.NO_ESCALATE (10 R341). -/
def SL_ECC_TEST.NO_ESCALATE (p : Nat) : Fld := ⟨SL_ECC_TEST.reg p, 7, 1⟩
/-- SL_ECC_TEST.FLIP0 (10 R341). -/
def SL_ECC_TEST.FLIP0 (p : Nat) : Fld := ⟨SL_ECC_TEST.reg p, 8, 7⟩
/-- SL_ECC_TEST.FLIP1 (10 R341). -/
def SL_ECC_TEST.FLIP1 (p : Nat) : Fld := ⟨SL_ECC_TEST.reg p, 15, 7⟩
/-- SL_ECC_TEST.FLIP2 (10 R341). -/
def SL_ECC_TEST.FLIP2 (p : Nat) : Fld := ⟨SL_ECC_TEST.reg p, 22, 7⟩
/-- SL_ECC_TEST.ARM (10 R341). -/
def SL_ECC_TEST.ARM (p : Nat) : Fld := ⟨SL_ECC_TEST.reg p, 29, 1⟩
/-- SL_ECC_TEST.FIRED (10 R341). -/
def SL_ECC_TEST.FIRED (p : Nat) : Fld := ⟨SL_ECC_TEST.reg p, 30, 1⟩
/-- SL_ECC_TEST.WORD (10 R341). -/
def SL_ECC_TEST.WORD (p : Nat) : Fld := ⟨SL_ECC_TEST.reg p, 32, 11⟩
/-- SL_ECC_TEST.MACRO (10 R341). -/
def SL_ECC_TEST.MACRO (p : Nat) : Fld := ⟨SL_ECC_TEST.reg p, 43, 10⟩

/-- The offset of SL_ECC_TEST_UNLOCK (10 R340). -/
def SL_ECC_TEST_UNLOCK.reg (p : Nat) : Nat := 0x20050 + 0x1000 * p
/-- SL_ECC_TEST_UNLOCK.KEY (10 R340). -/
def SL_ECC_TEST_UNLOCK.KEY (p : Nat) : Fld := ⟨SL_ECC_TEST_UNLOCK.reg p, 0, 16⟩
/-- SL_ECC_TEST_UNLOCK.UNLOCKED (10 R340). -/
def SL_ECC_TEST_UNLOCK.UNLOCKED (p : Nat) : Fld := ⟨SL_ECC_TEST_UNLOCK.reg p, 16, 1⟩

/-- The offset of HC_RANGE_BASE (05 R171). -/
def HC_RANGE_BASE.reg : Nat := 0x38000
/-- HC_RANGE_BASE.LINE (05 R171). -/
def HC_RANGE_BASE.LINE : Fld := ⟨HC_RANGE_BASE.reg, 6, 42⟩

/-- The offset of HC_RANGE_LIMIT (05 R171). -/
def HC_RANGE_LIMIT.reg : Nat := 0x38008
/-- HC_RANGE_LIMIT.LINE (05 R171). -/
def HC_RANGE_LIMIT.LINE : Fld := ⟨HC_RANGE_LIMIT.reg, 6, 42⟩

/-- The offset of HC_RANGE_OP (05 R172). -/
def HC_RANGE_OP.reg : Nat := 0x38010
/-- HC_RANGE_OP.OP (05 R172). -/
def HC_RANGE_OP.OP : Fld := ⟨HC_RANGE_OP.reg, 0, 3⟩
/-- HC_RANGE_OP.FORCE (05 R172). -/
def HC_RANGE_OP.FORCE : Fld := ⟨HC_RANGE_OP.reg, 3, 1⟩
/-- HC_RANGE_OP.DISCARD (05 R172). -/
def HC_RANGE_OP.DISCARD : Fld := ⟨HC_RANGE_OP.reg, 4, 1⟩
/-- HC_RANGE_OP.START (05 R172). -/
def HC_RANGE_OP.START : Fld := ⟨HC_RANGE_OP.reg, 8, 1⟩

/-- The offset of HC_RANGE_STATUS (05 R173). -/
def HC_RANGE_STATUS.reg : Nat := 0x38018
/-- HC_RANGE_STATUS.BUSY (05 R173). -/
def HC_RANGE_STATUS.BUSY : Fld := ⟨HC_RANGE_STATUS.reg, 0, 1⟩
/-- HC_RANGE_STATUS.DONE (05 R173). -/
def HC_RANGE_STATUS.DONE : Fld := ⟨HC_RANGE_STATUS.reg, 1, 1⟩
/-- HC_RANGE_STATUS.ERR (05 R173). -/
def HC_RANGE_STATUS.ERR : Fld := ⟨HC_RANGE_STATUS.reg, 2, 1⟩
/-- HC_RANGE_STATUS.ABORTED (05 R173). -/
def HC_RANGE_STATUS.ABORTED : Fld := ⟨HC_RANGE_STATUS.reg, 3, 1⟩
/-- HC_RANGE_STATUS.ERR_CODE (05 R173). -/
def HC_RANGE_STATUS.ERR_CODE : Fld := ⟨HC_RANGE_STATUS.reg, 4, 4⟩
/-- HC_RANGE_STATUS.PENDING (05 R173). -/
def HC_RANGE_STATUS.PENDING : Fld := ⟨HC_RANGE_STATUS.reg, 8, 18⟩

/-- The offset of HC_RANGE_SUMMARY (05 R177). -/
def HC_RANGE_SUMMARY.reg (k : Nat) : Nat := 0x38020 + 8 * k
/-- HC_RANGE_SUMMARY.LO (05 R177). -/
def HC_RANGE_SUMMARY.LO (k : Nat) : Fld := ⟨HC_RANGE_SUMMARY.reg k, 0, 32⟩
/-- HC_RANGE_SUMMARY.HI (05 R177). -/
def HC_RANGE_SUMMARY.HI (k : Nat) : Fld := ⟨HC_RANGE_SUMMARY.reg k, 32, 32⟩

/-- The offset of SCRUB_TARGET (10 R330). -/
def SCRUB_TARGET.reg : Nat := 0x3C000
/-- SCRUB_TARGET.HC_DATA (10 R330). -/
def SCRUB_TARGET.HC_DATA : Fld := ⟨SCRUB_TARGET.reg, 0, 1⟩
/-- SCRUB_TARGET.HC_TAG (10 R330). -/
def SCRUB_TARGET.HC_TAG : Fld := ⟨SCRUB_TARGET.reg, 1, 1⟩
/-- SCRUB_TARGET.SF (10 R330). -/
def SCRUB_TARGET.SF : Fld := ⟨SCRUB_TARGET.reg, 2, 1⟩
/-- SCRUB_TARGET.REGION (10 R330). -/
def SCRUB_TARGET.REGION : Fld := ⟨SCRUB_TARGET.reg, 3, 1⟩
/-- SCRUB_TARGET.SPILL_MAP (10 R330). -/
def SCRUB_TARGET.SPILL_MAP : Fld := ⟨SCRUB_TARGET.reg, 4, 1⟩
/-- SCRUB_TARGET.CTRL_SRAM (10 R330). -/
def SCRUB_TARGET.CTRL_SRAM : Fld := ⟨SCRUB_TARGET.reg, 5, 1⟩
/-- SCRUB_TARGET.MEDIA (10 R330). -/
def SCRUB_TARGET.MEDIA : Fld := ⟨SCRUB_TARGET.reg, 6, 1⟩
/-- SCRUB_TARGET.PS_MASK (10 R330). -/
def SCRUB_TARGET.PS_MASK : Fld := ⟨SCRUB_TARGET.reg, 8, 18⟩

/-- The offset of SCRUB_RANGE (10 R330). -/
def SCRUB_RANGE.reg : Nat := 0x3C008
/-- SCRUB_RANGE.BASE_CHUNK (10 R330). -/
def SCRUB_RANGE.BASE_CHUNK : Fld := ⟨SCRUB_RANGE.reg, 0, 22⟩
/-- SCRUB_RANGE.LIMIT_CHUNK (10 R330). -/
def SCRUB_RANGE.LIMIT_CHUNK : Fld := ⟨SCRUB_RANGE.reg, 32, 22⟩

/-- The offset of SCRUB_START (10 R330). -/
def SCRUB_START.reg : Nat := 0x3C010
/-- SCRUB_START.START (10 R330). -/
def SCRUB_START.START : Fld := ⟨SCRUB_START.reg, 0, 1⟩
/-- SCRUB_START.STOP (10 R330). -/
def SCRUB_START.STOP : Fld := ⟨SCRUB_START.reg, 1, 1⟩
/-- SCRUB_START.PACE (10 R330). -/
def SCRUB_START.PACE : Fld := ⟨SCRUB_START.reg, 16, 16⟩
/-- SCRUB_START.MEDIA_KSTRIPES (10 R330). -/
def SCRUB_START.MEDIA_KSTRIPES : Fld := ⟨SCRUB_START.reg, 32, 12⟩

/-- The offset of SCRUB_STATUS (10 R331). -/
def SCRUB_STATUS.reg : Nat := 0x3C018
/-- SCRUB_STATUS.BUSY (10 R331). -/
def SCRUB_STATUS.BUSY : Fld := ⟨SCRUB_STATUS.reg, 0, 1⟩
/-- SCRUB_STATUS.DONE (10 R331). -/
def SCRUB_STATUS.DONE : Fld := ⟨SCRUB_STATUS.reg, 1, 1⟩
/-- SCRUB_STATUS.ABORTED (10 R331). -/
def SCRUB_STATUS.ABORTED : Fld := ⟨SCRUB_STATUS.reg, 2, 1⟩
/-- SCRUB_STATUS.ERR (10 R331). -/
def SCRUB_STATUS.ERR : Fld := ⟨SCRUB_STATUS.reg, 3, 1⟩
/-- SCRUB_STATUS.ERR_CODE (10 R331). -/
def SCRUB_STATUS.ERR_CODE : Fld := ⟨SCRUB_STATUS.reg, 4, 4⟩
/-- SCRUB_STATUS.PAUSED (10 R331). -/
def SCRUB_STATUS.PAUSED : Fld := ⟨SCRUB_STATUS.reg, 8, 1⟩
/-- SCRUB_STATUS.PENDING (10 R331). -/
def SCRUB_STATUS.PENDING : Fld := ⟨SCRUB_STATUS.reg, 9, 18⟩
/-- SCRUB_STATUS.CTRL_PENDING (10 R331). -/
def SCRUB_STATUS.CTRL_PENDING : Fld := ⟨SCRUB_STATUS.reg, 27, 1⟩
/-- SCRUB_STATUS.MEDIA_PENDING (10 R331). -/
def SCRUB_STATUS.MEDIA_PENDING : Fld := ⟨SCRUB_STATUS.reg, 28, 1⟩
/-- SCRUB_STATUS.MEDIA_CHUNK (10 R331). -/
def SCRUB_STATUS.MEDIA_CHUNK : Fld := ⟨SCRUB_STATUS.reg, 32, 22⟩

/-- The offset of SCRUB_SUMMARY (10 R332). -/
def SCRUB_SUMMARY.reg (k : Nat) : Nat := 0x3C020 + 8 * k
/-- SCRUB_SUMMARY.LO (10 R332). -/
def SCRUB_SUMMARY.LO (k : Nat) : Fld := ⟨SCRUB_SUMMARY.reg k, 0, 32⟩
/-- SCRUB_SUMMARY.HI (10 R332). -/
def SCRUB_SUMMARY.HI (k : Nat) : Fld := ⟨SCRUB_SUMMARY.reg k, 32, 32⟩

/-- The offset of MF_CTRL (06 R213). -/
def MF_CTRL.reg : Nat := 0x40000
/-- MF_CTRL.COALESCE_EN (06 R213). -/
def MF_CTRL.COALESCE_EN : Fld := ⟨MF_CTRL.reg, 0, 1⟩
/-- MF_CTRL.COALESCE_WIN (06 R213). -/
def MF_CTRL.COALESCE_WIN : Fld := ⟨MF_CTRL.reg, 4, 8⟩
/-- MF_CTRL.RESYNC (06 R213). -/
def MF_CTRL.RESYNC : Fld := ⟨MF_CTRL.reg, 12, 1⟩
/-- MF_CTRL.RESYNC_BUSY (06 R213). -/
def MF_CTRL.RESYNC_BUSY : Fld := ⟨MF_CTRL.reg, 13, 1⟩
/-- MF_CTRL.MAP_ERR (06 R213). -/
def MF_CTRL.MAP_ERR : Fld := ⟨MF_CTRL.reg, 14, 1⟩
/-- MF_CTRL.RETIRE_CH (06 R213). -/
def MF_CTRL.RETIRE_CH : Fld := ⟨MF_CTRL.reg, 16, 6⟩
/-- MF_CTRL.RETIRE (06 R213). -/
def MF_CTRL.RETIRE : Fld := ⟨MF_CTRL.reg, 22, 1⟩

/-- The offset of MF_GROUP_MAP (06 R214). -/
def MF_GROUP_MAP.reg (g : Nat) : Nat := 0x40010 + 8 * g
/-- MF_GROUP_MAP.SLOTS (06 R214). -/
def MF_GROUP_MAP.SLOTS (g : Nat) : Fld := ⟨MF_GROUP_MAP.reg g, 0, 54⟩
/-- MF_GROUP_MAP.LOST_SLOT (06 R214). -/
def MF_GROUP_MAP.LOST_SLOT (g : Nat) : Fld := ⟨MF_GROUP_MAP.reg g, 56, 4⟩
/-- MF_GROUP_MAP.GSTATE (06 R214). -/
def MF_GROUP_MAP.GSTATE (g : Nat) : Fld := ⟨MF_GROUP_MAP.reg g, 60, 2⟩
/-- MF_GROUP_MAP.RESYNCED (06 R214). -/
def MF_GROUP_MAP.RESYNCED (g : Nat) : Fld := ⟨MF_GROUP_MAP.reg g, 62, 1⟩

/-- The offset of MF_HEDGE_CTRL (06 R216). -/
def MF_HEDGE_CTRL.reg : Nat := 0x40040
/-- MF_HEDGE_CTRL.EN (06 R216). -/
def MF_HEDGE_CTRL.EN : Fld := ⟨MF_HEDGE_CTRL.reg, 0, 1⟩
/-- MF_HEDGE_CTRL.LIMIT_PERMILLE (06 R216). -/
def MF_HEDGE_CTRL.LIMIT_PERMILLE : Fld := ⟨MF_HEDGE_CTRL.reg, 4, 8⟩
/-- MF_HEDGE_CTRL.PCT (06 R216). -/
def MF_HEDGE_CTRL.PCT : Fld := ⟨MF_HEDGE_CTRL.reg, 12, 10⟩
/-- MF_HEDGE_CTRL.MARGIN (06 R216). -/
def MF_HEDGE_CTRL.MARGIN : Fld := ⟨MF_HEDGE_CTRL.reg, 24, 8⟩
/-- MF_HEDGE_CTRL.DL_MAX (06 R216). -/
def MF_HEDGE_CTRL.DL_MAX : Fld := ⟨MF_HEDGE_CTRL.reg, 32, 12⟩
/-- MF_HEDGE_CTRL.DL_MIN (06 R216). -/
def MF_HEDGE_CTRL.DL_MIN : Fld := ⟨MF_HEDGE_CTRL.reg, 44, 12⟩
/-- MF_HEDGE_CTRL.MIN_SAMPLES (06 R216). -/
def MF_HEDGE_CTRL.MIN_SAMPLES : Fld := ⟨MF_HEDGE_CTRL.reg, 56, 8⟩

/-- The offset of MF_HEDGE_TABLE (06 R217). -/
def MF_HEDGE_TABLE.reg : Nat := 0x40048
/-- MF_HEDGE_TABLE.CH (06 R217). -/
def MF_HEDGE_TABLE.CH : Fld := ⟨MF_HEDGE_TABLE.reg, 0, 6⟩
/-- MF_HEDGE_TABLE.BND (06 R217). -/
def MF_HEDGE_TABLE.BND : Fld := ⟨MF_HEDGE_TABLE.reg, 6, 2⟩
/-- MF_HEDGE_TABLE.LATCH (06 R217). -/
def MF_HEDGE_TABLE.LATCH : Fld := ⟨MF_HEDGE_TABLE.reg, 8, 1⟩
/-- MF_HEDGE_TABLE.TRAINED (06 R217). -/
def MF_HEDGE_TABLE.TRAINED : Fld := ⟨MF_HEDGE_TABLE.reg, 9, 1⟩
/-- MF_HEDGE_TABLE.DEADLINE_NS (06 R217). -/
def MF_HEDGE_TABLE.DEADLINE_NS : Fld := ⟨MF_HEDGE_TABLE.reg, 10, 12⟩
/-- MF_HEDGE_TABLE.HEDGES (06 R217). -/
def MF_HEDGE_TABLE.HEDGES : Fld := ⟨MF_HEDGE_TABLE.reg, 32, 32⟩

/-- The offset of MF_REKEY_STATUS (06 R218). -/
def MF_REKEY_STATUS.reg : Nat := 0x40050
/-- MF_REKEY_STATUS.BUSY (06 R218). -/
def MF_REKEY_STATUS.BUSY : Fld := ⟨MF_REKEY_STATUS.reg, 0, 1⟩
/-- MF_REKEY_STATUS.QUEUED (06 R218). -/
def MF_REKEY_STATUS.QUEUED : Fld := ⟨MF_REKEY_STATUS.reg, 1, 5⟩
/-- MF_REKEY_STATUS.STALLED (06 R218). -/
def MF_REKEY_STATUS.STALLED : Fld := ⟨MF_REKEY_STATUS.reg, 6, 1⟩
/-- MF_REKEY_STATUS.LINE (06 R218). -/
def MF_REKEY_STATUS.LINE : Fld := ⟨MF_REKEY_STATUS.reg, 8, 6⟩
/-- MF_REKEY_STATUS.PAGE (06 R218). -/
def MF_REKEY_STATUS.PAGE : Fld := ⟨MF_REKEY_STATUS.reg, 16, 36⟩

/-- The offset of MF_REBUILD_STATUS (06 R218). -/
def MF_REBUILD_STATUS.reg : Nat := 0x40058
/-- MF_REBUILD_STATUS.ACTIVE (06 R218). -/
def MF_REBUILD_STATUS.ACTIVE : Fld := ⟨MF_REBUILD_STATUS.reg, 0, 1⟩
/-- MF_REBUILD_STATUS.GROUP (06 R218). -/
def MF_REBUILD_STATUS.GROUP : Fld := ⟨MF_REBUILD_STATUS.reg, 1, 2⟩
/-- MF_REBUILD_STATUS.SLOT (06 R218). -/
def MF_REBUILD_STATUS.SLOT : Fld := ⟨MF_REBUILD_STATUS.reg, 3, 4⟩
/-- MF_REBUILD_STATUS.TARGET (06 R218). -/
def MF_REBUILD_STATUS.TARGET : Fld := ⟨MF_REBUILD_STATUS.reg, 7, 6⟩
/-- MF_REBUILD_STATUS.LINE (06 R218). -/
def MF_REBUILD_STATUS.LINE : Fld := ⟨MF_REBUILD_STATUS.reg, 14, 38⟩
/-- MF_REBUILD_STATUS.DONE (06 R218). -/
def MF_REBUILD_STATUS.DONE : Fld := ⟨MF_REBUILD_STATUS.reg, 52, 1⟩

/-- The offset of MF_CH_STATE (06 R215). -/
def MF_CH_STATE.reg (c : Nat) : Nat := 0x40100 + 8 * c
/-- MF_CH_STATE.STATE (06 R215). -/
def MF_CH_STATE.STATE (c : Nat) : Fld := ⟨MF_CH_STATE.reg c, 0, 3⟩
/-- MF_CH_STATE.GROUP (06 R215). -/
def MF_CH_STATE.GROUP (c : Nat) : Fld := ⟨MF_CH_STATE.reg c, 4, 2⟩
/-- MF_CH_STATE.SLOT (06 R215). -/
def MF_CH_STATE.SLOT (c : Nat) : Fld := ⟨MF_CH_STATE.reg c, 8, 4⟩
/-- MF_CH_STATE.DEPTH (06 R215). -/
def MF_CH_STATE.DEPTH (c : Nat) : Fld := ⟨MF_CH_STATE.reg c, 16, 8⟩
/-- MF_CH_STATE.BAND (06 R215). -/
def MF_CH_STATE.BAND (c : Nat) : Fld := ⟨MF_CH_STATE.reg c, 24, 2⟩

/-- The offset of FLT_SRC_CFG (11 R355). -/
def FLT_SRC_CFG.reg (s : Nat) : Nat := 0x50000 + 8 * s
/-- FLT_SRC_CFG.N (11 R355). -/
def FLT_SRC_CFG.N (s : Nat) : Fld := ⟨FLT_SRC_CFG.reg s, 0, 8⟩
/-- FLT_SRC_CFG.CE_SHIFT (11 R355). -/
def FLT_SRC_CFG.CE_SHIFT (s : Nat) : Fld := ⟨FLT_SRC_CFG.reg s, 8, 4⟩
/-- FLT_SRC_CFG.ACTION (11 R355). -/
def FLT_SRC_CFG.ACTION (s : Nat) : Fld := ⟨FLT_SRC_CFG.reg s, 12, 2⟩
/-- FLT_SRC_CFG.MASK (11 R355). -/
def FLT_SRC_CFG.MASK (s : Nat) : Fld := ⟨FLT_SRC_CFG.reg s, 14, 1⟩
/-- FLT_SRC_CFG.W_US (11 R355). -/
def FLT_SRC_CFG.W_US (s : Nat) : Fld := ⟨FLT_SRC_CFG.reg s, 32, 32⟩

/-- The offset of FLT_SRC_COUNT (11 R356). -/
def FLT_SRC_COUNT.reg (s : Nat) : Nat := 0x50400 + 8 * s
/-- FLT_SRC_COUNT.CE_TOTAL (11 R356). -/
def FLT_SRC_COUNT.CE_TOTAL (s : Nat) : Fld := ⟨FLT_SRC_COUNT.reg s, 0, 20⟩
/-- FLT_SRC_COUNT.UE_TOTAL (11 R356). -/
def FLT_SRC_COUNT.UE_TOTAL (s : Nat) : Fld := ⟨FLT_SRC_COUNT.reg s, 20, 12⟩
/-- FLT_SRC_COUNT.CNT_A (11 R356). -/
def FLT_SRC_COUNT.CNT_A (s : Nat) : Fld := ⟨FLT_SRC_COUNT.reg s, 32, 8⟩
/-- FLT_SRC_COUNT.CNT_B (11 R356). -/
def FLT_SRC_COUNT.CNT_B (s : Nat) : Fld := ⟨FLT_SRC_COUNT.reg s, 40, 8⟩
/-- FLT_SRC_COUNT.PERM (11 R356). -/
def FLT_SRC_COUNT.PERM (s : Nat) : Fld := ⟨FLT_SRC_COUNT.reg s, 48, 1⟩
/-- FLT_SRC_COUNT.FATAL (11 R356). -/
def FLT_SRC_COUNT.FATAL (s : Nat) : Fld := ⟨FLT_SRC_COUNT.reg s, 49, 1⟩
/-- FLT_SRC_COUNT.WIRED (11 R356). -/
def FLT_SRC_COUNT.WIRED (s : Nat) : Fld := ⟨FLT_SRC_COUNT.reg s, 50, 1⟩
/-- FLT_SRC_COUNT.RETIRED (11 R356). -/
def FLT_SRC_COUNT.RETIRED (s : Nat) : Fld := ⟨FLT_SRC_COUNT.reg s, 51, 1⟩

/-- The offset of FLT_HANDLING (11 R357). -/
def FLT_HANDLING.reg : Nat := 0x50800
/-- FLT_HANDLING.HANDLING (11 R357). -/
def FLT_HANDLING.HANDLING : Fld := ⟨FLT_HANDLING.reg, 0, 1⟩
/-- FLT_HANDLING.RECORD (11 R357). -/
def FLT_HANDLING.RECORD : Fld := ⟨FLT_HANDLING.reg, 1, 4⟩
/-- FLT_HANDLING.NEXT (11 R357). -/
def FLT_HANDLING.NEXT : Fld := ⟨FLT_HANDLING.reg, 5, 4⟩
/-- FLT_HANDLING.FROZEN (11 R357). -/
def FLT_HANDLING.FROZEN : Fld := ⟨FLT_HANDLING.reg, 9, 1⟩

/-- The offset of FLT_MERGED0 (11 R357). -/
def FLT_MERGED0.reg : Nat := 0x50808
/-- FLT_MERGED0.SRC_LO (11 R357). -/
def FLT_MERGED0.SRC_LO : Fld := ⟨FLT_MERGED0.reg, 0, 64⟩

/-- The offset of FLT_MERGED1 (11 R357). -/
def FLT_MERGED1.reg : Nat := 0x50810
/-- FLT_MERGED1.SRC_HI (11 R357). -/
def FLT_MERGED1.SRC_HI : Fld := ⟨FLT_MERGED1.reg, 0, 32⟩

/-- The offset of FLT_PIP_CTRL (11 R358). -/
def FLT_PIP_CTRL.reg : Nat := 0x50818
/-- FLT_PIP_CTRL.PERIOD (11 R358). -/
def FLT_PIP_CTRL.PERIOD : Fld := ⟨FLT_PIP_CTRL.reg, 0, 10⟩
/-- FLT_PIP_CTRL.WD_MS (11 R358). -/
def FLT_PIP_CTRL.WD_MS : Fld := ⟨FLT_PIP_CTRL.reg, 10, 16⟩
/-- FLT_PIP_CTRL.RUNNING (11 R358). -/
def FLT_PIP_CTRL.RUNNING : Fld := ⟨FLT_PIP_CTRL.reg, 26, 1⟩
/-- FLT_PIP_CTRL.STOP_CAUSE (11 R358). -/
def FLT_PIP_CTRL.STOP_CAUSE : Fld := ⟨FLT_PIP_CTRL.reg, 27, 2⟩
/-- FLT_PIP_CTRL.LEVEL (11 R358). -/
def FLT_PIP_CTRL.LEVEL : Fld := ⟨FLT_PIP_CTRL.reg, 29, 1⟩

/-- The offset of FLT_WD_FEED (11 R358). -/
def FLT_WD_FEED.reg : Nat := 0x50820
/-- FLT_WD_FEED.FEED (11 R358). -/
def FLT_WD_FEED.FEED : Fld := ⟨FLT_WD_FEED.reg, 0, 1⟩
/-- FLT_WD_FEED.LEFT_MS (11 R358). -/
def FLT_WD_FEED.LEFT_MS : Fld := ⟨FLT_WD_FEED.reg, 16, 16⟩

/-- The offset of PQ_CTRL (13 R411). -/
def PQ_CTRL.reg (q : Nat) : Nat := 0x58000 + 0x100 * q
/-- PQ_CTRL.ORDER (13 R411). -/
def PQ_CTRL.ORDER (q : Nat) : Fld := ⟨PQ_CTRL.reg q, 0, 1⟩
/-- PQ_CTRL.PACKING (13 R411). -/
def PQ_CTRL.PACKING (q : Nat) : Fld := ⟨PQ_CTRL.reg q, 1, 1⟩
/-- PQ_CTRL.PACKET (13 R411). -/
def PQ_CTRL.PACKET (q : Nat) : Fld := ⟨PQ_CTRL.reg q, 2, 1⟩
/-- PQ_CTRL.LEVEL_IE (13 R411). -/
def PQ_CTRL.LEVEL_IE (q : Nat) : Fld := ⟨PQ_CTRL.reg q, 3, 1⟩
/-- PQ_CTRL.RESET (13 R411). -/
def PQ_CTRL.RESET (q : Nat) : Fld := ⟨PQ_CTRL.reg q, 4, 1⟩
/-- PQ_CTRL.TEST (13 R411). -/
def PQ_CTRL.TEST (q : Nat) : Fld := ⟨PQ_CTRL.reg q, 5, 1⟩

/-- The offset of PQ_STATUS (13 R412). -/
def PQ_STATUS.reg (q : Nat) : Nat := 0x58008 + 0x100 * q
/-- PQ_STATUS.OCC (13 R412). -/
def PQ_STATUS.OCC (q : Nat) : Fld := ⟨PQ_STATUS.reg q, 0, 10⟩
/-- PQ_STATUS.FULL (13 R412). -/
def PQ_STATUS.FULL (q : Nat) : Fld := ⟨PQ_STATUS.reg q, 10, 1⟩
/-- PQ_STATUS.OVERRUN (13 R412). -/
def PQ_STATUS.OVERRUN (q : Nat) : Fld := ⟨PQ_STATUS.reg q, 11, 1⟩
/-- PQ_STATUS.LEVEL_HIT (13 R412). -/
def PQ_STATUS.LEVEL_HIT (q : Nat) : Fld := ⟨PQ_STATUS.reg q, 12, 1⟩
/-- PQ_STATUS.RESET_SEEN (13 R412). -/
def PQ_STATUS.RESET_SEEN (q : Nat) : Fld := ⟨PQ_STATUS.reg q, 13, 1⟩
/-- PQ_STATUS.FILL_BANK (13 R412). -/
def PQ_STATUS.FILL_BANK (q : Nat) : Fld := ⟨PQ_STATUS.reg q, 14, 1⟩
/-- PQ_STATUS.OPEN (13 R412). -/
def PQ_STATUS.OPEN (q : Nat) : Fld := ⟨PQ_STATUS.reg q, 15, 1⟩
/-- PQ_STATUS.POP_VBC (13 R412). -/
def PQ_STATUS.POP_VBC (q : Nat) : Fld := ⟨PQ_STATUS.reg q, 16, 5⟩
/-- PQ_STATUS.POP_EOP (13 R412). -/
def PQ_STATUS.POP_EOP (q : Nat) : Fld := ⟨PQ_STATUS.reg q, 21, 1⟩
/-- PQ_STATUS.OVERRUN_COUNT (13 R412). -/
def PQ_STATUS.OVERRUN_COUNT (q : Nat) : Fld := ⟨PQ_STATUS.reg q, 32, 16⟩
/-- PQ_STATUS.RESET_COUNT (13 R412). -/
def PQ_STATUS.RESET_COUNT (q : Nat) : Fld := ⟨PQ_STATUS.reg q, 48, 16⟩

/-- The offset of PQ_LEVEL (13 R413). -/
def PQ_LEVEL.reg (q : Nat) : Nat := 0x58010 + 0x100 * q
/-- PQ_LEVEL.LEVEL (13 R413). -/
def PQ_LEVEL.LEVEL (q : Nat) : Fld := ⟨PQ_LEVEL.reg q, 0, 10⟩

/-- The offset of MBX_CTRL (13 R424). -/
def MBX_CTRL.reg : Nat := 0x64000
/-- MBX_CTRL.P_DOORBELL (13 R424). -/
def MBX_CTRL.P_DOORBELL : Fld := ⟨MBX_CTRL.reg, 0, 1⟩
/-- MBX_CTRL.S_DOORBELL (13 R424). -/
def MBX_CTRL.S_DOORBELL : Fld := ⟨MBX_CTRL.reg, 1, 1⟩
/-- MBX_CTRL.P_COMPLETE (13 R424). -/
def MBX_CTRL.P_COMPLETE : Fld := ⟨MBX_CTRL.reg, 2, 1⟩
/-- MBX_CTRL.S_COMPLETE (13 R424). -/
def MBX_CTRL.S_COMPLETE : Fld := ⟨MBX_CTRL.reg, 3, 1⟩
/-- MBX_CTRL.P_BG_DONE (13 R424). -/
def MBX_CTRL.P_BG_DONE : Fld := ⟨MBX_CTRL.reg, 4, 1⟩
/-- MBX_CTRL.S_BG_DONE (13 R424). -/
def MBX_CTRL.S_BG_DONE : Fld := ⟨MBX_CTRL.reg, 5, 1⟩
/-- MBX_CTRL.P_CLOSED (13 R424). -/
def MBX_CTRL.P_CLOSED : Fld := ⟨MBX_CTRL.reg, 6, 1⟩
/-- MBX_CTRL.S_CLOSED (13 R424). -/
def MBX_CTRL.S_CLOSED : Fld := ⟨MBX_CTRL.reg, 7, 1⟩
/-- MBX_CTRL.MANAGING_HP (13 R424). -/
def MBX_CTRL.MANAGING_HP : Fld := ⟨MBX_CTRL.reg, 8, 4⟩
/-- MBX_CTRL.MANAGING_VALID (13 R424). -/
def MBX_CTRL.MANAGING_VALID : Fld := ⟨MBX_CTRL.reg, 12, 1⟩

/-- The offset of DC_CTRL (14 R453). -/
def DC_CTRL.reg (c : Nat) : Nat := 0x70000 + 0x40 * c
/-- DC_CTRL.GO (14 R453). -/
def DC_CTRL.GO (c : Nat) : Fld := ⟨DC_CTRL.reg c, 0, 1⟩
/-- DC_CTRL.PAUSE (14 R453). -/
def DC_CTRL.PAUSE (c : Nat) : Fld := ⟨DC_CTRL.reg c, 1, 1⟩
/-- DC_CTRL.DISABLE (14 R453). -/
def DC_CTRL.DISABLE (c : Nat) : Fld := ⟨DC_CTRL.reg c, 2, 1⟩

/-- The offset of DC_STATUS (14 R454). -/
def DC_STATUS.reg (c : Nat) : Nat := 0x70008 + 0x40 * c
/-- DC_STATUS.STATE (14 R454). -/
def DC_STATUS.STATE (c : Nat) : Fld := ⟨DC_STATUS.reg c, 0, 3⟩
/-- DC_STATUS.ERR (14 R454). -/
def DC_STATUS.ERR (c : Nat) : Fld := ⟨DC_STATUS.reg c, 3, 1⟩
/-- DC_STATUS.CODE (14 R454). -/
def DC_STATUS.CODE (c : Nat) : Fld := ⟨DC_STATUS.reg c, 4, 4⟩
/-- DC_STATUS.SIDE (14 R454). -/
def DC_STATUS.SIDE (c : Nat) : Fld := ⟨DC_STATUS.reg c, 8, 2⟩
/-- DC_STATUS.DONE (14 R454). -/
def DC_STATUS.DONE (c : Nat) : Fld := ⟨DC_STATUS.reg c, 10, 1⟩
/-- DC_STATUS.DESCS (14 R454). -/
def DC_STATUS.DESCS (c : Nat) : Fld := ⟨DC_STATUS.reg c, 16, 32⟩

/-- The offset of DC_DESC_PTR (14 R455). -/
def DC_DESC_PTR.reg (c : Nat) : Nat := 0x70010 + 0x40 * c
/-- DC_DESC_PTR.ADDR (14 R455). -/
def DC_DESC_PTR.ADDR (c : Nat) : Fld := ⟨DC_DESC_PTR.reg c, 7, 57⟩

/-- The offset of DC_COUNT (14 R455). -/
def DC_COUNT.reg (c : Nat) : Nat := 0x70018 + 0x40 * c
/-- DC_COUNT.COUNT (14 R455). -/
def DC_COUNT.COUNT (c : Nat) : Fld := ⟨DC_COUNT.reg c, 0, 40⟩

/-- The offset of DC_ERR (14 R455). -/
def DC_ERR.reg (c : Nat) : Nat := 0x70020 + 0x40 * c
/-- DC_ERR.ADDR (14 R455). -/
def DC_ERR.ADDR (c : Nat) : Fld := ⟨DC_ERR.reg c, 0, 64⟩

/-- The offset of PMU_CTRL (15 R467). -/
def PMU_CTRL.reg : Nat := 0x8F000
/-- PMU_CTRL.SNAP (15 R467). -/
def PMU_CTRL.SNAP : Fld := ⟨PMU_CTRL.reg, 0, 1⟩
/-- PMU_CTRL.SNAP_BUSY (15 R467). -/
def PMU_CTRL.SNAP_BUSY : Fld := ⟨PMU_CTRL.reg, 1, 1⟩
/-- PMU_CTRL.SNAP_SEQ (15 R467). -/
def PMU_CTRL.SNAP_SEQ : Fld := ⟨PMU_CTRL.reg, 16, 32⟩

/-- The offset of PMU_SNAP_TIME (15 R467). -/
def PMU_SNAP_TIME.reg : Nat := 0x8F008
/-- PMU_SNAP_TIME.TIME (15 R467). -/
def PMU_SNAP_TIME.TIME : Fld := ⟨PMU_SNAP_TIME.reg, 0, 64⟩

/-- The offset of PMU_SAMPLE_CTRL (15 R468). -/
def PMU_SAMPLE_CTRL.reg : Nat := 0x8F010
/-- PMU_SAMPLE_CTRL.EN (15 R468). -/
def PMU_SAMPLE_CTRL.EN : Fld := ⟨PMU_SAMPLE_CTRL.reg, 0, 1⟩
/-- PMU_SAMPLE_CTRL.STOP_FULL (15 R468). -/
def PMU_SAMPLE_CTRL.STOP_FULL : Fld := ⟨PMU_SAMPLE_CTRL.reg, 1, 1⟩
/-- PMU_SAMPLE_CTRL.CLEAR (15 R468). -/
def PMU_SAMPLE_CTRL.CLEAR : Fld := ⟨PMU_SAMPLE_CTRL.reg, 2, 1⟩
/-- PMU_SAMPLE_CTRL.ERR (15 R468). -/
def PMU_SAMPLE_CTRL.ERR : Fld := ⟨PMU_SAMPLE_CTRL.reg, 3, 1⟩
/-- PMU_SAMPLE_CTRL.JITTER (15 R468). -/
def PMU_SAMPLE_CTRL.JITTER : Fld := ⟨PMU_SAMPLE_CTRL.reg, 4, 5⟩
/-- PMU_SAMPLE_CTRL.N (15 R468). -/
def PMU_SAMPLE_CTRL.N : Fld := ⟨PMU_SAMPLE_CTRL.reg, 32, 32⟩

/-- The offset of PMU_SAMPLE_SEED (15 R468). -/
def PMU_SAMPLE_SEED.reg : Nat := 0x8F018
/-- PMU_SAMPLE_SEED.SEED (15 R468). -/
def PMU_SAMPLE_SEED.SEED : Fld := ⟨PMU_SAMPLE_SEED.reg, 0, 32⟩
/-- PMU_SAMPLE_SEED.HOST_MASK (15 R468). -/
def PMU_SAMPLE_SEED.HOST_MASK : Fld := ⟨PMU_SAMPLE_SEED.reg, 32, 16⟩
/-- PMU_SAMPLE_SEED.IA_EN (15 R468). -/
def PMU_SAMPLE_SEED.IA_EN : Fld := ⟨PMU_SAMPLE_SEED.reg, 48, 1⟩

/-- The offset of PMU_SAMPLE_STATUS (15 R468). -/
def PMU_SAMPLE_STATUS.reg : Nat := 0x8F020
/-- PMU_SAMPLE_STATUS.UNREAD (15 R468). -/
def PMU_SAMPLE_STATUS.UNREAD : Fld := ⟨PMU_SAMPLE_STATUS.reg, 0, 13⟩
/-- PMU_SAMPLE_STATUS.LOST (15 R468). -/
def PMU_SAMPLE_STATUS.LOST : Fld := ⟨PMU_SAMPLE_STATUS.reg, 16, 16⟩
/-- PMU_SAMPLE_STATUS.DISCARDED (15 R468). -/
def PMU_SAMPLE_STATUS.DISCARDED : Fld := ⟨PMU_SAMPLE_STATUS.reg, 32, 16⟩
/-- PMU_SAMPLE_STATUS.ABANDONED (15 R468). -/
def PMU_SAMPLE_STATUS.ABANDONED : Fld := ⟨PMU_SAMPLE_STATUS.reg, 48, 16⟩

/-- The offset of PWR_DORM (09 R310). -/
def PWR_DORM.reg : Nat := 0x90000
/-- PWR_DORM.AUTO (09 R310). -/
def PWR_DORM.AUTO : Fld := ⟨PWR_DORM.reg, 0, 1⟩
/-- PWR_DORM.ENTRY_RATE (09 R310). -/
def PWR_DORM.ENTRY_RATE : Fld := ⟨PWR_DORM.reg, 8, 8⟩
/-- PWR_DORM.ENTRY_MS (09 R310). -/
def PWR_DORM.ENTRY_MS : Fld := ⟨PWR_DORM.reg, 16, 16⟩
/-- PWR_DORM.EXIT_COUNT (09 R310). -/
def PWR_DORM.EXIT_COUNT : Fld := ⟨PWR_DORM.reg, 32, 16⟩

/-- The offset of PWR_STATUS (09 R310). -/
def PWR_STATUS.reg : Nat := 0x90008
/-- PWR_STATUS.POWER (09 R310). -/
def PWR_STATUS.POWER : Fld := ⟨PWR_STATUS.reg, 0, 10⟩
/-- PWR_STATUS.TJ (09 R310). -/
def PWR_STATUS.TJ : Fld := ⟨PWR_STATUS.reg, 10, 8⟩
/-- PWR_STATUS.CEIL (09 R310). -/
def PWR_STATUS.CEIL : Fld := ⟨PWR_STATUS.reg, 18, 3⟩
/-- PWR_STATUS.THROTTLED (09 R310). -/
def PWR_STATUS.THROTTLED : Fld := ⟨PWR_STATUS.reg, 21, 1⟩
/-- PWR_STATUS.DORM_BLOCKED (09 R310). -/
def PWR_STATUS.DORM_BLOCKED : Fld := ⟨PWR_STATUS.reg, 22, 1⟩

/-- The offset of PWR_THERM (09 R310). -/
def PWR_THERM.reg : Nat := 0x90010
/-- PWR_THERM.HOT_C (09 R310). -/
def PWR_THERM.HOT_C : Fld := ⟨PWR_THERM.reg, 0, 8⟩
/-- PWR_THERM.HYST_C (09 R310). -/
def PWR_THERM.HYST_C : Fld := ⟨PWR_THERM.reg, 8, 8⟩

/-- The offset of BOOT_STATUS (12 R389). -/
def BOOT_STATUS.reg : Nat := 0xA0000
/-- BOOT_STATUS.ROM_DONE (12 R389). -/
def BOOT_STATUS.ROM_DONE : Fld := ⟨BOOT_STATUS.reg, 0, 1⟩
/-- BOOT_STATUS.SLOT (12 R389). -/
def BOOT_STATUS.SLOT : Fld := ⟨BOOT_STATUS.reg, 1, 2⟩
/-- BOOT_STATUS.FALLBACK (12 R389). -/
def BOOT_STATUS.FALLBACK : Fld := ⟨BOOT_STATUS.reg, 3, 1⟩
/-- BOOT_STATUS.FACT_OK (12 R389). -/
def BOOT_STATUS.FACT_OK : Fld := ⟨BOOT_STATUS.reg, 4, 1⟩
/-- BOOT_STATUS.OWNER_COPY (12 R389). -/
def BOOT_STATUS.OWNER_COPY : Fld := ⟨BOOT_STATUS.reg, 5, 2⟩
/-- BOOT_STATUS.ENFORCE (12 R389). -/
def BOOT_STATUS.ENFORCE : Fld := ⟨BOOT_STATUS.reg, 7, 1⟩
/-- BOOT_STATUS.MISMATCH (12 R389). -/
def BOOT_STATUS.MISMATCH : Fld := ⟨BOOT_STATUS.reg, 8, 1⟩
/-- BOOT_STATUS.BAD_RECORDS (12 R389). -/
def BOOT_STATUS.BAD_RECORDS : Fld := ⟨BOOT_STATUS.reg, 16, 16⟩

/-- The offset of BOOT_ACT (12 R389). -/
def BOOT_ACT.reg : Nat := 0xA0008
/-- BOOT_ACT.ACTIVE (12 R389). -/
def BOOT_ACT.ACTIVE : Fld := ⟨BOOT_ACT.reg, 0, 1⟩
/-- BOOT_ACT.STANDBY_VALID (12 R389). -/
def BOOT_ACT.STANDBY_VALID : Fld := ⟨BOOT_ACT.reg, 1, 1⟩
/-- BOOT_ACT.STANDBY_SLOT (12 R389). -/
def BOOT_ACT.STANDBY_SLOT : Fld := ⟨BOOT_ACT.reg, 2, 2⟩
/-- BOOT_ACT.LOAD (12 R389). -/
def BOOT_ACT.LOAD : Fld := ⟨BOOT_ACT.reg, 4, 1⟩
/-- BOOT_ACT.LOAD_SLOT (12 R389). -/
def BOOT_ACT.LOAD_SLOT : Fld := ⟨BOOT_ACT.reg, 5, 2⟩
/-- BOOT_ACT.SWITCH (12 R389). -/
def BOOT_ACT.SWITCH : Fld := ⟨BOOT_ACT.reg, 7, 1⟩
/-- BOOT_ACT.CONFIRM (12 R389). -/
def BOOT_ACT.CONFIRM : Fld := ⟨BOOT_ACT.reg, 8, 1⟩
/-- BOOT_ACT.BUSY (12 R389). -/
def BOOT_ACT.BUSY : Fld := ⟨BOOT_ACT.reg, 9, 1⟩
/-- BOOT_ACT.LOAD_ERR (12 R389). -/
def BOOT_ACT.LOAD_ERR : Fld := ⟨BOOT_ACT.reg, 10, 1⟩
/-- BOOT_ACT.TRIAL (12 R389). -/
def BOOT_ACT.TRIAL : Fld := ⟨BOOT_ACT.reg, 11, 1⟩
/-- BOOT_ACT.LIVE (12 R389). -/
def BOOT_ACT.LIVE : Fld := ⟨BOOT_ACT.reg, 12, 1⟩
/-- BOOT_ACT.ROLLED_BACK (12 R389). -/
def BOOT_ACT.ROLLED_BACK : Fld := ⟨BOOT_ACT.reg, 13, 1⟩
/-- BOOT_ACT.TRIAL_MS (12 R389). -/
def BOOT_ACT.TRIAL_MS : Fld := ⟨BOOT_ACT.reg, 16, 16⟩
/-- BOOT_ACT.ACT_COUNT (12 R389). -/
def BOOT_ACT.ACT_COUNT : Fld := ⟨BOOT_ACT.reg, 32, 32⟩

/-- The offset of BOOT_LOG (12 R389). -/
def BOOT_LOG.reg : Nat := 0xA0010
/-- BOOT_LOG.ENTRIES (12 R389). -/
def BOOT_LOG.ENTRIES : Fld := ⟨BOOT_LOG.reg, 0, 9⟩
/-- BOOT_LOG.WRAPPED (12 R389). -/
def BOOT_LOG.WRAPPED : Fld := ⟨BOOT_LOG.reg, 9, 1⟩
/-- BOOT_LOG.NEXT (12 R389). -/
def BOOT_LOG.NEXT : Fld := ⟨BOOT_LOG.reg, 10, 8⟩

/-- The offset of BOOT_CORE_MAP (12 R375). -/
def BOOT_CORE_MAP.reg : Nat := 0xA0018
/-- BOOT_CORE_MAP.CORES (12 R375). -/
def BOOT_CORE_MAP.CORES : Fld := ⟨BOOT_CORE_MAP.reg, 0, 12⟩
/-- BOOT_CORE_MAP.HEALTHY (12 R375). -/
def BOOT_CORE_MAP.HEALTHY : Fld := ⟨BOOT_CORE_MAP.reg, 12, 5⟩

/-- The offset of BOOT_ENUM (12 R392). -/
def BOOT_ENUM.reg : Nat := 0xA0020
/-- BOOT_ENUM.PRESENT (12 R392). -/
def BOOT_ENUM.PRESENT : Fld := ⟨BOOT_ENUM.reg, 0, 18⟩
/-- BOOT_ENUM.HEALTHY (12 R392). -/
def BOOT_ENUM.HEALTHY : Fld := ⟨BOOT_ENUM.reg, 32, 18⟩

/-- The offset of BOOT_PEND (12 R389). -/
def BOOT_PEND.reg (w : Nat) : Nat := 0xA0040 + 8 * w
/-- BOOT_PEND.VALUE (12 R389). -/
def BOOT_PEND.VALUE (w : Nat) : Fld := ⟨BOOT_PEND.reg w, 0, 64⟩

/-- The offset of BOOT_MEAS (12 R389). -/
def BOOT_MEAS.reg (iw : Nat × Nat) : Nat := 0xA0100 + 0x40 * (iw.1 - 1) + 8 * iw.2
/-- BOOT_MEAS.VALUE (12 R389). -/
def BOOT_MEAS.VALUE (iw : Nat × Nat) : Fld := ⟨BOOT_MEAS.reg iw, 0, 64⟩

/-- The access codes of a register that stands once, by its offset. -/
def accessSingle (off : Nat) : Access :=
  if off = GLB_ID.reg then ⟨0x0#64, 0x0#64⟩
  else if off = GLB_VERSION.reg then ⟨0x0#64, 0x0#64⟩
  else if off = GLB_MODE.reg then ⟨0x0#64, 0x0#64⟩
  else if off = GLB_MODE_REQ.reg then ⟨0x7#64, 0x10#64⟩
  else if off = GLB_CAPS.reg then ⟨0x0#64, 0x0#64⟩
  else if off = GLB_SLICE_MAP0.reg then ⟨0xffffffffffffffff#64, 0x0#64⟩
  else if off = GLB_SLICE_MAP1.reg then ⟨0xffffffffffffffff#64, 0x0#64⟩
  else if off = GLB_HASH_CTRL.reg then ⟨0x3#64, 0x4#64⟩
  else if off = GLB_DIRTY_BUDGET.reg then ⟨0xff#64, 0x0#64⟩
  else if off = GLB_PERSIST_CTRL.reg then ⟨0x1#64, 0x0#64⟩
  else if off = GLB_EPOCH.reg then ⟨0x1fff#64, 0x0#64⟩
  else if off = GLB_PASS_EPOCH.reg then ⟨0xbfffffffffffff#64, 0x0#64⟩
  else if off = GLB_REGION_PORT.reg then ⟨0xffffffff00003fff#64, 0x20000#64⟩
  else if off = GLB_REMAP.reg then ⟨0xffe1fff#64, 0x10000#64⟩
  else if off = HC_RANGE_BASE.reg then ⟨0xffffffffffc0#64, 0x0#64⟩
  else if off = HC_RANGE_LIMIT.reg then ⟨0xffffffffffc0#64, 0x0#64⟩
  else if off = HC_RANGE_OP.reg then ⟨0x1f#64, 0x0#64⟩
  else if off = HC_RANGE_STATUS.reg then ⟨0x0#64, 0xe#64⟩
  else if off = SCRUB_TARGET.reg then ⟨0x3ffff7f#64, 0x0#64⟩
  else if off = SCRUB_RANGE.reg then ⟨0x3fffff003fffff#64, 0x0#64⟩
  else if off = SCRUB_START.reg then ⟨0xfffffff0000#64, 0x0#64⟩
  else if off = SCRUB_STATUS.reg then ⟨0x0#64, 0xe#64⟩
  else if off = MF_CTRL.reg then ⟨0x1ff1#64, 0x4000#64⟩
  else if off = MF_HEDGE_CTRL.reg then ⟨0xffffffffff3ffff1#64, 0x0#64⟩
  else if off = MF_HEDGE_TABLE.reg then ⟨0xff#64, 0x0#64⟩
  else if off = MF_REKEY_STATUS.reg then ⟨0x0#64, 0x0#64⟩
  else if off = MF_REBUILD_STATUS.reg then ⟨0xfffffffffdfff#64, 0x10000000000000#64⟩
  else if off = FLT_HANDLING.reg then ⟨0x0#64, 0x1#64⟩
  else if off = FLT_MERGED0.reg then ⟨0x0#64, 0x0#64⟩
  else if off = FLT_MERGED1.reg then ⟨0x0#64, 0x0#64⟩
  else if off = FLT_PIP_CTRL.reg then ⟨0x3ffffff#64, 0x0#64⟩
  else if off = FLT_WD_FEED.reg then ⟨0x0#64, 0x0#64⟩
  else if off = MBX_CTRL.reg then ⟨0xc0#64, 0x0#64⟩
  else if off = PMU_CTRL.reg then ⟨0x0#64, 0x0#64⟩
  else if off = PMU_SNAP_TIME.reg then ⟨0x0#64, 0x0#64⟩
  else if off = PMU_SAMPLE_CTRL.reg then ⟨0xffffffff000001f3#64, 0x8#64⟩
  else if off = PMU_SAMPLE_SEED.reg then ⟨0x1ffffffffffff#64, 0x0#64⟩
  else if off = PMU_SAMPLE_STATUS.reg then ⟨0x0#64, 0x0#64⟩
  else if off = PWR_DORM.reg then ⟨0xffffffffff01#64, 0x0#64⟩
  else if off = PWR_STATUS.reg then ⟨0x0#64, 0x0#64⟩
  else if off = PWR_THERM.reg then ⟨0xffff#64, 0x0#64⟩
  else if off = BOOT_STATUS.reg then ⟨0x0#64, 0x0#64⟩
  else if off = BOOT_ACT.reg then ⟨0xffff0060#64, 0x2400#64⟩
  else if off = BOOT_LOG.reg then ⟨0x0#64, 0x0#64⟩
  else if off = BOOT_CORE_MAP.reg then ⟨0xfff#64, 0x0#64⟩
  else if off = BOOT_ENUM.reg then ⟨0x0#64, 0x0#64⟩
  else ⟨0#64, 0#64⟩

/-- The access codes of the registers of an HP window (16 R480), by offset in the window. -/
def accessHp (k : Nat) : Access :=
  if k = 0x0 then ⟨0x3f#64, 0x0#64⟩
  else if k = 0x8 then ⟨0x0#64, 0x700#64⟩
  else if k = 0x10 then ⟨0xffffffff#64, 0x0#64⟩
  else if k = 0x18 then ⟨0x0#64, 0x1000000000000#64⟩
  else if k = 0x20 then ⟨0xffff00000000#64, 0x0#64⟩
  else ⟨0#64, 0#64⟩

/-- The access codes of the registers of an SL window (16 R481), by offset in the window. -/
def accessSl (k : Nat) : Access :=
  if k = 0x0 then ⟨0x3e0000f3#64, 0x0#64⟩
  else if k = 0x8 then ⟨0x0#64, 0x0#64⟩
  else if k = 0x10 then ⟨0x1f#64, 0x0#64⟩
  else if k = 0x18 then ⟨0x7#64, 0x0#64⟩
  else if k = 0x20 then ⟨0x0#64, 0x0#64⟩
  else if k = 0x28 then ⟨0xfffff#64, 0x0#64⟩
  else if k = 0x30 then ⟨0xffff3f#64, 0x0#64⟩
  else if k = 0x38 then ⟨0x3f7fffff#64, 0x0#64⟩
  else if k = 0x40 then ⟨0xffe1fff#64, 0x10000#64⟩
  else if k = 0x48 then ⟨0x1fffff3fffffff#64, 0x40000000#64⟩
  else if k = 0x50 then ⟨0x0#64, 0x0#64⟩
  else ⟨0#64, 0#64⟩

/-- The access codes of the registers of a PQ window (16 R485), by offset in the window. -/
def accessPq (k : Nat) : Access :=
  if k = 0x0 then ⟨0x28#64, 0x0#64⟩
  else if k = 0x8 then ⟨0x0#64, 0x3800#64⟩
  else if k = 0x10 then ⟨0x3ff#64, 0x0#64⟩
  else ⟨0#64, 0#64⟩

/-- The access codes of the registers of a DMA window (16 R487), by offset in the window. -/
def accessDc (k : Nat) : Access :=
  if k = 0x0 then ⟨0x6#64, 0x0#64⟩
  else if k = 0x8 then ⟨0x0#64, 0x408#64⟩
  else if k = 0x10 then ⟨0xffffffffffffff80#64, 0x0#64⟩
  else if k = 0x18 then ⟨0x0#64, 0x0#64⟩
  else if k = 0x20 then ⟨0x0#64, 0x0#64⟩
  else ⟨0#64, 0#64⟩

/-- The access codes of the register at an offset; an offset that no table lists takes no store (16 R470). -/
def access (off : Nat) : Access :=
  if 0x10000 ≤ off ∧ off < 0x14000 then accessHp ((off - 0x10000) % 0x400)
  else if 0x20000 ≤ off ∧ off < 0x32000 then accessSl ((off - 0x20000) % 0x1000)
  else if 0x58000 ≤ off ∧ off < 0x5CC00 then accessPq ((off - 0x58000) % 0x100)
  else if 0x70000 ≤ off ∧ off < 0x70400 then
    let a := accessDc ((off - 0x70000) % 0x40)
    -- PAUSE is reserved in DC8 to DC15 and DISABLE in DC0 to DC7 (16 R487)
    if (off - 0x70000) % 0x40 = 0 then ⟨if off < 0x70200 then 2#64 else 4#64, 0#64⟩ else a
  else if MF_GROUP_MAP.reg 0 ≤ off ∧ off ≤ MF_GROUP_MAP.reg 3 then ⟨0x003F_FFFF_FFFF_FFFF#64, 0#64⟩
  else if 0x50000 ≤ off ∧ off < 0x50300 then
    if (off - 0x50000) / 8 = 0x5B ∨ 0x5D ≤ (off - 0x50000) / 8 then ⟨0#64, 0#64⟩
    else ⟨0xFFFF_FFFF_0000_7FFF#64, 0#64⟩
  else if 0x50400 ≤ off ∧ off < 0x50700 then ⟨0x0008_0000_0000_0000#64, 0x0001_0000_0000_0000#64⟩
  else accessSingle off

/-- The ring stop of a physical slice (01 Table 1.3). -/
def sliceStop (p : Nat) : Nat := if p < 5 then 5 + p else if p < 9 then 10 + p else if p < 14 then 16 + p else 21 + p

/-- The value of a register after entry to HOLD (00 R16; 16 Tables 16.2 to 16.13). -/
def regReset (off : Nat) : Word :=

  if off = GLB_ID.reg then 0x43455341#64
  else if off = GLB_VERSION.reg then 0x0701#64
  else if off = GLB_CAPS.reg then 0x185934250#64
  else if off = PWR_STATUS.reg then 0x1C0000#64
  else if off = BOOT_ACT.reg then 0x640000#64
  else if 0x10000 ≤ off ∧ off < 0x14000 ∧ off % 0x400 = 0x020 then 0x404040#64
  else if 0x20000 ≤ off ∧ off < 0x32000 ∧ off % 0x1000 = 0x010 then
    BitVec.ofNat 64 (0x100 * sliceStop ((off - 0x20000) / 0x1000) + 0x10000 * ((off - 0x20000) / 0x1000))
  else if MF_GROUP_MAP.reg 0 ≤ off ∧ off ≤ MF_GROUP_MAP.reg 3 then 0x0F00_0000_0000_0000#64
  else if 0x58000 ≤ off ∧ off < 0x5CC00 then
    let q := (off - 0x58000) / 0x100
    if off % 0x100 = 0 then
      if q < 70 then 0#64 else if q < 74 then 0xD#64 else if q = 74 then 0xE#64 else 0xA#64
    else if off % 0x100 = 0x10 ∧ 70 ≤ q ∧ q < 74 then 1#64
    else 0#64
  else 0#64

end Sys2Proof.Machine
end

