-- ==== Sys2Proof/Machine/Ops.lean ====
section
/-! DEFINITION. The named operations over State: sparse tables, registers and fields, counters, the boundary log, pod-queue
writes and notices (13), the fault collector's recording of events (11), and the control SRAM. -/

namespace Sys2Proof.Machine

/-! ### Sparse tables -/

/-- The value of a table at a key; `d` is the default there. -/
def Tbl.look {α : Type} (d : α) (k : Nat) : Tbl α → α
  | [] => d
  | (j, v) :: r => if j = k then v else Tbl.look d k r

/-- A table with `k` mapped to a value that is not the default. -/
def Tbl.ins {α : Type} (k : Nat) (v : α) : Tbl α → Tbl α
  | [] => [(k, v)]
  | (j, w) :: r => if k < j then (k, v) :: (j, w) :: r else if k = j then (k, v) :: r else (j, w) :: Tbl.ins k v r

/-- A table with `k` mapped to `v`; a default value is not listed. -/
def Tbl.put {α : Type} [DecidableEq α] (d : α) (k : Nat) (v : α) (t : Tbl α) : Tbl α :=
  if v = d then t.filter (fun e => e.1 ≠ k) else Tbl.ins k v t

/-- Every listed value changed by a function that keeps the default. -/
def Tbl.mapVals {α : Type} [DecidableEq α] (d : α) (f : α → α) (t : Tbl α) : Tbl α :=
  (t.map fun e => (e.1, f e.2)).filter fun e => e.2 ≠ d

/-- The keys of a table rise strictly. -/
def Tbl.sorted {α : Type} : Tbl α → Bool
  | [] => true
  | [_] => true
  | (j, _) :: (k, w) :: r => decide (j < k) && Tbl.sorted ((k, w) :: r)

/-- The canonical form: keys strictly rising and no default listed. -/
def Tbl.wf {α : Type} [DecidableEq α] (d : Nat → α) (t : Tbl α) : Bool :=
  Tbl.sorted t && t.all (fun e => decide (e.2 ≠ d e.1))

/-! ### Registers, counters, log -/

/-- The register at an offset. -/
def State.reg (s : State) (off : Nat) : Word := s.regs.look (regReset off) off

/-- A register written whole. -/
def State.setReg (s : State) (off : Nat) (v : Word) : State :=
  { s with regs := s.regs.put (regReset off) off v }

/-- The value of a field. -/
def State.rd (s : State) (f : Fld) : Nat := getBits (s.reg f.off) f.lo f.w

/-- A field written by hardware. -/
def State.wr (s : State) (f : Fld) (x : Nat) : State := s.setReg f.off (putBits (s.reg f.off) f.lo f.w x)

/-- Whether a one-bit field is 1. -/
def State.on (s : State) (f : Fld) : Bool := s.rd f != 0

/-- A one-bit field set to a Boolean. -/
def State.wb (s : State) (f : Fld) (b : Bool) : State := s.wr f b.toNat

/-- A saturating counter field raised by `k`. -/
def State.inc (s : State) (f : Fld) (k : Nat := 1) : State := s.wr f (min (s.rd f + k) (2 ^ f.w - 1))

/-- The always-on µs timestamp (00 Table 0.4). -/
def State.now (s : State) : Nat := s.aon.time

/-- The mode in force, coded as 00 Table 0.2. -/
def State.mode (s : State) : Nat := s.rd GLB_MODE.MODE

/-- A value the spec leaves open is drawn here (log 1). -/
def State.draw (s : State) : State := { s with freeTick := s.freeTick + 1 }

/-- A message that crosses Cesal's boundary (17 R491; log 3). -/
def State.emit (s : State) (o : Out) : State := { s with out := s.out ++ [o] }

/-- Counter `e` of unit `u` raised by `k`, 48 bits wide (15 R457). -/
def State.count (s : State) (u e : Nat) (k : Nat := 1) : State :=
  { s with pmu := s.pmu.put 0 (u * 32 + e) ((s.pmu.look 0 (u * 32 + e) + k) % 2 ^ 48) }

/-- The value of PMU_CNT[u][e] (15 R456). -/
def State.cnt (s : State) (u e : Nat) : Nat := s.pmu.look 0 (u * 32 + e)

/-- The next number of an operation, tracker or message (log 9). -/
def State.bump (s : State) : State := { s with nextId := s.nextId + 1 }

/-- A physical slice's state. -/
def State.sl (s : State) (p : PhysSlice) : Slice := s.slices.look Slice.empty p.val

/-- A physical slice's state replaced. -/
def State.setSl (s : State) (p : PhysSlice) (x : Slice) : State :=
  { s with slices := s.slices.put Slice.empty p.val x }

/-- A physical slice's state changed. -/
def State.modSl (s : State) (p : PhysSlice) (f : Slice → Slice) : State := s.setSl p (f (s.sl p))

/-- A host port's state. -/
def State.port (s : State) (h : HostId) : Port := s.ports.look Port.empty h.val

/-- A host port's state changed. -/
def State.modPort (s : State) (h : HostId) (f : Port → Port) : State :=
  { s with ports := s.ports.put Port.empty h.val (f (s.port h)) }

/-- The media front's state changed. -/
def State.modMf (s : State) (f : MediaFront → MediaFront) : State := { s with mf := f s.mf }

/-- The always-on state changed. -/
def State.modAon (s : State) (f : AlwaysOn → AlwaysOn) : State := { s with aon := f s.aon }

/-- Every host, in order of number. -/
def allHosts : List HostId := List.finRange 16

/-- Every physical slice, in order of number. -/
def allSlices : List PhysSlice := List.finRange 18

/-! ### Pod queues (13 R399 to R408) -/

/-- The depth of one bank of a queue (13 Table 13.1). -/
def bankDepth (q : Nat) : Nat := if q < 68 then 64 else if q < 70 then 16 else if q < 74 then 64 else 256

/-- A queue's state. -/
def State.pq (s : State) (q : Nat) : PodQueue := s.queues.look PodQueue.empty q

/-- A queue's state changed. -/
def State.modPq (s : State) (q : Nat) (f : PodQueue → PodQueue) : State :=
  { s with queues := s.queues.put PodQueue.empty q (f (s.pq q)) }

/-- The occupancy: committed items in both banks (13 R399). -/
def PodQueue.occ (x : PodQueue) : Nat := x.fill.length + x.drain.length

/-- The interrupt of a queue, where its PQ_CTRL.LEVEL_IE is 1 (13 R404). -/
def State.pqInterrupt (s : State) (q : Nat) : State :=
  if s.on (PQ_CTRL.LEVEL_IE q) then s.emit (.interrupt q) else s

/-- LEVEL_HIT sets where the occupancy rises through LEVEL from `before` (13 R404). -/
def State.pqLevel (s : State) (q before : Nat) : State :=
  let l := s.rd (PQ_LEVEL.LEVEL q)
  if l ≠ 0 ∧ before < l ∧ l ≤ (s.pq q).occ then (s.wr (PQ_STATUS.LEVEL_HIT q) 1).pqInterrupt q else s

/-- The banks swap where the drain bank is empty and the fill bank holds committed items: at a read, and at a write that finds too
little room in the fill bank (13 R400; DEDUCED, log 126). -/
def State.pqSwap (s : State) (q : Nat) : State :=
  let x := s.pq q
  if x.drain = [] ∧ x.fill ≠ [] then
    (s.modPq q fun y => { y with drain := y.fill, fill := [] }).wr (PQ_STATUS.FILL_BANK q)
      (1 - s.rd (PQ_STATUS.FILL_BANK q))
  else s

/-- A committed packet reaches a queue whose producer is not flow-controlled: it waits for the swap where the drain bank
is empty, and is discarded whole where it is not (13 R402). -/
def State.pqWrite (s : State) (q : Nat) (items : List PqItem) : State :=
  let n := items.length
  let s' := if bankDepth q < (s.pq q).fill.length + n then s.pqSwap q else s
  let x := s'.pq q
  if bankDepth q < x.fill.length + n then
    ((s'.wr (PQ_STATUS.OVERRUN q) 1).inc (PQ_STATUS.OVERRUN_COUNT q)).pqInterrupt q
  else (s'.modPq q fun y => { y with fill := y.fill ++ items }).pqLevel q x.occ

/-! ### Notices (13 R416 to R419) -/

/-- Word 0 of a notice of `words` words (13 Table 13.8): type, priority, WORDS, source, INFO and the payload. -/
def noticeWord (typ prio words src info payload : Nat) : Native :=
  BitVec.ofNat 128 (typ + (prio % 4) * 2 ^ 8 + (words - 1) % 4 * 2 ^ 10 + src * 2 ^ 16 + (info % 2 ^ 40) * 2 ^ 24 + (payload % 2 ^ 64) * 2 ^ 64)

/-- A notice written into notice queue NQk (13 R418, R419). -/
def State.notice (s : State) (k typ prio src info payload : Nat) (more : List Native := []) : State :=
  let ws := noticeWord typ prio (1 + more.length) src info payload :: more
  s.pqWrite (70 + k) (ws.mapIdx fun i w => ⟨w, prio, 16, decide (i + 1 = ws.length)⟩)

/-! ### Exit triggers of DORMANT (09 R301) -/

/-- A trigger of 09 R301: it begins the exit from DORMANT, aborts an entry before step 3, and after that begins the exit
when the entry has run to its end. -/
def State.dormTrigger (s : State) (cause hp : Nat) : State :=
  if s.mode = 3 then
    if s.aon.exitStep = 0 then
      (s.wr GLB_MODE.CHANGING 1).modAon fun a => { a with exitStep := 1, seqCause := cause, seqHp := hp }
    else s
  else if s.mode = 2 ∧ s.aon.entryStep ≠ 0 then
    if s.aon.entryStep < 3 then
      let s1 := (s.wr GLB_MODE.CHANGING 0).modAon fun a => { a with entryStep := 0 }
      allSlices.foldl (fun s p => s.modSl p fun x => { x with dormantWays := false }) s1
    else s.modAon fun a => { a with exitCause := a.exitCause.or (some (cause, hp)) }
  else s

/-! ### Fault collector (11 R342 to R351) -/

/-- The sources that Table 11.1 lists with a configuration: 0x5B and 0x5D to 0x5F have none (11 R355). -/
def faultThreshold (s : State) (src : Nat) : Nat := max 1 (s.rd (FLT_SRC_CFG.N src))

/-- PIP stops, holding its level (11 R352). -/
def State.stopPip (s : State) (cause : Nat) : State :=
  if s.on FLT_PIP_CTRL.RUNNING then (s.wr FLT_PIP_CTRL.RUNNING 0).wr FLT_PIP_CTRL.STOP_CAUSE cause else s

/-- The record of the history at an index (11 Table 11.4). -/
def State.record (s : State) (i : Nat) : Native := s.history.look 0#128 i

/-- The FAULT notice of a record (13 Table 13.10, type 0x01). -/
def State.faultNotice (s : State) (i : Nat) : State :=
  let r := s.record i
  let cls := (r.extractLsb' 72 4).toNat
  let perm := (r.extractLsb' 76 1).toNat
  s.notice 0 0x01 (if 4 ≤ cls ∨ perm = 1 then 3 else 2) (r.extractLsb' 64 8).toNat
    (i + cls * 2 ^ 4 + perm * 2 ^ 8) (r.extractLsb' 0 64).toNat [r]

/-- The bit of a source in FLT_MERGED0 or FLT_MERGED1 (11 Table 11.8). -/
def State.setMerged (s : State) (src : Nat) : State :=
  if src < 64 then s.setReg FLT_MERGED0.reg (s.reg FLT_MERGED0.reg ||| (1#64 <<< src))
  else s.setReg FLT_MERGED1.reg (s.reg FLT_MERGED1.reg ||| (1#64 <<< (src - 64)))

/-- A record is opened, or the event merged into the open one (11 R349, R350). `cls` is the class field. -/
def State.openRecord (s : State) (src cls : Nat) (perm : Bool) (info : BitVec 40) : State :=
  if s.on FLT_HANDLING.FROZEN then s
  else
    let s' :=
      if s.on FLT_HANDLING.HANDLING then
        let i := s.rd FLT_HANDLING.RECORD
        let r := s.record i
        let old := r.extractLsb' 72 4
        let new := old ||| BitVec.ofNat 4 cls
        let merge := min 255 ((r.extractLsb' 80 8).toNat + 1)
        let r' := (r &&& ~~~(0xFF_1F00#128 <<< 64)) ||| ((new.setWidth 128) <<< 72)
          ||| (((r.extractLsb' 76 1 ||| BitVec.ofBool perm).setWidth 128) <<< 76) ||| ((BitVec.ofNat 128 merge) <<< 80)
        let s1 := ({ s with history := s.history.put 0#128 i r' }).setMerged src
        if 4 ≤ (new &&& ~~~old).toNat then s1.faultNotice i else s1
      else
        let i := s.rd FLT_HANDLING.NEXT
        let r := BitVec.ofNat 128 (s.now + src * 2 ^ 64 + cls * 2 ^ 72 + perm.toNat * 2 ^ 76 + info.toNat * 2 ^ 88)
        let s1 := { s with history := s.history.put 0#128 i r }
        let s2 := ((s1.wr FLT_HANDLING.HANDLING 1).wr FLT_HANDLING.RECORD i).wr FLT_HANDLING.NEXT ((i + 1) % 16)
        ((s2.setReg FLT_MERGED0.reg 0#64).setReg FLT_MERGED1.reg 0#64).faultNotice i
    -- a severe event ends DORMANT (09 R301)
    let s' := if cls / 2 % 2 = 1 then s'.dormTrigger 7 0 else s'
    if cls / 4 % 2 = 1 then (s'.wr FLT_HANDLING.FROZEN 1).stopPip 1 else s'

/-- Whether a source's pairs are ignored: wired wrongly, or its unit retired (11 R343, Table 11.7). -/
def State.srcIgnored (s : State) (src : Nat) : Bool :=
  s.on (FLT_SRC_COUNT.WIRED src) || s.on (FLT_SRC_COUNT.RETIRED src)

/-- Escalation as permanent (11 R347): PERM, both counters cleared, a severe record with PERM, fatal where ACTION is 10. -/
def State.escalate (s : State) (src : Nat) (minor : Bool) (info : BitVec 40) : State :=
  let s' := ((s.wr (FLT_SRC_COUNT.PERM src) 1).wr (FLT_SRC_COUNT.CNT_A src) 0).wr (FLT_SRC_COUNT.CNT_B src) 0
  let fatal := if s.rd (FLT_SRC_CFG.ACTION src) = 2 then 4 else 0
  s'.openRecord src (2 + minor.toNat + fatal) true info

/-- The two window counters take one count (11 R345, R347). -/
def State.windowCount (s : State) (src : Nat) : State :=
  ((s.inc (FLT_SRC_COUNT.CNT_A src)).inc (FLT_SRC_COUNT.CNT_B src))

/-- Whether a window counter has reached the threshold (11 R347). -/
def State.atThreshold (s : State) (src : Nat) : Bool :=
  faultThreshold s src ≤ s.rd (FLT_SRC_COUNT.CNT_A src) || faultThreshold s src ≤ s.rd (FLT_SRC_COUNT.CNT_B src)

/-- Firmware keeps the uncorrectable array events of a slice that lie in its window (11 R362). -/
def State.noteArray (s : State) (src : Nat) (info : BitVec 40) : State :=
  if 0x10 ≤ src ∧ src < 0x22 ∧ (info.extractLsb' 0 10).toNat < 704 then
    let w := max 1 (s.rd (FLT_SRC_CFG.W_US src))
    { s with fw := { s.fw with
      arrayEvents := (s.fw.arrayEvents.filter fun e => e.2.1 != src || decide (s.now < e.1 + w)) ++ [(s.now, src, info)] } }
  else s

/-- A major event of a source (11 R342, R345, R348); the event that escalates its source is recorded once, with PERM. -/
def State.major (s : State) (src : Nat) (info : BitVec 40) : State :=
  if s.srcIgnored src then s
  else
    let s1 := (s.noteArray src info).inc (FLT_SRC_COUNT.UE_TOTAL src)
    if s.on (FLT_SRC_CFG.MASK src) then s1
    else if s.on (FLT_SRC_COUNT.PERM src) then s1.openRecord src 2 false info
    else
      let s2 := s1.windowCount src
      if s2.atThreshold src then s2.escalate src false info else s2.openRecord src 2 false info

/-- A minor event of a source: totalled, and one count for every 2^CE_SHIFT of them (11 R345). -/
def State.minor (s : State) (src : Nat) (info : BitVec 40) : State :=
  if s.srcIgnored src then s
  else
    let n := s.minors.look 0 src + 1
    let s0 := s.inc (FLT_SRC_COUNT.CE_TOTAL src)
    let s1 := { s0 with minors := s0.minors.put 0 src n }
    let shift := s.rd (FLT_SRC_CFG.CE_SHIFT src)
    if s.on (FLT_SRC_CFG.MASK src) || s.on (FLT_SRC_COUNT.PERM src) || shift == 15 || n % 2 ^ shift != 0 then s1
    else
      let s2 := s1.windowCount src
      if s2.atThreshold src then s2.escalate src true info else s2

/-- A fatal declaration of a source (11 R342, R348): totalled, never counted in A or B. -/
def State.fatal (s : State) (src : Nat) (info : BitVec 40) : State :=
  if s.srcIgnored src then s
  else ((s.inc (FLT_SRC_COUNT.UE_TOTAL src)).wr (FLT_SRC_COUNT.FATAL src) 1).openRecord src 4 false info

/-- The info word of a line event (11 R512): the event code and DPA[47:22]. -/
def lineEventInfo (code line : Nat) : BitVec 40 :=
  BitVec.ofNat 40 (0x3FE + code * 2 ^ 10 + (line / 2 ^ 16) * 2 ^ 14)

/-- The info word of an array event (11 Table 11.2). -/
def arrayInfo (macroId word : Nat) (lower uncorr injected unspared : Bool) (set : Nat) : BitVec 40 :=
  BitVec.ofNat 40 (macroId % 1024 + (word % 2048) * 2 ^ 10 + lower.toNat * 2 ^ 21 + uncorr.toNat * 2 ^ 22
    + injected.toNat * 2 ^ 23 + unspared.toNat * 2 ^ 24 + (set % 32768) * 2 ^ 25)

/-- The info word of a queue event (13 Table 13.2). -/
def queueInfo (q event : Nat) : BitVec 40 := BitVec.ofNat 40 (0x3FF + q * 2 ^ 10 + event * 2 ^ 17)

/-! ### Control SRAM -/

/-- The byte of the control SRAM at an address; an unlisted byte reads 0 (10 R318). -/
def Sram.look (a : Nat) : List Host.Cell → Byte
  | [] => 0#8
  | (b, v) :: r => if b = a then v else Sram.look a r

/-- A byte of the control SRAM written; a zero byte is not listed. -/
def Sram.put (a : Nat) (v : Byte) (m : List Host.Cell) : List Host.Cell := Tbl.put 0#8 a v m

/-- The canonical form of the control SRAM: addresses strictly rising, no zero byte listed. -/
def Memory.wf (m : List Host.Cell) : Bool := Tbl.wf (fun _ => 0#8) m

/-- Bytes written into the control SRAM from an address, lowest first. -/
def State.sramWrite (s : State) (a : Nat) (bs : List Byte) : State :=
  { s with sram := (bs.zipIdx).foldl (fun m b => Sram.put (a + b.2) b.1 m) s.sram }

end Sys2Proof.Machine
end

