-- ==== Sys2Proof/Machine/Operands.lean ====
section
/-! DEFINITION. Operand forms: the fields of a DPA (01 R24), the slice hash and map (01 R26, R28), region entries (01 R33),
directory entries (04 R122), filter entries, byte enables, payload bytes. A line is named by its number DPA[47:6]. -/

namespace Sys2Proof.Machine

/-! ### The device physical address -/

/-- The line of an address (01 R24). -/
def lineOf (a : Word) : Nat := (a.extractLsb' 6 42).toNat
/-- The DPA of a line's first byte. -/
def dpaOf (line : Nat) : Nat := line * 64
/-- The line's place in its sector, DPA[7:6]. -/
def lineInSector (line : Nat) : Nat := line % 4
/-- The sector of a line, DPA[47:8]. -/
def sectorOf (line : Nat) : Nat := line / 4
/-- The home cache set, DPA[18:6]. -/
def hcSet (line : Nat) : Nat := line % 8192
/-- The home cache tag, DPA[47:19]. -/
def hcTag (line : Nat) : Nat := line / 8192
/-- The snoop filter set, DPA[22:8]. -/
def sfSet (line : Nat) : Nat := line / 4 % 32768
/-- The snoop filter tag, DPA[47:23]. -/
def sfTag (line : Nat) : Nat := line / 131072
/-- The spill map chunk, DPA[47:26]. -/
def chunkOf (line : Nat) : Nat := line / 2 ^ 20
/-- The region table index, DPA[47:34]. -/
def regionOf (line : Nat) : Nat := line / 2 ^ 28
/-- Whether address bits above DPA bit 47 are all 0 (02 R52). -/
def addrFits (a : Word) : Bool := a.extractLsb' 48 16 == 0#16

/-- The XOR of the ten nibbles of a sector number (01 R26). -/
def foldNibbles (sector : Nat) : Nat :=
  (List.range 10).foldl (fun a k => a ^^^ (sector / 16 ^ k % 16)) 0

/-- The logical slice of a line under the hash in force (01 R26). -/
def State.lsOf (s : State) (line : Nat) : Nat :=
  if s.on GLB_HASH_CTRL.MODE then sectorOf line % 16 else foldNibbles (sectorOf line)

/-- Byte `j` of the slice map (01 R28). -/
def mapByte (ls : Nat) : Fld := ⟨if ls < 8 then GLB_SLICE_MAP0.reg else GLB_SLICE_MAP1.reg, 8 * (ls % 8), 8⟩
/-- The PS field of a logical slice (01 Table 1.5). -/
def mapPs (ls : Nat) : Fld := { mapByte ls with w := 5 }
/-- The HOLD bit of a logical slice (01 Table 1.5). -/
def mapHold (ls : Nat) : Fld := { mapByte ls with lo := 8 * (ls % 8) + 7, w := 1 }

/-- A number as a physical slice; the map never holds one above 17 (01 R31). -/
def toSlice (n : Nat) : PhysSlice := Fin.ofNat 18 n

/-- The physical slice that serves a logical slice (01 R28). -/
def State.psOf (s : State) (ls : Nat) : PhysSlice := toSlice (s.rd (mapPs ls))

/-- The physical slice that is a line's home now (01 R29). -/
def State.homeOf (s : State) (line : Nat) : PhysSlice := s.psOf (s.lsOf line)

/-- The stop that holds a chunk's spill map bit: logical slice `c[3:0]` (04 R124). -/
def State.holderOf (s : State) (chunk : Nat) : PhysSlice := s.psOf (chunk % 16)

/-! ### Region entries (01 R33) -/

/-- The entry of a line's region as its home holds it. -/
def State.region (s : State) (p : PhysSlice) (line : Nat) : BitVec 32 := (s.sl p).regions.look 0#32 (regionOf line)

/-- MODE of a region entry: 0 disabled, 1 tracked-shared, 2 tracked-private, 3 untracked-private. -/
def rgMode (r : BitVec 32) : Nat := (r.extractLsb' 0 2).toNat
/-- SPILL of a region entry: recall-only. -/
def rgSpill (r : BitVec 32) : Bool := r.getLsbD 2
/-- OLOSS of a region entry: revert. -/
def rgRevert (r : BitVec 32) : Bool := r.getLsbD 3
/-- KEY of a region entry. -/
def rgKey (r : BitVec 32) : Nat := (r.extractLsb' 4 6).toNat
/-- MASK of a region entry. -/
def rgMask (r : BitVec 32) : HostSet := r.extractLsb' 16 16
/-- Whether a region is tracked. -/
def rgTracked (r : BitVec 32) : Bool := rgMode r == 1 || rgMode r == 2

/-! ### Host sets -/

/-- The set of one host. -/
def hsOne (h : HostId) : HostSet := 1#16 <<< h.val
/-- Membership. -/
def hsMem (v : HostSet) (h : HostId) : Bool := v.getLsbD h.val
/-- A set without a host. -/
def hsDel (v : HostSet) (h : HostId) : HostSet := v &&& ~~~(hsOne h)
/-- A set with a host. -/
def hsAdd (v : HostSet) (h : HostId) : HostSet := v ||| hsOne h
/-- The hosts of a set, in order of number. -/
def hsList (v : HostSet) : List HostId := allHosts.filter (hsMem v)
/-- The set of a list of hosts. -/
def hsOf (l : List HostId) : HostSet := l.foldl hsAdd 0#16

/-! ### Directory entries (04 R122, R123) -/

/-- STATE of a directory entry. -/
def deState (e : DirEntry) : Nat := (e.extractLsb' 0 2).toNat
/-- EPOCH of a directory entry. -/
def deEpoch (e : DirEntry) : BitVec 12 := e.extractLsb' 2 12
/-- PRESENCE of an entry of state 01. -/
def dePresence (e : DirEntry) : HostSet := e.extractLsb' 14 16
/-- OWNER of an entry of state 10 or 11. -/
def deOwner (e : DirEntry) : HostId := Fin.ofNat 16 (e.extractLsb' 14 4).toNat
/-- OINC of an entry of state 10 or 11. -/
def deInc (e : DirEntry) : BitVec 12 := e.extractLsb' 18 12
/-- POISON of a directory entry. -/
def dePoison (e : DirEntry) : Bool := e.getLsbD 30

/-- Bit [30] of an entry set to a poison flag. -/
def dePut30 (e : DirEntry) (poison : Bool) : DirEntry :=
  (e &&& ~~~0x4000_0000#32) ||| (if poison then 0x4000_0000#32 else 0#32)

/-- An entry of state 00 in an epoch (04 R123). -/
def deNone (epoch : BitVec 12) (poison : Bool) : DirEntry := dePut30 (epoch.setWidth 32 <<< 2) poison
/-- An entry of state 01 with its presence vector. -/
def deShared (epoch : BitVec 12) (v : HostSet) (poison : Bool) : DirEntry :=
  dePut30 (1#32 ||| epoch.setWidth 32 <<< 2 ||| v.setWidth 32 <<< 14) poison
/-- An entry of state 10 or 11 with its owner and incarnation. -/
def deOwned (state : BitVec 2) (epoch : BitVec 12) (g : HostId) (inc : BitVec 12) (poison : Bool) : DirEntry :=
  dePut30 (state.setWidth 32 ||| epoch.setWidth 32 <<< 2 ||| BitVec.ofNat 32 g.val <<< 14 ||| inc.setWidth 32 <<< 18) poison

/-- The current epoch. -/
def State.epoch (s : State) : BitVec 12 := BitVec.ofNat 12 (s.rd GLB_EPOCH.EPOCH)
/-- A host's current incarnation (02 R73). -/
def State.inc12 (s : State) (h : HostId) : BitVec 12 := BitVec.ofNat 12 (s.rd (GLB_HOST_INCARN.INCARN h.val))

/-- The directory entry that records a tracking state in the current epoch (03 R95, 04 R123). X is never recorded. -/
def State.dirOf (s : State) (st : Tracking) (poison : Bool) : DirEntry :=
  match st with
  | .i => deNone s.epoch poison
  | .s v => deShared s.epoch v poison
  | .e g => deOwned 2#2 s.epoch g (s.inc12 g) poison
  | .x v => deShared s.epoch v poison
  | .ol g inc => deOwned 3#2 s.epoch g inc poison

/-- The tracking state a directory entry decodes to: the rows of 03 Table 3.4 after the first. `mask` is V_mask. -/
def State.decodeDir (s : State) (mask : HostSet) (e : DirEntry) : Tracking :=
  if deEpoch e ≠ s.epoch then .i
  else if s.on GLB_EPOCH.DISTRUST then .x mask
  else match deState e with
    | 0 => .i
    | 1 => if dePresence e = 0#16 then .i else .s (dePresence e)
    | 2 =>
      if deInc e = s.inc12 (deOwner e) ∧ (s.port (deOwner e)).urgent = none then .e (deOwner e)
      else .ol (deOwner e) (deInc e)
    | _ => .ol (deOwner e) (deInc e)

/-! ### Snoop filter entries (04 R111) -/

/-- The state of line `k` of a sector: 0 I, 1 S, 2 E, 3 spilled. -/
def FilterEntry.lst (f : FilterEntry) (k : Nat) : Nat := (f.lstate.extractLsb' (2 * k) 2).toNat

/-- The entry with the state of line `k` set. -/
def FilterEntry.setLst (f : FilterEntry) (k x : Nat) : FilterEntry :=
  { f with lstate := (f.lstate &&& ~~~(3#8 <<< (2 * k))) ||| (BitVec.ofNat 8 (x % 4) <<< (2 * k)) }

/-- Whether a line other than `k` is in state 10, so that the owner field is valid without line `k`. -/
def FilterEntry.ownedBut (f : FilterEntry) (k : Nat) : Bool :=
  (List.range 4).any fun j => j != k && f.lst j == 2

/-- Whether any line is in state 10: the owner field is valid. -/
def FilterEntry.owned (f : FilterEntry) : Bool := (List.range 4).any fun j => f.lst j == 2

/-- Whether every line is in state I or 11 (03 R94). -/
def FilterEntry.quiet (f : FilterEntry) : Bool := (List.range 4).all fun j => f.lst j == 0 || f.lst j == 3

/-- 03 R94: with every line I or 11 the presence vector clears; with every line I the entry is freed; and the owner field
means nothing while no line is 10. -/
def FilterEntry.settle (f : FilterEntry) : FilterEntry :=
  let f1 := if f.owned then f else { f with owner := 0, oinc := 0#4 }
  let f2 := if f1.quiet then { f1 with presence := 0#16 } else f1
  if f2.lstate = 0#8 then { f2 with valid := false } else f2

/-! ### Byte enables and data -/

/-- The bit mask of the enabled bytes of a line. -/
def maskBits (be : ByteMask) : LineData :=
  (List.range 64).foldl (fun m k => if be.getLsbD k then m ||| (0xFF#512 <<< (8 * k)) else m) 0#512

/-- The enabled bytes of `new` merged into `old` (02 R53). -/
def mergeBytes (old new : LineData) (be : ByteMask) : LineData :=
  let m := maskBits be
  (old &&& ~~~m) ||| (new &&& m)

/-- The enables of `n` bytes from byte `o` of a line. -/
def enables (o n : Nat) : ByteMask := BitVec.ofNat 64 ((2 ^ n - 1) * 2 ^ o)

/-- The bytes of a little-endian number. -/
def leBytes (n v : Nat) : List Byte := (List.range n).map fun i => BitVec.ofNat 8 (v / 256 ^ i)

/-- The number that bytes `o` to `o + n - 1` of a payload hold, least significant first; absent bytes read 0. -/
def leAt (b : List Byte) (o n : Nat) : Nat :=
  (List.range n).foldl (fun a i => a + ((b[o + i]?).getD 0#8).toNat * 256 ^ i) 0

end Sys2Proof.Machine
end

