-- ==== Sys2Proof/Machine/Flags.lean ====
section
/-! DEFINITION. Every status value that the spec computes from other state when it is read: the counts and flags of slices,
ports, queues and channels, DevLoad, quiescence, the conditions that bar DORMANT, and the register view. -/

namespace Sys2Proof.Machine

/-! ### Trackers and the wait queue (07 R223, R235) -/

/-- Whether a request's class takes a background tracker (07 Table 7.1). -/
def ReqClass.background : ReqClass → Bool
  | .sweep | .scrub | .range => true
  | _ => false

/-- The tracker class of a request class (07 Table 7.1). -/
def ReqClass.tracker : ReqClass → TrackerClass
  | .rekey | .urgent => .service
  | .sweep | .scrub | .range => .background
  | _ => .demand

/-- Whether a request comes from the IA stop (07 Table 7.1): an access of a control core or of a DMA engine, or the recall of a line that
firmware asks for (01 R40). -/
def Request.fromIa (r : Request) : Bool :=
  match r.agent with
  | .host _ => false
  | .ia _ => r.cls.tracker == .demand

/-- The agents that derive a line's directory entry under their tracker: the sweeper and the urgent directed pass (04 R132, R140). -/
def ReqClass.agent : ReqClass → Bool
  | .sweep | .urgent => true
  | _ => false

/-- Whether a request is a write of a host or of IA. -/
def ReqClass.write : ReqClass → Bool
  | .wrFull | .wrPtl | .iaWr | .condStore => true
  | _ => false

/-- Whether a request returns the line's data (03 Table 3.12). -/
def ReqClass.read : ReqClass → Bool
  | .rdShared | .rdOwn | .rdCur | .iaRd | .resLoad => true
  | _ => false

/-- TRK_USED: the trackers allocated in a slice. -/
def Slice.trkUsed (x : Slice) : Nat := x.trackers.length
/-- IA_USED. -/
def Slice.iaUsed (x : Slice) : Nat := x.trackers.countP fun t => t.req.fromIa
/-- BG_USED. -/
def Slice.bgUsed (x : Slice) : Nat := x.trackers.countP fun t => t.req.cls.background
/-- The trackers a host holds in a slice. -/
def Slice.hostUsed (x : Slice) (h : HostId) : Nat := x.trackers.countP fun t => t.req.agent == .host h
/-- Whether a tracker holds a line. -/
def Slice.held (x : Slice) (line : Nat) : Bool := x.trackers.any fun t => t.req.line == line
/-- Whether a tracker holds a line of a sector. -/
def Slice.sectorHeld (x : Slice) (sector : Nat) : Bool := x.trackers.any fun t => sectorOf t.req.line == sector
/-- Whether a sector is a victim being spilled or recalled (04 R118). -/
def Slice.sectorVictim (x : Slice) (sector : Nat) : Bool :=
  x.victims.any fun v => v.entry.tag * 32768 + v.set == sector

/-! ### Ways in service -/

/-- The way that a running move has taken over in a set it has passed, else the way of the spare-for field (11 R363). -/
def Slice.spareIn (x : Slice) (filter : Bool) (set own : Nat) : Nat :=
  match x.move with
  | some m => if m.filter == filter && decide (set < m.set) then m.way else own
  | none => own
/-- The home-cache way number that physical way 16 stands in for in a set; values above 15 act as 16 (05 R147, R164). -/
def State.hcSpare (s : State) (p : PhysSlice) (set : Nat) : Nat :=
  (s.sl p).spareIn false set (min 16 (s.rd (SL_HC_CTRL.SPARE_FOR p.val)))
/-- The filter way that physical way 16 stands in for in a set (04 R113, 11 R364). -/
def State.sfSpare (s : State) (p : PhysSlice) (set : Nat) : Nat :=
  (s.sl p).spareIn true set (min 16 (s.rd (SL_CTRL.SF_SPARE_FOR p.val)))

/-- The ways in service, way number first, then physical way (05 R147). -/
def waysInService (spare : Nat) : List (Nat × Nat) :=
  (List.range 16).map fun n => (n, if n = spare then 16 else n)

/-! ### Dirty lines (05 R158 to R161) -/

/-- The dirty count of a slice (05 R158). -/
def Slice.dirtyCount (x : Slice) : Nat := x.cache.countP (fun e => e.2.tagA.valid && e.2.tagA.dirty) + x.evict.length

/-- The quota of a slice in lines; BUDGET_MIB 0 acts as 1 (05 R158, R159). -/
def State.quota (s : State) : Nat := max 1 (s.rd GLB_DIRTY_BUDGET.BUDGET_MIB) * 1024

/-- Whether a slice's dirty count is at or above its quota. -/
def State.atQuota (s : State) (p : PhysSlice) : Bool := decide (s.quota ≤ (s.sl p).dirtyCount)

/-- Whether the slice map names a slice (11 Table 11.13). -/
def State.active (s : State) (p : PhysSlice) : Bool := (List.range 16).any fun j => s.rd (mapPs j) == p.val

/-- Whether a slice is husked (11 R364). -/
def State.slHusked (s : State) (p : PhysSlice) : Bool := s.on (SL_CTRL.HUSK p.val)

/-- The active slices, in order of number. -/
def State.activeSlices (s : State) : List PhysSlice := allSlices.filter fun p => s.active p && !s.slHusked p

/-- DIRTY_LINES as the µs tick samples it (05 Table 5.2). -/
def State.dirtyLines (s : State) : Nat := (s.activeSlices.map fun p => (s.sl p).dirtyCount).sum

/-- DevLoad of a response served by a slice (02 Table 2.7). -/
def State.devLoad (s : State) (p : PhysSlice) : DevLoad :=
  let n := (s.sl p).trkUsed
  if 692 ≤ n then .severe
  else if 576 ≤ n ∨ s.atQuota p then .moderate
  else if 384 ≤ n then .optimal
  else .light

/-- The slice of a snoop's or spill map message's holder. -/
def SnoopOwner.slice : SnoopOwner → PhysSlice
  | .tracker p _ | .victim p _ => p

/-- Whether a slice is quiescent (07 R250). -/
def State.quiescent (s : State) (p : PhysSlice) : Bool :=
  let x := s.sl p
  let setOut := s.fabric.any fun e => match e.2 with | some m => m.set && m.owner.slice == p | none => false
  !setOut &&
  x.trackers.isEmpty && x.waitq.isEmpty && x.evict.isEmpty && x.victims.isEmpty
    && !x.cache.any (fun e => e.2.tagA.valid && e.2.tagA.dirty)
    && !x.filter.any (fun e => e.2.entry.valid)

/-! ### Modes -/

/-- Whether ways 4 to 15 are no candidates: DORMANT, or its entry from step 1 onwards (05 R157, 09 R300). -/
def State.dormantWays (s : State) (p : PhysSlice) : Bool := (s.sl p).dormantWays

/-- Whether every write of a slice is written through (05 R166): WT, NO_ALLOC, DRAIN. -/
def State.writeThrough (s : State) (p : PhysSlice) : Bool :=
  s.on GLB_PERSIST_CTRL.WT || s.on (SL_HC_CTRL.NO_ALLOC p.val) || s.mode == 4

/-- GSTATE of a group is not normal (06 R214). -/
def State.abnormal (s : State) (g : Nat) : Bool := s.rd (MF_GROUP_MAP.GSTATE g) != 0

/-- The conditions that bar entry to DORMANT (09 R299). The last exit from DORMANT or REPAIR is kept by the always-on island. -/
def State.dormBlocked (s : State) : Bool :=
  s.on HC_RANGE_STATUS.BUSY || (List.range 4).any s.abnormal || s.on MF_CTRL.RESYNC_BUSY
    || s.mf.rekey.page.isSome || !s.mf.rekey.queue.isEmpty || s.on GLB_PASS_EPOCH.URGENT
    || allSlices.any (fun p => s.on (SL_CTRL.SF_DRAIN p.val)) || (List.range 16).any (fun j => s.on (mapHold j))
    || (match s.aon.dormantEnd with | some t => decide (s.now < t + 1000) | none => false)
    || (match s.aon.repairEnd with | some t => decide (s.now < t + 1000) | none => false)

/-! ### Ports -/

/-- Whether an odd port's pair is merged (02 R45). -/
def State.mergedAway (s : State) (h : HostId) : Bool := h.val % 2 == 1 && s.on (HP_CTRL.MERGE (h.val - 1))

/-- Whether a port takes snoops and messages: not husked, enabled, not merged away (03 R86). -/
def State.portLive (s : State) (h : HostId) : Bool :=
  s.on (HP_CTRL.ENABLE h.val) && !s.on (HP_CTRL.HUSK h.val) && !s.mergedAway h

/-! ### Crossings (01 R19, 13 R399) -/

/-- How many items a crossing holds: what its consumer has not taken. Slice egress and IA egress pass on at once (log 11). -/
def State.crossItems (s : State) (q : Nat) : Nat :=
  if q < 16 then (s.port (Fin.ofNat 16 q)).ingress.length
  else if q < 32 then (s.port (Fin.ofNat 16 (q - 16))).egress.length
  else if q < 50 then (s.sl (Fin.ofNat 18 (q - 32))).ingress.length
  else if q = 68 then s.iaIngress.length
  else 0

/-- The occupancy of a queue; what its sender holds back beyond the two banks of a crossing is not in it (13 R399, R402). -/
def State.pqOcc (s : State) (q : Nat) : Nat := if q < 70 then min (2 * bankDepth q) (s.crossItems q) else (s.pq q).occ

/-- Whether a queue's fill bank has no free item (13 Table 13.5). -/
def State.pqFull (s : State) (q : Nat) : Bool :=
  if q < 70 then decide (2 * bankDepth q ≤ s.crossItems q) else decide (bankDepth q ≤ (s.pq q).fill.length)

/-- The interrupt of a queue: for a crossing the QUEUE_LEVEL notice (13 R404, Table 13.10). -/
def State.queueInterrupt (s : State) (q : Nat) : State :=
  if 70 ≤ q then s.pqInterrupt q
  else if s.on (PQ_CTRL.LEVEL_IE q) then s.notice 0 0x03 0 0 q (s.pqOcc q)
  else s

/-- LEVEL_HIT of a crossing sets where its occupancy has risen through LEVEL from `before` (13 R404). -/
def State.crossRise (s : State) (q before : Nat) : State :=
  let l := s.rd (PQ_LEVEL.LEVEL q)
  if l ≠ 0 ∧ before < l ∧ l ≤ s.pqOcc q then (s.wr (PQ_STATUS.LEVEL_HIT q) 1).queueInterrupt q else s

/-- The size of a port's snoop table; 0 acts as 1 (02 R69). -/
def State.bisnpMax (s : State) (h : HostId) : Nat := max 1 (s.rd (HP_CREDITS.BISNP_MAX h.val))

/-- The tracker share of a host; values below 16 act as 16 (02 R69). -/
def State.trkMax (s : State) (h : HostId) : Nat := max 16 (s.rd (HP_CREDITS.TRK_MAX h.val))

/-- The depth of a slice's spill bucket; 0 acts as 1 (04 Table 4.4). -/
def State.spillBurst (s : State) (p : PhysSlice) : Nat := max 1 (s.rd (SL_SF_CTRL.SPILL_BURST p.val))

/-- The tracker limit of the IA stop; values below 8 act as 8 (07 R236). -/
def State.iaMax (s : State) (p : PhysSlice) : Nat := max 8 (s.rd (SL_WAITQ_AGING.IA_MAX p.val))

/-- The tracker limit of background agents, between 16 and 48 (07 R236). -/
def State.bgMax (s : State) (p : PhysSlice) : Nat := min 48 (max 16 (s.rd (SL_WAITQ_AGING.BG_MAX p.val)))

/-! ### Channels (06 R192, R195) -/

/-- The queue depth of a channel: its operations placed and not yet answered. -/
def State.chanDepth (s : State) (c : Nat) : Nat :=
  s.mf.chops.countP fun e => match e.2 with | some o => o.chan.val == c && o.queued | none => false

/-- The load band of a queue depth (06 Table 6.5). -/
def bandOf (depth : Nat) : Nat := if depth < 4 then 0 else if depth < 16 then 1 else if depth < 48 then 2 else 3

/-- The deadline in force of a channel and band, bounded by DL_MIN and DL_MAX (06 R198). -/
def State.deadline (s : State) (c band : Nat) : Nat :=
  min (min 900 (s.rd MF_HEDGE_CTRL.DL_MAX)) (max (s.rd MF_HEDGE_CTRL.DL_MIN)
    (let b := s.mf.bands.look BandTable.untrained (c * 4 + band); if b.trained then b.deadline else 900))

/-! ### The cleaner (05 R162) -/

/-- Whether a slice holds a Dirty line in a way. -/
def Slice.anyDirty (x : Slice) : Bool := x.cache.any fun e => e.2.tagA.valid && e.2.tagA.dirty

/-- Whether the cleaner stays active for as long as a Dirty line is held: NO_ALLOC, WT, DRAIN (05 R162, 07 R254). -/
def State.cleanerForced (s : State) (p : PhysSlice) : Bool :=
  s.on (SL_HC_CTRL.NO_ALLOC p.val) || s.on GLB_PERSIST_CTRL.WT || s.mode == 4

/-- Whether a slice's cleaner is active, from what it was and the dirty count (05 R162). -/
def State.cleanerActive (s : State) (p : PhysSlice) : Bool :=
  let x := s.sl p
  let n := x.dirtyCount
  let hi := min 100 (s.rd (SL_HC_CTRL.CLEAN_HI p.val)) * s.quota / 100
  let lo := s.rd (SL_HC_CTRL.CLEAN_LO p.val) * s.quota / 100
  if s.cleanerForced p && x.anyDirty then true
  else if s.on (SL_HC_CTRL.CLEANER p.val) then (if lo < hi then decide (lo < n) else decide (hi ≤ n))
  else decide (hi ≤ n)

/-! ### The register view -/

/-- The word that a read of a register returns: the fields the spec computes at the read are filled in. -/
def State.viewHp (s : State) (h : HostId) (k : Nat) (v : Word) : Word :=
  if k = 0x008 then
    let v := putBits v 3 1 (s.mergedAway h).toNat
    putBits v 16 8 (s.port h).table.length
  else v

/-- The slice registers as read (05 R164, 07 R235, 11 R365, 04 R120). -/
def State.viewSl (s : State) (p : PhysSlice) (k : Nat) (v : Word) : Word :=
  let x := s.sl p
  if k = 0x008 then
    let v := putBits v 0 1 (s.active p).toNat
    let v := putBits v 1 1 (!s.active p && !s.slHusked p).toNat
    let v := putBits v 2 1 (s.slHusked p).toNat
    let v := putBits v 5 1 (s.quiescent p).toNat
    let v := putBits v 8 7 (min 64 x.blind.length)
    putBits v 16 20 (x.filter.countP fun e => e.2.entry.valid)
  else if k = 0x018 then putBits v 7 1 (decide (s.rd PWR_STATUS.CEIL < s.rd (SL_DVFS.OPP_TARGET p.val))).toNat
  else if k = 0x020 then
    let v := putBits v 0 10 x.trkUsed
    let v := putBits v 10 7 x.iaUsed
    let v := putBits v 17 7 x.bgUsed
    let v := putBits v 24 12 x.waitq.length
    putBits v 36 1 (x.waitq.any fun w => w.aged).toNat
  else if k = 0x030 then
    let v := putBits v 24 1 (s.cleanerActive p).toNat
    let v := putBits v 25 1 (s.atQuota p).toNat
    let v := putBits v 26 1 (decide (32 ≤ x.evict.length)).toNat
    let v := putBits v 32 18 x.dirtyCount
    putBits v 50 6 x.evict.length
  else v

/-- The mailbox registers below the payload, in the layout of the CXL memory-device mailbox (13 R421; the places of the bits are
PRESUMED, log 18). -/
def MbxState.view (x : MbxState) (doorbell running : Bool) (k : Nat) : Word :=
  if k = 0 then
    BitVec.ofNat 64 (12 + 2 ^ 5 + 2 ^ 6 + doorbell.toNat * 2 ^ 32 + x.intEnable.toNat * 2 ^ 33 + x.bgIntEnable.toNat * 2 ^ 34)
  else if k = 8 then BitVec.ofNat 64 (x.opcode.toNat + x.len % 2 ^ 21 * 2 ^ 16)
  else if k = 0x10 then BitVec.ofNat 64 (running.toNat + x.rc.toNat * 2 ^ 32)
  else if k = 0x18 then BitVec.ofNat 64 (x.bgOpcode.toNat + x.bgPercent * 2 ^ 16 + x.bgRc.toNat * 2 ^ 32)
  else BitVec.ofNat 64 ((List.range 8).foldl (fun a i => a + ((x.payload[k - 0x20 + i]?).getD 0#8).toNat * 256 ^ i) 0)

/-- The word a load of a register returns (16 R470 and the owners' tables). -/
def State.view (s : State) (off : Nat) : Word :=
  let v := s.reg off
  if off = GLB_DIRTY_BUDGET.reg then putBits v 8 1 (s.activeSlices.any s.atQuota).toNat
  else if off = GLB_PERSIST_CTRL.reg then
    putBits v 1 1 (s.on GLB_PERSIST_CTRL.WT && allSlices.all fun p => (s.sl p).dirtyWhenWt.isEmpty).toNat
  else if off = PWR_STATUS.reg then
    let v := putBits v 0 10 (Config.powerEstimate s.now).toNat
    let v := putBits v 21 1 (decide (s.rd PWR_STATUS.CEIL < 7)).toNat
    putBits v 22 1 s.dormBlocked.toNat
  else if off = MF_REKEY_STATUS.reg then
    let r := s.mf.rekey
    let v := putBits v 0 1 r.page.isSome.toNat
    let v := putBits v 1 5 r.queue.length
    match r.page with
    | some pg => putBits (putBits v 8 6 r.pos) 16 36 pg
    | none => putBits (putBits v 8 6 0) 16 36 0
  else if off = FLT_WD_FEED.reg then
    putBits v 16 16 (min 65535 (s.aon.wdStart + max 1 (s.rd FLT_PIP_CTRL.WD_MS) - s.now / 1000))
  else if off = PMU_SAMPLE_STATUS.reg then putBits v 0 13 s.samples.length
  else if 0x50900 ≤ off ∧ off < 0x50A00 then
    (s.record ((off - 0x50900) / 16)).extractLsb' (if off % 16 = 0 then 0 else 64) 64
  else if 0x60000 ≤ off ∧ off < 0x61020 then
    s.mbxP.view (s.on MBX_CTRL.P_DOORBELL) (match s.fw.bg with | some b => b.mb == .primary | none => false) (off - 0x60000)
  else if 0x62000 ≤ off ∧ off < 0x63020 then
    s.mbxS.view (s.on MBX_CTRL.S_DOORBELL) (match s.fw.bg with | some b => b.mb == .secondary | none => false) (off - 0x62000)
  else if 0x8F040 ≤ off ∧ off < 0x8F060 then
    match s.samples with
    | [] => 0#64
    | r :: _ => r.extractLsb' (8 * (off - 0x8F040)) 64
  else if 0x10000 ≤ off ∧ off < 0x14000 then s.viewHp (Fin.ofNat 16 ((off - 0x10000) / 0x400)) (off % 0x400) v
  else if 0x20000 ≤ off ∧ off < 0x32000 then s.viewSl (Fin.ofNat 18 ((off - 0x20000) / 0x1000)) (off % 0x1000) v
  else if MF_CH_STATE.reg 0 ≤ off ∧ off ≤ MF_CH_STATE.reg 37 then
    let d := s.chanDepth ((off - MF_CH_STATE.reg 0) / 8)
    putBits (putBits v 16 8 (min 255 d)) 24 2 (bandOf d)
  else if 0x58000 ≤ off ∧ off < 0x5CC00 ∧ off % 0x100 = 0x08 then
    let q := (off - 0x58000) / 0x100
    let x := s.pq q
    let v := putBits v 0 10 (s.pqOcc q)
    let v := putBits v 10 1 (s.pqFull q).toNat
    putBits v 15 1 (!x.openBytes.isEmpty).toNat
  else if 0x80000 ≤ off ∧ off < 0x84F00 then BitVec.ofNat 64 (s.pmu.look 0 ((off - 0x80000) / 8))
  else if 0x88000 ≤ off ∧ off < 0x8CF00 then
    BitVec.ofNat 64 (s.snap.look 0 ((off - 0x88000) / 8))
  else v

end Sys2Proof.Machine
end

