-- ==== Sys2Proof/Machine/Ecc.lean ====
section
/-! DEFINITION. The checkers of a slice's arrays (10 R312 to R316, R335, R341): where an array's code words lie, what a read
finds, what a write leaves, the injections of the checker test mode, and the events reported.

The errors of a slice are listed by code word; a word with none is good. The spec numbers the macros of each array but not
the words in them: the layout below is PRESUMED (log 14). Buffers are keyed by the request or operation they serve. -/

namespace Sys2Proof.Machine

/-! ### Code words -/

/-- A code word: the array as SL_ECC_TEST.ARRAY numbers it, its macro and macro word (10 Table 10.1), which half, and the
set that its events name. -/
structure CodeWord where
  arr : Nat
  macroId : Nat
  word : Nat
  upper : Bool
  set : Nat
  deriving DecidableEq, Repr

/-- Both code words of a macro word. -/
def bothHalves (arr m w set : Nat) : List CodeWord := [⟨arr, m, w, false, set⟩, ⟨arr, m, w, true, set⟩]

/-- The code words of a line of the home-cache data array: four macro words. -/
def dataWords (set way : Nat) : List CodeWord :=
  (List.range 4).flatMap fun n => let i := set * 4 + n; bothHalves 0 (way * 16 + i / 2048) (i % 2048) set
/-- The code words of a tag word, copy A. -/
def tagAWords (set way : Nat) : List CodeWord := bothHalves 1 (272 + way * 4 + set / 2048) (set % 2048) set
/-- The code words of a tag word, copy B. -/
def tagBWords (set way : Nat) : List CodeWord := bothHalves 2 (340 + way * 4 + set / 2048) (set % 2048) set
/-- The code word of a filter entry: two entries to a macro word. -/
def filterWord (set way : Nat) : CodeWord :=
  ⟨3, 408 + way * 8 + set / 2 / 2048, set / 2 % 2048, set % 2 == 1, set⟩
/-- The code word of a tag echo: four echoes to a macro word. -/
def echoWord (set way : Nat) : CodeWord :=
  ⟨4, 544 + way * 4 + set / 4 / 2048, set / 4 % 2048, set / 2 % 2 == 1, set⟩
/-- The code word of a region entry: four entries to a macro word. -/
def regionWord (i : Nat) : CodeWord := ⟨5, 612 + i / 4 / 2048, i / 4 % 2048, i / 2 % 2 == 1, 0⟩
/-- The code words of the macro word that holds a chunk's spill map bit: 128 bits to a macro word. -/
def spillWords (chunk : Nat) : List CodeWord := bothHalves 6 614 (chunk / 16 / 128) 0

/-- The words of a macro of a slice array (10 Table 10.1); 0 for a number that names no macro. -/
def sliceMacroWords (m : Nat) : Nat :=
  if m < 615 then 2048 else if m < 618 then 1024 else if m = 618 then 128 else if m < 622 then 1536 else 0

/-- The words of a control or media-front macro; 0 for a number that names no macro. -/
def deviceMacroWords (m : Nat) : Nat :=
  if m < 32 then 2048 else if m = 32 then 1024 else if m < 35 then 256 else if m < 37 then 1280 else if m = 37 then 320 else 0

/-- A free remap entry. -/
def RemapEntry.none : RemapEntry := ⟨.free, 0⟩

/-- The entry of a macro that is active and names a word (10 R335). -/
def remapFor (t : Tbl RemapEntry) (m w : Nat) : Option Nat :=
  (List.range 8).find? fun e =>
    let r := t.look RemapEntry.none (m * 8 + e)
    (r.state == .active || r.state == .activeChaff) && r.word == w

/-- The word that serves a macro word: itself, or an active entry's spare. -/
def physWord (t : Tbl RemapEntry) (m w : Nat) : Nat := match remapFor t m w with | some e => 2048 + e | none => w

/-- The key of a code word in a list of errors, by its physical word. -/
def wordKey (m phys : Nat) (upper : Bool) : Nat := (m * 4096 + phys) * 2 + upper.toNat

/-- A code word with no error. -/
def WordError.none : WordError := ⟨[], false, false, false⟩

/-- What a checker finds: the code corrects two errors and detects three; chaff never reads good (10 R312, R313). A position of
80 or more flips nothing, and a bit flipped twice is as it was (10 R341). -/
def foundOf (flips : List Nat) (chaff : Bool) : Found :=
  let n := (flips.eraseDups.filter fun b => decide (b < 80) && flips.count b % 2 == 1).length
  if chaff || 3 ≤ n then .uncorrectable else if n = 0 then .good else .corrected

/-! ### Injections (10 R341) -/

/-- Whether nothing can be found in a slice's arrays: no stored error and no injection armed. -/
def State.eccIdle (s : State) (p : PhysSlice) : Bool := (s.sl p).errors.isEmpty && !s.on (SL_ECC_TEST.ARM p.val)

/-- The flips of the armed injection, where it matches an access. -/
def State.injection (s : State) (p : PhysSlice) (onWrite : Bool) (c : CodeWord) (anyWord : Bool) : Option (List Nat) :=
  if s.on (SL_ECC_TEST.ARM p.val) && s.on (SL_ECC_TEST.ON_WRITE p.val) == onWrite && s.rd (SL_ECC_TEST.ARRAY p.val) == c.arr
      && s.on (SL_ECC_TEST.LOWER_WORD p.val) == !c.upper && (s.on (SL_ECC_TEST.MATCH_ANY p.val) || anyWord
        || (s.rd (SL_ECC_TEST.WORD p.val) == c.word && s.rd (SL_ECC_TEST.MACRO p.val) == c.macroId)) then
    some [s.rd (SL_ECC_TEST.FLIP0 p.val), s.rd (SL_ECC_TEST.FLIP1 p.val), s.rd (SL_ECC_TEST.FLIP2 p.val)]
  else none

/-- An injection has fired: ARM clears, FIRED is set, the test mode locks (10 R340, R341). -/
def State.injected (s : State) (p : PhysSlice) : State :=
  (((s.wr (SL_ECC_TEST.ARM p.val) 0).wr (SL_ECC_TEST.FIRED p.val) 1).wr (SL_ECC_TEST_UNLOCK.UNLOCKED p.val) 0).modSl p fun x =>
    { x with eccUntil := none }

/-- A finding is reported to the slice's source (10 R315); with NO_ESCALATE an injected one is recorded but does not count
(10 R341). -/
def State.finding (s : State) (p : PhysSlice) (c : CodeWord) (f : Found) (injected quiet : Bool) : State :=
  let src := 0x10 + p.val
  let unspared := (List.range 8).all fun e => ((s.sl p).remap.look RemapEntry.none (c.macroId * 8 + e)).state != .free
  let info := arrayInfo c.macroId c.word (!c.upper) (f == .uncorrectable) injected unspared c.set
  match f, quiet && !s.srcIgnored src with
  | .good, _ => s
  | .corrected, true => s.inc (FLT_SRC_COUNT.CE_TOTAL src)
  | .corrected, false => s.minor src info
  | .uncorrectable, true => (s.inc (FLT_SRC_COUNT.UE_TOTAL src)).openRecord src 2 false info
  | .uncorrectable, false => s.major src info

/-- A read of a code word under key `k`: an armed read injection that matches acts on the word as read (10 R341). -/
def State.readKey (s : State) (p : PhysSlice) (c : CodeWord) (k : Nat) (anyWord : Bool) : State × Found :=
  let e := (s.sl p).errors.look WordError.none k
  match s.injection p false c anyWord with
  | some fl =>
    let quiet := s.on (SL_ECC_TEST.NO_ESCALATE p.val)
    let f := foundOf (e.flips ++ fl) e.chaff
    ((s.injected p).finding p c f true quiet, f)
  | none =>
    let f := foundOf e.flips e.chaff
    (s.finding p c f e.injected e.quiet, f)

/-- A write of a code word leaves it good, but for an armed write injection that matches (10 R314, R341). -/
def State.writeKey (s : State) (p : PhysSlice) (c : CodeWord) (k : Nat) (anyWord : Bool) : State :=
  match s.injection p true c anyWord with
  | some fl =>
    let quiet := s.on (SL_ECC_TEST.NO_ESCALATE p.val)
    (s.injected p).modSl p fun x => { x with errors := x.errors.put WordError.none k ⟨fl, false, true, quiet⟩ }
  | none => s.modSl p fun x => { x with errors := x.errors.put WordError.none k WordError.none }

/-! ### Reads and writes of arrays -/

/-- The key of a code word of a slice, through the remap table. -/
def State.keyOfWord (s : State) (p : PhysSlice) (c : CodeWord) : Nat :=
  wordKey c.macroId (physWord (s.sl p).remap c.macroId c.word) c.upper

/-- Code words are read; the result says whether any was uncorrectable. -/
def State.readWords (s : State) (p : PhysSlice) (l : List CodeWord) : State × Bool :=
  if s.eccIdle p then (s, false)
  else l.foldl (fun (acc : State × Bool) c =>
    let (s1, f) := acc.1.readKey p c (acc.1.keyOfWord p c) false
    (s1, acc.2 || f == .uncorrectable)) (s, false)

/-- Code words are written whole: the stored words are not read (10 R314). -/
def State.writeWords (s : State) (p : PhysSlice) (l : List CodeWord) : State :=
  if s.eccIdle p then s else l.foldl (fun s c => s.writeKey p c (s.keyOfWord p c) false) s

/-- Code words are written in part: each is read and checked first, and one that is uncorrectable is written as a chaff word
(10 R314). -/
def State.patchWords (s : State) (p : PhysSlice) (l : List CodeWord) : State :=
  if s.eccIdle p then s
  else l.foldl (fun s c =>
    let k := s.keyOfWord p c
    let (s1, f) := s.readKey p c k false
    let s2 := s1.writeKey p c k false
    if f = .uncorrectable then
      s2.modSl p fun x => { x with errors := x.errors.put WordError.none k { x.errors.look WordError.none k with chaff := true } }
    else s2) s

/-- The code word that stands for a buffer of a slice: arrays 7 to 9, keyed by what it serves. -/
def bufferWord (arr : Nat) : CodeWord := ⟨arr, if arr = 7 then 615 else if arr = 8 then 618 else 619, 0, true, 0⟩
/-- The key of a buffer. -/
def bufferKey (arr id : Nat) : Nat := 2 ^ 40 + id * 16 + arr

/-- The half and the word of a buffer that an access meets are not the spec's to say: whether an injection that names one
word matches is a free choice (log 14). -/
def State.bufferMatch (s : State) (p : PhysSlice) (arr : Nat) : State × CodeWord × Bool :=
  if s.rd (SL_ECC_TEST.ARRAY p.val) == arr && s.on (SL_ECC_TEST.ARM p.val) then
    let c := { bufferWord arr with
      macroId := s.rd (SL_ECC_TEST.MACRO p.val), word := s.rd (SL_ECC_TEST.WORD p.val),
      upper := !s.on (SL_ECC_TEST.LOWER_WORD p.val) }
    if s.on (SL_ECC_TEST.MATCH_ANY p.val) then (s, c, true)
    else if Config.freeBool s.freeTick then (s.draw, c, true) else (s.draw, bufferWord arr, false)
  else (s, bufferWord arr, false)

/-- A buffer is read; the result says whether its data was uncorrectable (10 Table 10.2). -/
def State.readBuffer (s : State) (p : PhysSlice) (arr id : Nat) : State × Bool :=
  if s.eccIdle p then (s, false)
  else
    let (s1, c, hit) := s.bufferMatch p arr
    let (s2, f) := s1.readKey p c (bufferKey arr id) hit
    (s2, f == .uncorrectable)

/-- A buffer is written. -/
def State.writeBuffer (s : State) (p : PhysSlice) (arr id : Nat) : State :=
  if s.eccIdle p then s
  else
    let (s1, c, hit) := s.bufferMatch p arr
    s1.writeKey p c (bufferKey arr id) hit

/-! ### Valid bits of the control memories (10 R317, R318) -/

/-- Copy `k` of the valid bits of a macro, a bit for each macro word. -/
def State.validCopy (s : State) (m k : Nat) : BitVec 2048 := s.valid.look 0#2048 (m * 3 + k)

/-- The majority of the three copies of a macro's valid bits. -/
def State.validBits (s : State) (m : Nat) : BitVec 2048 :=
  let a := s.validCopy m 0
  let b := s.validCopy m 1
  let c := s.validCopy m 2
  (a &&& b) ||| (a &&& c) ||| (b &&& c)

/-- Whether a macro word has been written; the payload buffers and the media front's arrays have no valid bits (10 R317, Table 10.1). -/
def State.wordValid (s : State) (m w : Nat) : Bool := decide (33 ≤ m) || (s.validBits m).getLsbD w

/-- All three copies of the valid bits of `n` macro words from `w` are written. -/
def State.setValid (s : State) (m w n : Nat) (b : Bool) : State :=
  if 33 ≤ m then s
  else
    let mask : BitVec 2048 := BitVec.ofNat 2048 ((2 ^ n - 1) * 2 ^ w)
    { s with valid := [0, 1, 2].foldl (fun t k =>
        let v := t.look 0#2048 (m * 3 + k)
        t.put 0#2048 (m * 3 + k) (if b then v ||| mask else v &&& ~~~mask)) s.valid }

/-! ### Findings in the control and media-front arrays -/

/-- The source of a control or media-front array (10 R315). -/
def deviceSource (m : Nat) : Nat := if m < 35 then 0x4F else 0x48

/-- A finding in a control or media-front array is an event of its source (10 R315). -/
def State.devFinding (s : State) (m w : Nat) (up : Bool) (f : Found) : State :=
  let unspared := (List.range 8).all fun e => (s.devRemap.look RemapEntry.none (m * 8 + e)).state != .free
  let info := arrayInfo m w (!up) (f == .uncorrectable) false unspared 0
  match f with
  | .good => s
  | .corrected => s.minor (deviceSource m) info
  | .uncorrectable => s.major (deviceSource m) info

/-- What is stored under a key. -/
def State.devFound (s : State) (k : Nat) : Found :=
  let e := s.devErrors.look WordError.none k
  foundOf e.flips e.chaff

/-- The key of a control or media-front code word, through the remap table. -/
def State.devKey (s : State) (m w : Nat) (up : Bool) : Nat := wordKey m (physWord s.devRemap m w) up

/-- What is stored in a code word. -/
def State.devStored (s : State) (m w : Nat) (up : Bool) : Found := s.devFound (s.devKey m w up)

/-- A code word's errors replaced. -/
def State.setDevError (s : State) (m w : Nat) (up : Bool) (e : WordError) : State :=
  { s with devErrors := s.devErrors.put WordError.none (s.devKey m w up) e }

/-- The valid bit of a macro word is read: where its three copies disagree they are all rewritten with the majority, and a corrected
event is reported (10 R317). -/
def State.readValid (s : State) (m w : Nat) : State × Bool :=
  let b := s.wordValid m w
  let same (k : Nat) : Bool := (s.validCopy m k).getLsbD w == b
  if 33 ≤ m ∨ (same 0 ∧ same 1 ∧ same 2) then (s, b) else ((s.setValid m w 1 b).devFinding m w false .corrected, b)

/-- A macro word has been written whole, or zeroed: its valid bit and no error. -/
def State.freshWord (s : State) (m w : Nat) (b : Bool) : State :=
  ((s.setDevError m w false WordError.none).setDevError m w true WordError.none).setValid m w 1 b

/-- A line buffer of the media front, array 10 for the coalescer and 11 for the rebuild window, is read (10 Table 10.3); the result says
whether its line was uncorrectable. The macro word that an event names is the first of the array's (log 14). -/
def State.readMfBuffer (s : State) (arr id : Nat) : State × Bool :=
  let f := s.devFound (bufferKey arr id)
  (s.devFinding (if arr = 10 then 35 else 37) 0 false f, f == .uncorrectable)

/-- A line buffer of the media front is written. -/
def State.writeMfBuffer (s : State) (arr id : Nat) : State :=
  { s with devErrors := s.devErrors.put WordError.none (bufferKey arr id) WordError.none }

end Sys2Proof.Machine
end

