-- ==== Sys2Proof/Machine/Arrays.lean ====
section
/-! DEFINITION. The arrays of a home slice: media operations it issues, the home cache and its eviction buffer (05 R146 to
R163), the snoop filter (04 R111, R113), the owner-loss list (04 R143), directory writes (03 R95). -/

namespace Sys2Proof.Machine

/-! ### Operations issued to the media front -/

/-- The class of a write: 3 for write-through writes, for poison records and for every write in DRAIN, else 4 (06 R192). -/
def State.writeClass (s : State) (urgent : Bool) : Nat := if urgent || s.mode == 4 then 3 else 4

/-- A slice issues a line operation; its number is `s.nextId`. -/
def State.issue (s : State) (kind : OpKind) (line : Nat) (src : OpSource) (cls : Nat) (data : LineData)
    (dir : DirEntry) : State :=
  let o : MediaOp := ⟨kind, line, src, cls, .wire, data, dir, s.now, 0, 0, false, none, 0⟩
  { s with mf := { s.mf with ops := s.mf.ops.put none s.nextId (some o) }, nextId := s.nextId + 1 }

/-- The media operation of a number. -/
def State.op (s : State) (id : Nat) : Option MediaOp := s.mf.ops.look none id

/-- A media operation changed or, with none, ended. -/
def State.setOp (s : State) (id : Nat) (o : Option MediaOp) : State :=
  { s with mf := { s.mf with ops := s.mf.ops.put none id o } }

/-- Whether a line lies in an integrity-unknown range (06 R210). -/
def State.lineUnknown (s : State) (line : Nat) : Bool :=
  s.mf.unknown.any (fun r => decide (r.1 ≤ line ∧ line ≤ r.2)) || s.mf.unknownRegions.contains (regionOf line)

/-! ### Home cache -/

/-- A physical way of a set. -/
def State.way (s : State) (p : PhysSlice) (set phys : Nat) : CacheWay :=
  (s.sl p).cache.look CacheWay.empty (set * 17 + phys)

/-- A physical way written: both copies of the tag word in the same cycle (05 R149). -/
def State.setWay (s : State) (p : PhysSlice) (set phys : Nat) (t : TagWord) (d : LineData) : State :=
  (s.modSl p fun x => { x with cache := x.cache.put CacheWay.empty (set * 17 + phys) ⟨t, t, d⟩ }).writeWords p
    (tagAWords set phys ++ tagBWords set phys ++ dataWords set phys)

/-- The tag word of a way written, its data kept. -/
def State.setTag (s : State) (p : PhysSlice) (set phys : Nat) (t : TagWord) : State :=
  (s.modSl p fun x =>
    { x with cache := x.cache.put CacheWay.empty (set * 17 + phys) ⟨t, t, (s.way p set phys).data⟩ }).writeWords p
    (tagAWords set phys ++ tagBWords set phys)

/-- The data of a way is read; the result says whether a code word of it was uncorrectable. -/
def State.readData (s : State) (p : PhysSlice) (set phys : Nat) : State × Bool := s.readWords p (dataWords set phys)

/-- The in-service physical way that holds a line (05 R150). -/
def State.hcFind (s : State) (p : PhysSlice) (line : Nat) : Option Nat :=
  ((waysInService (s.hcSpare p (hcSet line))).map (·.2)).find? fun w =>
    let t := (s.way p (hcSet line) w).tagA
    t.valid && t.tag == hcTag line && !(s.sl p).tagLost.contains (hcSet line * 17 + w)

/-- The newest eviction buffer entry of a line (07 R242). -/
def State.ebFind (s : State) (p : PhysSlice) (line : Nat) : Option EvictEntry :=
  (s.sl p).evict.reverse.find? fun e => e.line == line

/-- The data state of a line (03 Table 3.2, 05 R150). -/
def State.dataState (s : State) (p : PhysSlice) (line : Nat) : DataState :=
  match s.hcFind p line with
  | some w => if (s.way p (hcSet line) w).tagA.dirty then .dirty else .clean
  | none => if (s.ebFind p line).isSome then .evicting else .absent

/-- The directory entry of an eviction buffer entry or of a clean write: DIR where it is valid, else state 00 in the
current epoch, with bit [30] the poison flag (05 R151). An entry of another epoch stands for no host copy, and what is written
carries the current epoch, so it is written as state 00 too (04 R123). -/
def State.evictDir (s : State) (dirValid : Bool) (dir : DirEntry) (poison : Bool) : DirEntry :=
  dePut30 (if dirValid && deEpoch dir == s.epoch then dir else deNone s.epoch false) poison

/-- Whether a way is busy under 05 R153. -/
def State.hcBusy (s : State) (p : PhysSlice) (set phys : Nat) : Bool :=
  let t := (s.way p set phys).tagA
  t.fillPending || (t.valid && (s.sl p).held (t.tag * 8192 + set))

/-- The candidate ways of an allocation, way number and physical way (05 R153). -/
def State.hcCandidates (s : State) (p : PhysSlice) (set : Nat) (low : Bool) : List (Nat × Nat) :=
  (waysInService (s.hcSpare p set)).filter fun n => (!(low || s.dormantWays p) || n.1 < 4) && !(s.sl p).tagLost.contains (set * 17 + n.2)

/-- The way that 05 R153 yields, and whether it came from the pointer; none where no way is replaceable. -/
def State.hcReplaceable (s : State) (p : PhysSlice) (set : Nat) (low : Bool) : Option (Nat × Bool) :=
  let c := s.hcCandidates p set low
  match c.find? fun n => !(s.way p set n.2).tagA.valid && !s.hcBusy p set n.2 with
  | some n => some (n.2, false)
  | none =>
    let ptr := (s.sl p).hcPtr.look 0 set
    let order := ((List.range 17).map fun k => (ptr + k) % 17).filter fun w => c.any fun n => n.2 == w
    match order.find? fun w => !(s.way p set w).tagA.lock && !s.hcBusy p set w with
    | some w =>
      if (s.way p set w).tagA.dirty && decide (32 ≤ (s.sl p).evict.length) then none else some (w, true)
    | none => none

/-- A Dirty victim moves into the eviction buffer and issues its media write (05 R151); data that is uncorrectable on the
way is written with bit [30] set (10 Table 10.2). The way is then free. -/
def State.evictWay (s : State) (p : PhysSlice) (set phys : Nat) : State :=
  let w := s.way p set phys
  let line := w.tagA.tag * 8192 + set
  let (s0, bad) := s.readData p set phys
  let (s0, bad') := (s0.writeBuffer p 8 s0.nextId).readBuffer p 8 s0.nextId
  let poison := w.tagA.poison || bad || bad'
  let dir := s0.evictDir w.tagA.dirValid w.tagA.dir poison
  let s1 := s0.modSl p fun x =>
    { x with evict := x.evict ++ [⟨s0.nextId, line, w.data, poison, w.tagA.dirValid, w.tagA.dir⟩] }
  (s1.issue .writeLine line (.evict p) (s.writeClass false) w.data dir).setTag p set phys TagWord.empty

/-- A replaceable way is emptied for a line: dropped if Clean, moved to the eviction buffer if Dirty; a victim taken from
the pointer moves the pointer on (05 R153). -/
def State.hcTake (s : State) (p : PhysSlice) (set : Nat) (n : Nat × Bool) : State :=
  let t := (s.way p set n.1).tagA
  let s1 := if t.valid && t.dirty then s.evictWay p set n.1 else s.setTag p set n.1 TagWord.empty
  if n.2 then s1.modSl p fun x => { x with hcPtr := x.hcPtr.put 0 set ((n.1 + 1) % 17) } else s1

/-- Whether a line may be allocated now: its own way awaits a refill, or the slice allocates and a way is replaceable
(05 R153, R165; 10 Table 10.2). -/
def State.canAlloc (s : State) (p : PhysSlice) (line : Nat) (low : Bool := false) : Option (Nat × Bool) :=
  match (List.range 17).find? fun w =>
    let t := (s.way p (hcSet line) w).tagA
    t.fillPending && t.tag == hcTag line with
  | some w => some (w, false)
  | none => if s.on (SL_HC_CTRL.NO_ALLOC p.val) then none else s.hcReplaceable p (hcSet line) low

/-- A Clean line that cannot be read is dropped; a locked one keeps its way and its LOCK for the refill (10 Table 10.2). -/
def State.dropBad (s : State) (p : PhysSlice) (line phys : Nat) : State :=
  let t := (s.way p (hcSet line) phys).tagA
  if t.lock then s.setTag p (hcSet line) phys { TagWord.empty with tag := t.tag, lock := true, fillPending := true }
  else s.setTag p (hcSet line) phys TagWord.empty

/-- The tag of a line that a write made Dirty with a poison flag, which its directory entry carries too (02 R60, 04 R123, 05 R163). -/
def TagWord.written (t : TagWord) (poison : Bool) : TagWord :=
  { t with dirty := true, cleaning := false, poison := poison, dir := dePut30 t.dir (t.dirValid && poison) }

/-- A line allocated in the way given, with its data, poison flag and directory entry. -/
def State.hcFill (s : State) (p : PhysSlice) (line : Nat) (n : Nat × Bool) (data : LineData) (dirty poison : Bool)
    (dir : Option DirEntry) : State :=
  let lock := (s.way p (hcSet line) n.1).tagA.fillPending
  let t : TagWord := ⟨hcTag line, true, dirty, lock, poison, false, false, dir.isSome, dePut30 (dir.getD 0#32) (dir.isSome && poison)⟩
  (s.hcTake p (hcSet line) n).setWay p (hcSet line) n.1 t data

/-- A full-line write of a line in a way is issued with the CLEANING mechanism (05 R163). -/
def State.cleanWrite (s : State) (p : PhysSlice) (line phys : Nat) (src : OpSource) (urgent : Bool) : State :=
  let w := s.way p (hcSet line) phys
  let (s, bad) := s.readData p (hcSet line) phys
  (s.setTag p (hcSet line) phys { w.tagA with cleaning := true }).issue .writeLine line src (s.writeClass urgent) w.data
    (s.evictDir w.tagA.dirValid w.tagA.dir (w.tagA.poison || bad))

/-! ### Snoop filter -/

/-- A physical filter way of a set. -/
def State.sfWay (s : State) (p : PhysSlice) (set phys : Nat) : FilterWay :=
  (s.sl p).filter.look FilterWay.empty (set * 17 + phys)

/-- A filter way written, its echo with it (10 R316): an entry fills a code word, an echo half of one (10 R314). -/
def State.setSf (s : State) (p : PhysSlice) (set phys : Nat) (f : FilterEntry) : State :=
  let f := if f.valid then f else FilterWay.empty.entry
  ((s.modSl p fun x => { x with filter := x.filter.put FilterWay.empty (set * 17 + phys) ⟨f, f.tag, f.valid⟩ }).writeWords p
    [filterWord set phys]).patchWords p [echoWord set phys]

/-- The filter way that holds a line's sector. -/
def State.sfFind (s : State) (p : PhysSlice) (line : Nat) : Option Nat :=
  ((waysInService (s.sfSpare p (sfSet line))).map (·.2)).find? fun w =>
    let f := (s.sfWay p (sfSet line) w).entry
    f.valid && f.tag == sfTag line

/-- The filter entry of a line's sector. -/
def State.sfEntry (s : State) (p : PhysSlice) (line : Nat) : Option FilterEntry :=
  (s.sfFind p line).map fun w => (s.sfWay p (sfSet line) w).entry

/-- A change of the filter entry of a line's sector, settled under 03 R94. -/
def State.modSf (s : State) (p : PhysSlice) (line : Nat) (f : FilterEntry → FilterEntry) : State :=
  match s.sfFind p line with
  | some w => s.setSf p (sfSet line) w (f (s.sfWay p (sfSet line) w).entry).settle
  | none => s

/-- The filter way that 04 R113 yields, by way number then physical way, and whether it came from the pointer. -/
def State.sfReplaceable (s : State) (p : PhysSlice) (set : Nat) : Option (Nat × Nat × Bool) :=
  let x := s.sl p
  let ws := waysInService (s.sfSpare p set)
  match ws.find? fun n => !(s.sfWay p set n.2).entry.valid with
  | some n => some (n.1, n.2, false)
  | none =>
    let ptr := x.sfPtr.look 0 set
    let order := (List.range 16).map fun k => (ptr + k) % 16
    (order.find? fun n =>
      let phys := if n = s.sfSpare p set then 16 else n
      let sector := (s.sfWay p set phys).entry.tag * 32768 + set
      !x.sectorHeld sector && !x.sectorVictim sector).map fun n => (n, if n = s.sfSpare p set then 16 else n, true)

/-! ### The spill map (04 R124, R125) -/

/-- The bit of a chunk in a slice's segment; a segment taken over by a spare starts as all ones (04 R127). -/
def Slice.spillBit (x : Slice) (chunk : Nat) : Bool := x.segment.look x.segOnes (chunk / 16)

/-- The macro word of a chunk's bit is read; an uncorrectable one is rewritten as all ones (10 Table 10.2). -/
def State.checkSpill (s : State) (p : PhysSlice) (chunk : Nat) : State :=
  let (s1, bad) := s.readWords p (spillWords chunk)
  if bad then
    let first := chunk / 16 / 128 * 128
    (s1.modSl p fun x => { x with
      segment := (List.range 128).foldl (fun t i => t.put x.segOnes (first + i) true) x.segment }).writeWords p (spillWords chunk)
  else s1

/-- A bit of a slice's segment written, its word read first. -/
def State.setSpillBit (s : State) (p : PhysSlice) (chunk : Nat) (b : Bool) : State :=
  ((s.checkSpill p chunk).modSl p fun x => { x with segment := x.segment.put x.segOnes (chunk / 16) b }).writeWords p
    ((spillWords chunk).filter fun c => c.upper == decide (64 ≤ chunk / 16 % 128))

/-- A set message is acted on by its holder (04 R125): the bit is set, and a visit of the chunk records it. -/
def State.holderSet (s : State) (p : PhysSlice) (chunk : Nat) : State :=
  (s.setSpillBit p chunk true).modSl p fun x =>
    { x with setInVisit := x.setInVisit || (match x.sweep with | some v => v.chunk == chunk | none => false) }

/-- A home sends a set message for a chunk; the result says whether an acknowledgement is awaited. In the home's own
segment no ring is used (04 R125). -/
def State.sendSet (s : State) (p : PhysSlice) (chunk : Nat) (owner : SnoopOwner) : State × Bool :=
  if s.holderOf chunk = p then (s.holderSet p chunk, false)
  else
    let m : SpillMsg := ⟨true, chunk, s.holderOf chunk, owner, false⟩
    ({ s with fabric := s.fabric.put none s.nextId (some m), nextId := s.nextId + 1 }, true)

/-! ### Directory writes (03 R95) -/

/-- A directory entry of a line is written as 03 R95 says for its data state; the result lists the number of the media
operation issued, if any. `e` makes the entry from the line's poison flag. -/
def State.writeDir (s : State) (p : PhysSlice) (line : Nat) (e : DirEntry) (src : OpSource) (cls : Nat) : State × List Nat :=
  match s.hcFind p line with
  | some w =>
    let t := (s.way p (hcSet line) w).tagA
    let e := dePut30 e (dePoison e || t.poison)
    if t.dirty then
      (s.setTag p (hcSet line) w { t with dir := e, dirValid := true, cleaning := false }, [])
    else
      ((s.setTag p (hcSet line) w { t with dir := e, dirValid := true }).issue .writeMeta line src cls 0#512 e, [s.nextId])
  | none =>
    match s.ebFind p line with
    | none => (s.issue .writeMeta line src cls 0#512 e, [s.nextId])
    | some b =>
      let e := dePut30 e (dePoison e || b.poison)
      match s.canAlloc p line with
      | some n =>
        let s1 := s.hcFill p line n b.data false b.poison (some e)
        (s1.issue .writeMeta line src cls 0#512 e, [s1.nextId])
      | none =>
        let s1 := s.modSl p fun x =>
          { x with evict := x.evict.map fun y => if y.op = b.op then { y with dir := e, dirValid := true } else y }
        (s1.issue .writeMeta line src cls 0#512 e, [s1.nextId])

/-! ### Owner loss (03 R90, R91; 04 R141 to R143) -/

/-- The value of a configuration key in force: the newest valid owner copy, else the factory layer (12 R378, R379). -/
def Store.owner (t : Store) : Option OwnerCopy :=
  match t.copyA.valid, t.copyB.valid with
  | true, true => some (if t.copyB.seq ≤ t.copyA.seq then t.copyA else t.copyB)
  | true, false => some t.copyA
  | false, true => some t.copyB
  | false, false => none

/-- The record of a key with a good CRC in a list of records; of two the later wins (12 R378). -/
def findRecord (l : List ConfigRecord) (key : Nat) : Option Word :=
  (l.reverse.find? fun r => r.key == key && r.crcOk).map (·.value)

/-- The value of a key in force (12 R378). -/
def Store.setting (t : Store) (key : Nat) : Option Word :=
  match if key < 0x10 then none else t.owner.bind fun c => findRecord c.records key with
  | some v => some v
  | none => findRecord t.factory key

/-- An entry of the owner-loss list (04 Table 4.10). -/
def lossEntry (line : Nat) (g : HostId) (inc : BitVec 12) (source : Nat) (revert : Bool) : Word :=
  BitVec.ofNat 64 (line + g.val * 2 ^ 42 + inc.toNat * 2 ^ 46 + source * 2 ^ 58 + revert.toNat * 2 ^ 60)

/-- The code word of place `n` of the owner-loss list is written whole; the other half of a macro word not yet written is zeros
(10 R318). -/
def State.lossWord (s : State) (n : Nat) : State :=
  if s.wordValid 32 (n / 2) then s.setDevError 32 (n / 2) (n % 2 == 1) WordError.none else s.freshWord 32 (n / 2) true

/-- The owner-loss list replaced, each of its entries written (04 R143, R144). -/
def State.setLosses (s : State) (l : List Word) : State :=
  { (List.range l.length).foldl (fun s n => s.lossWord n) s with ownerLoss := l }

/-- The list takes an entry, or LIST_OVF of the owner's HP sets where it is full (03 R90, 04 R143). -/
def State.listLoss (s : State) (g : HostId) (e : Word) : State :=
  if s.ownerLoss.length < 2048 then { s.lossWord s.ownerLoss.length with ownerLoss := s.ownerLoss ++ [e] }
  else s.wr (HP_OWNER_LOSS.LIST_OVF g.val) 1

/-- The home clears the reservations of a line's granule (08 R274). -/
def State.clearReserved (s : State) (p : PhysSlice) (line : Nat) : State :=
  s.modSl p fun x => { x with reserved := x.reserved.filter fun r => r.2 != sectorOf line + 1 }

/-- The poison record of 03 R91: the line is poisoned durably, with the operations its completion waits for. -/
def State.poisonRecord (s : State) (p : PhysSlice) (line : Nat) (src : OpSource) : State × List Nat :=
  let s := s.clearReserved p line
  match s.hcFind p line with
  | some w =>
    let t := (s.way p (hcSet line) w).tagA
    let s1 := if t.dirty then s else s.count (16 + p.val) 21
    let s2 := s1.setTag p (hcSet line) w { t with poison := true, dirty := true, cleaning := false }
    -- in DRAIN the record goes to media at once (07 R254)
    if s.mode = 4 then (s2.cleanWrite p line w src true, [s2.nextId]) else (s2, [])
  | none =>
    match s.ebFind p line with
    | some b =>
      match s.canAlloc p line with
      | some n =>
        let s1 := (s.hcFill p line n b.data true true (if b.dirValid then some b.dir else none)).count (16 + p.val) 21
        if s.mode = 4 then (s1.cleanWrite p line n.1 src true, [s1.nextId]) else (s1, [])
      | none =>
        let s1 := s.modSl p fun x =>
          { x with evict := x.evict.map fun y => if y.op = b.op then { y with poison := true } else y }
        (s1.issue .writeMeta line src 3 0#512 (deNone s.epoch true), [s1.nextId])
    | none => (s.issue .writeMeta line src 3 0#512 (deNone s.epoch true), [s.nextId])

/-- Resolution of an owner-lost line under the OLOSS of its region entry `e` (03 R90). -/
def State.resolveLost (s : State) (p : PhysSlice) (e : BitVec 32) (line : Nat) (g : HostId) (inc : BitVec 12) (source : Nat)
    (src : OpSource) : State × List Nat :=
  let s := s.count (16 + p.val) 26
  if rgRevert e then
    let s1 := s.inc (HP_OWNER_LOSS.LOST_LINES g.val)
    (if ((s.store.setting 0x0051).getD 0#64).getLsbD 0 then s1.listLoss g (lossEntry line g inc source true) else s1, [])
  else
    ((s.listLoss g (lossEntry line g inc source false)).inc (HP_OWNER_LOSS.LOST_LINES g.val)).poisonRecord p line src

/-- A slice's cleaner starts or stops as the dirty count passes its thresholds (05 R162). -/
def State.cleanerCheck (s : State) (p : PhysSlice) : State := s.wb (SL_HC_CTRL.CLEANER p.val) (s.cleanerActive p)

/-- In DORMANT, or during an entry to it, a slice at its quota is an exit trigger (09 R301). -/
def State.quotaCheck (s : State) : State :=
  if (s.mode = 3 ∨ s.aon.entryStep ≠ 0) ∧ s.activeSlices.any s.atQuota then s.dormTrigger 10 0 else s

end Sys2Proof.Machine
end

