-- ==== Sys2Proof/Machine/Snoops.lean ====
section
/-! DEFINITION. What a host port sends (02 R57 to R69): S2M messages under the host's credits, and the snoop table. -/

namespace Sys2Proof.Machine

/-- The credit class of an S2M message (02 R69). -/
def S2m.cls : S2m → S2mClass
  | .memData .. => .drs
  | .cmp .. | .biConflictAck .. => .ndr
  | .biSnp .. => .bisnp

/-- The credits a port holds for a class. -/
def Port.credits (x : Port) : S2mClass → Nat
  | .ndr => x.ndr
  | .drs => x.drs
  | .bisnp => x.bisnp

/-- A port with its credits for a class replaced. -/
def Port.setCredits (x : Port) (c : S2mClass) (n : Nat) : Port :=
  match c with
  | .ndr => { x with ndr := n }
  | .drs => { x with drs := n }
  | .bisnp => { x with bisnp := n }

/-- Whether a message carries DevLoad Moderate or Severe Overload. -/
def S2m.overload : S2m → Bool
  | .memData _ _ _ l | .cmp _ _ l | .biConflictAck _ l => l == .moderate || l == .severe
  | _ => false

/-- The counters of a message that leaves (15 Table 15.2). -/
def State.countS2m (s : State) (h : HostId) (m : S2m) : State :=
  let s1 := match m with
    | .memData _ _ poison _ => (s.count h.val 6).count h.val 14 poison.toNat
    | .biSnp _ _ _ n => if n = 1 then s.count h.val 7 else s.count h.val 8
    | _ => s
  s1.count h.val 17 m.overload.toNat

/-- A message leaves its port, spending a credit of its class, with LD-ID 0 and MetaField No-Op (02 R57). -/
def State.s2mGo (s : State) (h : HostId) (m : S2m) : State :=
  ((s.modPort h fun x => x.setCredits m.cls (x.credits m.cls - 1)).emit (.s2m h m 0#4 .noOp)).countS2m h m

/-- An S2M message is sent only when the host has advertised a credit for its class, behind those of its class that wait
(02 R69, 07 R232). -/
def State.sendS2m (s : State) (h : HostId) (m : S2m) : State :=
  let x := s.port h
  if 0 < x.credits m.cls ∧ x.egress.all (fun y => y.cls != m.cls) then s.s2mGo h m
  else (s.modPort h fun x => { x with egress := x.egress ++ [m] }).crossRise (16 + h.val) x.egress.length

/-- The first waiting message of a class leaves while a credit is held; `n` bounds the messages. -/
def State.release (h : HostId) (c : S2mClass) : Nat → State → State
  | 0, s => s
  | n + 1, s =>
    match (s.port h).egress.find? (fun m => m.cls == c) with
    | none => s
    | some m =>
      if 0 < (s.port h).credits c then
        State.release h c n ((s.modPort h fun x => { x with egress := x.egress.erase m }).s2mGo h m)
      else s

/-- A response of a request to a host: discarded where the port is husked (02 R72 step 3). -/
def State.answerHost (s : State) (h : HostId) (m : S2m) : State :=
  if s.on (HP_CTRL.HUSK h.val) then s else s.sendS2m h m

/-- A response of a request that the host sent in incarnation `inc`: discarded where it has departed since (02 R72 step 3), also
when its husk has been cleared meanwhile. -/
def State.answerInc (s : State) (h : HostId) (inc : BitVec 12) (m : S2m) : State :=
  if inc = s.inc12 h then s.answerHost h m else s

/-- The lowest free entry of a port's snoop table (02 R61). -/
def State.freeBiTag (s : State) (h : HostId) : Option Nat :=
  (List.range (s.bisnpMax h)).find? fun i => ((s.port h).table.look none i).isNone

/-- A snoop takes the lowest free entry and is sent (02 R61); with none free it waits in its home. -/
def State.enterSnoop (s : State) (h : HostId) (r : SnoopReq) : State :=
  match s.freeBiTag h with
  | some i =>
    (s.modPort h fun x => { x with table := x.table.put none i (some ⟨r, s.now, false, []⟩) }).sendS2m h
      (.biSnp i r.kind r.line r.lines)
  | none => s.modPort h fun x => { x with offered := x.offered ++ [r] }

/-- A home hands a snoop to a port: behind the snoops that wait for its table. -/
def State.issueSnoop (s : State) (h : HostId) (r : SnoopReq) : State :=
  if (s.port h).offered = [] then s.enterSnoop h r
  else s.modPort h fun x => { x with offered := x.offered ++ [r] }

/-- A snoop-table entry frees. -/
def State.freeSnoop (s : State) (h : HostId) (i : Nat) : State :=
  s.modPort h fun x => { x with table := x.table.put none i none }

/-- The protocol-error notice, at most one per HP in any 10 us (02 R55), with PROTO_ERR and its counter. -/
def State.protoErr (s : State) (h : HostId) (opcode cls addr : Nat) : State :=
  let s1 := (s.wr (HP_STATUS.PROTO_ERR h.val) 1).count h.val 13
  let quiet := match (s.port h).lastProto with | some t => decide (s.now < t + 10) | none => false
  if quiet then s1
  else (s1.modPort h fun x => { x with lastProto := some s.now }).notice 2 0x13 0 h.val (opcode % 16 + cls * 16) addr

/-- The region-violation counter of a refused request (01 R36, 15 Table 15.2). -/
def State.countViolation (s : State) (a : Agent) : State :=
  match a with
  | .host h => s.count h.val 12
  | .ia _ => s.count 78 2

/-- The region-violation counter and notice of a refused request, at most one per HP or for IA in any 10 us (01 R36). -/
def State.regionViolation (s : State) (a : Agent) (line : Nat) : State :=
  match a with
  | .host h =>
    let s1 := s.countViolation a
    let quiet := match (s.port h).lastViolation with | some t => decide (s.now < t + 10) | none => false
    if quiet then s1
    else (s1.modPort h fun x => { x with lastViolation := some s.now }).notice 2 0x14 0 h.val h.val (dpaOf line)
  | .ia _ =>
    let s1 := s.countViolation a
    let quiet := match s.iaLastViolation with | some t => decide (s.now < t + 10) | none => false
    if quiet then s1
    else { s1 with iaLastViolation := some s.now }.notice 2 0x14 0 0x66 16 (dpaOf line)

end Sys2Proof.Machine
end

