-- ==== Sys2Proof/Machine/Home.lean ====
section
/-! DEFINITION. A home's work on one request (03 R80 to R110): deriving the tracking state, resolving an owner-lost line,
snooping, sourcing and placing data, recording the state after, responding. `State.advance` moves a tracker as far as what
it has allows; every event a tracker waits for ends in a call of it. -/

namespace Sys2Proof.Machine

/-! ### Trackers -/

/-- A tracker by its number. -/
def State.trk (s : State) (p : PhysSlice) (id : Nat) : Option Tracker := (s.sl p).trackers.find? fun t => t.id == id

/-- A tracker changed. -/
def State.modTrk (s : State) (p : PhysSlice) (id : Nat) (f : Tracker → Tracker) : State :=
  s.modSl p fun x => { x with trackers := x.trackers.map fun t => if t.id = id then f t else t }

/-! ### Passes of the pipeline (15 R460) -/

/-- One slice cycle holds a pass. -/
def State.pass (s : State) (p : PhysSlice) : State := s.modSl p fun x => { x with passes := x.passes + 1 }

/-- The first pass of an item that ends without a replay: SLOT_DONE. -/
def State.passDone (s : State) (p : PhysSlice) : State := (s.pass p).count (16 + p.val) 1

/-- A replay, or the first pass of an item that enters the wait queue or is discarded: SLOT_REPEAT. -/
def State.passRepeat (s : State) (p : PhysSlice) : State := (s.pass p).count (16 + p.val) 2

/-- A tracker's request is replayed; with the first replay its first pass is known to be one of SLOT_REPEAT too. -/
def State.replay (s : State) (p : PhysSlice) (id : Nat) : State :=
  let s1 := s.passRepeat p
  match s.trk p id with
  | some t => if t.classed then s1 else (s1.count (16 + p.val) 2).modTrk p id fun t => { t with classed := true }
  | none => s1

/-- A sample flag of a tracker set (15 Table 15.8). -/
def State.flag (s : State) (p : PhysSlice) (id b : Nat) : State :=
  s.modTrk p id fun t => { t with flags := t.flags ||| (1#16 <<< b) }

/-- The host of a request, if a host sent it. -/
def Request.host (r : Request) : Option HostId := match r.agent with | .host h => some h | .ia _ => none

/-- The hosts that may hold a line in a tracking state (03 Table 3.1). -/
def Tracking.hosts : Tracking → HostSet
  | .i | .ol _ _ => 0#16
  | .s v | .x v => v
  | .e g => hsOne g

/-- Whether a host is a possible owner (03 R87). -/
def Tracking.possibleOwner (v : Tracking) (g : HostId) : Bool :=
  match v with
  | .e o => o == g
  | .x w => hsMem w g
  | _ => false

/-- Whether a request is a full-line write (02 R53, 03 R103). -/
def Request.full (r : Request) : Bool := r.cls == .wrFull || (r.cls.write && r.be == BitVec.allOnes 64)

/-! ### Deriving the tracking state (03 R81 to R84) -/

/-- What the derivation yields: a state with its directory entry, or what it still needs. -/
inductive Derived where
  | known (v : Tracking) (fromDir : Bool) (e : Option DirEntry)
  | needMap
  | needDir
  deriving DecidableEq, Repr

/-- The directory entry that a home-cache tag or the eviction buffer holds (03 R82, 05 R151). -/
def State.onChipDir (s : State) (p : PhysSlice) (line : Nat) : Option DirEntry :=
  match s.hcFind p line with
  | some w =>
    let t := (s.way p (hcSet line) w).tagA
    if t.dirValid then some t.dir else none
  | none => (s.ebFind p line).map fun b => s.evictDir b.dirValid b.dir b.poison

/-- The spill map bit of a line's chunk, as its holder has it. -/
def State.spillBitOf (s : State) (line : Nat) : Bool := (s.sl (s.holderOf (chunkOf line))).spillBit (chunkOf line)

/-- Whether a line's filter set is blind; of an unusable slice every set is (10 R323, 11 R368). -/
def State.isBlind (s : State) (p : PhysSlice) (line : Nat) : Bool :=
  (s.sl p).blind.contains (sfSet line) || s.on (SL_STATUS.UNUSABLE p.val)

/-- The derivation of 03 Table 3.3 with V_mask `mask`; in a blind set with no entry for the sector it is X(V_mask) (10 R323). -/
def State.derive (s : State) (p : PhysSlice) (mask : HostSet) (line : Nat) : Derived :=
  let dir := match s.onChipDir p line with
    | some e => Derived.known (s.decodeDir mask e) true (some e)
    | none => .needDir
  match s.sfEntry p line with
  | some f =>
    match f.lst (lineInSector line) with
    | 0 => .known .i false none
    | 1 => .known (.s f.presence) false none
    | 2 =>
      if f.oinc = (s.inc12 f.owner).extractLsb' 0 4 then .known (.e f.owner) false none
      else .known (.ol f.owner (s.inc12 f.owner - 1)) false none
    | _ => dir
  | none =>
    if s.isBlind p line then .known (.x mask) false none
    else match s.onChipDir p line with
      | some e => .known (s.decodeDir mask e) true (some e)
      | none => .needMap

/-- The poison flag of a line that the home holds on chip or under an unreadable counter (03 R84). -/
def State.poisonFlag (s : State) (p : PhysSlice) (line : Nat) : Bool :=
  s.lineUnknown line ||
    match s.hcFind p line with
    | some w => (s.way p (hcSet line) w).tagA.poison
    | none => match s.ebFind p line with
      | some b => b.poison
      | none => false

/-! ### Snoops (03 R85 to R87) -/

/-- The snoop that a request sends in a tracking state, and the hosts it goes to (03 Tables 3.6 to 3.12a; 08 R273). -/
def snoopSet (r : Request) (v : Tracking) : Option (SnoopKind × HostSet) :=
  let others := match r.host with | some h => hsDel v.hosts h | none => v.hosts
  let unsure := match v with | .e _ | .x _ => true | _ => false
  if others = 0#16 then none
  else match r.cls with
    | .rdShared | .resLoad => if unsure then some (.data, others) else none
    | .rdCur | .iaRd | .sweep => if unsure then some (.cur, others) else none
    | .rdOwn | .invOwn | .invFlush | .wrFull | .wrPtl | .iaWr | .condStore => some (.inv, others)
    | _ => none

/-- A tracker's snoops are formed and sent, all before any answer is awaited; a port that takes none counts as answered
BIRspI at once (03 R85, R86). -/
def State.sendSnoops (s : State) (p : PhysSlice) (t : Tracker) : State :=
  match snoopSet t.req t.view with
  | none => s.modTrk p t.id fun t => { t with phase := .snoop }
  | some (k, v) =>
    let hs := hsList v
    let ans (h : HostId) : Option SnoopAnswer := if s.portLive h then none else some .i
    let s1 := s.modTrk p t.id fun t =>
      { t with phase := .snoop, snoops := hs.map fun h => ⟨h, t.req.line, k, ans h, false⟩ }
    let live := hs.filter s.portLive
    let s2 := live.foldl (fun s h => s.issueSnoop h ⟨.tracker p t.id, k, t.req.line, 1⟩) s1
    ((s2.count (16 + p.val) 17 live.length).flag p t.id 3)

/-! ### Snoop writebacks (03 R88, R104, R106) -/

/-- The Cmp of a write that a host sent in incarnation `inc`. -/
def State.cmpTo (s : State) (p : PhysSlice) (h : HostId) (tag : BitVec 16) (inc : BitVec 12) : State :=
  s.answerInc h inc (.cmp tag .cmp (s.devLoad p))

/-- The poison flag that a snoop writeback leaves its line with (02 R60) becomes the flag of the tracker whose snoop it answers; a line
under an unreadable counter stays poisoned (03 R84). -/
def State.wbPoison (s : State) (w : Writeback) (pz : Bool) : State :=
  match w.owner with
  | .tracker q id => s.modTrk q id fun t => { t with poison := pz || s.lineUnknown w.line }
  | .victim _ _ => s

/-- A writeback's merged line is placed: in its way, in a new Dirty way, or, where no way is replaceable, written to media
from the line buffer of the tracker it answers (03 R104, R106). -/
def State.placeWriteback (s : State) (p : PhysSlice) (w : Writeback) (base : Option (LineData × Bool))
    (entry : Option DirEntry) : State :=
  let full := w.be == BitVec.allOnes 64
  let merged (d : LineData) := mergeBytes d w.data w.be
  let poison (old : Bool) := if full then w.poison else old || w.poison
  let s := s.clearReserved p w.line
  let wt := s.writeThrough p
  let src : OpSource := .writeback w.owner w.host w.tag w.inc
  let hold (s : State) (op : Nat) : State := match w.owner with
    | .tracker q id => s.modTrk q id fun t => { t with writeOps := t.writeOps ++ [op] }
    | .victim q id => s.modSl q fun x =>
        { x with victims := x.victims.map fun v => if v.id = id then { v with writes := v.writes ++ [op] } else v }
  match s.hcFind p w.line with
  | some phys =>
    let c := s.way p (hcSet w.line) phys
    let s1 := (if c.tagA.dirty then s else s.count (16 + p.val) 21).wbPoison w (poison c.tagA.poison)
    let s2 := s1.setWay p (hcSet w.line) phys
      (c.tagA.written (poison c.tagA.poison)) (merged c.data)
    (if wt then hold (s2.cleanWrite p w.line phys src true) s2.nextId else s2.cmpTo p w.host w.tag w.inc).quotaCheck.cleanerCheck p
  | none =>
    let (d, pz) := match base with
      | some b => b
      | none => match s.ebFind p w.line with
        | some b => (b.data, b.poison)
        | none => (0#512, false)
    let s := s.wbPoison w (poison pz)
    match s.canAlloc p w.line with
    | some n =>
      let s1 := (s.hcFill p w.line n (merged d) true (poison pz) entry).count (16 + p.val) 21
      (if wt then hold (s1.cleanWrite p w.line n.1 src true) s1.nextId else s1.cmpTo p w.host w.tag w.inc).quotaCheck.cleanerCheck p
    | none =>
      let s1 := match w.owner with
        | .tracker q id => s.modTrk q id fun t => { t with buffer := some (merged d) }
        | .victim _ _ => s
      hold (s1.issue .writeLine w.line src 3 (merged d) (s.evictDir entry.isSome (entry.getD 0#32) (poison pz))) s1.nextId

/-- A snoop writeback is applied to its line at once, except that a partial one to an Absent line without data reads the
line first (03 R104). One with all byte enables 0 leaves every state unchanged and is answered (02 R53, 03 R101), with Poison set too:
R53 gives it no effect, so R60 does not poison its line (DEDUCED, log 96). -/
def State.applyWriteback (s : State) (p : PhysSlice) (w : Writeback) : State :=
  let s := s.count w.host.val 11
  let t := match w.owner with | .tracker q id => s.trk q id | .victim _ _ => none
  let base := match t with
    | some t => match t.buffer, t.data with
      | some b, _ => some (b, t.poison)
      | none, some d => if s.dataState p w.line = .absent then some (d, t.poison) else none
      | none, none => none
    | none => none
  let entry := t.bind (·.entry)
  if w.be = 0#64 then s.cmpTo p w.host w.tag w.inc
  else if s.dataState p w.line = .absent ∧ base = none ∧ w.be ≠ BitVec.allOnes 64 then
    (s.modSl p fun x => { x with wbs := x.wbs ++ [{ w with op := s.nextId }] }).issue .readSealed w.line
      (.wbRead p w.line) 2 0#512 0#32
  else s.placeWriteback p w base entry

/-- Whether a tracker or victim awaits a host's answer for a line: the messages of 07 R230 are then its snoop's. -/
def State.snoopOwnerOf (s : State) (p : PhysSlice) (line : Nat) (h : HostId) : Option SnoopOwner :=
  let open_ (l : List Snoop) := l.any fun n => n.host == h && n.line == line && n.answer == none
  match (s.sl p).trackers.find? fun t => t.req.line == line && open_ t.snoops with
  | some t => some (.tracker p t.id)
  | none => ((s.sl p).victims.find? fun v => open_ v.snoops).map fun v => .victim p v.id

/-- The counters at the HP for a message that leaves its ingress crossing (15 Table 15.2). -/
def State.countHost (s : State) (h : HostId) (c : ReqClass) : State :=
  match c with
  | .rdShared | .rdOwn | .rdCur => s.count h.val 1
  | .wrFull | .wrPtl => s.count h.val 2
  | .invOwn | .invFlush | .clnEvct => s.count h.val 3
  | .spec => s.count h.val 4
  | _ => s

/-- A message of a host whose snoop for the line is outstanding is handled by 07 R230: a write is applied as a snoop writeback, a
MemClnEvct is answered at once. -/
def State.bypassServe (s : State) (p : PhysSlice) (o : SnoopOwner) (h : HostId) (r : Request) : State :=
  let s1 := s.emit (.creditReturn h (r.cls != .clnEvct))
  if r.cls = .clnEvct then s1.cmpTo p h r.tag r.inc
  else s1.applyWriteback p ⟨o, h, r.tag, r.line, r.data, r.be, r.poison, 0, r.inc⟩

/-- Such a message as it reaches the slice: one pass, with no replay. -/
def State.bypassTaken (s : State) (p : PhysSlice) (o : SnoopOwner) (h : HostId) (r : Request) : State :=
  (s.passDone p).bypassServe p o h r

/-- The messages that waited marked are handled once the snoop set is formed; each other marked message stays as an ordinary waiting
request (07 R230). -/
def State.takeMarked (s : State) (p : PhysSlice) (line : Nat) : State :=
  let l := (s.sl p).waitq.filter fun w => w.marked && w.req.line == line
  let s1 := l.foldl (fun s w =>
    match w.req.host with
    | none => s
    | some h => match s.snoopOwnerOf p line h with
      | none => s
      | some o => ((s.modSl p fun x => { x with waitq := x.waitq.erase w }).passRepeat p).bypassServe p o h w.req) s
  s1.modSl p fun x => { x with waitq := x.waitq.map fun w => if w.req.line = line then { w with marked := false } else w }

/-- In REPAIR a held write or clean evict of a line with a snoop outstanding to its host is forwarded (09 R304); while its logical
slice is held it is parked, as every request for it is (01 R30). -/
def State.takeHeld (s : State) (p : PhysSlice) (line : Nat) : State :=
  allHosts.foldl (fun s h =>
    ((s.port h).held.filter fun r => r.line == line && (r.cls == .wrFull || r.cls == .wrPtl || r.cls == .clnEvct)).foldl
      (fun s r => match s.snoopOwnerOf p line h with
        | none => s
        | some o =>
          let s1 := (s.modPort h fun x => { x with held := x.held.erase r }).countHost h r.cls
          if s.on (mapHold (s.lsOf line)) then s1.modPort h fun x => { x with park := x.park ++ [r] }
          else s1.bypassTaken p o h r) s) s

/-! ### Stages -/

/-- The media read of a tracker for its line's data and directory entry (03 R82). -/
def State.readForTracker (s : State) (p : PhysSlice) (id line : Nat) (sealed : Bool) : State :=
  let s1 := if sealed then s else s.count (16 + p.val) 16
  let cls := if (s.trk p id).any fun t => t.req.cls.agent then 5 else 2
  (s1.modTrk p id fun t => { t with mediaRead := some s.nextId }).issue (if sealed then .readSealed else .readMeta) line
    (if sealed then .tracker p id else .trackerDir p id) cls 0#512 0#32

/-- Whether a request takes its line's data from media when the line is Absent (03 Table 3.12). -/
def Request.needsData (r : Request) : Bool := (r.cls.read && r.be != 0#64) || (r.cls.write && !r.full)

/-- Whether a write that finds no way goes to media from its tracker: NO_ALLOC, or DORMANT with ways 0 to 3 all locked
(05 R157, R165). -/
def State.fromTracker (s : State) (p : PhysSlice) (line : Nat) : Bool :=
  s.on (SL_HC_CTRL.NO_ALLOC p.val) || (s.dormantWays p &&
    (s.hcCandidates p (hcSet line) true).all fun n =>
      let t := (s.way p (hcSet line) n.2).tagA
      t.valid && t.lock)

/-- Whether a request's line would be a new dirty line (05 R160): one that is not Dirty becomes so in the home cache. -/
def State.newDirty (s : State) (p : PhysSlice) (line : Nat) : Bool :=
  let ds := s.dataState p line
  ds != .dirty && !(s.fromTracker p line && (ds == .evicting || ds == .absent))

/-- Whether a write that would make a new dirty line has to wait: the quota is reached, or others wait before it (05 R160). -/
def State.budgetWaits (s : State) (p : PhysSlice) (t : Tracker) : Bool :=
  s.newDirty p t.req.line && !t.budget && (s.atQuota p || !(s.sl p).budgetQ.isEmpty)

/-- A tracker joins those that wait for the dirty budget, in the order in which they began to (05 R160). -/
def State.joinBudget (s : State) (p : PhysSlice) (id : Nat) : State :=
  s.modSl p fun x => if x.budgetQ.contains id then x else { x with budgetQ := x.budgetQ ++ [id] }

/-- A request whose line's data must come from media issues its read at once, alongside any query (04 R126). A partial write checks the
budget before it (05 R160), and waits for it here where it must. -/
def State.earlyRead (s : State) (p : PhysSlice) (id : Nat) : State :=
  match s.trk p id with
  | none => s
  | some t =>
    let line := t.req.line
    if !t.req.needsData || s.dataState p line != .absent || t.mediaRead.isSome || t.data.isSome then s
    else if t.req.cls.read then s.readForTracker p id line true
    else if s.budgetWaits p t then s.joinBudget p id
    else (s.modTrk p id fun t => { t with budget := true }).readForTracker p id line true

/-- The directory entry that a tracker has of its line after a resolution: where the poison record of 03 R91 wrote one beside the
line, the entry a media read issued earlier returns is out of date. -/
def State.recordedEntry (s : State) (p : PhysSlice) (r : BitVec 32) (line : Nat) (e : Option DirEntry) : Option DirEntry :=
  if !rgRevert r && s.dataState p line == .absent then some (deNone s.epoch true) else e

/-- With its tracking state known, a request resolves an owner-lost line and forms its snoops (03 R80, R90, R85). -/
def State.setView (s : State) (p : PhysSlice) (t : Tracker) (v : Tracking) (fromDir : Bool) (e : Option DirEntry) : State :=
  let pz := t.poison || t.metaBad || s.poisonFlag p t.req.line || (match e with | some e => dePoison e | none => false)
  let s0 := if fromDir then (s.count (16 + p.val) 15).flag p t.id 6 else s
  let (s1, v1, pz1, ops, e1) := match v with
    | .ol g inc =>
      let (s1, ops) := s0.resolveLost p t.region t.req.line g inc 0 (.poisonRecord p t.id)
      (s1, Tracking.i, pz || !rgRevert t.region, ops, s0.recordedEntry p t.region t.req.line e)
    | _ => (s0, v, pz, [], e)
  let fd := fromDir || t.metaBad
  let s2 := s1.modTrk p t.id fun t =>
    { t with view := v1, fromDir := fd, entry := e1, poison := pz1, poisonOps := t.poisonOps ++ ops }
  match s2.trk p t.id with
  | some t2 => ((s2.sendSnoops p t2).takeMarked p t.req.line).takeHeld p t.req.line
  | none => s2

/-- The directory entry decides the tracking state: it is taken from what the tracker has, or read from media (03 R82). -/
def State.fetchDir (s : State) (p : PhysSlice) (t : Tracker) : State :=
  let line := t.req.line
  let mask := rgMask t.region
  match t.entry, t.metaBad, t.mediaRead with
  | some e, _, _ => s.setView p t (s.decodeDir mask e) true (some e)
  | none, true, _ => s.setView p t (.x mask) true none
  | none, false, some _ => s.modTrk p t.id fun t => { t with phase := .dir }
  | none, false, none =>
    -- a partial write reads its line's data only once the budget lets it (05 R160)
    let sealed := t.req.needsData && s.dataState p line = .absent && (t.req.cls.read || t.budget || !s.newDirty p line)
    (s.readForTracker p t.id line sealed).modTrk p t.id
      fun t => { t with phase := .dir }

/-- The spill map bit of a tracker's chunk is known: 0 is I, 1 asks for the directory entry (03 R82, 04 R126). -/
def State.mapKnown (s : State) (p : PhysSlice) (t : Tracker) (bit : Bool) : State :=
  if bit then s.fetchDir p t else s.setView p t .i false none

/-! ### The sweeper and the urgent directed pass under their trackers (04 R132, R140) -/

/-- A line of a host's that is lost: the severe event and the LINE_LOST notice with its DPA (06 Table 6.4, 10 R325). -/
def State.lineLost (s : State) (src code line : Nat) : State :=
  (s.major src (lineEventInfo code line)).notice 3 0x26 2 src code (dpaOf line)

/-- A slice's part of the visit is no longer clean. -/
def State.sweepDirty (s : State) (p : PhysSlice) : State :=
  s.modSl p fun x => { x with sweep := x.sweep.map fun v => { v with clean := false } }

/-- What 04 Table 4.7 asks for a line whose directory entry is `e`; none stands for an uncorrectable metadata read. -/
inductive SweepAction where
  | nothing | unclean | lost | clear (e : DirEntry) | snoop (e : DirEntry) | resolve (e : DirEntry)
  deriving DecidableEq, Repr

/-- The first row of 04 Table 4.7 that applies. -/
def State.sweepRow (s : State) (p : PhysSlice) (line : Nat) (e : Option DirEntry) : SweepAction :=
  match e with
  | none => .lost
  | some e =>
    let held : Bool := match s.sfEntry p line with | some f => f.lst (lineInSector line) != 3 | none => false
    if deState e = 0 then .nothing
    else if deEpoch e ≠ s.epoch ∨ held then .clear e
    else if s.on GLB_EPOCH.DISTRUST then .snoop e
    else match s.decodeDir 0#16 e with
      | .i => .clear e
      | .ol _ _ => .resolve e
      | _ => .unclean

/-- An agent's tracker has done what it was allocated for; `ops` are the media writes that its completion waits for. -/
def State.agentDone (s : State) (p : PhysSlice) (id : Nat) (ops : List Nat) : State :=
  s.modTrk p id fun t => { t with phase := .done, recorded := true, responded := true, poisonOps := t.poisonOps ++ ops }

/-- A line resolved under 03 R90 by an agent, which records it as I in its directory entry, on chip or on media. -/
def State.resolveDir (s : State) (p : PhysSlice) (t : Tracker) (source : Nat) (e : DirEntry) : State × List Nat :=
  let line := t.req.line
  let r := s.region p line
  let (s1, ops) := s.resolveLost p r line (deOwner e) (deInc e) source (.poisonRecord p t.id)
  if rgRevert r then ((s1.writeDir p line (deNone s.epoch (dePoison e)) (.directory p) 5).1, ops)
  else if s.dataState p line = .absent then (s1, ops)
  else ((s1.writeDir p line (deNone s.epoch true) (.directory p) 5).1, ops)

/-- The sweeper acts on a line, under its tracker, from the entry derived there (04 R132). With DISTRUST set it snoops every host of
the region's MASK as for RD_CUR in X(V). -/
def State.sweepUnder (s : State) (p : PhysSlice) (t : Tracker) (e : Option DirEntry) : State :=
  let line := t.req.line
  match s.sweepRow p line e with
  | .nothing => s.agentDone p t.id []
  | .unclean => (s.sweepDirty p).agentDone p t.id []
  | .lost => ((s.lineLost (0x10 + p.val) 1 line).sweepDirty p).agentDone p t.id []
  | .clear e => ((s.writeDir p line (deNone s.epoch (dePoison e)) (.directory p) 5).1).agentDone p t.id []
  | .snoop e => s.setView p t (.x (rgMask (s.region p line))) true (some e)
  | .resolve e =>
    let (s1, ops) := s.resolveDir p t 2 e
    s1.agentDone p t.id ops

/-- Whether an entry names, in state 10 or 11, a host for which an urgent directed pass runs. -/
def State.urgentNames (s : State) (e : DirEntry) : Bool :=
  decide (2 ≤ deState e) && deEpoch e == s.epoch && (s.port (deOwner e)).urgent.isSome

/-- The urgent directed pass acts on a line, under its tracker, from the entry derived there (04 R140). Where the filter has the line
in a state other than 11 its entry is no record, and the pass leaves it. An entry whose metadata read is uncorrectable names no
host, and the pass leaves it too: DESIGN CHOICE, log 97. -/
def State.urgentUnder (s : State) (p : PhysSlice) (t : Tracker) (e : Option DirEntry) : State :=
  let held : Bool := match s.sfEntry p t.req.line with | some f => f.lst (lineInSector t.req.line) != 3 | none => false
  match e with
  | none => s.agentDone p t.id []
  | some e =>
    if held || !s.urgentNames e then s.agentDone p t.id []
    else
      let (s1, ops) := s.resolveDir p t 3 e
      s1.agentDone p t.id ops

/-- The sweeper, or an urgent pass, has the entry of its tracker's line. -/
def State.agentAct (s : State) (p : PhysSlice) (t : Tracker) (e : Option DirEntry) : State :=
  if t.req.cls = .sweep then s.sweepUnder p t e else s.urgentUnder p t e

/-- The directory entry of an agent's line is derived again under its tracker: on chip where 03 R82 has it, else from media. -/
def State.agentDerive (s : State) (p : PhysSlice) (t : Tracker) : State :=
  match s.onChipDir p t.req.line with
  | some e => s.agentAct p t (some e)
  | none => (s.readForTracker p t.id t.req.line false).modTrk p t.id fun t => { t with phase := .dir }

/-- Derivation (03 R81 to R83): the filter, then what the tag or eviction buffer holds, then the spill map, then media. -/
def State.stDerive (s : State) (p : PhysSlice) (id : Nat) : State :=
  match s.trk p id with
  | none => s
  | some t =>
    let line := t.req.line
    if t.req.cls.agent then
      match t.phase with
      | .query => s.agentDerive p t
      | .dir => if t.entry.isSome || t.metaBad then s.agentAct p t t.entry else s
      | _ => s
    else match t.phase with
    | .query =>
      match s.derive p (rgMask t.region) line with
      | .known v d e => s.setView p t v d e
      | .needDir => s.fetchDir p t
      | .needMap =>
        if s.holderOf (chunkOf line) = p then
          let s := s.checkSpill p (chunkOf line)
          s.mapKnown p t (s.spillBitOf line)
        else if t.asked then s
        else
          let m : SpillMsg := ⟨false, chunkOf line, s.holderOf (chunkOf line), .tracker p id, false⟩
          let s1 := { s with fabric := s.fabric.put none s.nextId (some m), nextId := s.nextId + 1 }
          s1.modTrk p id fun t => { t with asked := true }
    | .dir => if t.entry.isSome || t.metaBad then s.fetchDir p t else s
    | _ => s

/-- The incarnation that the owner-loss list names for a lost owner: the one before the departure, if its port is husked
(04 Table 4.10, 08 R284). -/
def State.lostInc (s : State) (g : HostId) : BitVec 12 :=
  if s.on (HP_CTRL.HUSK g.val) then s.inc12 g - 1 else s.inc12 g

/-- The hosts whose answer is `a`. -/
def answered (l : List Snoop) (a : SnoopAnswer) : HostSet := hsOf ((l.filter fun n => n.answer == some a).map (·.host))

/-- Whether another host's answer shows that the departed host `g` held no exclusive copy (02 R72 step 4): a BIRspS, or a BIRspE as a
possible owner. -/
def sharedEvidence (g : HostId) (l : List Snoop) : Bool :=
  l.any fun n => n.host != g && (n.answer == some .s || n.answer == some .e || n.owned)

/-- The condition of 03 R96 on recording E(h) besides that no other host remains; `e` is the region entry. -/
def State.grantE (s : State) (p : PhysSlice) (e : BitVec 32) (line : Nat) (h : HostId) : Bool :=
  rgMode e == 2 || s.on (SL_CTRL.SF_DRAIN p.val) ||
    match s.sfEntry p line with
    | none => true
    | some f => f.lst (lineInSector line) == 3 || !f.ownedBut (lineInSector line) || f.owner == h

/-- The state after a request (03 Tables 3.6 to 3.12a), from its view and the answers. -/
def State.afterOf (s : State) (p : PhysSlice) (t : Tracker) : Tracking :=
  let sh := answered t.snoops .s
  let ex := (hsList (answered t.snoops .e)).head?
  let set (v : HostSet) : Tracking := if v = 0#16 then .i else .s v
  match t.req.agent with
  | .host h =>
    match t.req.cls with
    | .rdShared =>
      let rest := match t.view with
        | .s v => hsDel v h
        | .e g => if g = h then 0#16 else sh
        | .x _ => sh
        | _ => 0#16
      if rest = 0#16 ∧ (t.view = .e h ∨ s.grantE p t.region t.req.line h) then .e h else .s (hsAdd rest h)
    | .rdOwn | .invOwn => .e h
    | .rdCur =>
      match t.view with
      | .e g => if g = h then .e g else match ex with | some o => .e o | none => set sh
      | .x v => match ex with
        | some o => .e o
        | none => set (if hsMem v h then hsAdd sh h else sh)
      | v => v
    | .invFlush =>
      match t.view with
      | .e g => if g = h then .e g else .i
      | .s v | .x v => if hsMem v h then .s (hsOne h) else .i
      | _ => .i
    | .wrFull | .wrPtl => if t.req.shared then .s (hsOne h) else .i
    | _ => t.view
  | .ia _ =>
    match t.req.cls with
    | .iaRd | .sweep | .resLoad =>
      match t.view with
      | .e _ | .x _ => match ex with
        | some o => .e o
        | none => set sh
      | v => v
    -- an internal recall of Set Region Entry leaves no host holding the line (01 R40)
    | .iaWr | .condStore | .invFlush => .i
    | _ => t.view

/-- Whether every line of a reserved load's granule has passed its snoops (08 R273): its four requests, in the order of their lines, have
successive numbers. -/
def State.granuleReady (s : State) (r : Request) : Bool :=
  match r.core with
  | some k => (List.range 4).all fun j =>
      !(s.cores.look Core.idle k.val).granule.contains (r.id + j - lineInSector r.line)
  | none => true

/-- A core's reservation, wherever it is held, is dropped; a core holds at most one (08 R272, R274). -/
def State.dropReservation (s : State) (k : LogicalCore) : State :=
  let s1 := allSlices.foldl (fun s p => s.modSl p fun x => { x with reserved := x.reserved.put 0 k.val 0 }) s
  { s1 with sramReserved := s1.sramReserved.put 0 k.val 0 }

/-- A request of a reserved load has passed its snoops; with the last of the granule's four the reservation is recorded, in place of the
core's previous one, before any data is returned (08 R272, R273). -/
def State.passGranule (s : State) (p : PhysSlice) (r : Request) : State :=
  match r.cls, r.core with
  | .resLoad, some k =>
    let c := s.cores.look Core.idle k.val
    if c.granule.contains r.id then
      let s1 := { s with cores := s.cores.put Core.idle k.val { c with granule := c.granule.filter (· ≠ r.id) } }
      if s1.granuleReady r then
        (s1.dropReservation k).modSl p fun x => { x with reserved := x.reserved.put 0 k.val (sectorOf r.line + 1) }
      else s1
    else s
  | _, _ => s

/-- Combination of the answers once every one has arrived and every snoop writeback is applied (03 R85, R88; 02 R72). -/
def State.stCombine (s : State) (p : PhysSlice) (id : Nat) : State :=
  match s.trk p id with
  | none => s
  | some t =>
    if t.phase ≠ .snoop ∨ t.snoops.any (fun n => n.answer == none) ∨ (s.sl p).wbs.any (fun w => w.line == t.req.line) then s
    else
      let lost := (hsList (answered t.snoops .lost)).find? fun g => !sharedEvidence g t.snoops
      let (s1, ops, pz, e) := match lost with
        | some g =>
          let (s1, ops) := s.resolveLost p t.region t.req.line g (s.lostInc g) 0 (.poisonRecord p id)
          (s1, ops, !rgRevert t.region, s.recordedEntry p t.region t.req.line t.entry)
        | none => (s, [], false, t.entry)
      (s1.modTrk p id fun t =>
        { t with phase := .data, after := s1.afterOf p t, poison := t.poison || pz, entry := e, poisonOps := t.poisonOps ++ ops }).passGranule
        p t.req

/-- A read takes its line's data (03 Table 3.12). -/
def State.readStage (s : State) (p : PhysSlice) (t : Tracker) : State :=
  let line := t.req.line
  let got (s : State) (d : LineData) (pz : Bool) : State :=
    s.modTrk p t.id fun t => { t with data := some d, poison := t.poison || pz, phase := .ack }
  match t.buffer with
  | some b => got s b false
  | none =>
    match s.hcFind p line with
    | some w =>
      let c := s.way p (hcSet line) w
      let (s, bad) := s.readData p (hcSet line) w
      if bad && !c.tagA.dirty then
        -- 10 Table 10.2: the Clean line is dropped and its data taken from media
        (s.dropBad p line w).readForTracker p t.id line true
      else
        let s := if bad then s.setTag p (hcSet line) w { c.tagA with poison := true } else s
        got ((s.count (16 + p.val) 11).flag p t.id 0) c.data (c.tagA.poison || bad)
    | none =>
      match s.ebFind p line with
      | some b =>
        let (s, bad) := s.readBuffer p 8 b.op
        got ((s.count (16 + p.val) 12).flag p t.id 7) b.data (b.poison || bad)
      | none =>
        match t.data with
        | some d =>
          let (s, bad) := s.readBuffer p 7 t.id
          got (s.count (16 + p.val) 13) d bad
        | none => if t.mediaRead.isSome then s else s.readForTracker p t.id line true

/-- A line the write made Dirty in a way is written through where the rules ask it (05 R166). -/
def State.throughWay (s : State) (p : PhysSlice) (t : Tracker) (phys : Nat) : State :=
  if s.writeThrough p then
    ((s.cleanWrite p t.req.line phys (.writeThrough p t.id) true).modTrk p t.id fun t =>
      { t with wtOp := some s.nextId, phase := .ack }).flag p t.id 10
  else s.modTrk p t.id fun t => { t with phase := .ack }

/-- A partial write reads the line it merges into: an uncorrectable Clean line is dropped, a Dirty one poisoned in place
(10 Table 10.2). -/
def State.mergeRead (s : State) (p : PhysSlice) (line : Nat) (full : Bool) : State :=
  match s.hcFind p line with
  | some w =>
    if full then s
    else
      let (s1, bad) := s.readData p (hcSet line) w
      let t := (s1.way p (hcSet line) w).tagA
      if !bad then s1
      else if t.dirty then s1.setTag p (hcSet line) w { t with poison := true }
      else s1.dropBad p line w
  | none => s

/-- A write merges its data into its line (03 R101, Table 3.12, R105; 05 R160, R166). -/
def State.writeStage (s : State) (p : PhysSlice) (t : Tracker) : State :=
  let line := t.req.line
  let s := s.mergeRead p line t.req.full
  let full := t.req.full
  let inTracker := s.fromTracker p line
  let pz (old : Bool) := if full then t.req.poison else old || t.poison || t.req.poison
  let mix (d : LineData) := mergeBytes d t.req.data (if full then BitVec.allOnes 64 else t.req.be)
  if s.budgetWaits p t then (s.joinBudget p t.id).modTrk p t.id fun t => { t with phase := .budget }
  else
    let s := (s.modTrk p t.id fun t => { t with budget := true }).modSl p fun x => { x with budgetQ := x.budgetQ.filter (· ≠ t.id) }
    let (s, bad) := s.readBuffer p 7 t.id
    let pz (old : Bool) := pz old || bad
    let place (s : State) (d : LineData) (old : Bool) : State :=
      if inTracker then
        let dir := s.evictDir t.entry.isSome (t.entry.getD 0#32) (pz old)
        ((((s.clearReserved p line).issue .writeLine line (.writeThrough p t.id) 3 (mix d) dir).modTrk p t.id fun t =>
          { t with wtOp := some s.nextId, buffer := some (mix d), poison := pz old, phase := .ack }).flag p t.id 10)
      else match s.canAlloc p line with
        | none => s.modTrk p t.id fun t => { t with phase := .hcWay }
        | some n =>
          let s1 := ((s.clearReserved p line).hcFill p line n (mix d) true (pz old) t.entry).count (16 + p.val) 21
          (s1.modTrk p t.id fun t => { t with poison := pz old }).throughWay p t n.1
    match s.hcFind p line with
    | some w =>
      let c := s.way p (hcSet line) w
      let s1 := if c.tagA.dirty then s else s.count (16 + p.val) 21
      let s2 := (s1.clearReserved p line).setWay p (hcSet line) w
        (c.tagA.written (pz c.tagA.poison)) (mix c.data)
      (s2.modTrk p t.id fun t => { t with poison := pz c.tagA.poison }).throughWay p t w
    | none =>
      match t.buffer, s.ebFind p line, t.data with
      | some b, _, _ => place s b t.poison
      | none, some b, _ =>
        let (s, bad) := if full then (s, false) else s.readBuffer p 8 b.op
        place (s.count (16 + p.val) 12) b.data (b.poison || bad)
      | none, none, some d => place s d t.poison
      | none, none, none =>
        if full then place s 0#512 false
        else if t.mediaRead.isSome then s
        else s.readForTracker p t.id line true

/-- A conditional store's check at the home (08 R275): the reserving core's entry names the granule. -/
def State.reservationHolds (s : State) (p : PhysSlice) (r : Request) : Bool :=
  match r.core with
  | some k => (s.sl p).reserved.look 0 k.val == sectorOf r.line + 1 && rgTracked (s.region p r.line)
  | none => false

/-- The data stage of a request whose snoops have ended. -/
def State.stData (s : State) (p : PhysSlice) (id : Nat) : State :=
  match s.trk p id with
  | none => s
  | some t =>
    if t.phase ≠ .data then s
    else if t.req.cls.read then
      if t.req.be = 0#64 then s.modTrk p id fun t => { t with phase := .ack } else s.readStage p t
    else if t.req.cls.write then s.writeStage p t
    else s.modTrk p id fun t => { t with phase := .ack }

/-! ### Victims of the filter (04 R115 to R117) -/

/-- The directory entry that a spill writes for line `k` of a victim (04 Table 4.3). -/
def State.spillDir (s : State) (f : FilterEntry) (k : Nat) : Option DirEntry :=
  match f.lst k with
  | 1 => some (deShared s.epoch f.presence false)
  | 2 =>
    let inc := s.inc12 f.owner
    if f.oinc = inc.extractLsb' 0 4 then some (deOwned 2#2 s.epoch f.owner inc false)
    else some (deOwned 3#2 s.epoch f.owner (inc - 1) false)
  | _ => none

/-- A victim by its number. -/
def State.victim (s : State) (p : PhysSlice) (id : Nat) : Option Victim := (s.sl p).victims.find? fun v => v.id == id

/-- A victim changed. -/
def State.modVictim (s : State) (p : PhysSlice) (id : Nat) (f : Victim → Victim) : State :=
  s.modSl p fun x => { x with victims := x.victims.map fun v => if v.id = id then f v else v }

/-- The spill of one line of a victim (04 R116). -/
def State.spillLine (s : State) (p : PhysSlice) (id : Nat) (f : FilterEntry) (line : Nat) : State :=
  match s.spillDir f (lineInSector line) with
  | none => s
  | some e =>
    if s.dataState p line = .absent then
      ((s.count (16 + p.val) 16).modVictim p id fun v => { v with reads := v.reads ++ [(s.nextId, line)] }).issue .readMeta
        line (.victim p id line) 2 0#512 0#32
    else
      let (s1, ops) := s.writeDir p line e (.victim p id line) (s.writeClass false)
      s1.modVictim p id fun v => { v with writes := v.writes ++ ops }

/-- The hosts that a recall snoops for a line of a victim (04 R117; 10 R322 for an entry that cannot be read). -/
def State.recallHosts (s : State) (v : Victim) (line : Nat) (mask : HostSet) : HostSet :=
  if v.scrubRecall then mask
  else match v.entry.lst (lineInSector line) with
    | 1 => v.entry.presence
    | 2 => if v.entry.oinc = (s.inc12 v.entry.owner).extractLsb' 0 4 then hsOne v.entry.owner else 0#16
    | _ => 0#16

/-- The snoops of a recall to one host: one block for a sector or an aligned pair where the host takes blocks, else one a
line (02 R62, 04 R117). -/
def recallBlocks (blk : Bool) (lines : List Nat) (base : Nat) : List (Nat × Nat) :=
  let pair (k : Nat) : List (Nat × Nat) :=
    if blk && lines.contains (base + k) && lines.contains (base + k + 1) then [(base + k, 2)]
    else ((if lines.contains (base + k) then [(base + k, 1)] else []) ++
      (if lines.contains (base + k + 1) then [(base + k + 1, 1)] else []))
  if blk && lines.length == 4 then [(base, 4)] else pair 0 ++ pair 2

/-- The snoops of a recall are formed and sent; lines that are already owner-lost are resolved first (04 R117). -/
def State.startRecall (s : State) (p : PhysSlice) (id : Nat) : State :=
  match s.victim p id with
  | none => s
  | some v =>
    let base := (v.entry.tag * 32768 + v.set) * 4
    let lines := (List.range 4).map (base + ·)
    let s1 := lines.foldl (fun s line =>
      if !v.scrubRecall && v.entry.lst (lineInSector line) == 2 && v.entry.oinc ≠ (s.inc12 v.entry.owner).extractLsb' 0 4 then
        let (s1, ops) := s.resolveLost p (s.region p line) line v.entry.owner (s.inc12 v.entry.owner - 1) 0 (.victim p id line)
        s1.modVictim p id fun v => { v with writes := v.writes ++ ops }
      else s) s
    let mask := rgMask (s.region p base)
    let aimed (h : HostId) := lines.filter fun l => hsMem (s.recallHosts v l mask) h
    let s2 := s1.modVictim p id fun v => { v with snoops := allHosts.flatMap fun h => (aimed h).map fun l =>
      ⟨h, l, .inv, if s.portLive h then none else some .i, false⟩ }
    let s3 := allHosts.foldl (fun s h =>
      if s.portLive h then
        ((recallBlocks (s.on (HP_CTRL.BLK_EN h.val)) (aimed h) base).foldl
          (fun s b => s.issueSnoop h ⟨.victim p id, .inv, b.1, b.2⟩) s).count (16 + p.val) 17 (aimed h).length
      else s) s2
    lines.foldl (fun s l => s.takeHeld p l) s3

/-- A victim is taken for spill or recall (04 R115, Table 4.2). Its number is `s.nextId`. -/
def State.startVictim (s : State) (p : PhysSlice) (set phys : Nat) (drain : Bool) : State :=
  let f := (s.sfWay p set phys).entry
  let base := (f.tag * 32768 + set) * 4
  let r := s.region p base
  let id := s.nextId
  let tokens := s.rd (SL_SF_CTRL.TOKENS p.val)
  let preferred := rgTracked r && !rgSpill r
  let hasToken := decide (0 < tokens) && decide (0 < s.rd (SL_SF_CTRL.SPILL_RATE p.val))
  let spill := drain || (preferred && hasToken)
  let v : Victim := ⟨id, set, phys, f, spill, false, [], [], false, []⟩
  let s1 := (s.bump).modSl p fun x => { x with victims := x.victims ++ [v] }
  if spill then
    let s2 := if drain then s1 else s1.wr (SL_SF_CTRL.TOKENS p.val) (tokens - 1)
    let s3 := ((List.range 4).map (base + ·)).foldl (fun s l => s.spillLine p id f l) (s2.count (16 + p.val) 18)
    let (s4, wait) := s3.sendSet p (chunkOf base) (.victim p id)
    s4.modVictim p id fun v => { v with setAck := wait }
  else (s1.count (16 + p.val) (if preferred then 20 else 19)).startRecall p id

/-- Whether nothing of a victim is left to end (04 R117, 07 R240). -/
def State.victimDone (s : State) (p : PhysSlice) (v : Victim) : Bool :=
  v.reads.isEmpty && v.writes.isEmpty && !v.setAck && v.snoops.all (fun n => n.answer != none)
    && !(s.sl p).wbs.any fun w => w.line / 4 == v.entry.tag * 32768 + v.set

/-- A victim's way is freed. -/
def State.freeVictim (s : State) (p : PhysSlice) (v : Victim) : State :=
  (s.setSf p v.set v.way FilterWay.empty.entry).modSl p fun x => { x with victims := x.victims.filter fun w => w.id != v.id }

/-! ### Recording the state after (03 R92 to R95) -/

/-- A directory entry for a tracker's line is written, with the spill map set message of 04 R125 for a state other than I. -/
def State.recordDir (s : State) (p : PhysSlice) (t : Tracker) (v : Tracking) : State :=
  let pz := t.poison || (!t.req.cls.write && s.poisonFlag p t.req.line)
  let (s1, _) := s.writeDir p t.req.line (s.dirOf v pz) (.directory p) (s.writeClass false)
  if v = .i then s1
  else
    let (s2, wait) := s1.sendSet p (chunkOf t.req.line) (.tracker p t.id)
    s2.modTrk p t.id fun t => { t with setAcks := t.setAcks + wait.toNat }

/-- The filter entry with line `k` in a state after that it may hold. -/
def State.entryWith (s : State) (f : FilterEntry) (k : Nat) (v : Tracking) : FilterEntry :=
  match v with
  | .e h =>
    let f1 := if f.ownedBut k then f else { f with owner := h, oinc := (s.inc12 h).extractLsb' 0 4 }
    ({ f1 with presence := hsAdd f1.presence h }.setLst k 2)
  | .s w => { f with presence := f.presence ||| w }.setLst k 1
  | _ => f.setLst k 0

/-- The new filter entry of a line's sector: the other lines are 11 where the chunk's spill map bit is set (03 R92). -/
def State.newEntry (s : State) (line : Nat) (v : Tracking) : FilterEntry :=
  let f : FilterEntry := ⟨sfTag line, true, 0#16, if s.spillBitOf line then 0xFF#8 else 0#8, 0, 0#4⟩
  s.entryWith (f.setLst (lineInSector line) 0) (lineInSector line) v

/-- Whether a directory entry may be written for a tracker's line: its bit [30] is known from the write itself, from the entry or
data read, or from the copy of the line on chip (03 R95, 04 R123). -/
def State.poisonKnown (s : State) (p : PhysSlice) (t : Tracker) : Bool :=
  t.req.full || t.poison || t.entry.isSome || t.data.isSome || s.dataState p t.req.line != .absent

/-- A directory entry is written in place of, or beside, a filter state; an Absent line's entry whose bit [30] is not known is read
first, as for a spill (04 R116, R123; log 29). -/
def State.recordInDir (s : State) (p : PhysSlice) (t : Tracker) (v : Tracking) (filter : State → State) : State :=
  if s.poisonKnown p t then
    ((filter s).recordDir p t v).modTrk p t.id fun t => { t with recorded := true, victim := none }
  else if t.mediaRead.isSome then s
  else s.readForTracker p t.id t.req.line false

/-- The grant of a RD_SHARED depends on the filter entry as it is when the state after is recorded (03 R96), which the requests for
other lines of the sector may have changed since the snoops ended. -/
def State.settleGrant (s : State) (p : PhysSlice) (id : Nat) : State :=
  s.modTrk p id fun t => if t.req.cls = .rdShared ∧ !t.responded then { t with after := s.afterOf p t } else t

/-- Whether a tracker has its state after to record and nothing stands before it. -/
def Tracker.toRecord (t : Tracker) : Bool := !t.recorded && t.victim.isNone && (t.phase == .ack || t.phase == .done)

/-- Whether a tracker waits because no way of its filter set is eligible (04 R114). -/
def State.waitsFilterWay (s : State) (p : PhysSlice) (t : Tracker) : Bool :=
  t.toRecord && (s.sfEntry p t.req.line).isNone && t.after != .i && !s.on (SL_CTRL.SF_DRAIN p.val)
    && (s.sfReplaceable p (sfSet t.req.line)).isNone

/-- The state after goes into the filter or the directory (03 R92, R93; 07 R249). -/
def State.stRecord (s : State) (p : PhysSlice) (id : Nat) : State :=
  let s := if (s.trk p id).any Tracker.toRecord then s.settleGrant p id else s
  match s.trk p id with
  | none => s
  | some t =>
    if !t.toRecord then s
    else
      let line := t.req.line
      let k := lineInSector line
      let mark (s : State) : State := s.modTrk p id fun t => { t with recorded := true, victim := none }
      match s.sfEntry p line with
      | some f =>
        if f.lst k = 3 then
          if t.fromDir && t.after == t.view && t.view != .i then mark s else s.recordInDir p t t.after fun s => s
        else match t.after with
          | .e h =>
            if f.ownedBut k && f.owner != h then
              s.recordInDir p t t.after fun s => s.modSf p line fun f => f.setLst k 3
            else mark (s.modSf p line fun f => s.entryWith f k t.after)
          | _ => mark (s.modSf p line fun f => s.entryWith f k t.after)
      | none =>
        if t.after = .i then
          if t.fromDir && (t.view != .i || t.entry.any (fun e => deState e != 0 && deEpoch e == s.epoch)) then
            s.recordInDir p t .i fun s => s
          else mark s
        else if s.on (SL_CTRL.SF_DRAIN p.val) then s.recordInDir p t t.after fun s => s
        else
          let install (s : State) (way : Nat) : State := mark (s.setSf p (sfSet line) way (s.newEntry line t.after).settle)
          -- one allocation for a sector: a second request of it waits for the first's way (log 28)
          if (s.sl p).trackers.any fun u => sectorOf u.req.line == sectorOf line && u.victim.isSome then s
          else match s.sfReplaceable p (sfSet line) with
          | none => s
          | some (_, phys, false) => install s phys
          | some (n, phys, true) =>
            let s1 := s.modSl p fun x => { x with sfPtr := x.sfPtr.put 0 (sfSet line) ((n + 1) % 16) }
            let f := (s1.sfWay p (sfSet line) phys).entry
            if f.quiet then install s1 phys
            else
              let vid := s1.nextId
              let s2 := (s1.startVictim p (sfSet line) phys false)
              match s2.victim p vid with
              | none => s2
              | some v =>
                let s3 := if v.spill then s2.flag p id 5 else s2
                if s3.victimDone p v then install (s3.freeVictim p v) phys
                else s3.modTrk p id fun t => { t with victim := some vid }

/-! ### Responses (03 R109) -/

/-- The number that stands for a write of the rebuild aperture at an index among a channel's outstanding writes (log 9). -/
def apertureId (index : Nat) : Nat := 2 ^ 62 + index

/-- The end of an IA request, as its control core or its DMA channel sees it (08 R265, 14 R445). -/
def State.iaEnd (s : State) (id : Nat) : State :=
  let ended (c : Core) : Core := { c with
    loads := c.loads.filter (· ≠ id), stores := c.stores.filter (·.id ≠ id), releases := c.releases.filter (· ≠ id),
    granule := c.granule.filter (· ≠ id),
    acquire := if c.acquire = some id then none else c.acquire }
  { s with
    cores := s.cores.mapVals Core.idle ended,
    dma := s.dma.mapVals DmaState.idle fun x => { x with writesOut := x.writesOut.filter (· ≠ id) } }

/-- An imprecise bus error is pending in a core: the address of the first failed store, and a count of those that follow it before
the exception is taken (08 R277). -/
def Core.storeFailed (c : Core) (addr : Word) : Core :=
  match c.busErrAddr with
  | none => { c with busErrAddr := some addr, busErrCount := 0 }
  | some _ => { c with busErrCount := c.busErrCount + 1 }

/-- A core takes its precise bus error, or notes an imprecise one (08 R277). -/
def Core.failed (c : Core) (id line : Nat) : Core :=
  let c1 := if c.loads.contains id then { c with precise := c.precise + 1, preciseAddr := BitVec.ofNat 64 (dpaOf line) } else c
  match c1.stores.find? fun w => w.id == id with
  | none => c1
  | some w => c1.storeFailed (BitVec.ofNat 64 w.addr)

/-- An IA request is answered with an error: its core takes a precise bus-error exception for a load, on whose entry its reservation
ends, or has an imprecise one pending for a store, which counts as acknowledged (08 R274, R277). A DMA write in error stays
outstanding until its engine takes the error (14 R449). -/
def State.iaFail (s : State) (id line : Nat) : State :=
  let hit (c : Core) : Bool := c.loads.contains id
  let ks := (List.finRange 4).filter fun k => hit (s.cores.look Core.idle k.val)
  let s1 := { s with cores := s.cores.mapVals Core.idle fun c => c.failed id line }
  let s2 := ks.foldl (fun s k => s.dropReservation k) s1
  { s2.iaEnd id with dma := s2.dma }

/-- Whether a request receives no response: its host has departed since it sent it (02 R72 step 3). -/
def State.responseLost (s : State) (r : Request) : Bool :=
  match r.agent with
  | .host h => s.on (HP_CTRL.HUSK h.val) || r.inc != s.inc12 h
  | .ia _ => false

/-- The sample record of a selected request, as its response is formed, or, where it receives none, its count in ABANDONED (15 R464; log
129); the nanosecond stamps are values the spec leaves to timing (log 1). -/
def State.sampleRecord (s : State) (p : PhysSlice) (t : Tracker) : State :=
  if !t.sampled then s
  else if s.responseLost t.req then s.inc PMU_SAMPLE_STATUS.ABANDONED
  else
    let code : Nat := match t.req.cls with
      | .rdShared => 1 | .rdOwn => 2 | .rdCur => 3 | .invOwn => 4 | .invFlush => 5 | .wrFull => 6 | .wrPtl => 7
      | .clnEvct => 8 | .iaRd => 0x10 | .iaWr => 0x11 | .resLoad => 0x12 | .condStore => 0x13 | _ => 0
    let agent : Nat := match t.req.agent with | .host h => h.val | .ia _ => 16
    let ns := Config.freeWord s.freeTick
    let media := if t.data.isSome && !t.flags.getLsbD 0 && !t.flags.getLsbD 7 then (ns.extractLsb' 32 16).toNat else 0
    let snoop := if t.flags.getLsbD 3 then (ns.extractLsb' 48 16).toNat else 0
    let r : BitVec 256 := BitVec.ofNat 256 (t.req.born % 2 ^ 64 + dpaOf t.req.line * 2 ^ 64 + agent * 2 ^ 112
      + code * 2 ^ 120 + (ns.extractLsb' 0 32).toNat * 2 ^ 128
      + ((Config.freeWord (s.freeTick + 1)).extractLsb' 0 16).toNat * 2 ^ 160
      + media * 2 ^ 176 + snoop * 2 ^ 192 + t.flags.toNat * 2 ^ 208 + p.val * 2 ^ 224)
    let s1 := s.draw.draw
    if s1.samples.length < 4096 then { s1 with samples := s1.samples ++ [r] }
    else if s1.on PMU_SAMPLE_CTRL.STOP_FULL then s1.inc PMU_SAMPLE_STATUS.DISCARDED
    else { s1 with samples := s1.samples.drop 1 ++ [r] }.inc PMU_SAMPLE_STATUS.LOST

/-- The response of a request (03 Table 3.13; 02 Table 2.13 for untracked-private regions). -/
def State.answer (s : State) (p : PhysSlice) (t : Tracker) : State :=
  let d := t.data.getD 0#512
  match t.req.agent with
  | .host h =>
    let load := s.devLoad p
    let tracked := rgTracked t.region
    let say (s : State) (m : S2m) : State := s.answerInc h t.req.inc m
    let mem (s : State) : State := say s (.memData t.req.tag d t.poison load)
    let cmp (s : State) (c : Cmp) : State := if tracked then say s (.cmp t.req.tag c load) else s
    -- 08 R274: Cmp-E clears the reservations of the granule
    let cmpE (s : State) : State := if tracked then say (s.clearReserved p t.req.line) (.cmp t.req.tag .cmpE load) else s
    match t.req.cls with
    | .rdShared => match t.after with
      | .e _ => cmpE (mem s)
      | _ => cmp (mem s) .cmpS
    | .rdOwn => cmpE (mem s)
    | .rdCur => cmp (mem s) .cmp
    | .invOwn => if tracked then cmpE s else say s (.cmp t.req.tag .cmp load)
    | .invFlush | .wrFull | .wrPtl | .clnEvct => say s (.cmp t.req.tag .cmp load)
    | _ => s
  | .ia st =>
    let old := s
    let s := s.iaEnd t.req.id
    -- 03 R103: a poisoned read is answered with an error
    let bad (s : State) : State :=
      ({ s with cores := old.cores }.iaFail t.req.id t.req.line).emit (.iaError st t.req.line true)
    match t.req.cls with
    | .iaRd => if t.poison then bad s else s.emit (.iaData st t.req.line d)
    | .resLoad =>
      if t.req.be = 0#64 then s
      else if t.poison then bad s
      else s.emit (.iaData st t.req.line d)
    | .iaWr => s.emit (.iaAck st t.req.line)
    | .condStore => match t.req.core with
      | some k => (s.count 78 4).emit (.iaCond k true)
      | none => s
    | _ => s

/-- A write that was merged in write-back and has sent no response when Cesal enters DRAIN completes under write-through (07 R254, R256):
its line, still in its way while its tracker holds it, is written to media once. -/
def State.drainWrite (s : State) (p : PhysSlice) (id : Nat) : State :=
  match s.trk p id with
  | none => s
  | some t =>
    match s.hcFind p t.req.line with
    | some w =>
      if s.mode = 4 ∧ t.phase = .ack ∧ t.req.cls.write ∧ t.budget ∧ !t.flags.getLsbD 10 then s.throughWay p t w else s
    | none => s

/-- The response leaves at its completion point (03 R109, 05 R166, 03 R91). -/
def State.stRespond (s : State) (p : PhysSlice) (id : Nat) : State :=
  let s := s.drainWrite p id
  match s.trk p id with
  | none => s
  | some t =>
    if t.phase ≠ .ack ∨ t.wtOp.isSome ∨ !t.poisonOps.isEmpty ∨ (t.req.cls = .resLoad ∧ rgTracked t.region ∧ !s.granuleReady t.req)
        -- what RD_SHARED grants is settled as its state after is recorded, or given its way (03 R96)
        ∨ (t.req.cls = .rdShared ∧ !t.recorded ∧ t.victim.isNone) then s
    else
      let t := if t.poison then { t with flags := t.flags ||| (1#16 <<< 9) } else t
      ((s.answer p t).sampleRecord p t).modTrk p id fun t => { t with phase := .done, responded := true, flags := t.flags }

/-- The other requests of a reserved load's granule respond once the last of them has passed its snoops (08 R273). -/
def State.respondGranule (s : State) (p : PhysSlice) (id : Nat) : State :=
  match s.trk p id with
  | none => s
  | some t =>
    if t.req.cls ≠ .resLoad then s
    else ((s.sl p).trackers.filter fun u => u.req.cls == .resLoad && u.req.core == t.req.core && u.phase == .ack).foldl
      (fun s u => s.stRespond p u.id) s

/-- A tracker moves on as far as what it has allows. -/
def State.advance (s : State) (p : PhysSlice) (id : Nat) : State :=
  ((((((s.stDerive p id).stCombine p id).stData p id).stRecord p id).stRespond p id).respondGranule p id).quotaCheck.cleanerCheck p

/-- Every tracker of a slice for which a condition holds moves on. -/
def State.advanceIf (s : State) (p : PhysSlice) (c : Tracker → Bool) : State :=
  ((s.sl p).trackers.filter c).foldl (fun s t => s.advance p t.id) s

end Sys2Proof.Machine
end

