-- ==== Sys2Proof/Machine/Agents.lean ====
section
/-! DEFINITION. The range maintenance agent of a slice: what it does to a line under its tracker, and how its part of an operation
ends (05 R173 to R178, 07 R247). -/

namespace Sys2Proof.Machine

/-! ### Agents' requests -/

/-- The media operations whose source is as asked. -/
def State.opsOf (s : State) (f : OpSource → Bool) : Nat :=
  s.mf.ops.countP fun e => match e.2 with | some o => f o.src | none => false

/-- A request of an internal agent for a line. It is none of the IA stop's. -/
def agentReq (id : Nat) (cls : ReqClass) (line now : Nat) : Request :=
  ⟨id, cls, .ia 63, line, 0#16, 0#512, 0#64, false, false, none, now, 0#12⟩

/-- The requests of an agent in a slice, with their trackers or waiting for them. -/
def Slice.agentOut (x : Slice) (cls : ReqClass) : Nat :=
  x.trackers.countP (fun t => t.req.cls == cls) + x.waitq.countP fun w => w.req.cls == cls

/-- Whether an agent may make one more request: it has no more of them at its slice than it may hold trackers (07 Table 7.1), so that
the wait queue has room for all (07 R226). The urgent pass, for which Table 7.1 sets no limit, makes at most 8 at a time: what R226's
figure leaves for it (DEDUCED, log 98). -/
def State.agentRoom (s : State) (p : PhysSlice) (cls : ReqClass) : Bool :=
  let x := s.sl p
  match cls with
  | .sweep => decide (x.agentOut .sweep + x.agentOut .range + x.agentOut .scrub < s.bgMax p)
  | _ => decide (x.agentOut cls < 8)

/-! ### The end of a part -/

/-- A range counter of 05 Table 5.10, saturating. -/
def State.rangeCount (s : State) (f : Fld) (k : Nat := 1) : State := s.inc f k

/-- BUSY clears with the last slice's part: DONE, and the RANGE_DONE notice (05 R173, 13 Table 13.10). -/
def State.rangeDone (s : State) (aborted : Bool) : State :=
  let s1 := (s.wr HC_RANGE_STATUS.BUSY 0).wr (if aborted then HC_RANGE_STATUS.ABORTED else HC_RANGE_STATUS.DONE) 1
  s1.notice 1 0x09 1 0x63 (getBits (s1.reg HC_RANGE_STATUS.reg) 0 4 + s1.rd HC_RANGE_STATUS.ERR_CODE * 2 ^ 4)
    (s1.rd (HC_RANGE_SUMMARY.LO 0))

/-- The end of a slice's part of a range operation (05 R173). -/
def State.rangePartEnd (s : State) (p : PhysSlice) : State :=
  let s1 := (s.modSl p fun x => { x with range := none }).wr HC_RANGE_STATUS.PENDING
    (s.rd HC_RANGE_STATUS.PENDING &&& (2 ^ 18 - 1 - 2 ^ p.val))
  if s1.on HC_RANGE_STATUS.BUSY ∧ s1.rd HC_RANGE_STATUS.PENDING = 0 then s1.rangeDone false else s1

/-- Whether the agent still has a line to act on, or awaits the data of a LOCK. -/
def Slice.rangeActing (x : Slice) : Bool :=
  x.waitq.any (fun w => w.req.cls == .range) || x.trackers.any fun t => t.req.cls == .range && t.mediaRead.isSome

/-- A slice whose walk, eviction buffer, write-backs and fills have all ended reports its part. -/
def State.rangeCheck (s : State) (p : PhysSlice) : State :=
  match (s.sl p).range with
  | some r => if r.ebDone && r.waits.isEmpty && !(s.sl p).rangeActing then s.rangePartEnd p else s
  | none => s

/-- The range agent's own record changed. -/
def State.modRange (s : State) (p : PhysSlice) (f : RangePart → RangePart) : State :=
  s.modSl p fun x => { x with range := x.range.map f }

/-- The part waits for every eviction buffer entry of a line to be acknowledged (05 Table 5.9). -/
def State.awaitBuffer (s : State) (p : PhysSlice) (line : Nat) : State :=
  if s.rd HC_RANGE_OP.OP = 5 then s
  else
    let es := (s.sl p).evict.filter fun e => e.line == line
    s.modRange p fun r => { r with waits := r.waits ++ es.map fun e => (e.op, false) }

/-- A line found in a way or in the eviction buffer is counted, once in an operation (05 R177). -/
def State.rangeMatched (s : State) (p : PhysSlice) (line : Nat) (poison : Bool) : State :=
  let s1 := (s.rangeCount (HC_RANGE_SUMMARY.LO 0)).modRange p fun r => { r with counted := r.counted ++ [line] }
  if poison then s1.rangeCount (HC_RANGE_SUMMARY.HI 3) else s1

/-! ### The action on a line (05 Table 5.9) -/

/-- The newest write in flight that the cleaner or the agent has issued for a line in a way. -/
def State.cleanOp (s : State) (p : PhysSlice) (line : Nat) : Option Nat :=
  ((s.mf.ops.filter fun e => match e.2 with
    | some o => o.line == line && (match o.src with | .clean q _ _ | .rangeWrite q => q == p | _ => false)
    | none => false).getLast?).map (·.1)

/-- A line is written back: by the cleaner's write of 05 R163, issued by the agent, or by the one in flight where CLEANING is 1; the spec
does not say what the agent does there (DESIGN CHOICE, log 99). `drop` says that the acknowledgement drops the line. -/
def State.rangeBack (s : State) (p : PhysSlice) (set phys : Nat) (drop : Bool) : State :=
  let t := (s.way p set phys).tagA
  let line := t.tag * 8192 + set
  let s0 := s.rangeCount (HC_RANGE_SUMMARY.HI 0)
  match if t.cleaning then s.cleanOp p line else none with
  | some n => s0.modRange p fun r => { r with waits := r.waits ++ [(n, drop)] }
  | none => (s0.cleanWrite p line phys (.rangeWrite p) false).modRange p fun r => { r with waits := r.waits ++ [(s.nextId, drop)] }

/-- Table 5.9 for a line in a way. A line that DISCARD drops is no longer one that write-through has to bring to media, though it never
was written: WT_CLEAN counts it as written (DESIGN CHOICE, log 100). -/
def State.rangeLine (s : State) (p : PhysSlice) (set phys : Nat) : State :=
  let t := (s.way p set phys).tagA
  let line := t.tag * 8192 + set
  let op := s.rd HC_RANGE_OP.OP
  let force := s.on HC_RANGE_OP.FORCE
  let discard := s.on HC_RANGE_OP.DISCARD
  let s1 := s.rangeMatched p line t.poison
  let unlock (s : State) : State := (s.setTag p set phys { t with lock := false }).rangeCount (HC_RANGE_SUMMARY.HI 2)
  let gone (s : State) : State := (s.setTag p set phys TagWord.empty).rangeCount (HC_RANGE_SUMMARY.LO 1)
  match op with
  | 1 => if t.dirty then s1.rangeBack p set phys false else s1
  | 5 => if t.lock then unlock s1 else s1
  | _ =>
    let kept := t.lock && !force
    let s2 := if t.lock && force then unlock s1 else s1
    if kept then
      let s3 := s2.rangeCount (HC_RANGE_SUMMARY.HI 1)
      if t.dirty then s3.rangeBack p set phys false else s3
    else if !t.dirty then gone s2
    else if discard then
      let s3 := ((gone s2).rangeCount (HC_RANGE_SUMMARY.LO 2)).modSl p fun x =>
        { x with dirtyWhenWt := x.dirtyWhenWt.erase line }
      if t.dirValid then s3.issue .writeMeta line (.directory p) (s.writeClass false) 0#512 t.dir else s3
    else s2.rangeBack p set phys true

/-- A LOCK of a line (05 R175): locked where it is in ways 0 to 3, moved or placed there, or filled from media, the read of tracker
`id`. -/
def State.lockLine (s : State) (p : PhysSlice) (id line : Nat) : State :=
  let set := hcSet line
  let refused (s : State) : State := s.rangeCount (HC_RANGE_SUMMARY.LO 3)
  let locked (s : State) : State := s.rangeCount (HC_RANGE_SUMMARY.HI 2)
  match s.hcFind p line with
  | some w =>
    let c := s.way p set w
    let s1 := s.rangeMatched p line c.tagA.poison
    let low := (waysInService (s.hcSpare p set)).any fun n => n.2 == w && decide (n.1 < 4)
    if c.tagA.lock then s1
    else if low then locked (s1.setTag p set w { c.tagA with lock := true })
    else match s1.canAlloc p line true with
      | none => refused s1
      | some n =>
        locked (((s1.hcTake p set n).setWay p set n.1 { c.tagA with lock := true } c.data).setTag p set w TagWord.empty)
  | none =>
    match s.ebFind p line with
    | some b =>
      let s1 := s.rangeMatched p line b.poison
      match s1.canAlloc p line true with
      | none => refused s1
      | some n =>
        let s2 := s1.hcFill p line n b.data false b.poison (some (s.evictDir b.dirValid b.dir b.poison))
        locked (s2.setTag p set n.1 { (s2.way p set n.1).tagA with lock := true })
    | none =>
      (s.modTrk p id fun t => { t with mediaRead := some s.nextId }).issue .readSealed line (.fill p true) 2 0#512 0#32

/-- The agent acts on a line under tracker `id`, from the data state it derives there (05 R174, R175): by the row of Table 5.9; a line
that it has counted already only by waiting for its older copies. -/
def State.rangeAct (s : State) (p : PhysSlice) (id line : Nat) : State :=
  match (s.sl p).range with
  | none => s
  | some r =>
    let s1 :=
      if rgMode (s.region p line) = 0 then s
      else if s.rd HC_RANGE_OP.OP = 4 then s.lockLine p id line
      else if r.counted.contains line then s.awaitBuffer p line
      else match s.hcFind p line with
        | some w => (s.rangeLine p (hcSet line) w).awaitBuffer p line
        | none => match s.ebFind p line with
          | some b => (s.rangeMatched p line b.poison).awaitBuffer p line
          | none => s
    s1.rangeCheck p

end Sys2Proof.Machine
end

