-- ==== Sys2Proof/Machine/Wait.lean ====
section
/-! DEFINITION. Tracker allocation, the wait queue and intake (07 R220 to R232; 01 R29, R30, R35), the end of a victim, and
the departure of a host (02 R71 to R74). -/

namespace Sys2Proof.Machine

/-! ### Starting a tracker -/

/-- A refused request is answered by 01 Table 1.9 and touches nothing else; each is counted, and those of the table's Notice column
are noticed (01 R36). -/
def State.refuse (s : State) (p : PhysSlice) (r : Request) : State :=
  let load := s.devLoad p
  let viol := match r.cls with
    | .clnEvct | .spec => s.countViolation r.agent
    | _ => s.regionViolation r.agent r.line
  match r.agent with
  | .host h =>
    let cmp (s : State) : State := s.answerInc h r.inc (.cmp r.tag .cmp load)
    match r.cls with
    | .rdShared | .rdOwn | .rdCur => cmp (viol.draw.answerInc h r.inc (.memData r.tag (Config.freeLine s.freeTick) true load))
    | .spec => viol
    | _ => cmp viol
  | .ia st => (viol.iaFail r.id r.line).emit (.iaError st r.line false)

/-- Whether a request is refused at its region entry (01 R35, 02 R45). -/
def State.refused (s : State) (p : PhysSlice) (r : Request) : Bool :=
  let e := s.region p r.line
  match r.agent with
  | .ia _ => rgMode e == 0
  | .host h => rgMode e == 0 || !hsMem (rgMask e) h || s.mergedAway h
      || (rgTracked e && !s.on (HP_STATUS.BI_EN h.val))

/-- A directory entry that a CLN_EVCT leaves in a tag or in the eviction buffer: where its state is not 00 its tracker, `id`, sends the
set message of 04 R125. -/
def State.cleanEvictSet (s : State) (p : PhysSlice) (id line : Nat) (v : Tracking) : State :=
  if v = .i then s
  else
    let (s1, wait) := s.sendSet p (chunkOf line) (.tracker p id)
    s1.modTrk p id fun t => { t with setAcks := t.setAcks + wait.toNat }

/-- CLN_EVCT, under tracker `id`, changes only on-chip state (03 R102, Table 3.11). -/
def State.cleanEvict (s : State) (p : PhysSlice) (id : Nat) (h : HostId) (line : Nat) : State :=
  let k := lineInSector line
  let mask := rgMask (s.region p line)
  let after (v : Tracking) : Option Tracking := match v with
    | .s w => if hsMem w h then some (if hsDel w h = 0#16 then .i else .s (hsDel w h)) else none
    | .e g => if g = h then some .i else none
    | _ => none
  let inDir (s : State) : State :=
    match s.hcFind p line with
    | some w =>
      let t := (s.way p (hcSet line) w).tagA
      if t.dirValid then
        match after (s.decodeDir mask t.dir) with
        | some v => (s.setTag p (hcSet line) w { t with dir := s.dirOf v (dePoison t.dir) }).cleanEvictSet p id line v
        | none => s
      else s
    | none => match s.ebFind p line with
      | some b =>
        if b.dirValid then
          match after (s.decodeDir mask b.dir) with
          | some v => (s.modSl p fun x => { x with evict := x.evict.map fun y =>
              if y.op = b.op then { y with dir := s.dirOf v (dePoison b.dir) } else y }).cleanEvictSet p id line v
          | none => s
        else s
      | none => s
  match s.sfEntry p line with
  | some f =>
    if f.lst k = 3 then inDir s
    else if f.lst k = 2 ∧ f.owner = h ∧ f.oinc = (s.inc12 h).extractLsb' 0 4 then
      s.modSf p line fun f => f.setLst k 0
    else s
  | none => inDir s

/-- The LFSR of a slice stepped once: Galois form of x^32 + x^22 + x^2 + x + 1 (15 R463). -/
def lfsrStep (x : BitVec 32) : BitVec 32 :=
  if x.getLsbD 0 then (x >>> 1) ^^^ 0x80200003#32 else x >>> 1

/-- The countdown of a slice is reloaded with N + r - 2^(JITTER-1), after a step of its LFSR (15 R463). -/
def State.reloadCountdown (s : State) (p : PhysSlice) : State :=
  let n := max 1 (s.rd PMU_SAMPLE_CTRL.N)
  let j := min 16 (s.rd PMU_SAMPLE_CTRL.JITTER)
  let x := lfsrStep (s.sl p).lfsr
  s.modSl p fun y => { y with lfsr := x, countdown := if j = 0 then n else n + x.toNat % 2 ^ j - 2 ^ (j - 1) }

/-- Sampling counts an eligible allocation; the result says whether it is selected (15 R462). -/
def State.sampleSelect (s : State) (p : PhysSlice) (r : Request) : State × Bool :=
  let recalls := r.cls == .invFlush && r.host.isNone
  let eligible := s.on PMU_SAMPLE_CTRL.EN && r.cls.tracker == .demand && r.cls != .spec && !recalls &&
    (match r.agent with
     | .host h => (s.rd PMU_SAMPLE_SEED.HOST_MASK) / 2 ^ h.val % 2 == 1
     | .ia _ => s.on PMU_SAMPLE_SEED.IA_EN)
  if !eligible then (s, false)
  else if (s.sl p).countdown ≤ 1 then (s.reloadCountdown p, true)
  else (s.modSl p fun x => { x with countdown := x.countdown - 1 }, false)

/-- The M2S credit of a host message is returned to the link layer (07 R224). -/
def State.returnCredit (s : State) (r : Request) : State :=
  match r.agent with
  | .host h => s.emit (.creditReturn h (r.cls == .wrFull || r.cls == .wrPtl))
  | .ia _ => s

/-- A request whose link credit has been returned allocates a tracker and is served as far as it goes (03 R80). `waited` says that it
came from the wait queue. A MemWrPtl with no byte enabled changes nothing, its Poison included (02 R53; DEDUCED, log 96). -/
def State.beginTracker (s : State) (p : PhysSlice) (r : Request) (waited : Bool) : State :=
  let line := r.line
  let u := 16 + p.val
  let demand := r.cls.tracker == .demand
  let s0 := (if waited then s.passRepeat p else s.pass p).count u 10
  let s0 := if demand then s0.modAon fun a =>
      { a with allocsMs := a.allocsMs + 1, allocs10 := a.allocs10 ++ [(s.now, 1)] } else s0
  -- 10 Table 10.2: a waiting write whose data cannot be read proceeds as if poisoned
  let (s0, bad) := if waited && r.cls.write then s0.readBuffer p 9 r.id else (s0, false)
  let r := if bad then { r with poison := true } else r
  let s0 := if r.cls.write then s0.writeBuffer p 7 r.id else s0
  let (s1, smp) := s0.sampleSelect p r
  let e := s1.region p line
  let t : Tracker := ⟨r.id, r, r.cls.tracker, .query, .i, .i, false, none, false, false, false, [], none, none, s1.poisonFlag p line,
    none, none, 0, [], [], none, false, false, smp,
    (if waited then 0x100#16 else 0#16) ||| (if s1.mode = 3 then 0x800#16 else 0#16), s.now, e, waited⟩
  let add (s : State) (t : Tracker) : State :=
    let s := s.modSl p fun x => { x with trackers := x.trackers ++ [t] }
    s.wr (SL_TOR_STATUS.TRK_PEAK p.val) (max (s.rd (SL_TOR_STATUS.TRK_PEAK p.val)) (s.sl p).trkUsed)
  let done : Tracker := { t with phase := .done, recorded := true, responded := true }
  if (demand || r.cls == .spec) && s1.refused p r then
    let done := if r.cls.read then { done with flags := done.flags ||| 0x200#16 } else done
    add ((s1.refuse p r).sampleRecord p done) done
  else
    let s1 := if (s1.sfEntry p line).isSome then s1.count u 14 else s1
    let sf : BitVec 16 := match s1.sfEntry p line with
      | some f => if f.lst (lineInSector line) = 3 then 4#16 else 2#16
      | none => if s1.isBlind p line then 6#16 else 0#16
    let t := { t with flags := t.flags ||| sf }
    match r.cls with
    | .clnEvct => match r.agent with
      | .host h =>
        let s2 := add s1 { t with phase := .ack, recorded := true }
        (if rgTracked e then s2.cleanEvict p r.id h line else s2).stRespond p r.id
      | .ia _ => s1
    | .spec =>
      if s1.dataState p line = .absent then
        (add s1 { t with phase := .done, recorded := true, responded := true }).readForTracker p r.id line true
      else add s1 done
    | .wrPtl =>
      if r.be = 0#64 then (add s1 { t with phase := .ack, recorded := true }).stRespond p r.id
      else if rgTracked e then ((add s1 t).earlyRead p r.id).advance p r.id
      else (add s1 { t with phase := .data, recorded := true }).advance p r.id
    | .condStore =>
      let ok := s1.reservationHolds p r
      let s2 := match r.core with
        | some k => s1.modSl p fun x => { x with reserved := x.reserved.put 0 k.val 0 }
        | none => s1
      if ok then ((add s2 t).earlyRead p r.id).advance p r.id
      else
        let s3 := (s2.iaEnd r.id).count 78 5
        add ((match r.core with | some k => s3.emit (.iaCond k false) | none => s3).sampleRecord p done) done
    | .resLoad | .iaRd | .iaWr | .rdShared | .rdOwn | .rdCur | .invOwn | .invFlush | .wrFull =>
      if rgTracked e then ((add s1 t).earlyRead p r.id).advance p r.id
      else (add s1 { t with phase := .data, recorded := true }).advance p r.id
    | .sweep | .urgent => (add s1 t).advance p r.id
    | .range => (add s1 done).rangeAct p r.id line
    -- the step or the visit begins at the agent's next command (log 34)
    | .rekey | .scrub => add s1 { t with phase := .data, recorded := true, responded := true }

/-- A request allocates a tracker: its link credit is returned and it is served as far as it goes. -/
def State.startTracker (s : State) (p : PhysSlice) (r : Request) (waited : Bool) : State :=
  (s.returnCredit r).beginTracker p r waited

/-! ### The wait queue (07 R221 to R228) -/

/-- The free trackers of a slice. -/
def Slice.free (x : Slice) : Nat := 768 - x.trkUsed

/-- Whether the limit of a request's own class lets it allocate (07 Table 7.1). -/
def State.classLimit (s : State) (p : PhysSlice) (r : Request) : Bool :=
  let x := s.sl p
  match r.cls.tracker with
  | .service => true
  | .demand => match r.agent with
    | .host h => decide (x.hostUsed h < s.trkMax h)
    | .ia _ => decide (x.iaUsed < s.iaMax p)
  | .background => decide (x.bgUsed < s.bgMax p) &&
      decide (x.trackers.countP (fun t => t.req.cls == r.cls) < 8 ∨ r.cls = .sweep)

/-- Whether the pool lets a request's class allocate: 1 free tracker for service and aged requests, 17 for others. -/
def State.poolLimit (s : State) (p : PhysSlice) (r : Request) (aged : Bool) : Bool :=
  decide ((if r.cls.tracker == .service || aged then 1 else 17) ≤ (s.sl p).free)

/-- Whether a request's line is free for it: no tracker, no victim of its sector, no earlier request for it (07 R221). -/
def State.lineFree (s : State) (p : PhysSlice) (line : Nat) : Bool :=
  !(s.sl p).held line && !(s.sl p).sectorVictim (sectorOf line)

/-- Whether an arriving request may allocate a tracker at once (07 R221). -/
def State.mayAllocate (s : State) (p : PhysSlice) (r : Request) : Bool :=
  s.lineFree p r.line && !(s.sl p).waitq.any (fun w => w.req.line == r.line) && s.classLimit p r && s.poolLimit p r false

/-! ### The checkers at a lookup (10 Table 10.2, R321 to R323) -/

/-- A fatal array event of a slice. -/
def State.arrayFatal (s : State) (p : PhysSlice) (c : CodeWord) : State :=
  s.fatal (0x10 + p.val) (arrayInfo c.macroId c.word (!c.upper) true false false c.set)

/-- A way whose two tag copies cannot be read is tag-lost: it holds no line any more. A second one makes the slice unusable
(10 R321, 11 R368). -/
def State.loseTag (s : State) (p : PhysSlice) (set phys : Nat) : State :=
  let s0 := if s.on (SL_STATUS.TAG_LOST p.val) then s.wr (SL_STATUS.UNUSABLE p.val) 1 else s
  let s1 := (s0.modSl p fun x => { x with
    cache := x.cache.put CacheWay.empty (set * 17 + phys) CacheWay.empty, tagLost := x.tagLost ++ [set * 17 + phys] }).wr
      (SL_STATUS.TAG_LOST p.val) 1
  s1.arrayFatal p ⟨1, 272 + phys * 4 + set / 2048, set % 2048, false, set⟩

/-- What the two copies of a tag word read as decides (10 Table 10.2, R321); the result says whether one was rewritten. -/
def State.tagOutcome (s : State) (p : PhysSlice) (set phys : Nat) (badA badB : Bool) : State × Bool :=
  let w := s.way p set phys
  match badA, badB with
  | false, false => (s, false)
  | true, false => ((s.modSl p fun x => { x with
      cache := x.cache.put CacheWay.empty (set * 17 + phys) { w with tagA := w.tagB } }).writeWords p (tagAWords set phys), true)
  | false, true => ((s.modSl p fun x => { x with
      cache := x.cache.put CacheWay.empty (set * 17 + phys) { w with tagB := w.tagA } }).writeWords p (tagBWords set phys), true)
  | true, true => (s.loseTag p set phys, false)

/-- The recall of the sector that an echo names for an entry that cannot be read (10 R322). -/
def State.scrubRecall (s : State) (p : PhysSlice) (set phys : Nat) : State :=
  let w := s.sfWay p set phys
  if (s.sl p).victims.any fun v => v.set == set && v.way == phys then s
  else
    let f := { w.entry with tag := w.echoTag, valid := true }
    let id := s.nextId
    let v : Victim := ⟨id, set, phys, f, false, true, [], [], false, []⟩
    let s1 := ((s.bump).modSl p fun x => { x with victims := x.victims ++ [v] }).startRecall p id
    match s1.victim p id with
    | some v => if s1.victimDone p v then s1.freeVictim p v else s1
    | none => s1

/-- A set becomes blind, and its failing way is cleared; a slice records 64 blind sets, and one more makes it unusable (10 R323, 11
R368). -/
def State.goBlind (s : State) (p : PhysSlice) (set phys : Nat) : State :=
  let s1 := s.setSf p set phys FilterWay.empty.entry
  let s2 := if (s1.sl p).blind.contains set then s1
    else if (s1.sl p).blind.length < 64 then s1.modSl p fun x => { x with blind := x.blind ++ [set] }
    else s1.wr (SL_STATUS.UNUSABLE p.val) 1
  s2.arrayFatal p (filterWord set phys)

/-- The echoes of a code word that cannot be read are rewritten from the TAG and VALID of their entries, those of a pair of sets
(10 Table 10.2, R316). -/
def State.fixEcho (s : State) (p : PhysSlice) (set phys : Nat) : State :=
  let fix (t : Tbl FilterWay) (st : Nat) : Tbl FilterWay :=
    let e := (t.look FilterWay.empty (st * 17 + phys)).entry
    t.put FilterWay.empty (st * 17 + phys) ⟨e, e.tag, e.valid⟩
  (s.modSl p fun x => { x with filter := fix (fix x.filter (set / 2 * 2)) (set / 2 * 2 + 1) }).writeWords p [echoWord set phys]

/-- What a filter entry and its echo read as decides (10 Table 10.2, R322, R323). -/
def State.filterOutcome (s : State) (p : PhysSlice) (set phys : Nat) (badE badO : Bool) : State :=
  match badE, badO with
  | false, false => s
  | false, true => s.fixEcho p set phys
  | true, false =>
    if (s.sfWay p set phys).echoValid then s.scrubRecall p set phys else s.setSf p set phys FilterWay.empty.entry
  | true, true => s.goBlind p set phys

/-- A region entry whose copy cannot be read is taken from the lowest-numbered other active slice whose copy can be, with the entry
that shares its code word, which is written whole; the result says whether one was found (10 Table 10.2, R314). -/
def State.regionOutcome (s : State) (p : PhysSlice) (i : Nat) : State × Bool :=
  let (s1, from?) := (s.activeSlices.filter (· ≠ p)).foldl (fun (acc : State × Option PhysSlice) q =>
    match acc.2 with
    | some _ => acc
    | none =>
      let (s1, bad) := acc.1.readWords q [regionWord i]
      (s1, if bad then none else some q)) (s, none)
  match from? with
  | some q =>
    let take (t : Tbl (BitVec 32)) (k : Nat) : Tbl (BitVec 32) := t.put 0#32 k ((s1.sl q).regions.look 0#32 k)
    ((s1.modSl p fun x => { x with regions := take (take x.regions (i / 2 * 2)) (i / 2 * 2 + 1) }).writeWords p [regionWord i], true)
  | none =>
    let c := regionWord i
    (s1.major (0x10 + p.val) (arrayInfo c.macroId c.word (!c.upper) true false false 0), false)

/-- A lookup reads the tag copies and the filter entries of a line's sets and its region entry; the result is false where no
copy of the region entry can be read. -/
def State.lookupCheck (s : State) (p : PhysSlice) (line : Nat) : State × Bool :=
  if s.eccIdle p then (s, true)
  else
    let set := hcSet line
    let s1 := ((waysInService (s.hcSpare p set)).map (·.2)).foldl (fun s w =>
      if (s.sl p).tagLost.contains (set * 17 + w) then s
      else
        let (s1, badA) := s.readWords p (tagAWords set w)
        let (s2, badB) := s1.readWords p (tagBWords set w)
        (s2.tagOutcome p set w badA badB).1) s
    let fset := sfSet line
    let s2 := ((waysInService (s1.sfSpare p fset)).map (·.2)).foldl (fun s w =>
      let (s1, badE) := s.readWords p [filterWord fset w]
      let (s2, badO) := s1.readWords p [echoWord fset w]
      s2.filterOutcome p fset w badE badO) s1
    let (s3, bad) := s2.readWords p [regionWord (regionOf line)]
    if bad then s3.regionOutcome p (regionOf line) else (s3, true)

/-- Whether a slice discards a SPEC that its region does not refuse (02 R56). -/
def State.specDropped (s : State) (p : PhysSlice) (line : Nat) : Bool :=
  s.mode == 3 || decide (384 < (s.sl p).trkUsed) || rgMode (s.region p line) == 3

/-- A request reaches its slice and allocates or waits; a SPEC that cannot allocate is discarded (02 R56, 07 R221). Messages that
meet a tracker whose snoop set is not formed are marked (07 R230). -/
def State.arrive (s : State) (p : PhysSlice) (r : Request) : State :=
  let (s, readable) := s.lookupCheck p r.line
  if !readable then ((s.passDone p).returnCredit r).refuse p r
  else if r.cls = .spec ∧ (s.specDropped p r.line ∨ !s.mayAllocate p r) then (s.passRepeat p).returnCredit r
  else if s.mayAllocate p r then s.startTracker p r false
  else
    let s := s.passRepeat p
    let s := if r.cls.write then s.writeBuffer p 9 r.id else s
    let marked := (r.cls == .wrFull || r.cls == .wrPtl || r.cls == .clnEvct) &&
      (s.sl p).trackers.any fun t => t.req.line == r.line && (t.phase == .query || t.phase == .dir)
    (s.modSl p fun x => { x with waitq := x.waitq ++ [⟨r, marked, false, s.now⟩] }).count (16 + p.val) 24

/-- A request of an internal agent allocates a tracker at its slice, or waits as every request does (07 R221). -/
def State.agentArrive (s : State) (p : PhysSlice) (r : Request) : State :=
  let (s, _) := s.lookupCheck p r.line
  if s.mayAllocate p r then s.startTracker p r false
  else ((s.passRepeat p).modSl p fun x => { x with waitq := x.waitq ++ [⟨r, false, false, s.now⟩] }).count (16 + p.val) 24

/-- The waiting requests that are first for their line and whose line is free. -/
def State.ready (s : State) (p : PhysSlice) : List Waiting :=
  let q := (s.sl p).waitq
  q.filter fun w => s.lineFree p w.req.line && (q.find? fun v => v.req.line == w.req.line) == some w

/-- The waiting request that takes a tracker returned to the pool: aged first, then service, demand and background, oldest
first (07 R228). -/
def State.pick (s : State) (p : PhysSlice) : Option Waiting :=
  let l := (s.ready p).filter fun w => s.classLimit p w.req && s.poolLimit p w.req w.aged
  let pri (c : Waiting → Bool) := l.find? c
  (pri fun w => w.aged) <|> (pri fun w => w.req.cls.tracker == .service) <|>
    (pri fun w => w.req.cls.tracker == .demand) <|> (pri fun w => w.req.cls.tracker == .background)

/-- Waiting requests that may allocate do so; `n` bounds them by the queue's length. -/
def State.drainWaitq (p : PhysSlice) : Nat → State → State
  | 0, s => s
  | n + 1, s =>
    match s.pick p with
    | none => s
    | some w =>
      State.drainWaitq p n ((s.modSl p fun x => { x with waitq := x.waitq.erase w }).startTracker p w.req true)

/-- Every waiting request that may allocate now does. -/
def State.drainWait (s : State) (p : PhysSlice) : State := State.drainWaitq p (s.sl p).waitq.length s

/-- A tracker's line becomes free: the oldest request for the line takes the tracker where its own limits allow, else the
tracker returns to the pool (07 R227, R228). -/
def State.passOn (s : State) (p : PhysSlice) (line : Nat) : State :=
  match (s.sl p).waitq.find? fun w => w.req.line == line with
  | some w =>
    if s.lineFree p line && s.classLimit p w.req then
      ((s.modSl p fun x => { x with waitq := x.waitq.erase w }).startTracker p w.req true).drainWait p
    else s.drainWait p
  | none => s.drainWait p

/-- Whether everything that holds a tracker is done (07 R222). -/
def Tracker.complete (t : Tracker) : Bool :=
  t.phase == .done && t.recorded && t.setAcks == 0 && t.poisonOps.isEmpty && t.writeOps.isEmpty && t.mediaRead.isNone
    && t.wtOp.isNone && t.victim.isNone

/-- A complete tracker frees its line (07 R222); a first pass without a replay is one of SLOT_DONE (15 R460). -/
def State.freeTracker (s : State) (p : PhysSlice) (id : Nat) : State :=
  match s.trk p id with
  | none => s
  | some t =>
    if t.complete then
      let s1 := if t.classed then s else s.count (16 + p.val) 1
      (s1.modSl p fun x => { x with trackers := x.trackers.filter fun u => u.id != id }).passOn p t.req.line
    else s

/-- A victim with nothing left to end frees its way; the requests that need it record, and those of its sector allocate
(04 R117, R118). -/
def State.finishVictim (s : State) (p : PhysSlice) (id : Nat) : State :=
  match s.victim p id with
  | none => s
  | some v =>
    if s.victimDone p v then
      let waits := (s.sl p).trackers.filter fun t => t.victim == some id
      let s1 := s.freeVictim p v
      let s2 := waits.foldl (fun s t => (s.modTrk p t.id fun t => { t with victim := none }).advance p t.id) s1
      s2.drainWait p
    else s

/-- Whatever awaits a snoop's holder moves on. -/
def State.moveOwner (s : State) (o : SnoopOwner) : State :=
  match o with
  | .tracker p id => s.advance p id
  | .victim p id => s.finishVictim p id

/-! ### Answers to snoops -/

/-- The holder of a snoop takes an answer for a line (03 Table 3.5). -/
def State.setAnswer (s : State) (o : SnoopOwner) (h : HostId) (line : Nat) (a : SnoopAnswer) : State :=
  let upd (l : List Snoop) := l.map fun n =>
    if n.host = h ∧ n.line = line ∧ n.answer = none then { n with answer := some a } else n
  match o with
  | .tracker p id => s.modTrk p id fun t => { t with snoops := upd t.snoops }
  | .victim p id => s.modVictim p id fun v => { v with snoops := upd v.snoops }

/-- Whether a host is a possible owner for the holder of its snoop (03 R87). -/
def State.ownerMay (s : State) (o : SnoopOwner) (h : HostId) (line : Nat) : Bool :=
  match o with
  | .tracker p id => match s.trk p id with | some t => t.view.possibleOwner h | none => false
  | .victim p id => match s.victim p id with
    | some v => v.scrubRecall || (v.entry.lst (lineInSector line) == 2 && v.entry.owner == h)
    | none => false

/-- A snoop resolved without a response at a departure or in DRAIN (02 R72 step 4, 08 R284); a recall resolves an
owner-lost line itself (04 R117). -/
def State.resolveSnoop (s : State) (o : SnoopOwner) (h : HostId) (line : Nat) : State :=
  if s.ownerMay o h line then
    let s1 := s.setAnswer o h line .lost
    match o with
    | .tracker _ _ => s1
    | .victim p id =>
      match s.victim p id with
      | none => s1
      | some v =>
        if v.snoops.any (fun n => n.line == line && n.answer == some .lost) then s1
        else
          let (s2, ops) := s1.resolveLost p (s1.region p line) line h (s1.lostInc h) 0 (.victim p id line)
          s2.modVictim p id fun v => { v with writes := v.writes ++ ops }
  else s.setAnswer o h line .dropped

/-- The lines a snoop-table entry still awaits. -/
def SnoopEntry.open_ (e : SnoopEntry) : List Nat :=
  ((List.range e.req.lines).map (e.req.line + ·)).filter fun l => !e.answered.contains l

/-- Every snoop of a port, outstanding or offered, is resolved without a response, and what waited on it moves on. -/
def State.resolveAll (s : State) (h : HostId) : State :=
  let x := s.port h
  let out := x.table.filterMap fun e => e.2.map fun n => (n.req.owner, n.open_)
  let off := x.offered.map fun r => (r.owner, (List.range r.lines).map (r.line + ·))
  let s1 := s.modPort h fun x => { x with table := [], offered := [] }
  let all := out ++ off
  let s2 := all.foldl (fun s o => o.2.foldl (fun s l => s.resolveSnoop o.1 h l) s) s1
  all.foldl (fun s o => s.moveOwner o.1) s2

/-! ### Departure (02 R71, R72) -/

/-- A walk for a host starts in a slice, or the host joins the walk that runs there (04 R137, R138). -/
def Slice.startWalk (x : Slice) (h : HostId) : Slice :=
  match x.walk with
  | none => { x with walk := some ⟨0, [(h, 32768)], []⟩ }
  | some w => { x with walk := some { w with hosts := (w.hosts.filter fun e => e.1 != h) ++ [(h, 32768)] } }

/-- The chunks whose spill map bit is set now, in rising order (04 R140). -/
def State.setChunks (s : State) : List Nat :=
  let n := s.rd GLB_CAPS.DPA_REGIONS * 256
  let seg (j : Nat) : List Nat :=
    let x := s.sl (s.psOf j)
    (if x.segOnes then (List.range (n / 16 + 1)).filter (fun i => x.segment.look true i)
      else (x.segment.filter fun e => e.2).map (·.1)).map (fun i => i * 16 + j) |>.filter (· < n)
  ((List.range 16).flatMap seg).mergeSort (· ≤ ·)

/-! ### Routing (01 R21 to R23, R29, R30; 07 R224, R225) -/

/-- Whether a request's message is a snoop writeback or a clean evict of 07 R230 when it reaches the slice. -/
def State.bypass (s : State) (p : PhysSlice) (r : Request) : Option SnoopOwner :=
  match r.agent with
  | .host h =>
    if r.cls = .wrFull ∨ r.cls = .wrPtl ∨ r.cls = .clnEvct then s.snoopOwnerOf p r.line h else none
  | .ia _ => none

/-- A request reaches the physical slice it was routed to. -/
def State.atSlice (s : State) (p : PhysSlice) (r : Request) : State :=
  match s.bypass p r, r.agent with
  | some o, .host h => s.bypassTaken p o h r
  | _, _ => s.arrive p r

/-- Whether a slice's wait queue has a place for one more request, 2176 in all, 1088 of them with data (07 R226). -/
def Slice.waitRoom (x : Slice) (r : Request) : Bool :=
  decide (x.waitq.length < 2176) && (!r.cls.write || decide (x.waitq.countP (fun w => w.req.cls.write) < 1088))

/-- Whether a slice takes a routed request out of its ingress crossing: it has the logical number that routed it (12 R393), and its wait
queue has a place. -/
def State.sliceTakes (s : State) (p : PhysSlice) (r : Request) : Bool :=
  s.rd (SL_LOGICAL_ID.LS p.val) == s.lsOf r.line && s.on (SL_LOGICAL_ID.VALID p.val) && (s.sl p).waitRoom r

/-- A request that has been routed to a slice enters its ingress crossing, and leaves it where nothing is before it and the slice takes
it. -/
def State.deliver (s : State) (p : PhysSlice) (r : Request) : State :=
  if (s.sl p).ingress.isEmpty && s.sliceTakes p r then s.atSlice p r
  else (s.modSl p fun x => { x with ingress := x.ingress ++ [r] }).crossRise (32 + p.val) (s.sl p).ingress.length

/-- The requests of a slice's ingress crossing, already routed to it, are taken in order, up to one that waits there (01 R29). -/
def State.drainIngress (s : State) (p : PhysSlice) : State :=
  let l := (s.sl p).ingress
  if l.isEmpty then s else l.foldl (fun s r => s.deliver p r) (s.modSl p fun x => { x with ingress := [] })

/-- The number of a host port's stop (01 Table 1.3). -/
def hpStop (h : HostId) : Nat := h.val % 4 + (if h.val < 4 then 1 else if h.val < 8 then 11 else if h.val < 12 then 21 else 31)

/-- The number of the IA stop (01 Table 1.3). -/
def iaStop : Nat := 19

/-- The transaction ID of a request on the ring: its source stop and its stream, which is the logical slice for a host (01 R22, R23). -/
def State.ringId (s : State) (r : Request) : BitVec 12 :=
  match r.agent with
  | .host h => BitVec.ofNat 12 (hpStop h * 64 + s.lsOf r.line)
  | .ia st => BitVec.ofNat 12 (iaStop * 64 + st)

/-- The number of the stop that sends a request. -/
def Request.stop (r : Request) : Nat := match r.agent with | .host h => hpStop h | .ia _ => iaStop

/-- Whether a request is a host's or the IA stop's, and so a transaction of a stop with its ID. -/
def Request.ofStop (r : Request) : Bool := r.cls.tracker == .demand

/-- Whether a transaction of an ID is not complete at a slice. -/
def State.idOpen (s : State) (q : PhysSlice) (id : BitVec 12) : Bool :=
  let x := s.sl q
  let same (r : Request) : Bool := r.ofStop && s.ringId r == id
  x.trackers.any (fun t => same t.req && !t.responded) || x.waitq.any (fun w => same w.req) || x.ingress.any same

/-- Whether the source holds a request for slice `p`: an earlier one with its ID waits at the stop, or is not complete at another
slice (01 R22). -/
def State.idHeld (s : State) (p : PhysSlice) (r : Request) : Bool :=
  let id := s.ringId r
  let parked := match r.agent with | .host h => (s.port h).park | .ia _ => s.iaPark
  parked.any (fun q => s.ringId q == id) || allSlices.any fun q => q != p && s.idOpen q id

/-- A request is parked at its stop. -/
def State.park (s : State) (r : Request) : State :=
  match r.agent with
  | .host h => s.modPort h fun x => { x with park := x.park ++ [r] }
  | .ia _ => { s with iaPark := s.iaPark ++ [r] }

/-- A message to the stop of a husked slice is answered by the fence responder with an error response to its source (01 R21): a request
of IA ends in error; a host's has no completion of which the spec tells, and its credit is returned (DESIGN CHOICE, log 109). -/
def State.fenceAnswer (s : State) (p : PhysSlice) (r : Request) : State :=
  let s1 := s.emit (.ringError r.stop (sliceStop p.val) r.line)
  match r.agent with
  | .host _ => s1.returnCredit r
  | .ia st => ((s1.iaFail r.id r.line).count 78 6).emit (.iaError st r.line false)

/-- A request that has left its ingress crossing is parked while its logical slice is held (01 R30) or an earlier one holds it back (01
R22, log 110), and else goes to its home; a slice that is to keep it waiting in its crossing raises one severe event, whose info word is
free (12 R393, log 1). -/
def State.leaveStop (s : State) (r : Request) : State :=
  let ls := s.lsOf r.line
  let p := s.psOf ls
  if s.on (mapHold ls) || s.idHeld p r then s.park r
  else if s.slHusked p then s.fenceAnswer p r
  else
    let waits := (s.sl p).ingress.isEmpty && !s.sliceTakes p r
    (if waits then s.draw.major (0x10 + p.val) ((Config.freeWord s.freeTick).extractLsb' 0 40) else s).deliver p r

/-- The IA requests for which a condition holds that have left their stop and are not yet disposed of (07 R224, R225). -/
def State.iaOut (s : State) (f : Request → Bool) : Nat :=
  (allSlices.map fun p => (s.sl p).waitq.countP (fun w => w.req.fromIa && f w.req)
    + (s.sl p).ingress.countP fun r => r.fromIa && f r).sum

/-- The source of a stream's IA requests that has a share of its own: the data engine, the utility engine, or the control cores together,
with the requests and the writes of its share (14 Table 14.1, R432). -/
def iaShare (stream : Nat) : Nat × Nat × Nat :=
  if stream < 8 then (0, 32, 16) else if stream < 16 then (1, 8, 4) else (2, 24, 12)

/-- The IA requests for which a condition holds that have been issued at the IA stop and have no response yet (14 R432). -/
def State.iaUnanswered (s : State) (f : Request → Bool) : Nat :=
  let g (r : Request) : Bool := r.fromIa && f r
  s.iaPark.countP g + (allSlices.map fun p =>
    (s.sl p).trackers.countP (fun t => !t.responded && g t.req) + (s.sl p).waitq.countP (fun w => g w.req) + (s.sl p).ingress.countP g).sum

/-- Whether a request belongs to a source of 14 R432. -/
def Request.ofShare (r : Request) (k : Nat) : Bool := match r.agent with | .ia st => (iaShare st).1 == k | .host _ => false

/-- Whether the share of a request's source has no room for it (14 R432). -/
def State.shareFull (s : State) (r : Request) : Bool :=
  match r.agent with
  | .host _ => false
  | .ia st =>
    let (k, n, w) := iaShare st
    decide (n ≤ s.iaUnanswered fun q => q.ofShare k) || (r.cls.write && decide (w ≤ s.iaUnanswered fun q => q.ofShare k && q.cls.write))

/-- Whether a request cannot leave its ingress crossing: its stop has 128 parked requests (01 R30), or, at the IA stop, 64 requests are
out, or 32 writes and it is one (07 R225), or its source has reached its share (14 R432). -/
def State.stopFull (s : State) (r : Request) : Bool :=
  match r.agent with
  | .host h => decide (128 ≤ (s.port h).park.length)
  | .ia _ => decide (128 ≤ s.iaPark.length) || decide (64 ≤ s.iaOut fun _ => true)
      || (r.cls.write && decide (32 ≤ s.iaOut fun q => q.cls.write)) || s.shareFull r

/-- What waits in a stop's ingress crossing. -/
def State.crossing (s : State) (a : Agent) : List Request := match a with | .host h => (s.port h).ingress | .ia _ => s.iaIngress

/-- A request enters its stop's ingress crossing, and leaves it where nothing is before it and the stop drains it. -/
def State.route (s : State) (r : Request) : State :=
  if (s.crossing r.agent).isEmpty && !s.stopFull r then
    (match r.agent with | .host h => s.countHost h r.cls | .ia _ => s).leaveStop r
  else match r.agent with
    | .host h => (s.modPort h fun x => { x with ingress := x.ingress ++ [r] }).crossRise h.val (s.port h).ingress.length
    | .ia _ => State.crossRise { s with iaIngress := s.iaIngress ++ [r] } 68 s.iaIngress.length

/-- Every request of a list is routed in order. -/
def State.routeAll (s : State) (l : List Request) : State := l.foldl (fun s r => s.route r) s

/-- A host port's stop goes on: what it has parked, in the order in which it was parked, then its ingress crossing. -/
def State.pumpHost (s : State) (h : HostId) : State :=
  let x := s.port h
  if x.park.isEmpty && x.ingress.isEmpty then s
  else
    let s1 := s.modPort h fun x => { x with park := [], ingress := [] }
    (x.park.foldl (fun s r => s.leaveStop r) s1).routeAll x.ingress

/-- The IA stop goes on. -/
def State.pumpIa (s : State) : State :=
  if s.iaPark.isEmpty && s.iaIngress.isEmpty then s
  else
    let s1 : State := { s with iaPark := [], iaIngress := [] }
    (s.iaPark.foldl (fun t r => State.leaveStop t r) s1).routeAll s.iaIngress

/-- Something for each stop that sends requests, in the order of the stops' numbers, in which a slice takes what reaches it at one time:
HP0 to HP7, the IA stop, HP8 to HP15 (01 Table 1.3, 07 R229, R237). -/
def State.byStop (host : State → HostId → State) (ia : State → State) (s : State) : State :=
  (allHosts.drop 8).foldl host (ia ((allHosts.take 8).foldl host s))

/-- Every stop goes on (01 R22, R30; 07 R225). -/
def State.pump (s : State) : State := State.byStop State.pumpHost State.pumpIa s

/-! ### The steps of a departure (02 R72) -/

/-- The messages of a port that have not left its ingress crossing are discarded, their credits returned (02 R72 step 1, 07 R224). The
credits that the host has advertised stay: the spec does not say that they are lost (DESIGN CHOICE, log 102). -/
def State.discardPort (s : State) (h : HostId) : State :=
  let x := s.port h
  (x.held ++ x.ingress).foldl (fun s r => s.returnCredit r) (s.modPort h fun x => { x with held := [], ingress := [], egress := [] })

/-- What a departed host's port has parked of 07 R230 goes ahead of the resolution of the snoops that it answers (07 R233, R246). -/
def State.flushParked (s : State) (h : HostId) : State :=
  (s.port h).park.foldl (fun s r =>
    let p := s.homeOf r.line
    match s.bypass p r with
    | none => s
    | some o => (s.modPort h fun x => { x with park := x.park.erase r }).bypassTaken p o h r) s

/-- A departure that has brought a host to the edge of its incarnations lists it for an urgent directed pass (04 R140). One that is listed
while a pass runs makes one common pass start anew for all listed hosts, over the chunks set now: the spec does not say how two
passes go together (DESIGN CHOICE, log 101). -/
def State.listUrgent (s : State) (h : HostId) : State :=
  let inc := s.inc12 h
  if inc - (s.port h).baseInc = 4095#12 then
    let s1 := (s.modPort h fun x => { x with urgent := some inc }).wr GLB_PASS_EPOCH.URGENT 1
    { s1 with urgentSet := s1.setChunks, slices := s1.slices.mapVals Slice.empty fun x => { x with urgentPos := 0, urgentRetry := [] } }
  else s

/-- Departure of a host, cause in the order of 02 R71 (02 R72). A fence raises its own notice. In HOLD the port island is off. The
host's S2M credits stay (log 102), and a pass that is already urgent begins again for both hosts (log 101): DESIGN CHOICES. -/
def State.depart (s : State) (h : HostId) (cause : Nat) : State :=
  if s.on (HP_CTRL.HUSK h.val) ∨ s.mode = 0 then s
  else
    -- DRAIN from step 3 on changes no incarnation and starts no walk (08 R283)
    let quiet := s.mode == 4 && (match s.aon.drain with | some .flush | none => false | _ => true)
    let s1 := (s.wr (HP_CTRL.HUSK h.val) 1).wr (HP_STATUS.HUSKED h.val) 1
    let s2 := ((s1.modPort h fun x => { x with linkReset := cause == 0 || cause == 1 }).discardPort h).flushParked h
    let s3 := if quiet then s2
      else (s2.wr (GLB_HOST_INCARN.INCARN h.val) ((s2.rd (GLB_HOST_INCARN.INCARN h.val) + 1) % 4096)).inc
        (HP_OWNER_LOSS.DEPARTURES h.val)
    let s4 := s3.resolveAll h
    if quiet then s4
    else
      let s5 := s4.activeSlices.foldl (fun s p =>
        (s.modSl p fun x => x.startWalk h).wr (SL_SF_CTRL.FORGET p.val)
          ((s.rd (SL_SF_CTRL.FORGET p.val)) ||| 2 ^ h.val)) s4
      let s6 := s5.wr (HP_STATUS.SWEEP h.val) 1
      let s7 := s6.listUrgent h
      if cause = 3 then s7
      else s7.notice 2 0x12 3 h.val ((s6.inc12 h).toNat + cause * 2 ^ 12) s7.now

/-! ### Intake (02 R51 to R56) -/

/-- An unsupported request: Cmp, any data discarded, PROTO_ERR (02 R55). -/
def State.unsupported (s : State) (h : HostId) (opcode : Nat) (rwd : Bool) (addr : Nat) (tag : BitVec 16) : State :=
  let s1 := (s.protoErr h opcode rwd.toNat addr).count h.val 5 rwd.toNat
  let p := s.homeOf (addr / 64 % 2 ^ 42)
  ((s1.emit (.creditReturn h rwd)).answerHost h (.cmp tag .cmp (s.devLoad p)))

/-- The opcode field of a request class in its M2S message, as CXL encodes it: MemInv 0, MemRd 1, MemRdData 2, MemSpecRd 5
(log 18), MemWr 1, MemWrPtl 2, MemClnEvct 9. -/
def ReqClass.opcode : ReqClass → Nat
  | .rdShared | .rdOwn | .rdCur => 1
  | .wrFull => 1
  | .wrPtl => 2
  | .clnEvct => 9
  | .spec => 5
  | _ => 0

/-- Whether the mode discards a message from a host: HOLD and SPROUT accept none, and DRAIN from step 3 discards all but
snoop writebacks (00 Table 0.2, 08 R283). -/
def State.discards (s : State) (r : Request) : Bool :=
  match s.mode with
  | 0 | 1 => true
  | 4 => match s.aon.drain with
    | some .flush | none => false
    | _ => r.cls == .clnEvct || (s.bypass (s.homeOf r.line) r).isNone
  | _ => false

/-- A host request enters its HP (02 R51 to R56): discarded where the port takes none, with its credit returned where that is for a husk
(02 R72, 07 R224), or the mode accepts none; answered as unsupported where its address does not fit; held in REPAIR, unless it
answers a snoop (09 R304); else forwarded. -/
def State.hostRequest (s : State) (h : HostId) (cls : ReqClass) (addr : Word) (tag : BitVec 16) (data : LineData)
    (be : ByteMask) (poison shared : Bool) : State :=
  let r : Request := ⟨s.nextId, cls, .host h, lineOf addr, tag, data, be, poison, shared, none, s.now, s.inc12 h⟩
  if !s.portLive h then (if s.on (HP_CTRL.HUSK h.val) ∧ 2 ≤ s.mode then s.returnCredit r else s)
  else
    let s := s.bump
    if s.discards r then s
    else if !addrFits addr then s.unsupported h cls.opcode (cls == .wrFull || cls == .wrPtl) addr.toNat tag
    else
      let s := if cls = .wrFull ∨ cls = .wrPtl then s.count h.val 5 else s
      if s.mode = 5 ∧ (s.bypass (s.homeOf r.line) r).isNone then s.modPort h fun x => { x with held := x.held ++ [r] }
      else s.route r

end Sys2Proof.Machine
end

