-- ==== Sys2Proof/Machine/Stripes.lean ====
section
/-! DEFINITION. The media front (chapter 6): placement of lines, the stored form, channel dispatch, reconstruction, the write
coalescer and the batches of a stripe, degraded and failed groups, the re-key sequencer's ends. -/

namespace Sys2Proof.Machine

/-! ### Placement and parity (06 R182, R183) -/

/-- The parity group of a line, DPA[10:9]. -/
def groupOf (line : Nat) : Nat := line / 8 % 4
/-- The stripe number of a line, DPA[47:11], which is its channel line index. -/
def stripeOf (line : Nat) : Nat := line / 32
/-- The slot that holds a stripe's parity. -/
def paritySlot (stripe : Nat) : Nat := stripe % 9
/-- The slot that holds a line (06 R182). -/
def slotOf (line : Nat) : Nat := (stripeOf line % 9 + 1 + line % 8) % 9
/-- The line that a data slot of a stripe holds. -/
def lineAt (g stripe slot : Nat) : Nat := stripe * 32 + g * 8 + (slot + 8 - stripe % 9) % 9
/-- The data slots of a stripe. -/
def dataSlots (stripe : Nat) : List Nat := (List.range 9).filter (· != paritySlot stripe)

/-- The field of MF_GROUP_MAP that names the channel of a slot. -/
def slotFld (g slot : Nat) : Fld := ⟨MF_GROUP_MAP.reg g, 6 * slot, 6⟩
/-- The channel that fills a slot. -/
def State.chanOf (s : State) (g slot : Nat) : Channel := Fin.ofNat 38 (s.rd (slotFld g slot))

/-- The stored form at a channel line index; none is unwritten (06 R184). -/
def State.mediaAt (s : State) (c : Channel) (index : Nat) : Option Stored := s.media.look none (c.val * 2 ^ 37 + index)

/-- A stored form placed at a channel line index. -/
def State.setMedia (s : State) (c : Channel) (index : Nat) (f : Option Stored) : State :=
  { s with media := s.media.put none (c.val * 2 ^ 37 + index) f }

/-- The stored form that counts as an unwritten line in parity (06 R184). -/
def Stored.zero : Stored := ⟨0#512, 0#128⟩
/-- The XOR of two stored forms, data and metadata (06 R183). -/
def Stored.xor (a b : Stored) : Stored := ⟨a.data ^^^ b.data, a.md ^^^ b.md⟩
/-- The XOR of a list of stored forms. -/
def xorAll (l : List Stored) : Stored := l.foldl Stored.xor Stored.zero

/-- The slots of a stripe that no channel serves: Table 6.7 for one, 06 R203 for two (06 R204, R509). -/
def State.lostSlots (s : State) (g stripe : Nat) : List Nat :=
  let l := s.rd (MF_GROUP_MAP.LOST_SLOT g)
  match s.rd (MF_GROUP_MAP.GSTATE g) with
  | 0 => []
  | 1 => [l]
  | 2 => if stripe < s.rd MF_REBUILD_STATUS.LINE then [] else [l]
  | _ => (if stripe < s.mf.stopLine.look 0 g then [] else [l]) ++ s.mf.lostMore.look [] g

/-- The channel line count of the installed media (04 R127, 06 R182). -/
def State.channelLines (s : State) : Nat := s.rd GLB_CAPS.DPA_REGIONS * 2 ^ 23

/-! ### The stored form (06 R183 to R186; log 6) -/

/-- KEY of a line's region. -/
def State.keyOf (s : State) (line : Nat) : Nat := rgKey (s.region (s.homeOf line) line)
/-- The cipher unit's counters of a line. -/
def State.counter (s : State) (line : Nat) : LineCounter := s.counters.look ⟨0, 0⟩ line
/-- The MAC of a stored line, never zero (06 R184). -/
def macOf (key line : Nat) (c : LineCounter) (d : LineData) : BitVec 64 :=
  let m := Config.macRaw key line c.major c.minor d
  if m = 0#64 then 1#64 else m

/-- The sealed form of a line under its counters (06 R185, Table 6.2). -/
def sealForm (key line : Nat) (c : LineCounter) (data : LineData) (dir : DirEntry) : Stored :=
  let d := data ^^^ Config.keystream key line c.major c.minor
  ⟨d, dir.setWidth 128 ||| (macOf key line c d).setWidth 128 <<< 32
    ||| (Config.cipherOwned line c.major c.minor).setWidth 128 <<< 96⟩

/-- The counters under which the next sealed write of a line is made: the next minor counter, or the first under the next major counter
for a write that a re-key step carries (06 R207, R208). -/
def LineCounter.next (c : LineCounter) (rekeyed : Bool) : LineCounter :=
  if rekeyed then ⟨c.major + 1, 1⟩ else ⟨c.major, c.minor + 1⟩

/-- Whether the minor counter of a line would wrap at its next sealed write (06 R207). -/
def LineCounter.exhausted (c : LineCounter) : Bool := decide (127 ≤ c.minor)

/-- Whether counters are ahead of others. -/
def LineCounter.after (a b : LineCounter) : Bool := decide (b.major < a.major ∨ b.major = a.major ∧ b.minor < a.minor)

/-- The stored form that was sealed under some counters is a line's from now on: its counters move with it, and never back. -/
def State.setCounter (s : State) (line : Nat) (c : LineCounter) : State :=
  if c.after (s.counter line) then { s with counters := s.counters.put ⟨0, 0⟩ line c } else s

/-- A stored form of zeros, poisoned, for a line that nothing can rebuild: its counters are the line's at once, since no earlier form
of it can be read (06 R205). -/
def State.sealLost (s : State) (line : Nat) : State × Stored :=
  let c := (s.counter line).next false
  (s.setCounter line c, sealForm (s.keyOf line) line c 0#512 (deNone s.epoch true))

/-- The MAC bytes of a stored form. -/
def Stored.mac (f : Stored) : BitVec 64 := f.md.extractLsb' 32 64
/-- The directory entry of a stored form. -/
def Stored.dir (f : Stored) : DirEntry := f.md.extractLsb' 0 32
/-- A stored form with its directory entry replaced. -/
def Stored.putDir (f : Stored) (e : DirEntry) : Stored :=
  { f with md := (f.md &&& ~~~0xFFFF_FFFF#128) ||| e.setWidth 128 }

/-- The data of a stored form, decrypted. -/
def State.unseal (s : State) (line : Nat) (f : Stored) : LineData :=
  let c := s.counter line
  f.data ^^^ Config.keystream (s.keyOf line) line c.major c.minor

/-- Whether a stored form passes its MAC check (06 R186). -/
def State.macGood (s : State) (line : Nat) (f : Stored) : Bool := f.mac == macOf (s.keyOf line) line (s.counter line) f.data

/-! ### Same-line order (06 R190) -/

/-- Whether a line is integrity-unknown for an operation: Re-seal Region's own writes repair it (06 R210, R211). -/
def State.unknownFor (s : State) (o : MediaOp) : Bool := o.src != .reseal && s.lineUnknown o.line

/-- Whether an operation is a write. -/
def MediaOp.isWrite (o : MediaOp) : Bool := o.kind == .writeLine || o.kind == .writeMeta
/-- Whether a write is neither queued nor open any more. -/
def MediaOp.ended (o : MediaOp) : Bool := match o.state with | .acked _ => true | _ => false

/-- The writes of a line that are queued or open and were issued before operation `id`, oldest first (06 R190). -/
def State.queuedWrites (s : State) (line id : Nat) : List MediaOp :=
  s.mf.ops.filterMap fun e => e.2.bind fun o =>
    if e.1 < id && o.line == line && o.isWrite && !o.ended then some o else none

/-- Whether an earlier write of a line has yet to arrive or to be sealed: it is on the ring, or refused (06 R190, R207). -/
def State.earlierHeld (s : State) (line id : Nat) : Bool := (s.queuedWrites line id).any fun o => o.state == .wire || o.state == .refused

/-- Whether a write of a line is queued or open. -/
def State.writeQueued (s : State) (line : Nat) : Bool := !(s.queuedWrites line s.nextId).isEmpty

/-- Whether a read of a line that was issued before operation `id` has no answer yet (06 R190). -/
def State.earlierRead (s : State) (line id : Nat) : Bool :=
  s.mf.ops.any fun e => match e.2 with
    | some o => decide (e.1 < id) && o.line == line && !o.isWrite &&
        (match o.state with | .wire | .stop | .reading => true | _ => false)
    | none => false

/-! ### The re-key sequencer's records (06 R208) -/

/-- A line of the page in work is re-keyed; the page ends with its 64th. -/
def Rekey.finish (r : Rekey) (line : Nat) : Rekey :=
  match r.page with
  | none => r
  | some pg =>
    if line / 64 = pg then
      let done := (line % 64) :: r.done
      let pos := ((List.range 65).find? fun j => decide (r.pos ≤ j) && !done.contains j).getD 64
      if 64 ≤ pos then { r with page := none, pos := 0, next := 0, done := [] } else { r with pos := pos, done := done }
    else r

/-- Operation `id` of a re-key step ends; with its last one the step ends and its tracker holds nothing more. -/
def State.rekeyDone (s : State) (line id : Nat) : State :=
  let p := allSlices.find? fun p => (s.sl p).trackers.any fun t => t.req.cls == .rekey && t.writeOps.contains id
  match p with
  | none => s
  | some p =>
    let s1 := s.modSl p fun x => { x with trackers := x.trackers.map fun t =>
      if t.req.cls == .rekey then { t with writeOps := t.writeOps.erase id } else t }
    if (s1.sl p).trackers.any fun t => t.req.cls == .rekey && t.req.line == line && !t.writeOps.isEmpty then s1
    else (s1.modMf fun m => { m with rekey := m.rekey.finish line }).count (72 + groupOf line) 11

/-- Whether a re-key step carries a write, which is then sealed under the new major counter (06 R208). -/
def State.carried (s : State) (id : Nat) (o : MediaOp) : Bool :=
  o.src == .rekey || allSlices.any fun p => (s.sl p).trackers.any fun t => t.req.cls == .rekey && t.writeOps.contains id

/-- The pages of refused writes enter the page queue while it has room; STALLED says whether one waits for it (06 R207). -/
def State.queuePages (s : State) : State :=
  let pages := (s.mf.ops.filterMap fun e => e.2.bind fun o => if o.state = .refused then some (o.line / 64) else none).eraseDups
  let wait := pages.filter fun g => s.mf.rekey.page != some g && !s.mf.rekey.queue.contains g
  let room := 16 - s.mf.rekey.queue.length
  (s.modMf fun m => { m with rekey := { m.rekey with queue := m.rekey.queue ++ wait.take room } }).wb MF_REKEY_STATUS.STALLED
    (decide (room < wait.length))

/-! ### The coalescer (06 R191) -/

/-- The buffer of a held line is read for its media write: one that is uncorrectable is written as zeros, with an entry of state 00 and
bit [30] set (10 Table 10.3). -/
def State.readHeld (s : State) (id : Nat) (o : MediaOp) : State :=
  let (s1, bad) := s.readMfBuffer 10 id
  s1.setOp id (some (if bad then { o with state := .waiting, data := 0#512, dir := deNone s.epoch true }
    else { o with state := .waiting }))

/-- The held writes of a stripe are released as one batch (06 R191). -/
def State.releaseHeld (s : State) (g stripe : Nat) : State :=
  s.mf.ops.foldl (fun s e => match e.2 with
    | some o => if o.state = .held ∧ groupOf o.line = g ∧ stripeOf o.line = stripe then s.readHeld e.1 o else s
    | none => s) s

/-- A line write enters the coalescer, behind those of its stripe that it holds. -/
def State.coalesce (s : State) (id : Nat) (o : MediaOp) : State :=
  ((s.writeMfBuffer 10 id).setOp id (some { o with
    state := if s.on MF_CTRL.COALESCE_EN then .held else .waiting, placedAt := s.nextId, heldAt := s.now })).bump

/-! ### Ends of operations -/

/-- The read of a re-key step ends (06 R208): the line is written under the new major counter, with the directory entry of the newest
write queued ahead (06 R190), and the write releases its stripe's held writes with it (06 R191). A line that is unwritten, or that nothing
can read, has nothing to write, and only its major counter moves (log 114). -/
def State.rekeyRead (s : State) (id : Nat) (o : MediaOp) (st : FinalStatus) (data : LineData) (dir : DirEntry) : State :=
  let w := (s.queuedWrites o.line id).getLast?
  if st = .ok ∨ (st = .unwritten ∧ w.isSome) then
    let dir := match w with | some w => w.dir | none => dir
    (s.coalesce id { o with kind := .writeLine, data := data, dir := dir, recon := none }).releaseHeld (groupOf o.line) (stripeOf o.line)
  else ((s.setCounter o.line ⟨(s.counter o.line).major + 1, 0⟩).setOp id none).rekeyDone o.line id

/-- A read ends with its final status; its directory entry is that of the newest write queued or open (06 R190, R193), and an
integrity-unknown line is uncorrectable whatever its channel has answered (06 R210). -/
def State.finish (s : State) (id : Nat) (st : FinalStatus) (data : LineData) (dir : DirEntry) : State :=
  match s.op id with
  | none => s
  | some o =>
    let st := if s.unknownFor o then .uncorrectable else st
    if o.src = .rekey then s.rekeyRead id o st data dir
    else
      let dir := match (s.queuedWrites o.line id).getLast? with | some w => w.dir | none => dir
      s.setOp id (some { o with state := .answered st, data := data, dir := dir, recon := none })

/-- The WRITE_DROPPED notice and counter of a dropped write (06 R203, R210); a failed group's drop is a severe event, and one under an
integrity-unknown range is counted for its region (06 Table 6.8). -/
def State.dropWrite (s : State) (id : Nat) (unknown : Bool) : State :=
  match s.op id with
  | none => s
  | some o =>
    let g := groupOf o.line
    let s1 := (s.setOp id (some { o with state := .acked true })).count (72 + g) 10
    let r := regionOf o.line
    let s2 := if unknown then s1.modMf fun m => { m with dropped := m.dropped.put 0 r (m.dropped.look 0 r + 1) }
      else s1.major 0x48 (lineEventInfo 0 o.line)
    s2.notice 3 0x23 2 0x48 unknown.toNat (dpaOf o.line)

/-! ### Channel dispatch (06 R192, R510) -/

/-- The channel operation of a number. -/
def State.chop (s : State) (id : Nat) : Option ChanOp := s.mf.chops.look none id
/-- A channel operation changed or ended. -/
def State.setChop (s : State) (id : Nat) (o : Option ChanOp) : State :=
  s.modMf fun m => { m with chops := m.chops.put none id o }

/-- The channel operations on a channel for which a condition holds. -/
def State.chopCount (s : State) (c : Channel) (f : ChanOp → Bool) : Nat :=
  s.mf.chops.countP fun e => match e.2 with | some o => o.chan == c && f o | none => false

/-- Where a new operation of a class would go: into one of the 64 places, into one of the 16 of class 1, or nowhere. -/
def State.room (s : State) (c : Channel) (cls : Nat) : Option Bool :=
  if s.chopCount c (fun o => o.queued && !o.extra) < 64 then some false
  else if cls = 1 ∧ s.chopCount c (fun o => o.queued && o.extra) < 16 then some true
  else none

/-- The ten-bucket counts of demand reads and hedges of a group (06 R199). -/
def State.limiterAdd (s : State) (g reads hedges : Nat) : State :=
  let l := match s.mf.limiter.look [] g with
    | [] => [(reads, hedges)]
    | b :: l => (b.1 + reads, b.2 + hedges) :: l
  s.modMf fun m => { m with limiter := m.limiter.put [] g l }

/-- The next operation that a channel's dispatch queue issues: by class, in arrival order within a class. With 48 or more writes waiting,
classes 3 and 4 have every second issue slot, and class 5 has one in 16 while it waits (06 R192). -/
def State.nextIssue (s : State) (c : Channel) : Option (Nat × ChanOp) :=
  let w := s.mf.chops.filterMap fun e => e.2.bind fun o => if o.chan = c ∧ o.queued ∧ !o.issued then some (e.1, o) else none
  let cls (k : Nat) : Option (Nat × ChanOp) := w.find? fun e => e.2.cls == k
  let n := s.mf.slots.look (0, 0) c.val
  if 15 ≤ n.2 ∧ (cls 5).isSome then cls 5
  else if 48 ≤ w.countP (fun e => e.2.write) ∧ n.1 % 2 = 1 ∧ ((cls 3).or (cls 4)).isSome then (cls 3).or (cls 4)
  else (((cls 1).or (cls 2)).or ((cls 3).or (cls 4))).or w.head?

/-- An operation is issued to its channel: it is counted, and the channel wakes (06 R192, 09 R290). -/
def State.issueChop (s : State) (id : Nat) (o : ChanOp) : State :=
  let u := 34 + o.chan.val
  let s1 := if o.write then s.count u 2
    else if o.cls = 1 then s.count u 1 else if o.cls = 2 then s.count u 0 else s
  let s2 := (if o.cls = 5 then s1.count u 3 else s1).modMf fun m =>
    let n := m.slots.look (0, 0) o.chan.val
    { m with sleeping := m.sleeping.erase o.chan.val, lastOp := m.lastOp.put 0 o.chan.val s.now,
             slots := m.slots.put (0, 0) o.chan.val (n.1 + 1, if o.cls = 5 then 0 else n.2 + 1) }
  (s2.setChop id (some { o with issued := true })).emit
    (if o.write then .chanWrite id o.chan o.index o.metaOnly else .chanRead id o.chan o.index o.metaOnly)

/-- The dispatch queues issue what they hold, each in its order; `n` bounds the operations. Issue slots are as many as the queues
need: their rate is below the model's time (DESIGN CHOICE, log 113). -/
def State.issueLoop : Nat → State → State
  | 0, s => s
  | n + 1, s =>
    match s.mf.chops.findSome? fun e => e.2.bind fun o => if o.queued ∧ !o.issued then some o.chan else none with
    | none => s
    | some c => match s.nextIssue c with
      | some e => State.issueLoop n (s.issueChop e.1 e.2)
      | none => s

/-- Every operation in a dispatch queue is issued. -/
def State.issueAll (s : State) : State := State.issueLoop s.mf.chops.length s

/-- An operation takes a place of its dispatch queue; a demand read is stamped with its deadline (06 R195, R199). -/
def State.placeChop (s : State) (id : Nat) (o : ChanOp) (extra : Bool) : State :=
  let band := bandOf (s.chanDepth o.chan.val)
  let dl := s.deadline o.chan.val band
  let s1 := match o.use with
    | .primary op =>
      match s.op op with
      | some m =>
        let s1 := s.setOp op (some { m with band := band, deadline := dl })
        if o.cls = 2 then (s1.limiterAdd (groupOf m.line) 1 0).count (72 + groupOf m.line) 1 else s1
      | none => s
    | _ => s
  s1.setChop id (some { o with queued := true, extra := extra })

/-- A new channel operation: placed, or waiting at its media stop behind those that wait (06 R510). In DRAIN every write is of class 3 (06
R192). -/
def State.addChop (s : State) (c : Channel) (index : Nat) (write metaOnly : Bool) (form : Stored) (use : ChanUse) (cls : Nat) : State :=
  let cls := if write ∧ s.mode = 4 then 3 else cls
  let o : ChanOp := ⟨c, index, write, metaOnly, form, use, cls, false, false, false, 0, false, false⟩
  let id := s.nextId
  let waits := s.chopCount c fun x => !x.queued && (cls != 1 || x.cls == 1)
  let s := s.bump
  match if waits = 0 then s.room c cls else none with
  | some extra => s.placeChop id o extra
  | none => s.setChop id (some o)

/-! ### Reconstruction (06 R186, R194 to R197) -/

/-- The batch open on a stripe, with its number (06 R189). -/
def State.openBatch (s : State) (g stripe : Nat) : Option (Nat × Batch) :=
  s.mf.batches.findSome? fun e => e.2.bind fun b => if b.group = g ∧ b.stripe = stripe then some (e.1, b) else none

/-- A reconstruction changed or ended. -/
def State.setRecon (s : State) (r : Nat) (x : Option Recon) : State :=
  s.modMf fun m => { m with recons := m.recons.put none r x }

/-- The form a reconstruction yields, and whether it may be used (06 R184, R186). -/
def State.reconForm (s : State) (x : Recon) : Stored × Bool :=
  let form := xorAll (x.got.map fun f =>
    match x.mdOver.find? fun m => m.1 == f.1 with
    | some m => { f.2 with md := m.2 }
    | none => f.2)
  (form, !x.bad && (x.slot == paritySlot x.stripe || form.mac == 0#64 || s.macGood (lineAt x.group x.stripe x.slot) form))

/-- The INTEGRITY notice of a MAC failure (06 R209, 13 Table 13.10). -/
def State.integrity (s : State) (line : Nat) (recovered : Bool) : State :=
  s.notice 3 0x21 2 0x49 recovered.toNat (dpaOf line)

/-- An aperture read is answered with a stored form; the metadata of a line that a list of the channel reads is kept with its
data (06 R205, 14 R443). -/
def State.apertureAnswer (s : State) (c : DmaChannel) (f : Stored) : State :=
  let x := s.dma.look DmaState.idle c.val
  let ours := x.reading == some .source &&
    (match x.desc with | some d => decide (0x8000_1000_0000_0000 ≤ d.srcBase.toNat) | none => false)
  let s1 := if ours then { s with dma := s.dma.put DmaState.idle c.val { x with heldMd := x.heldMd ++ [f.md] } } else s
  s1.emit (.apertureData f.data f.md)

/-- The end of a reconstruction whose reads have all returned; one of a batch ends in `batchRecon`. -/
def State.reconEnd (s : State) (r : Nat) : State :=
  match s.mf.recons.look none r with
  | none => s
  | some x =>
    let ofBatch := match x.why with | .batch _ => true | _ => false
    if !x.await.isEmpty || ofBatch then s
    else
      let line := lineAt x.group x.stripe x.slot
      let (form, ok) := s.reconForm x
      let chan := s.chanOf x.group x.slot
      let s := s.setRecon r none
      match x.why with
      | .aperture c =>
        let w := (s.mf.window.filter fun e => e.1 != x.stripe) ++ [(x.stripe, false)]
        let s1 := (s.writeMfBuffer 11 x.stripe).modMf fun m => { m with window := w.drop (w.length - 64) }
        if ok then s1.apertureAnswer c form
        else if x.slot = paritySlot x.stripe then
          let d := Config.freeLine s.freeTick
          s1.draw.apertureAnswer c ⟨d, d.extractLsb' 0 128⟩
        else
          let (s2, f) := (s1.lineLost 0x48 2 line).sealLost line
          s2.apertureAnswer c f
      | .apertureWrite =>
        if ok then s.addChop chan x.stripe true false form .aperture 5
        else
          let (s1, f) := (s.lineLost 0x48 2 line).sealLost line
          s1.addChop chan x.stripe true false f .aperture 5
      | why =>
        match s.op x.op with
        | none => s
        | some o =>
          let s := s.setOp x.op (some { o with recon := none })
          -- a husked channel takes nothing more (06 R202)
          let repair := (why == .uncorrectable || why == .mac || x.primaryBad) && form.mac != 0#64 && !s.writeQueued line
            && !(s.lostSlots x.group x.stripe).contains x.slot
          let s1 := if why = .mac then s.integrity line ok else s
          if ok then
            let s2 := if form.mac = 0#64 then s1.finish x.op .unwritten 0#512 0#32
              else s1.finish x.op .ok (if o.kind = .readSealed then s1.unseal line form else 0#512) form.dir
            if repair then s2.addChop chan x.stripe true false form .repair 4 else s2
          else if why = .hedge ∧ !x.primaryBad then s1
          else s1.finish x.op .uncorrectable 0#512 0#32

/-- A read of a reconstruction returns, or fails; a slot no longer awaited is discarded. -/
def State.reconGot (s : State) (r slot : Nat) (f : Option Stored) : State :=
  match s.mf.recons.look none r with
  | none => s
  | some x =>
    if x.await.contains slot then
      let x1 := { x with await := x.await.erase slot }
      (s.setRecon r (some (match f with
        | some f => { x1 with got := x1.got ++ [(slot, f)] }
        | none => { x1 with bad := true }))).reconEnd r
    else s

/-- The slots that a batch writes, before its writes are formed. -/
def State.batchSlots (s : State) (b : Batch) : List Nat :=
  let lost := s.lostSlots b.group b.stripe
  let own := b.ops.filterMap fun i => (s.op i).map fun o => slotOf o.line
  ((own ++ [paritySlot b.stripe]).filter fun k => !lost.contains k).eraseDups

/-- The lines that a batch supplies to a reconstruction of a slot (06 R197): once its writes are formed, the new ones, the new parity
among them; and in any case those that it has read and does not write. -/
def State.batchLines (s : State) (b : Batch) (slot : Nat) : List (Nat × Stored) :=
  let writes := s.batchSlots b
  let kept := b.old.filterMap fun f => f.2.bind fun x => if writes.contains f.1 then none else some (f.1, x)
  ((if b.writing then b.new else []) ++ kept).filter fun f => f.1 != slot

/-- A reconstruction of a slot begins: raw reads of the other eight, but for the lines that an open batch supplies or is to supply (06
R197). -/
def State.startRecon (s : State) (op : Nat) (why : ReconWhy) (g stripe slot cls : Nat) : State :=
  let lost := s.lostSlots g stripe
  let others := (List.range 9).filter (· != slot)
  let r := s.nextId
  let s := s.bump
  let s := match s.op op with | some o => s.setOp op (some { o with recon := some r, state := .reading }) | none => s
  if others.any lost.contains then
    (s.setRecon r (some ⟨op, why, g, stripe, slot, [], [], [], true, false⟩)).reconEnd r
  else
    let ofBatch := match why with | .batch _ => true | _ => false
    let (got, mdOver, held) : List (Nat × Stored) × List (Nat × LineMeta) × List Nat := match s.openBatch g stripe with
      | none => ([], [], [])
      | some (_, b) =>
        if ofBatch then ([], [], [])
        else if b.metaOnly then ([], (if b.writing then b.new.map fun f => (f.1, f.2.md) else []), [])
        else (s.batchLines b slot, [], if b.writing then [] else (s.batchSlots b ++ b.await).filter (· != slot))
    let awaited := others.filter fun k => !got.any fun f => f.1 == k
    let reads := awaited.filter fun k => !held.contains k
    let s1 := s.setRecon r (some ⟨op, why, g, stripe, slot, got, mdOver, awaited, false, false⟩)
    (reads.foldl (fun s k => s.addChop (s.chanOf g k) stripe false false Stored.zero (.recon r k) cls) s1).reconEnd r

/-! ### Batches (06 R187 to R189, R507, R508, Table 6.7) -/

/-- A batch changed or ended. -/
def State.setBatch (s : State) (b : Nat) (x : Option Batch) : State :=
  s.modMf fun m => { m with batches := m.batches.put none b x }

/-- The batch of a number. -/
def State.batch (s : State) (b : Nat) : Option Batch := s.mf.batches.look none b

/-- Every write of a batch is acknowledged or resolved: its operations are acknowledged to their slices (06 R189), as dropped where their
own slot is lost with another (06 R203, R508) or their line has become integrity-unknown (06 R210). -/
def State.closeBatch (s : State) (bid : Nat) : State :=
  match s.batch bid with
  | none => s
  | some b =>
    let w := if s.rd MF_REBUILD_STATUS.GROUP = b.group then
        s.mf.window.map fun e => if e.1 = b.stripe then (e.1, true) else e
      else s.mf.window
    let s1 := (s.setBatch bid none).modMf fun m => { m with window := w }
    let lost := s.lostSlots b.group b.stripe
    let s2 := b.sealed.foldl (fun s e => s.setCounter e.1 e.2) s1
    b.ops.foldl (fun s i =>
      match s.op i with
      | none => s
      | some o =>
        let gone := b.dropped.contains i || (decide (2 ≤ lost.length) && lost.contains (slotOf o.line))
        let s1 := if s.unknownFor o then s.dropWrite i true
          else if gone then s.dropWrite i false else s.setOp i (some { o with state := .acked false })
        let s2 := if o.src = .rekey ∨ o.src = .reseal then s1.setOp i none else s1
        s2.rekeyDone o.line i) s2

/-- The class of a batch's writes: that of its most urgent operation (06 R192). -/
def State.batchClass (s : State) (b : Batch) : Nat :=
  if s.mode = 4 then 3 else (b.ops.filterMap fun i => (s.op i).map (·.cls)).foldl min 5

/-- A batch that writes nothing yet is undone: its reads are forgotten, and its writes wait again. -/
def State.cancelBatch (s : State) (bid : Nat) (b : Batch) : State :=
  let s1 := (s.setBatch bid none).modMf fun m => { m with chops := m.chops.filter fun e => match e.2 with
    | some o => (match o.use with
      | .batchRead x _ | .batchWrite x _ => x != bid
      | _ => true)
    | none => false }
  b.ops.foldl (fun s i => match s.op i with
    | some o => s.setOp i (some { o with state := .waiting })
    | none => s) s1

/-- The writes of a batch that the cipher unit refuses: the minor counter of their line would wrap, and no re-key step carries them (06
R207). `raw` gives the slots that are not sealed. -/
def State.refusedOf (s : State) (b : Batch) (raw : List (Nat × Stored)) : List Nat :=
  b.ops.filter fun i => match s.op i with
    | some o => !(raw.any fun f => f.1 == slotOf o.line) && (s.counter o.line).exhausted && !s.carried i o
    | none => false

/-- Writes that the cipher unit has refused are held outside any batch, and their pages queued (06 R207). -/
def State.holdRefused (s : State) (ids : List Nat) : State :=
  (ids.foldl (fun s i => match s.op i with
    | some o => s.setOp i (some { o with state := .refused })
    | none => s) s).queuePages

/-- A batch's write to a slot is on its channel: the line's counters are those it was sealed under; with the parity those of the lines
whose own slot is lost. -/
def State.landed (s : State) (b : Batch) (slot : Nat) : State :=
  b.sealed.foldl (fun s e =>
    let k := slotOf e.1
    if k = slot ∨ (slot = paritySlot b.stripe ∧ !(b.new.any fun f => f.1 == k)) then s.setCounter e.1 e.2 else s) s

/-- A batch's writes have been formed: reconstructions of the stripe take the new generation (06 R197, R244). -/
def State.feedRecons (s : State) (b : Batch) : State :=
  let ids := s.mf.recons.filterMap fun e => e.2.bind fun x =>
    if x.group = b.group ∧ x.stripe = b.stripe then some e.1 else none
  ids.foldl (fun s r =>
    match s.mf.recons.look none r with
    | none => s
    | some x =>
      let fs := if b.metaOnly then b.new.filter fun f => f.1 != x.slot else s.batchLines b x.slot
      let ours (k : Nat) : Bool := fs.any fun f => f.1 == k
      let md := x.mdOver.filter fun m => !ours m.1
      let x1 := if b.metaOnly then { x with mdOver := md ++ fs.map fun f => (f.1, f.2.md) }
        else { x with got := (x.got.filter fun g => !ours g.1) ++ fs, mdOver := md, await := x.await.filter fun k => !ours k }
      (s.setRecon r (some x1)).reconEnd r) s

/-- The new parity form of a batch: from the new lines and the others, or from the old lines and the old parity; none where
neither can be had. `new` holds the new data forms (06 R187). -/
def newParity (stripe : Nat) (old : List (Nat × Option Stored)) (new : List (Nat × Stored)) : Option Stored :=
  let oldOf (k : Nat) : Option Stored := (old.find? fun f => f.1 == k).bind (·.2)
  let rest := (dataSlots stripe).filter fun k => !new.any fun f => f.1 == k
  if rest.all fun k => (oldOf k).isSome then
    some (xorAll (new.map (·.2) ++ rest.filterMap oldOf))
  else if new.all (fun f => (oldOf f.1).isSome) && (oldOf (paritySlot stripe)).isSome then
    some (xorAll ((oldOf (paritySlot stripe)).toList ++ new.map (·.2) ++ new.filterMap fun f => oldOf f.1))
  else none

/-- A batch's writes are formed and issued. `raw` gives forms that are written as they stand; other lines are sealed. Where the cipher
unit refuses one, the batch is undone and forms again without it (06 R207). -/
def State.startWrites (s : State) (bid : Nat) (raw : List (Nat × Stored)) : State :=
  match s.batch bid with
  | none => s
  | some b =>
    let refused := s.refusedOf b raw
    if !refused.isEmpty then (s.cancelBatch bid b).holdRefused refused
    else
    let lost := s.lostSlots b.group b.stripe
    let ops := b.ops.filterMap fun i => (s.op i).map fun o => (i, o)
    let slots := (ops.map fun o => slotOf o.2.line).eraseDups
    let (forms, marks) := slots.foldl (fun (acc : List (Nat × Stored) × List (Nat × LineCounter)) k =>
      match raw.find? fun f => f.1 == k with
      | some f => (acc.1 ++ [f], acc.2)
      | none =>
        match (ops.filter fun o => slotOf o.2.line == k).getLast? with
        | none => acc
        | some (i, o) =>
          let c := (s.counter o.line).next (s.carried i o)
          (acc.1 ++ [(k, sealForm (s.keyOf o.line) o.line c o.data o.dir)], acc.2 ++ [(o.line, c)])) ([], [])
    let p := paritySlot b.stripe
    let (s2, parity) :=
      if lost.contains p || decide (2 ≤ lost.length) then (s, [])
      else match newParity b.stripe b.old forms with
        | some f => (s, [(p, f)])
        | none =>
          let d := Config.freeLine s.freeTick
          (s.draw.draw, [(p, ⟨d, (Config.freeLine (s.freeTick + 1)).extractLsb' 0 128⟩)])
    let new := (forms.filter fun f => !lost.contains f.1) ++ parity
    let drops := if 2 ≤ lost.length then b.ops.filter fun i => match s.op i with | some o => lost.contains (slotOf o.line) | none => false
      else []
    let b1 := { b with writing := true, new := new, writes := new.map (·.1), await := [], dropped := b.dropped ++ drops, sealed := marks }
    let s3 := s2.setBatch bid (some b1)
    let cls := s.batchClass b
    let s4 := new.foldl (fun s f =>
      s.addChop (s.chanOf b.group f.1) b.stripe true b.metaOnly f.2 (.batchWrite bid f.1) cls) s3
    let s5 := s4.feedRecons b1
    if new.isEmpty then s5.closeBatch bid else s5

/-- Reads of a batch are issued. -/
def State.batchReads (s : State) (bid : Nat) (slots : List Nat) (metaOnly : Bool) : State :=
  match s.batch bid with
  | none => s
  | some b =>
    let s1 := s.setBatch bid (some { b with await := b.await ++ slots })
    slots.foldl (fun s k => s.addChop (s.chanOf b.group k) b.stripe false metaOnly Stored.zero (.batchRead bid k)
      (s.batchClass b)) s1

/-- The slots a full-line batch reads (06 R187, Table 6.7, R203). -/
def batchPlan (stripe : Nat) (lost new : List Nat) : List Nat :=
  let p := paritySlot stripe
  let rest := (dataSlots stripe).filter fun k => !new.contains k
  if 2 ≤ lost.length ∨ lost.contains p ∨ new.length = 8 then []
  else if new.any lost.contains then rest
  else if new.length ≤ 3 then new ++ [p]
  else if rest.any lost.contains then (List.range 9).filter fun k => !lost.contains k
  else rest

/-- The slots a metadata-only batch reads. Beside the reads Table 6.7 names, the metadata that a write of 16 bytes has to
keep is read: the parity's where the line is lost, the line's where the parity is. -/
def metaPlan (stripe : Nat) (lost : List Nat) (k : Nat) : List Nat :=
  let p := paritySlot stripe
  if 2 ≤ lost.length ∨ lost.contains p then [k].filter fun j => !lost.contains j
  else if lost.contains k then (dataSlots stripe).filter (· != k) ++ [p]
  else [k, p]

/-- A metadata-only batch becomes a full-line write of a line with its data (06 R188, R507). -/
def State.convertMeta (s : State) (bid : Nat) (b : Batch) (dir : DirEntry) (keep : List (Nat × Option Stored))
    (reads : List Nat) : State :=
  let s1 := b.ops.foldl (fun s i => match s.op i with
    | some o => s.setOp i (some { o with data := 0#512, dir := dir, kind := .writeLine })
    | none => s) s
  let s2 := s1.setBatch bid (some { b with metaOnly := false, old := keep })
  let s3 := s2.batchReads bid reads false
  if reads.isEmpty then s3.startWrites bid [] else s3

/-- The reads of a metadata-only batch have returned (06 R187, R188, R507, Table 6.7). -/
def State.metaReady (s : State) (bid : Nat) (b : Batch) (o : MediaOp) : State :=
  let k := slotOf o.line
  let p := paritySlot b.stripe
  let lost := s.lostSlots b.group b.stripe
  let oldOf (j : Nat) : Option Stored := (b.old.find? fun f => f.1 == j).bind (·.2)
  let others := (List.range 9).filter (· != k)
  let rest := (dataSlots b.stripe).filter (· != k)
  let finishMeta (fs : List (Nat × Stored)) : State :=
    let b1 := { b with writing := true, new := fs, writes := fs.map (·.1) }
    let s1 := fs.foldl (fun s f => s.addChop (s.chanOf b.group f.1) b.stripe true true f.2 (.batchWrite bid f.1) (s.batchClass b))
      (s.setBatch bid (some b1))
    let s2 := s1.feedRecons b1
    if fs.isEmpty then s2.closeBatch bid else s2
  let blank (keep : List (Nat × Option Stored)) : State :=
    s.convertMeta bid b o.dir keep ((batchPlan b.stripe lost [k]).filter fun j => !keep.any fun f => f.1 == j)
  let keepZero : List (Nat × Option Stored) := if lost.contains k then [] else [(k, some Stored.zero)]
  if b.blank.contains k then blank keepZero
  else
    match oldOf k with
    | some f =>
      let new := f.putDir o.dir
      if lost.contains p || decide (2 ≤ lost.length) then finishMeta [(k, new)]
      else match oldOf p with
        | some g => finishMeta [(k, new), (p, ⟨g.data, g.md ^^^ f.md ^^^ new.md⟩)]
        | none =>
          -- the parity could not be read: it is rewritten whole from the eight data lines
          (s.setBatch bid (some { b with metaOnly := false })).startWrites bid [(k, new)]
    | none =>
      if lost.contains k then
        match oldOf p with
        | some g =>
          let form := xorAll (g :: rest.filterMap oldOf)
          if rest.all (fun j => (oldOf j).isSome) && form.mac == 0#64 then blank []
          else finishMeta [(p, g.putDir (g.dir ^^^ form.dir ^^^ o.dir))]
        | none => (s.setBatch bid (some { b with metaOnly := false })).startWrites bid [(k, (xorAll (rest.filterMap oldOf)).putDir o.dir)]
      else
        let form := xorAll (others.filterMap oldOf)
        let good := others.all (fun j => (oldOf j).isSome) && (form.mac == 0#64 || s.macGood o.line form)
        if good && form.mac == 0#64 then blank [(k, some Stored.zero)]
        else if good then
          (s.setBatch bid (some { b with metaOnly := false, old := b.old.filter (fun f => f.1 != k) ++ [(k, some form)] })).startWrites bid
            [(k, form.putDir o.dir)]
        else
          let s1 := b.ops.foldl (fun s i => match s.op i with
            | some o => s.setOp i (some { o with data := 0#512, dir := dePut30 o.dir true, kind := .writeLine })
            | none => s) (s.lineLost 0x48 4 o.line)
          (s1.setBatch bid (some { b with metaOnly := false })).startWrites bid []

/-- The reads of a batch have all returned. -/
def State.batchReady (s : State) (bid : Nat) : State :=
  match s.batch bid with
  | none => s
  | some b =>
    if !b.await.isEmpty ∨ b.writing then s
    else match b.metaOnly, b.ops.head?.bind (s.op ·) with
      | true, some o => s.metaReady bid b o
      | _, _ => s.startWrites bid []

/-- A slot of a batch is known, or cannot be; the other slots that its reconstruction read are known too. -/
def State.batchKnow (s : State) (bid slot : Nat) (f : Option Stored) (others : List (Nat × Stored)) (blank : Bool) : State :=
  match s.batch bid with
  | none => s
  | some b =>
    let more := (others.filter fun g => !b.await.contains g.1 && !b.old.any fun o => o.1 == g.1).map fun g => (g.1, some g.2)
    (s.setBatch bid (some { b with
      await := b.await.erase slot, old := b.old ++ [(slot, f)] ++ more,
      blank := if blank then slot :: b.blank else b.blank })).batchReady bid

/-- The reconstruction of a slot that a batch could not read ends: the rebuilt line goes to the batch, and to its channel as a repair
write where no write of it is queued or open (06 Table 6.4, R194). -/
def State.batchRecon (s : State) (r : Nat) : State :=
  match s.mf.recons.look none r with
  | none => s
  | some x => match x.why with
    | .batch bid =>
      if !x.await.isEmpty then s
      else
        let (form, ok) := s.reconForm x
        let repair := ok && x.slot != paritySlot x.stripe && form.mac != 0#64
          && !s.writeQueued (lineAt x.group x.stripe x.slot) && !(s.lostSlots x.group x.stripe).contains x.slot
        let s1 := s.setRecon r none
        let s2 := if repair then s1.addChop (s.chanOf x.group x.slot) x.stripe true false form .repair 4 else s1
        -- a metadata-only write of a rebuilt line becomes a write of the line with the rebuilt data (log 32)
        let use := ok && !(x.slot != paritySlot x.stripe && (match s.batch bid with | some b => b.metaOnly | none => false))
        s2.batchKnow bid x.slot (if use then some form else none) (if use then [] else x.got) (use && form.mac == 0#64)
    | _ => s

/-- A read of a batch returns; one that is uncorrectable is rebuilt from the other eight lines (06 Table 6.4, R194). -/
def State.batchGot (s : State) (bid slot : Nat) (f : Option Stored) (blank : Bool) : State :=
  match s.batch bid with
  | none => s
  | some b =>
    if !b.await.contains slot then s
    else match f with
      | some f => s.batchKnow bid slot (some f) [] blank
      | none =>
        ((s.count (72 + b.group) 4).startRecon bid (.batch bid) b.group b.stripe slot 1).batchRecon s.nextId

/-- The rebuild of an aperture write that waits behind a stripe's earlier batches, and whether one, or a write of the rebuilt form to the
spare, is under way on the stripe (06 R205). -/
def State.apertureAt (s : State) (g stripe : Nat) : Option Nat × Bool :=
  let mine (x : Recon) (why : ReconWhy) : Bool := x.why == why && x.group == g && x.stripe == stripe
  (s.mf.recons.findSome? fun e => e.2.bind fun x => if mine x .apertureWait then some e.1 else none,
    s.mf.recons.any (fun e => match e.2 with | some x => mine x .apertureWrite | none => false)
      || (s.rd MF_REBUILD_STATUS.GROUP == g && s.mf.chops.any fun e => match e.2 with
          | some o => o.use == .aperture && o.index == stripe | none => false))

/-- The writes that form a stripe's next batch: with COALESCE_EN those that wait together, else one; a metadata-only write
forms its own (06 R189, R191). A line's writes keep their order behind one that is on its way or refused (06 R190, R207), and a rebuild of
the stripe for the aperture takes its turn among the batches (06 R205). -/
def State.pickBatch (s : State) (g stripe : Nat) : List (Nat × MediaOp) :=
  let (turn, busy) := s.apertureAt g stripe
  let before (n : Nat) : Bool := !busy && (match turn with | some r => decide (n < r) | none => true)
  let w := s.mf.ops.filterMap fun e => e.2.bind fun o =>
    if o.state = .waiting ∧ groupOf o.line = g ∧ stripeOf o.line = stripe ∧ before o.placedAt ∧ !s.earlierHeld o.line e.1
    then some (e.1, o) else none
  let w := w.mergeSort fun a b => a.2.placedAt ≤ b.2.placedAt
  match w with
  | [] => []
  | e :: l =>
    if e.2.kind = .writeMeta ∨ !s.on MF_CTRL.COALESCE_EN then [e]
    else e :: l.takeWhile fun x => x.2.kind == .writeLine

/-- A stripe's next batch opens, where none is open and no earlier read of its lines is unanswered (06 R189, R190). -/
def State.openStripe (s : State) (g stripe : Nat) : State :=
  let ops := s.pickBatch g stripe
  if (s.openBatch g stripe).isSome ∨ ops = [] ∨ ops.any (fun e => s.earlierRead e.2.line e.1) then s
  else
    let lost := s.lostSlots g stripe
    let gone (e : Nat × MediaOp) : Bool := decide (2 ≤ lost.length) && lost.contains (slotOf e.2.line)
    let s0 := ops.foldl (fun s e =>
      if s.unknownFor e.2 then (s.dropWrite e.1 true).rekeyDone e.2.line e.1
      else if gone e then (s.dropWrite e.1 false).rekeyDone e.2.line e.1 else s) s
    let ops := ops.filter fun e => !s.unknownFor e.2 && !gone e
    let slots := (ops.map fun e => slotOf e.2.line).eraseDups
    match ops with
    | [] => s0
    | e :: _ =>
      let bid := s0.nextId
      let isMeta := e.2.kind == .writeMeta
      let s1 := ops.foldl (fun s e => s.setOp e.1 (some { e.2 with state := .batch })) s0.bump
      let s2 := s1.setBatch bid (some ⟨g, stripe, ops.map (·.1), isMeta, [], [], [], false, [], [], [], []⟩)
      let u := 72 + g
      let s3 := if isMeta then s2.count u 8
        else if slots.length = 8 then s2.count u 5
        else if slots.length ≤ 3 ∧ !slots.any lost.contains then s2.count u 6
        else s2.count u 7
      let s4 := if 2 ≤ slots.length then s3.count u 9 slots.length else s3
      let reads := if isMeta then metaPlan stripe lost (slotOf e.2.line) else batchPlan stripe lost slots
      let s5 := s4.batchReads bid reads isMeta
      if reads.isEmpty then s5.batchReady bid else s5

/-- Every stripe whose next batch can open opens it; `n` bounds the batches. -/
def State.openLoop : Nat → State → State
  | 0, s => s
  | n + 1, s =>
    let next := s.mf.ops.findSome? fun e => e.2.bind fun o =>
      let g := groupOf o.line
      let st := stripeOf o.line
      if o.state = .waiting ∧ (s.openBatch g st).isNone ∧ !(s.pickBatch g st).any (fun e => s.earlierRead e.2.line e.1)
      then some (g, st) else none
    match next with
    | none => s
    | some (g, st) => State.openLoop n (s.openStripe g st)

/-- The rebuild that an aperture write waits for begins where the stripe has no batch open and no earlier write waits (06 R205). -/
def State.startWaiting (s : State) : State :=
  let next := s.mf.recons.findSome? fun e => e.2.bind fun x =>
    if x.why = .apertureWait ∧ (s.openBatch x.group x.stripe).isNone ∧ s.pickBatch x.group x.stripe = [] then some (e.1, x) else none
  match next with
  | some (r, x) => (s.setRecon r none).startRecon x.op .apertureWrite x.group x.stripe x.slot 5
  | none => s

/-- What can open opens, and what is placed is issued. -/
def State.settleMedia (s : State) : State := (State.openLoop (2 * s.mf.ops.length) s).startWaiting.issueAll

/-! ### Answers of channels (06 R193, R194, R508) -/

/-- The state of a channel: 0 spare, 1 active, 2 rebuild target, 3 lost. -/
def State.chState (s : State) (c : Channel) : Nat := s.rd (MF_CH_STATE.STATE c.val)

/-- Whether a group's reads may be hedged (06 R200). -/
def State.mayHedge (s : State) (g : Nat) : Bool :=
  s.rd (MF_GROUP_MAP.GSTATE g) == 0 && !(s.on MF_CTRL.RESYNC_BUSY && !s.on (MF_GROUP_MAP.RESYNCED g))
    && s.on MF_HEDGE_CTRL.EN && s.mode != 3 && s.mode != 4

/-- A hedge of a demand read, under the hedge limiter (06 R195, R199). -/
def State.tryHedge (s : State) (id : Nat) : State :=
  match s.op id with
  | none => s
  | some o =>
    let g := groupOf o.line
    if o.state ≠ .reading ∨ o.hedged ∨ o.recon.isSome ∨ o.cls ≠ 2 ∨ !s.mayHedge g then s
    else
      let sum := (s.mf.limiter.look [] g).foldl (fun a b => (a.1 + b.1, a.2 + b.2)) (0, 0)
      if (sum.2 + 1) * 1000 ≤ sum.1 * min 50 (s.rd MF_HEDGE_CTRL.LIMIT_PERMILLE) then
        let c := (s.chanOf g (slotOf o.line)).val
        let s1 := ((s.limiterAdd g 0 1).count (72 + g) 2).count (34 + c) 8
        let b := s1.mf.bands.look BandTable.untrained (c * 4 + o.band)
        let s2 := s1.modMf fun m => { m with bands := m.bands.put BandTable.untrained (c * 4 + o.band) { b with hedges := b.hedges + 1 } }
        let s3 := (s2.setOp id (some { o with hedged := true })).startRecon id .hedge g (stripeOf o.line) (slotOf o.line) 1
        match o.src with
        | .tracker p t | .trackerDir p t => s3.flag p t 4
        | _ => s3
      else s.count (72 + g) 3

/-- The latency of an unhedged sealed read enters its histogram and LAT_SUM; the nanoseconds are a free value (06 R198). -/
def State.latency (s : State) (c band : Nat) : State :=
  let ns := ((Config.freeWord s.freeTick).extractLsb' 0 16).toNat
  let b := s.mf.bands.look BandTable.untrained (c * 4 + band)
  let b1 := { b with hist := b.hist ++ [min 63 (ns / 32)] }
  ((s.draw.modMf fun m => { m with bands := m.bands.put BandTable.untrained (c * 4 + band) b1 }).count (34 + c) 11 ns).count (34 + c) 12

/-- The answer of a channel to the primary read of an operation (06 Table 6.4, R196). -/
def State.primaryAnswer (s : State) (id : Nat) (o : ChanOp) (st : ReadStatus) : State :=
  match s.op id with
  | none => s.count (34 + o.chan.val) 9
  | some m =>
    if m.state ≠ .reading then s.count (34 + o.chan.val) 9
    else
      let g := groupOf m.line
      let drop (s : State) : State := match m.recon with | some r => s.setRecon r none | none => s
      let timed (s : State) : State := if m.kind = .readSealed ∧ !m.hedged then s.latency o.chan.val m.band else s
      let done (s : State) : State := timed (drop s)
      match st with
      | .ok | .corrected =>
        match s.mediaAt o.chan o.index with
        | some f => (done s).finish id .ok (if m.kind = .readSealed then s.unseal m.line f else 0#512) f.dir
        | none => (done s).draw.finish id .ok (Config.freeLine s.freeTick) ((Config.freeWord s.freeTick).extractLsb' 0 32)
      | .unwritten => (done s).finish id .unwritten 0#512 0#32
      | .uncorrectable =>
        match m.recon with
        | some r => match s.mf.recons.look none r with
          | some x => s.setRecon r (some { x with primaryBad := true })
          | none => s
        | none =>
          if m.hedged then s.finish id .uncorrectable 0#512 0#32
          else ((timed s).count (72 + g) 4).startRecon id .uncorrectable g (stripeOf m.line) (slotOf m.line) 1
      | .busyMigrating => s.tryHedge id

/-- A channel read's answer goes to what it serves; the form is the one on media, unwritten counting as zeros. A raw read that is
answered busy-migrating goes on waiting (06 R194). -/
def State.readAnswer (s : State) (o : ChanOp) (st : ReadStatus) : State :=
  let form : Option Stored := match st with
    | .uncorrectable => none
    | .unwritten => some Stored.zero
    | _ => some ((s.mediaAt o.chan o.index).getD Stored.zero)
  match o.use with
  | .primary id => s.primaryAnswer id o st
  | .recon r slot => if st = .busyMigrating then s else (s.reconGot r slot form).batchRecon r
  | .batchRead b slot => if st = .busyMigrating then s else s.batchGot b slot form (st == .unwritten)
  | _ => s

/-- A write ends without its channel: a batch's slot is lost, and where a second slot is lost with it, a data line of it is dropped (06
R508, R203); a write of the rebuild aperture is answered with an error (06 R202). -/
def State.writeGone (s : State) (o : ChanOp) : State :=
  match o.use with
  | .batchWrite bid slot =>
    match s.batch bid with
    | none => s
    | some b =>
      let lost := s.lostSlots b.group b.stripe
      let drops := if 2 ≤ lost.length then b.ops.filter fun i => match s.op i with | some m => slotOf m.line == slot | none => false
        else []
      let b1 := { b with writes := b.writes.erase slot, dropped := b.dropped ++ drops }
      let s1 := s.setBatch bid (some b1)
      if b1.writes.isEmpty then s1.closeBatch bid else s1
  | .aperture => s.emit .apertureError
  | _ => s

/-- A channel is husked: its group loses the slot, and every operation queued to it is answered as failed
(06 R202 to R204, R509). -/
def State.huskChannel (s : State) (c : Channel) : State :=
  let st := s.chState c
  if st ≠ 1 ∧ st ≠ 2 then s
  else
    let g := s.rd (MF_CH_STATE.GROUP c.val)
    let slot := s.rd (MF_CH_STATE.SLOT c.val)
    let s0 := s.wr (MF_CH_STATE.STATE c.val) 3
    let addLost (s : State) : State :=
      s.modMf fun m => { m with lostMore := m.lostMore.put [] g (m.lostMore.look [] g ++ [slot]) }
    let s1 := match s.rd (MF_GROUP_MAP.GSTATE g) with
        | 0 => (s0.wr (MF_GROUP_MAP.GSTATE g) 1).wr (MF_GROUP_MAP.LOST_SLOT g) slot
        | 1 => addLost (s0.wr (MF_GROUP_MAP.GSTATE g) 3)
        | 2 =>
          if st = 2 then (s0.wr MF_REBUILD_STATUS.ACTIVE 0).wr (MF_GROUP_MAP.GSTATE g) 1
          else (addLost ((s0.wr MF_REBUILD_STATUS.ACTIVE 0).wr (MF_GROUP_MAP.GSTATE g) 3)).modMf fun m =>
            { m with stopLine := m.stopLine.put 0 g (s.rd MF_REBUILD_STATUS.LINE) }
        | _ => addLost s0
    let queued := s1.mf.chops.filterMap fun e => e.2.bind fun o => if o.chan = c then some (e.1, o) else none
    queued.foldl (fun s e =>
      let s1 := s.setChop e.1 none
      if e.2.write then s1.writeGone e.2 else s1.readAnswer e.2 .uncorrectable) s1

/-- The info word of a channel event (11 Table 11.1). -/
def channelInfo (index code : Nat) : BitVec 40 := BitVec.ofNat 40 (index % 2 ^ 37 + code * 2 ^ 37)

end Sys2Proof.Machine
end

