-- ==== Sys2Proof/Machine/Media.lean ====
section
/-! DEFINITION. The media-front commands (chapter 6): requests and writes from the slices, channel answers, hedging, re-key,
integrity, channel retirement, rebuild and resync. An event whose precondition does not hold has no effect (log 10). -/

namespace Sys2Proof.Machine

open Host (Outcome)

/-! ### Requests and writes -/

/-- MEDIA_READ_REQUEST (06 R190, R193, R195, R202, R203, R210): a read reaches its channel's dispatch queue, or is answered
from the writes ahead of it, from the other eight slots, or as uncorrectable. -/
def execMediaReadRequest (op : Nat) (s : State) : Outcome State Fault Refusal :=
  match s.op op with
  | none => .next s
  | some o =>
    if o.state ≠ .wire ∨ o.isWrite then .next s
    else
      let w := s.queuedWrites o.line op
      let lost := s.lostSlots (groupOf o.line) (stripeOf o.line)
      let s1 :=
        if s.unknownFor o then s.finish op .uncorrectable 0#512 0#32
        else match (w.filter fun x => x.kind == .writeLine).getLast? with
          | some x => s.finish op .ok x.data x.dir
          | none =>
            if w ≠ [] ∧ o.kind = .readMeta then s.finish op .ok 0#512 0#32
            else if lost.contains (slotOf o.line) then
              if 2 ≤ lost.length then s.finish op .uncorrectable 0#512 0#32
              else s.startRecon op .lostSlot (groupOf o.line) (stripeOf o.line) (slotOf o.line) 1
            else (s.setOp op (some { o with state := .reading })).addChop (s.chanOf (groupOf o.line) (slotOf o.line))
              (stripeOf o.line) false (o.kind == .readMeta) Stored.zero (.primary op) o.cls
      .next s1.settleMedia

/-- The lines of a stripe that the coalescer holds. -/
def State.heldLines (s : State) (g stripe : Nat) : List Nat :=
  (s.mf.ops.filterMap fun e => e.2.bind fun o =>
    if o.state = .held ∧ groupOf o.line = g ∧ stripeOf o.line = stripe then some o.line else none).eraseDups

/-- The oldest held write (06 R191). -/
def State.oldestHeld (s : State) : Option MediaOp :=
  s.mf.ops.foldl (fun a e => match a, e.2 with
    | none, some o => if o.state = .held then some o else none
    | some b, some o => if o.state = .held ∧ o.placedAt < b.placedAt then some o else some b
    | a, none => a) none

/-- A write that nothing can store is dropped on arrival: its line is integrity-unknown (06 R210), or its channel is lost
in a failed group (06 R203). -/
def State.arriveDropped (s : State) (op : Nat) (o : MediaOp) : Option State :=
  let lost := s.lostSlots (groupOf o.line) (stripeOf o.line)
  if s.unknownFor o then some (s.dropWrite op true)
  else if 2 ≤ lost.length ∧ lost.contains (slotOf o.line) then some (s.dropWrite op false)
  else none

/-- Whether a write of a line that was issued before operation `id` is still on the ring, which keeps the order of a line's writes (01
R22, 06 R190). -/
def State.behindOnRing (s : State) (line id : Nat) : Bool := (s.queuedWrites line id).any fun o => o.state == .wire

/-- The line buffers of the coalescer in use (06 R191). -/
def State.heldBuffers (s : State) : Nat :=
  (s.mf.ops.filterMap fun e => e.2.bind fun o => if o.state = .held then some o.line else none).eraseDups.length

/-- MEDIA_LINE_WRITE (06 R191): a line write reaches the coalescer and is held, or released with its stripe's held writes. -/
def execMediaLineWrite (op : Nat) (s : State) : Outcome State Fault Refusal :=
  match s.op op with
  | none => .next s
  | some o =>
    if o.state ≠ .wire ∨ o.kind ≠ .writeLine ∨ s.behindOnRing o.line op then .next s
    else match s.arriveDropped op o with
      | some s1 => .next s1.settleMedia
      | none =>
        let g := groupOf o.line
        let st := stripeOf o.line
        let now := !s.on MF_CTRL.COALESCE_EN || s.rd MF_CTRL.COALESCE_WIN == 0 || o.cls == 3 || s.mode == 4
        let s1 := s.coalesce op o
        let s2 := if now ∨ (s1.heldLines g st).length = 8 then s1.releaseHeld g st else s1
        let s3 := match decide (512 ≤ s2.heldBuffers), s2.oldestHeld with
          | true, some x => s2.releaseHeld (groupOf x.line) (stripeOf x.line)
          | _, _ => s2
        .next s3.settleMedia

/-- METADATA_ONLY_WRITE (06 R187, R191): a metadata-only write forms its own batch, behind the stripe's held writes where its
own line is among them. -/
def execMetadataOnlyWrite (op : Nat) (s : State) : Outcome State Fault Refusal :=
  match s.op op with
  | none => .next s
  | some o =>
    if o.state ≠ .wire ∨ o.kind ≠ .writeMeta ∨ s.behindOnRing o.line op then .next s
    else match s.arriveDropped op o with
      | some s1 => .next s1.settleMedia
      | none =>
        let g := groupOf o.line
        let st := stripeOf o.line
        let s1 := if (s.heldLines g st).contains o.line then s.releaseHeld g st else s
        .next ((s1.setOp op (some { o with state := .waiting, placedAt := s1.nextId })).bump).settleMedia

/-- COALESCE_WINDOW_EXPIRY (06 R191): the oldest held write of a stripe reaches the window, and the stripe's are released. -/
def execCoalesceWindowExpiry (g : Group) (stripe : Nat) (s : State) : Outcome State Fault Refusal :=
  .next (s.releaseHeld g.val stripe).settleMedia

/-- DISPATCH_PLACE_FREE (06 R510): the next operation waiting at the media stop enters the dispatch queue: class 1 first,
every other in arrival order. -/
def execDispatchPlaceFree (c : Channel) (s : State) : Outcome State Fault Refusal :=
  let w := s.mf.chops.filterMap fun e => e.2.bind fun o => if o.chan = c ∧ !o.queued then some (e.1, o) else none
  match (w.find? fun e => e.2.cls == 1) <|> w.head? with
  | none => .next s
  | some e => match s.room c e.2.cls with
    | some extra => .next (s.placeChop e.1 e.2 extra).issueAll
    | none => .next s

/-! ### Channel answers -/

/-- MEDIA_READ_STATUS (06 R193, Table 6.4, R194, R196): a channel answers a read. The corrected and uncorrectable statuses
are events of the channel's source. -/
def execMediaReadStatus (op : Nat) (st : ReadStatus) (s : State) : Outcome State Fault Refusal :=
  match s.chop op with
  | none => .next s
  | some o =>
    if o.write ∨ !o.issued ∨ o.migrating then .next s
    else
      let c := o.chan.val
      let s1 := match st with
        | .ok => s
        | .corrected => (s.count (34 + c) 4).minor (0x22 + c) (channelInfo o.index 1)
        | .uncorrectable => (s.count (34 + c) 5).major (0x22 + c) (channelInfo o.index 3)
        | .unwritten => s.count (34 + c) 6
        | .busyMigrating => s.count (34 + c) 7
      let live : Bool := match o.use with
        | .primary id => match s.op id with | some m => m.state == .reading | none => false
        | .recon r slot => match s.mf.recons.look none r with | some x => x.await.contains slot | none => false
        | .batchRead b slot => match s.batch b with | some x => x.await.contains slot | none => false
        | _ => false
      if st = .busyMigrating ∧ live then
        .next ((s1.setChop op (some { o with migrating := true })).readAnswer o st).issueAll
      else .next ((s1.setChop op none).readAnswer o st).settleMedia

/-- BUSY_MIGRATING_REISSUE (06 R193, R194): a read answered busy-migrating is issued again, unless a hedge of it runs. -/
def execBusyMigratingReissue (op : Nat) (s : State) : Outcome State Fault Refusal :=
  match s.chop op with
  | none => .next s
  | some o =>
    if !o.migrating then .next s
    else match o.use with
      | .primary id => match s.op id with
        | some m =>
          if m.state ≠ .reading then .next (s.setChop op none)
          else if m.recon.isSome then .next s
          else .next ((s.setChop op (some { o with migrating := false })).emit (.chanRead op o.chan o.index o.metaOnly))
        | none => .next (s.setChop op none)
      | _ => .next ((s.setChop op (some { o with migrating := false })).emit (.chanRead op o.chan o.index o.metaOnly))

/-- HEDGE_DEADLINE (06 R195): a demand read has no answer at its deadline. -/
def execHedgeDeadline (op : Nat) (s : State) : Outcome State Fault Refusal :=
  let out := s.mf.chops.any fun e => match e.2 with | some o => o.queued && o.use == .primary op | none => false
  if out then .next (s.tryHedge op).issueAll else .next s

/-- The rebuild target has acknowledged the line at LINE (06 R204, R205). -/
def State.rebuiltLine (s : State) (index : Nat) : State :=
  if !s.on MF_REBUILD_STATUS.ACTIVE ∨ s.rd MF_REBUILD_STATUS.LINE ≠ index then s
  else
    let g := s.rd MF_REBUILD_STATUS.GROUP
    let t := s.rd MF_REBUILD_STATUS.TARGET
    let s1 := ((s.wr MF_REBUILD_STATUS.LINE (index + 1)).modMf fun m =>
      { m with window := m.window.filter fun e => e.1 != index }).count (72 + g) 12
    if index + 1 = s.channelLines then
      -- hedging resumes with the spare's bands untrained
      let s2 := s1.modMf fun m => { m with bands := m.bands.filter fun e => e.1 / 4 != t }
      let s3 := (s2.wr MF_REBUILD_STATUS.ACTIVE 0).wr MF_REBUILD_STATUS.DONE 1
      let s4 := ((s3.wr (MF_GROUP_MAP.GSTATE g) 0).wr (MF_GROUP_MAP.LOST_SLOT g) 15).wr (MF_CH_STATE.STATE t) 1
      s4.notice 3 0x24 1 0x48 (g + s.rd MF_REBUILD_STATUS.SLOT * 2 ^ 2 + t * 2 ^ 6) s.now
    else s1

/-- MEDIA_WRITE_STATUS (06 R189, R508, 17 R493): a channel answers a write. A failed write is due again; its third repeat
failing husks the channel and escalates its source. -/
def execMediaWriteStatus (op : Nat) (ok : Bool) (s : State) : Outcome State Fault Refusal :=
  match s.chop op with
  | none => .next s
  | some o =>
    if !o.write ∨ !o.issued ∨ o.failed then .next s
    else if ok then
      let form : Stored := if o.metaOnly then ⟨((s.mediaAt o.chan o.index).getD Stored.zero).data, o.form.md⟩ else o.form
      let s1 := (s.setMedia o.chan o.index (some form)).setChop op none
      match o.use with
      | .batchWrite bid slot =>
        match s1.batch bid with
        | none => .next s1
        | some b =>
          let b1 := { b with writes := b.writes.erase slot }
          let s2 := (s1.landed b slot).setBatch bid (some b1)
          .next (if b1.writes.isEmpty then s2.closeBatch bid else s2).settleMedia
      | .aperture => .next ((s1.iaEnd (apertureId o.index)).rebuiltLine o.index)
      | _ => .next s1
    else
      let c := o.chan.val
      let s1 := s.major (0x22 + c) (channelInfo o.index 5)
      if s.chState o.chan = 3 then .next ((s1.setChop op none).writeGone o).settleMedia
      else if 3 ≤ o.tries then
        .next (((s1.setChop op (some o)).huskChannel o.chan).escalate (0x22 + c) false (channelInfo o.index 5)).settleMedia
      else .next (s1.setChop op (some { o with failed := true }))

/-- WRITE_RETRY (06 R508): a failed write is issued again, raw, 250 ns later. -/
def execWriteRetry (op : Nat) (s : State) : Outcome State Fault Refusal :=
  match s.chop op with
  | none => .next s
  | some o =>
    if !o.failed then .next s
    else .next ((s.setChop op (some { o with failed := false, tries := o.tries + 1 })).emit
      (.chanWrite op o.chan o.index o.metaOnly))

/-! ### Hedge training and light sleep -/

/-- PCT as it acts: 900 to 999 (06 Table 6.13). -/
def State.hedgePct (s : State) : Nat := min 999 (max 900 (s.rd MF_HEDGE_CTRL.PCT))

/-- The trained deadline of a histogram: the smallest bin upper edge below which PCT/10 % of the reads fall, with MARGIN
(06 R198). -/
def State.trainedDeadline (s : State) (hist : List Nat) : Nat :=
  let n := hist.length
  let bin := ((List.range 64).find? fun b =>
    decide (s.hedgePct * n ≤ 1000 * hist.countP fun x => decide (x ≤ b))).getD 63
  min (min 900 (s.rd MF_HEDGE_CTRL.DL_MAX)) (max (s.rd MF_HEDGE_CTRL.DL_MIN) (32 * (bin + 1) + s.rd MF_HEDGE_CTRL.MARGIN))

/-- HEDGE_TRAINING (06 R198): at a whole second every band with enough reads is retrained, and every histogram cleared. -/
def execHedgeTraining (s : State) : Outcome State Fault Refusal :=
  if s.now % 1000000 ≠ 0 then .next s
  else
    let need := max 1 (s.rd MF_HEDGE_CTRL.MIN_SAMPLES) * 256
    .next (s.modMf fun m => { m with bands := (m.bands.map fun e =>
      let b := if need ≤ e.2.hist.length then { e.2 with trained := true, deadline := s.trainedDeadline e.2.hist } else e.2
      (e.1, { b with hist := [], hedgesLast := b.hedges, hedges := 0 })).filter fun e => e.2 != BandTable.untrained })

/-- CHANNEL_LIGHT_SLEEP (09 R290): in DORMANT a channel without an operation for 200 us returns to light sleep. -/
def execChannelLightSleep (c : Channel) (s : State) : Outcome State Fault Refusal :=
  if s.mode ≠ 3 ∨ s.mf.sleeping.contains c.val ∨ s.chopCount c (fun _ => true) ≠ 0
      ∨ s.now < s.mf.lastOp.look 0 c.val + 200 then .next s
  else .next ((s.modMf fun m => { m with sleeping := m.sleeping ++ [c.val] }).emit (.lightSleep c))

/-! ### Re-key (06 R207, R208) -/

/-- A refused write leaves its batch (06 R207). A batch that has formed its writes has them no more: its parity counts the refused
line in its new form, so the batch begins again without that write, with every other data line of the stripe read afresh (log 115). -/
def State.leaveBatch (s : State) (op : Nat) : State :=
  match s.mf.batches.findSome? fun e => e.2.bind fun b => if b.ops.contains op then some (e.1, b) else none with
  | none => s
  | some (bid, b) =>
    if !b.writing then s.cancelBatch bid b
    else
      let ops := b.ops.erase op
      let s1 := (s.cancelBatch bid b).setBatch bid (some ⟨b.group, b.stripe, ops, false, [], [], [], false, [], [], [], []⟩)
      let s2 := ops.foldl (fun s i => match s.op i with
        | some o => s.setOp i (some { o with state := .batch })
        | none => s) s1
      let own := ops.filterMap fun i => (s.op i).map fun o => slotOf o.line
      let lost := s.lostSlots b.group b.stripe
      let reads := (dataSlots b.stripe).filter fun k => !own.contains k && !lost.contains k
      let s3 := s2.batchReads bid reads false
      if reads.isEmpty then s3.batchReady bid else s3

/-- MINOR_COUNTER_EXHAUSTED (06 R207): a refused sealed write is held outside any batch and its page queued for re-key. A write that its
channel has acknowledged was sealed, and is not refused. -/
def execMinorCounterExhausted (op : Nat) (s : State) : Outcome State Fault Refusal :=
  match s.op op with
  | none => .next s
  | some o =>
    let stored := s.mf.batches.any fun e => match e.2 with
      | some b => b.ops.contains op && b.writing && !b.writes.contains (slotOf o.line)
      | none => false
    if o.kind ≠ .writeLine ∨ o.ended ∨ o.state = .wire ∨ o.state = .refused ∨ stored then .next s
    else .next ((s.leaveBatch op).holdRefused [op]).settleMedia

/-- The steps of the re-key sequencer in flight, those that wait for a tracker among them. -/
def State.rekeySteps (s : State) : Nat :=
  (allSlices.map fun p => (s.sl p).trackers.countP (fun t => t.req.cls == .rekey && t.phase != .done)
    + (s.sl p).waitq.countP fun w => w.req.cls == .rekey).sum

/-- A step that has its tracker and has not begun: it had to wait for it. -/
def State.rekeyHeld (s : State) : Option (PhysSlice × Tracker) :=
  allSlices.findSome? fun p => ((s.sl p).trackers.find? fun t => t.req.cls == .rekey && t.phase == .data).map fun t => (p, t)

/-- The sequencer takes the next page of its queue and tells the cipher unit to begin major + 1 (06 R208). -/
def State.takePage (s : State) : State :=
  match s.mf.rekey.page, s.mf.rekey.queue with
  | none, pg :: l =>
    ((s.modMf fun m => { m with rekey := ⟨l, some pg, 0, 0, []⟩ }).emit (.cipherRekey pg)).queuePages
  | _, _ => s

/-- A step begins under its service tracker: by the write the media front holds, or by a read under the old major and a write under the
new (06 R208). -/
def State.rekeyBegin (s : State) (p : PhysSlice) (id line : Nat) : State :=
  let held := s.mf.ops.filterMap fun e => e.2.bind fun o =>
    if o.line = line ∧ o.kind = .writeLine ∧ (o.state = .refused ∨ o.state = .held ∨ o.state = .waiting) then some (e.1, o)
    else none
  if held.isEmpty then
    (s.modTrk p id fun t => { t with phase := .ack, writeOps := [s.nextId] }).issue .readSealed line .rekey 5 0#512 0#32
  else
    let s3 := held.foldl (fun s e => s.setOp e.1 (some { e.2 with state := .waiting })) s
    (s3.modTrk p id fun t => { t with phase := .ack, writeOps := held.map (·.1) }).settleMedia

/-- REKEY_STEP (06 R208): a step that has got its tracker begins; else the next line of the page asks for one, at most eight steps at
once. The sequencer pauses in REPAIR (09 R304). -/
def execRekeyStep (s : State) : Outcome State Fault Refusal :=
  if s.mode = 5 then .next s
  else
    let s := s.takePage
    match s.rekeyHeld, s.mf.rekey.page with
    | some (p, t), _ => .next (s.rekeyBegin p t.id t.req.line)
    | none, none => .next s
    | none, some pg =>
      if 64 ≤ s.mf.rekey.next ∨ 8 ≤ s.rekeySteps then .next s
      else
        let line := pg * 64 + s.mf.rekey.next
        let s1 := (s.bump.agentArrive (s.homeOf line) (agentReq s.nextId .rekey line s.now)).modMf fun m =>
          { m with rekey := { m.rekey with next := m.rekey.next + 1 } }
        .next (match s1.rekeyHeld with | some (p, t) => s1.rekeyBegin p t.id t.req.line | none => s1)

/-! ### Integrity (06 R209, R210) -/

/-- MAC_FAILURE (06 R209): the line a channel returned for a sealed read fails its MAC; it is reconstructed once. -/
def execMacFailure (op : Nat) (s : State) : Outcome State Fault Refusal :=
  let prim := s.mf.chops.findSome? fun e => e.2.bind fun o =>
    if o.issued ∧ !o.migrating ∧ o.use = .primary op then some (e.1, o) else none
  match s.op op, prim with
  | some m, some (cid, _) =>
    if m.state ≠ .reading ∨ m.kind ≠ .readSealed then .next s
    else
      let g := groupOf m.line
      let s1 := ((s.setChop cid none).major 0x49 (BitVec.ofNat 40 (sectorOf m.line))).count (72 + g) 4
      match m.recon with
      | some r => match s1.mf.recons.look none r with
        | some x => .next (s1.setRecon r (some { x with why := .mac, primaryBad := true }))
        | none => .next s1
      | none =>
        if m.hedged then .next ((s1.integrity m.line false).finish op .uncorrectable 0#512 0#32).settleMedia
        else .next (s1.startRecon op .mac g (stripeOf m.line) (slotOf m.line) 1).settleMedia
  | _, _ => .next s

/-- COUNTER_UNREADABLE (06 R210): the range beneath an unreadable counter or tree node is entered as integrity-unknown, by
whole regions where the table is full; the cipher's event is one of source 0x49. -/
def execCounterUnreadable (base limit : Word) (s : State) : Outcome State Fault Refusal :=
  let lo := lineOf base
  let hi := lineOf limit
  let s0 := s.major 0x49 (BitVec.ofNat 40 (sectorOf lo))
  if s.mf.unknown.length < 64 then
    .next ((s0.modMf fun m => { m with unknown := m.unknown ++ [(lo, hi)] }).notice 3 0x22 3 0x49 0 (dpaOf lo)
      [BitVec.ofNat 128 (dpaOf hi + 63)])
  else
    let rs := (List.range (regionOf hi - regionOf lo + 1)).map (regionOf lo + ·)
    .next ((s0.modMf fun m =>
      let regions := m.unknownRegions ++ rs.filter fun r => !m.unknownRegions.contains r
      { m with unknownRegions := regions,
               unknown := m.unknown.filter fun e => !(regionOf e.1 == regionOf e.2 && regions.contains (regionOf e.1)) }).notice
      3 0x22 3 0x49 1 (regionOf lo * 2 ^ 34) [BitVec.ofNat 128 ((regionOf hi + 1) * 2 ^ 34 - 1)])

/-! ### Channel retirement, rebuild and resync -/

/-- CHANNEL_RETIRE (06 R202, Table 6.10): a write of RETIRE husks a channel that is active or a rebuild target. -/
def execChannelRetire (c : Channel) (s : State) : Outcome State Fault Refusal :=
  if s.mode = 0 then .next s else .next (s.huskChannel c).settleMedia

/-- MF_CH_STATE follows the group maps as firmware loads them in SPROUT: a channel in a slot is active, any other spare, and one that is
lost stays so. -/
def State.refreshChannels (s : State) : State :=
  (List.range 38).foldl (fun s c =>
    let at_ := (List.range 36).find? fun k => s.rd (slotFld (k / 9) (k % 9)) == c
    let set (s : State) (n : Nat) : State := if s.rd (MF_CH_STATE.STATE c) = 3 then s else s.wr (MF_CH_STATE.STATE c) n
    match at_ with
    | some k => ((set s 1).wr (MF_CH_STATE.GROUP c) (k / 9)).wr (MF_CH_STATE.SLOT c) (k % 9)
    | none => ((set s 0).wr (MF_CH_STATE.GROUP c) 0).wr (MF_CH_STATE.SLOT c) 15) s

/-- A write of MF_GROUP_MAP (06 R214, R204): in SPROUT a map of channels 0 to 37; outside it a spare into the lost slot of a
degraded group, which starts its rebuild; any other is ignored and sets MAP_ERR. -/
def State.writeGroupMap (s : State) (g : Nat) (v : Word) : State :=
  let slots := (List.range 9).map fun k => getBits v (6 * k) 6
  let old := (List.range 9).map fun k => s.rd (slotFld g k)
  let store (s : State) : State := (List.range 9).foldl (fun s k => s.wr (slotFld g k) (getBits v (6 * k) 6)) s
  let bad := s.wr MF_CTRL.MAP_ERR 1
  if s.mode = 1 then
    if slots.all fun c => decide (c ≤ 37) then (store s).refreshChannels else bad
  else
    let l := s.rd (MF_GROUP_MAP.LOST_SLOT g)
    let changed := (List.range 9).filter fun k => slots[k]? != old[k]?
    let c := getBits v (6 * l) 6
    if changed = [l] ∧ s.rd (MF_GROUP_MAP.GSTATE g) = 1 ∧ c ≤ 37 ∧ s.rd (MF_CH_STATE.STATE c) = 0 then
      let s1 := (((store s).wr (MF_CH_STATE.STATE c) 2).wr (MF_CH_STATE.GROUP c) g).wr (MF_CH_STATE.SLOT c) l
      let s2 := ((((s1.wr (MF_GROUP_MAP.GSTATE g) 2).wr MF_REBUILD_STATUS.ACTIVE 1).wr MF_REBUILD_STATUS.GROUP g).wr
        MF_REBUILD_STATUS.SLOT l).wr MF_REBUILD_STATUS.TARGET c
      (s2.wr MF_REBUILD_STATUS.LINE 0).modMf fun m =>
        { m with window := [], bands := m.bands.filter fun e => e.1 / 4 != c }
    else bad

/-- MF_GROUP_MAP_WRITE (06 R214). -/
def execMfGroupMapWrite (g : Group) (v : Word) (s : State) : Outcome State Fault Refusal :=
  if s.mode = 0 then .next s else .next (s.writeGroupMap g.val v)

/-- REBUILD_RESUME (06 R218): in SPROUT the fields are written, and with ACTIVE a rebuild resumes on entry to SERVE; DONE is
cleared by a 1 in any mode. -/
def execRebuildResume (v : Word) (s : State) : Outcome State Fault Refusal :=
  let s0 := if getBits v 52 1 = 1 then s.wr MF_REBUILD_STATUS.DONE 0 else s
  if s.mode = 0 then .next s
  else if s.mode ≠ 1 then .next s0
  else
    let s1 := ((((s0.wr MF_REBUILD_STATUS.ACTIVE (getBits v 0 1)).wr MF_REBUILD_STATUS.GROUP (getBits v 1 2)).wr
      MF_REBUILD_STATUS.SLOT (getBits v 3 4)).wr MF_REBUILD_STATUS.TARGET (getBits v 7 6)).wr
      MF_REBUILD_STATUS.LINE (getBits v 14 38)
    .next (s1.modMf fun m => { m with resumeArmed := getBits v 0 1 == 1 })

/-- The channel line index that an aperture access names, where it is one whole line by the data engine while a rebuild
runs (06 R205). -/
def State.apertureIndex (s : State) (addr : Word) (len : Nat) (c : DmaChannel) : Option Nat :=
  let x := addr.toNat - 0x8000_1000_0000_0000
  if 0x8000_1000_0000_0000 ≤ addr.toNat ∧ addr.toNat ≤ 0x8000_17FF_FFFF_FFFF ∧ x % 64 = 0 ∧ len = 64 ∧ c.val < 8
      ∧ s.on MF_REBUILD_STATUS.ACTIVE then some (x / 64)
  else none

/-- An aperture read: a whole line is rebuilt from the other eight slots; none where it is a bus error. -/
def State.apertureRead (s : State) (addr : Word) (len : Nat) (c : DmaChannel) : Option State :=
  (s.apertureIndex addr len c).map fun i =>
    (s.startRecon s.nextId (.aperture c) (s.rd MF_REBUILD_STATUS.GROUP) i (s.rd MF_REBUILD_STATUS.SLOT) 5).settleMedia

/-- APERTURE_READ (06 R205, 14 R443): any access but a whole line's is a bus error. In REPAIR the rebuild pauses and sends none (09
R304; log 117). -/
def execApertureRead (addr : Word) (len : Nat) (c : DmaChannel) (s : State) : Outcome State Fault Refusal :=
  if s.mode = 5 then .next s
  else .next ((s.apertureRead addr len c).getD (s.emit .apertureError))

/-- Whether a rebuild write is on its way to the spare. -/
def State.apertureBusy (s : State) : Bool :=
  s.mf.chops.any (fun e => match e.2 with | some o => o.use == .aperture | none => false)
    || s.mf.recons.any fun e => match e.2 with | some x => x.why == .apertureWrite || x.why == .apertureWait | none => false

/-- An aperture write at index LINE: the stored form goes to the spare, or, where the stripe was written since the aperture
read or has left the window, the line rebuilt again in its turn among the stripe's batches; none where it is a bus error. -/
def State.apertureWrite (s : State) (addr : Word) (len : Nat) (c : DmaChannel) (form : Stored) : Option State :=
  match s.apertureIndex addr len c with
  | none => none
  | some i =>
    let g := s.rd MF_REBUILD_STATUS.GROUP
    let slot := s.rd MF_REBUILD_STATUS.SLOT
    if i ≠ s.rd MF_REBUILD_STATUS.LINE ∨ s.apertureBusy then none
    else
      -- a window entry that cannot be read is treated as evicted (10 Table 10.3)
      let held := s.mf.window.contains (i, false)
      let (s, bad) := if held then s.readMfBuffer 11 i else (s, false)
      if held ∧ !bad ∧ (s.openBatch g i).isNone then
        some (s.addChop (s.chanOf g slot) i true false form .aperture 5).settleMedia
      else some ((s.setRecon s.nextId (some ⟨s.nextId, .apertureWait, g, i, slot, [], [], [], false, false⟩)).bump).settleMedia

/-- APERTURE_WRITE (06 R205; in REPAIR as APERTURE_READ). -/
def execApertureWrite (addr : Word) (len : Nat) (c : DmaChannel) (data : LineData) (md : LineMeta) (s : State) :
    Outcome State Fault Refusal :=
  if s.mode = 5 then .next s
  else .next ((s.apertureWrite addr len c ⟨data, md⟩).getD (s.emit .apertureError))

/-- RESYNC_START (06 R213): a write of RESYNC in SPROUT arms the resync for entry to SERVE. -/
def execResyncStart (s : State) : Outcome State Fault Refusal :=
  if s.mode ≠ 1 then .next s
  else .next ((s.wr MF_CTRL.RESYNC 1).modMf fun m => { m with resyncArmed := true })

/-- Raw operations of a stripe visit that the model takes whole: each slot's is counted and issued. -/
def State.visitOps (s : State) (g stripe : Nat) (slots : List Nat) (write : Bool) : State :=
  slots.foldl (fun s k =>
    let c := s.chanOf g k
    let s1 := if write then (s.count (34 + c.val) 2).count (34 + c.val) 3 else s.count (34 + c.val) 3
    (s1.emit (if write then .chanWrite s1.nextId c stripe false else .chanRead s1.nextId c stripe false)).bump) s

/-- The stored forms of a stripe by slot, unwritten lines counting as zeros (06 R184). -/
def State.stripeForms (s : State) (g stripe : Nat) : List Stored :=
  (List.range 9).map fun k => (s.mediaAt (s.chanOf g k) stripe).getD Stored.zero

/-- RESYNC_STRIPE_CHECK (06 R206): one stripe is read, and its parity rewritten where it does not match. Groups are resynced
one after another, each in stripe order. Of a stripe that has lost a slot the others are read, and there is nothing to match. -/
def execResyncStripeCheck (s : State) : Outcome State Fault Refusal :=
  match s.mf.resyncAt with
  | none => .next s
  | some k =>
    let n := max 1 s.channelLines
    let g := k / n
    let st := k % n
    if s.mode ≠ 2 ∨ (s.openBatch g st).isSome then .next s
    else
      let lost := s.lostSlots g st
      let s0 := s.visitOps g st ((List.range 9).filter fun k => !lost.contains k) false
      let s1 := if !lost.isEmpty then s0
        else
          let s1 := s0
          let forms := s.stripeForms g st
          let p := paritySlot st
          let sum := xorAll forms
          if sum = Stored.zero then s1
          else
            let old := (s.mediaAt (s.chanOf g p) st).getD Stored.zero
            ((s1.visitOps g st [p] true).setMedia (s.chanOf g p) st (some (old.xor sum))).modMf fun m =>
              { m with resyncFixed := m.resyncFixed + 1 }
      let s2 := if st + 1 = n then s1.wr (MF_GROUP_MAP.RESYNCED g) 1 else s1
      if k + 1 = 4 * n then
        .next (((s2.wr MF_CTRL.RESYNC_BUSY 0).modMf fun m => { m with resyncAt := none }).notice 3 0x25 1 0x48 0 s2.mf.resyncFixed)
      else .next (s2.modMf fun m => { m with resyncAt := some (k + 1) })

/-- MF_HEDGE_TABLE_LATCH (06 R217): CH and BND are written; with LATCH the trained flag, the deadline in force and the hedges
of the last whole second are loaded in the same write. -/
def execMfHedgeTableLatch (v : Word) (s : State) : Outcome State Fault Refusal :=
  let c := getBits v 0 6
  let b := getBits v 6 2
  let s1 := (s.wr MF_HEDGE_TABLE.CH c).wr MF_HEDGE_TABLE.BND b
  if s.mode = 0 then .next s
  else if getBits v 8 1 = 0 then .next s1
  else
    let t := s.mf.bands.look BandTable.untrained (c * 4 + b)
    .next (((s1.wb MF_HEDGE_TABLE.TRAINED t.trained).wr MF_HEDGE_TABLE.DEADLINE_NS (s.deadline c b)).wr
      MF_HEDGE_TABLE.HEDGES t.hedgesLast)

end Sys2Proof.Machine
end

