-- ==== Sys2Proof/Machine/Sweeper.lean ====
section
/-! DEFINITION. The background agents of the directory: the sweeper (04 R132 to R136, R511), the forget-host walk (04 R137,
R138), the urgent directed pass (04 R140). What they do to a line under its tracker is in Machine/Home.lean. -/

namespace Sys2Proof.Machine

open Host (Outcome)

/-! ### Lines of a chunk -/

/-- The next line at or after `line`, below `stop`, whose home is a slice. A slice with a logical number has a sector in
every 16 (01 R26), so 31 sectors suffice. -/
def State.nextHomed (s : State) (p : PhysSlice) (line stop : Nat) : Option Nat :=
  ((List.range 128).map (line + ·)).find? fun l => s.homeOf l == p && decide (l < stop)

/-- The installed chunks (04 R134). -/
def State.chunks (s : State) : Nat := s.rd GLB_CAPS.DPA_REGIONS * 256

/-- The commitment of an entry to the repair record by firmware: a program of the store (12 R380, 17 R495). -/
def State.commit (s : State) (e : RepairEntry) : State :=
  if s.store.stopped then s
  else { s with store := { s.store with programs := s.store.programs ++ [StoreWrite.repair e] } }.emit .storeProgram

/-- The sweep progress as firmware commits it (04 R135). -/
def State.passEntry (s : State) : RepairEntry :=
  .pass (BitVec.ofNat 12 (s.rd GLB_PASS_EPOCH.PASS_EPOCH)) (BitVec.ofNat 12 (s.rd GLB_PASS_EPOCH.START_EPOCH))
    (s.rd GLB_PASS_EPOCH.NEXT_CHUNK)

/-! ### Sweeper actions (04 Table 4.7) -/

/-- A line's request is made when the background agents may hold one more. -/
def State.sweepRetry (s : State) (p : PhysSlice) (line : Nat) : State :=
  s.modSl p fun x => { x with sweep := x.sweep.map fun v => { v with retry := v.retry ++ [line] } }

/-- What the sweeper does with the entry of a line that it visits: a row that rewrites, snoops or resolves asks for a tracker, under which
the entry is derived again (04 R132). -/
def State.sweepAct (s : State) (p : PhysSlice) (line : Nat) (e : Option DirEntry) : State :=
  match s.sweepRow p line e with
  | .nothing => s
  | .unclean => s.sweepDirty p
  | .lost => (s.lineLost (0x10 + p.val) 1 line).sweepDirty p
  | .clear _ | .snoop _ | .resolve _ =>
    if s.agentRoom p .sweep then s.bump.agentArrive p (agentReq s.nextId .sweep line s.now) else s.sweepRetry p line

/-- The sweeper reads a line's directory entry: on chip where R82 has it, else from media. -/
def State.sweepLine (s : State) (p : PhysSlice) (line : Nat) : State :=
  match s.onChipDir p line with
  | some e => s.sweepAct p line (some e)
  | none => (s.count (16 + p.val) 16).issue .readMeta line (.sweeper p line) 5 0#512 0#32

/-- Whether a slice's part of a chunk visit has ended (04 R511). -/
def State.sweepEnded (s : State) (p : PhysSlice) : Bool :=
  match (s.sl p).sweep with
  | none => true
  | some v => (s.nextHomed p (v.chunk * 2 ^ 20 + v.pos) ((v.chunk + 1) * 2 ^ 20)).isNone && v.retry.isEmpty
      && s.opsOf (fun o => match o with | .sweeper q _ => q == p | _ => false) == 0
      && (s.sl p).agentOut .sweep == 0

/-- A visit of NEXT_CHUNK begins in every active slice; that of chunk 0 begins a pass (04 R132, R511, R139). -/
def State.beginVisit (s : State) : State :=
  let c := s.rd GLB_PASS_EPOCH.NEXT_CHUNK
  let s0 := if c = 0 then
      allHosts.foldl (fun s h => s.modPort h fun x => { x with passInc := s.inc12 h })
        (s.wr GLB_PASS_EPOCH.START_EPOCH (s.rd GLB_EPOCH.EPOCH))
    else s
  let s1 := s0.activeSlices.foldl (fun s p => s.modSl p fun x => { x with sweep := some ⟨c, 0, true, []⟩ }) s0
  { s1.modSl (s.holderOf c) (fun x => { x with setInVisit := false }) with
    sweepActive := true, sweepDue := false, sweepUs := some 0 }

/-- The us of SERVE that a whole pass is to take: PASS_HOURS, of which 0 acts as 24 (04 R134, Table 4.8). -/
def State.passUs (s : State) : Nat :=
  let h := s.rd GLB_PASS_EPOCH.PASS_HOURS
  (if h = 0 then 24 else h) * 3600000000

/-- Whether the share of the chunk last begun is over: the chunks share the pass's time evenly, and time that a late visit has lost is
not recovered (04 R134, R511). -/
def State.shareOver (s : State) : Bool :=
  match s.sweepUs with
  | none => true
  | some n => decide (s.passUs ≤ n * s.chunks)

/-- SWEEPER_CHUNK_VISIT (04 R511, R134): the next chunk's share starts, where that of the one before is over; the visit begins at once, or
when the previous one ends. It starts no visit outside SERVE or while PAUSE is 1. -/
def execSweeperChunkVisit (s : State) : Outcome State Fault Refusal :=
  if s.mode ≠ 2 ∨ s.on GLB_PASS_EPOCH.PAUSE ∨ !s.shareOver then .next s
  else if s.sweepActive then .next { s with sweepDue := true }
  else .next s.beginVisit

/-- SWEEPER_LINE (04 R132, R511): a slice takes its next line of the chunk, at most 32 reads outstanding; a line whose
request had to be put off is read again. -/
def execSweeperLine (p : PhysSlice) (s : State) : Outcome State Fault Refusal :=
  match (s.sl p).sweep with
  | none => .next s
  | some v =>
    if s.mode ≠ 2 ∨ s.on GLB_PASS_EPOCH.PAUSE ∨ 32 ≤ s.opsOf (fun o => match o with | .sweeper q _ => q == p | _ => false) then .next s
    else match s.nextHomed p (v.chunk * 2 ^ 20 + v.pos) ((v.chunk + 1) * 2 ^ 20), v.retry with
      | some l, _ =>
        let s1 := s.modSl p fun x => { x with sweep := some { v with pos := l + 1 - v.chunk * 2 ^ 20 } }
        .next (s1.sweepLine p l)
      | none, l :: r => .next ((s.modSl p fun x => { x with sweep := some { v with retry := r } }).sweepLine p l)
      | none, [] => .next s

/-- The end of a pass (04 R135): the pass-complete epoch, DISTRUST, the base incarnations, the next pass's start, the notice,
and firmware's commit. -/
def State.passComplete (s : State) : State :=
  let pe := s.rd GLB_PASS_EPOCH.START_EPOCH
  let s1 := ((s.wr GLB_PASS_EPOCH.PASS_EPOCH pe).wr GLB_EPOCH.DISTRUST 0)
  let s2 := if pe = s.rd GLB_EPOCH.EPOCH then
      allHosts.foldl (fun s h => s.modPort h fun x => { x with baseInc := x.passInc }) s1
    else s1
  let s3 := (s2.wr GLB_PASS_EPOCH.NEXT_CHUNK 0).wr GLB_PASS_EPOCH.START_EPOCH (s.rd GLB_EPOCH.EPOCH)
  ((s3.notice 3 0x20 1 0x65 pe s.now).commit s3.passEntry).commit (.epoch s.epoch false)

/-- SWEEPER_CHUNK_VISIT_END (04 R133, R135): every active slice has ended its part; the holder clears the chunk's spill map
bit if every slice reports it clean and no set message came. -/
def execSweeperChunkVisitEnd (s : State) : Outcome State Fault Refusal :=
  if !s.sweepActive ∨ !(s.activeSlices.all fun p => s.sweepEnded p) then .next s
  else
    let c := s.rd GLB_PASS_EPOCH.NEXT_CHUNK
    let h := s.holderOf c
    let clean := s.activeSlices.all fun p => match (s.sl p).sweep with | some v => v.clean | none => true
    let s1 := if clean && !(s.sl h).setInVisit then s.setSpillBit h c false else s
    let s2 := { allSlices.foldl (fun s p => s.modSl p fun x => { x with sweep := none }) s1 with sweepActive := false }
    let s3 := if s.chunks ≤ c + 1 then s2.passComplete else s2.wr GLB_PASS_EPOCH.NEXT_CHUNK (c + 1)
    .next (if s3.sweepDue then s3.beginVisit else s3)

/-- PROGRESS_COMMIT (04 R135, 11 R369): firmware commits the sweeper's progress, and a rebuild's, to the repair record. -/
def execProgressCommit (s : State) : Outcome State Fault Refusal :=
  if s.mode ≠ 2 then .next s
  else
    let s1 := s.commit s.passEntry
    .next (if s.on MF_REBUILD_STATUS.ACTIVE then
        s1.commit (.rebuild (s.rd MF_REBUILD_STATUS.GROUP) (s.rd MF_REBUILD_STATUS.SLOT) (s.rd MF_REBUILD_STATUS.TARGET)
          (s.rd MF_REBUILD_STATUS.LINE))
      else s1)

/-! ### Forget-host walk (04 R137, R138) -/

/-- HP_STATUS.SWEEP clears when every active slice has covered a host and no urgent pass for it runs (04 R138). -/
def State.sweepDone (s : State) (h : HostId) : State :=
  let walking := s.activeSlices.any fun p => match (s.sl p).walk with
    | some w => w.hosts.any fun e => e.1 == h
    | none => false
  if walking || (s.port h).urgent.isSome || !s.on (HP_STATUS.SWEEP h.val) then s
  else (s.wr (HP_STATUS.SWEEP h.val) 0).notice 2 0x15 1 h.val (s.inc12 h).toNat s.now

/-- The slice whose operation a source is, where it is one of a slice. -/
def OpSource.slice : OpSource → Option PhysSlice
  | .tracker p _ | .trackerDir p _ | .writeThrough p _ | .poisonRecord p _ | .wbRead p _ | .victim p _ _ | .evict p | .clean p _ _
  | .rangeWrite p | .directory p | .walk p | .sweeper p _ | .urgent p _ | .fill p _ => some p
  | .writeback (.tracker p _) _ _ _ | .writeback (.victim p _) _ _ _ => some p
  | .rekey | .reseal => none

/-- Whether a slice's directory write queue is full: 64 of its metadata writes are not acknowledged (04 R137). -/
def State.dirQueueFull (s : State) (p : PhysSlice) : Bool :=
  decide (64 ≤ s.mf.ops.countP fun e => match e.2 with | some o => o.kind == .writeMeta && o.src.slice == some p | none => false)

/-- The lines that an entry records as a departed owner's are resolved and set to I, up to a full directory write queue; the result says
whether the walk has to wait at its set for a place (04 R137, Table 4.9). -/
def State.walkOwned (s : State) (p : PhysSlice) (set phys : Nat) (h : HostId) : State × Bool :=
  (List.range 4).foldl (fun (acc : State × Bool) k =>
    let f := (acc.1.sfWay p set phys).entry
    let line := (f.tag * 32768 + set) * 4 + k
    if acc.2 || !(f.valid && f.owner == h && f.lst k == 2) then acc
    else if acc.1.dirQueueFull p then (acc.1, true)
    else
      let s1 := (acc.1.resolveLost p (acc.1.region p line) line h (acc.1.inc12 h - 1) 1 (.walk p)).1
      (s1.setSf p set phys (f.setLst k 0), false)) (s, false)

/-- Table 4.9 for one entry and one host; the result says whether the walk has to wait at its set. -/
def State.walkEntry (s : State) (p : PhysSlice) (set phys : Nat) (h : HostId) : State × Bool :=
  let (s1, full) := s.walkOwned p set phys h
  if full then (s1, true)
  else
    let f1 := (s1.sfWay p set phys).entry
    let f2 := { f1 with presence := hsDel f1.presence h }
    let f3 := if f2.presence = 0#16 then
        (List.range 4).foldl (fun (f : FilterEntry) k => if f.lst k = 1 then f.setLst k 0 else f) f2
      else f2
    (s1.setSf p set phys f3.settle, false)

/-- A set is processed for a host; the result says whether the walk has to wait at the set, and whether an entry has to be revisited. -/
def State.walkSet (s : State) (p : PhysSlice) (set : Nat) (h : HostId) : State × Bool × Bool :=
  ((waysInService (s.sfSpare p set)).map (·.2)).foldl (fun (acc : State × Bool × Bool) phys =>
    let f := (acc.1.sfWay p set phys).entry
    if !f.valid || acc.2.1 then acc
    else
      let sector := f.tag * 32768 + set
      if (acc.1.sl p).sectorHeld sector || (acc.1.sl p).sectorVictim sector then (acc.1, false, true)
      else
        let (s1, full) := acc.1.walkEntry p set phys h
        (s1, full, acc.2.2)) (s, false, false)

/-- A set is processed for each of some hosts: whether the walk has to wait at it, and the hosts it has to be revisited for. -/
def State.walkHosts (s : State) (p : PhysSlice) (set : Nat) (hs : List HostId) : State × Bool × List HostId :=
  hs.foldl (fun (acc : State × Bool × List HostId) h =>
    if acc.2.1 then acc
    else
      let (s1, full, again) := acc.1.walkSet p set h
      (s1, full, if again then acc.2.2 ++ [h] else acc.2.2)) (s, false, [])

/-- The hosts that a walk has covered in its slice leave it: FORGET no longer names them, and with the last slice SWEEP clears
(04 R120, R138). -/
def State.walkCovered (s : State) (p : PhysSlice) : State :=
  match (s.sl p).walk with
  | none => s
  | some w =>
    let covered (e : HostId × Nat) : Bool := e.2 == 0 && !w.revisit.any fun r => r.2 == e.1
    let hs := (w.hosts.filter covered).map (·.1)
    let left := w.hosts.filter fun e => !covered e
    let s1 := s.modSl p fun x => { x with walk := if left.isEmpty then none else some { w with hosts := left } }
    hs.foldl (fun s h => (s.wr (SL_SF_CTRL.FORGET p.val) (s.rd (SL_SF_CTRL.FORGET p.val) &&& (0xFFFF - 2 ^ h.val))).sweepDone h) s1

/-- One step of a slice's walk `w`: its next set for the hosts it still has to cover, or, with every set covered, one of those to be
revisited. -/
def State.walkStep (s : State) (p : PhysSlice) (w : Walk) : State × Walk :=
  let live := (w.hosts.filter fun e => e.2 != 0).map (·.1)
  if live.isEmpty then
    match w.revisit with
    | [] => (s, w)
    | n :: r =>
      let (s1, full, again) := s.walkHosts p n.1 [n.2]
      (s1, { w with revisit := if full then w.revisit else if again.isEmpty then r else r ++ [n] })
  else
    let (s1, full, again) := s.walkHosts p w.pos live
    if full then (s1, w)
    else
      let new := (again.map fun h => (w.pos, h)).filter fun e => !w.revisit.contains e
      (s1, { pos := (w.pos + 1) % 32768, hosts := w.hosts.map fun e => (e.1, e.2 - 1), revisit := w.revisit ++ new })

/-- FORGET_HOST_WALK_STEP (04 R137, R138): the walk of a slice processes its next set; it waits at a set while the slice's directory
write queue has no place. From step 3 of DRAIN no walk runs. -/
def execForgetHostWalkStep (p : PhysSlice) (s : State) : Outcome State Fault Refusal :=
  match (s.sl p).walk with
  | none => .next s
  | some w =>
    if s.mode == 4 && s.aon.drain != some .flush then .next s
    else
      let (s1, w1) := s.walkStep p w
      .next ((s1.modSl p fun x => { x with walk := some w1 }).walkCovered p)

/-! ### Urgent directed pass (04 R140) -/

/-- The line at a place of the urgent pass: the chunks that were set when it began, in rising order. -/
def State.urgentLine (s : State) (pos : Nat) : Option Nat := (s.urgentSet[pos / 2 ^ 20]?).map fun c => c * 2 ^ 20 + pos % 2 ^ 20

/-- What the urgent pass does with the entry of a line that it visits: one that names a listed host asks for a tracker, under which the
entry is derived again (04 R140). -/
def State.urgentAct (s : State) (p : PhysSlice) (line : Nat) (e : Option DirEntry) : State :=
  match e with
  | none => s
  | some e =>
    if !s.urgentNames e then s
    else if s.agentRoom p .urgent then s.bump.agentArrive p (agentReq s.nextId .urgent line s.now)
    else s.modSl p fun x => { x with urgentRetry := x.urgentRetry ++ [line] }

/-- Whether a slice has visited all its lines of the urgent pass. -/
def State.urgentEnded (s : State) (p : PhysSlice) : Bool :=
  decide (s.urgentSet.length * 2 ^ 20 ≤ (s.sl p).urgentPos) && (s.sl p).urgentRetry.isEmpty
    && s.opsOf (fun o => match o with | .urgent q _ => q == p | _ => false) == 0 && (s.sl p).agentOut .urgent == 0

/-- The urgent pass ends when every active slice has: base incarnations, URGENT, the notices (04 R138 to R140). -/
def State.urgentEnd (s : State) : State :=
  if !s.on GLB_PASS_EPOCH.URGENT ∨ !(s.activeSlices.all fun p => s.urgentEnded p) then s
  else
    let hs := allHosts.filter fun h => (s.port h).urgent.isSome
    let s1 := { s.wr GLB_PASS_EPOCH.URGENT 0 with urgentSet := [] }
    hs.foldl (fun s h =>
      let s1 := s.modPort h fun x => { x with baseInc := x.urgent.getD x.baseInc, urgent := none }
      (s1.notice 3 0x20 1 0x65 (s.rd GLB_PASS_EPOCH.PASS_EPOCH + 2 ^ 12 + h.val * 2 ^ 13) s.now).sweepDone h) s1

/-- The first position of the chunk after the one a position lies in (a chunk is 2^20 lines). -/
def chunkEnd (l : Nat) : Nat := l - l % 2 ^ 20 + 2 ^ 20

/-- A visit of a line: what the chip knows of its directory entry decides, else the entry is read (04 R140). -/
def State.urgentVisit (s : State) (p : PhysSlice) (l : Nat) : State :=
  match s.onChipDir p l with
  | some e => s.urgentAct p l (some e)
  | none => (s.count (16 + p.val) 16).issue .readMeta l (.urgent p l) 5 0#512 0#32

/-- The pass of a slice goes on at position `pos`, line `l`: to the next line homed there, or to the next chunk. -/
def State.urgentNext (s : State) (p : PhysSlice) (pos l : Nat) : State :=
  match s.nextHomed p l (chunkEnd l) with
  | some m => (s.modSl p fun x => { x with urgentPos := pos + (m - l) + 1 }).urgentVisit p m
  | none => (s.modSl p fun x => { x with urgentPos := chunkEnd pos }).urgentEnd

/-- URGENT_PASS_LINE_VISIT (04 R140): a slice reads the metadata of its next line of the pass and resolves an entry that
names a listed host. The pass runs in SERVE. -/
def execUrgentPassLineVisit (p : PhysSlice) (s : State) : Outcome State Fault Refusal :=
  if s.mode ≠ 2 ∨ !s.on GLB_PASS_EPOCH.URGENT then .next s
  else
    let pos := (s.sl p).urgentPos
    match s.urgentLine pos, (s.sl p).urgentRetry with
    | some l, _ => .next (s.urgentNext p pos l)
    | none, l :: r => .next (((s.modSl p fun x => { x with urgentRetry := r }).urgentVisit p l).urgentEnd)
    | none, [] => .next s.urgentEnd

end Sys2Proof.Machine
end

