-- ==== Sys2Proof/Machine/HomeCache.lean ====
section
/-! DEFINITION. The home cache commands: media answers delivered to a slice (03 R104 to R108, 05 R151, R163, R166), the cleaner
and the dirty budget (05 R158 to R169), the range maintenance engine (05 R170 to R178). -/

namespace Sys2Proof.Machine

open Host (Outcome)

/-! ### What a media answer ends -/

/-- The acknowledgement of a full-line write of a line in a way: the line becomes Clean if CLEANING is still 1, and has then been
written to media as it was (05 R163, R167). -/
def State.cleanAck (s : State) (p : PhysSlice) (line : Nat) : State :=
  let s1 := s.count (16 + p.val) 22
  match s1.hcFind p line with
  | some w =>
    let t := (s1.way p (hcSet line) w).tagA
    if t.cleaning then
      ((s1.setTag p (hcSet line) w { t with dirty := false, cleaning := false }).modSl p fun x =>
        { x with dirtyWhenWt := x.dirtyWhenWt.erase line }).cleanerCheck p
    else s1
  | none => s1

/-- A range write-back is acknowledged; the line drops if CLEANING is still 1 and no tracker holds it (07 R247). -/
def State.rangeAck (s : State) (p : PhysSlice) (op line : Nat) : State :=
  match (s.sl p).range with
  | none => s.cleanAck p line
  | some r =>
    match r.waits.find? fun e => e.1 == op with
    | none => s.cleanAck p line
    | some e =>
      let drop := e.2 && !(s.sl p).held line && (match s.hcFind p line with
        | some w => (s.way p (hcSet line) w).tagA.cleaning
        | none => false)
      let s1 := s.cleanAck p line
      let s2 := match drop, s1.hcFind p line with
        | true, some w => (s1.setTag p (hcSet line) w TagWord.empty).rangeCount (HC_RANGE_SUMMARY.LO 1)
        | _, _ => s1
      (s2.modSl p fun x => { x with range := some { r with waits := r.waits.erase e } }).rangeCheck p

/-- A media write of a victim's is acknowledged (04 R116, R117). -/
def State.victimAck (s : State) (p : PhysSlice) (id op : Nat) : State :=
  (s.modVictim p id fun v => { v with writes := v.writes.erase op }).finishVictim p id

/-- The eviction buffer entry of an operation frees (05 R151); an acknowledgement awaited by a range operation is taken. A line with no
later copy in Cesal has then been written to media as it was when WT became 1 (05 R167). -/
def State.evictAck (s : State) (p : PhysSlice) (op line : Nat) : State :=
  let s1 := (s.modSl p fun x => { x with
    evict := x.evict.filter fun e => e.op != op,
    range := x.range.map fun r => { r with waits := r.waits.filter fun e => e.1 != op } }).count (16 + p.val) 23
  let s2 := if s1.dataState p line = .dirty ∨ (s1.ebFind p line).isSome then s1
    else s1.modSl p fun x => { x with dirtyWhenWt := x.dirtyWhenWt.erase line }
  (s2.cleanerCheck p).rangeCheck p

/-- A line taken from media is filled as Clean where a way is replaceable (03 R105, 05 R175, 10 Table 10.4). -/
def State.fillClean (s : State) (p : PhysSlice) (line : Nat) (lock : Bool) (data : LineData) (poison : Bool)
    (dir : Option DirEntry) : State × Bool :=
  if s.dataState p line ≠ .absent then (s, false)
  else match s.canAlloc p line lock with
    | none => (s, false)
    | some n =>
      let s1 := s.hcFill p line n data false poison dir
      let t := (s1.way p (hcSet line) n.1).tagA
      (s1.setTag p (hcSet line) n.1 { t with lock := t.lock || lock }, true)

/-- A media write is acknowledged to its slice. -/
def State.deliverAck (s : State) (op : Nat) (o : MediaOp) : State :=
  match o.src with
  | .writeThrough p id =>
    ((s.cleanAck p o.line).modTrk p id fun t => { t with wtOp := if t.wtOp = some op then none else t.wtOp }).advance p id
  | .poisonRecord p id =>
    let s1 := if o.kind = .writeLine then s.cleanAck p o.line else s
    (s1.modTrk p id fun t => { t with poisonOps := t.poisonOps.erase op }).advance p id
  | .writeback owner h tag inc =>
    let s1 := s.cmpTo (s.homeOf o.line) h tag inc
    match owner with
    | .tracker p id =>
      ((s1.cleanAck p o.line).modTrk p id fun t => { t with writeOps := t.writeOps.erase op }).advance p id
    | .victim p id => (s1.cleanAck p o.line).victimAck p id op
  | .victim p id _ => (if o.kind = .writeLine then s.cleanAck p o.line else s).victimAck p id op
  | .evict p => s.evictAck p op o.line
  | .clean p _ _ | .rangeWrite p => s.rangeAck p op o.line
  | _ => s

/-- MEDIA_WRITE_ACK (05 R151, R163, R166, 06 R189): media acknowledges a write to its slice; a dropped write's
acknowledgement acts as an ok one would. -/
def execMediaWriteAck (op : Nat) (s : State) : Outcome State Fault Refusal :=
  match s.op op with
  | none => .next s
  | some o => match o.state with
    | .acked _ => .next ((s.setOp op none).deliverAck op o)
    | _ => .next s

/-- The directory entry of a spilled line is written with the poison bit that its metadata read returned (04 R116). -/
def State.victimRead (s : State) (p : PhysSlice) (id op line : Nat) (poison : Bool) : State :=
  match s.victim p id with
  | none => s
  | some v =>
    let s1 := s.modVictim p id fun v => { v with reads := v.reads.erase (op, line) }
    match s1.spillDir v.entry (lineInSector line) with
    | none => s1.finishVictim p id
    | some e =>
      let (s2, ops) := s1.writeDir p line (dePut30 e poison) (.victim p id line) (s1.writeClass false)
      (s2.modVictim p id fun v => { v with writes := v.writes ++ ops }).finishVictim p id

/-- A media read's data and directory entry reach the slice; `e` is none where the read was uncorrectable. -/
def State.deliverRead (s : State) (op : Nat) (o : MediaOp) (data : LineData) (e : Option DirEntry) : State :=
  let poison := match e with | some e => dePoison e | none => true
  match o.src with
  | .tracker p id =>
    match s.trk p id with
    | none => s
    | some t =>
      if t.mediaRead ≠ some op then s
      else if t.buffer.isSome ∨ s.dataState p o.line ≠ .absent then
        -- a snoop writeback that came since is newer than what media returned (03 R106, R110)
        (s.modTrk p id fun t => { t with mediaRead := none, entry := t.entry.or e, metaBad := t.metaBad || (t.entry.or e).isNone }).advance p id
      else
        -- an entry that the tracker has already is newer: the poison record of 03 R91 wrote it while the read was out
        let e' := t.entry.or e
        let pz := t.poison || poison
        let s1 := if t.req.cls.read || t.req.cls == .spec then (s.fillClean p o.line false data pz e').1 else s
        ((s1.writeBuffer p 7 id).modTrk p id fun t => { t with
          mediaRead := none, data := some data, entry := e', metaBad := t.metaBad || e.isNone, poison := pz }).advance p id
  | .trackerDir p id =>
    (s.modTrk p id fun t => { t with
      mediaRead := if t.mediaRead = some op then none else t.mediaRead, entry := t.entry.or e,
      metaBad := t.metaBad || e.isNone, poison := t.poison || poison }).advance p id
  | .wbRead p line =>
    let ws := (s.sl p).wbs.filter fun w => w.line == line
    let s1 := s.modSl p fun x => { x with wbs := x.wbs.filter fun w => w.line != line }
    let s2 := ws.foldl (fun s w =>
      let base := match w.owner with
        | .tracker q id => match (s.trk q id).bind (·.buffer) with
          | some b => some (b, ((s.trk q id).map (·.poison)).getD false)
          | none => some (data, poison)
        | .victim _ _ => some (data, poison)
      s.placeWriteback p w base e) s1
    ws.foldl (fun s w => s.moveOwner w.owner) s2
  | .victim p id line => s.victimRead p id op line poison
  | .sweeper p line => s.sweepAct p line e
  | .urgent p line => s.urgentAct p line e
  | .fill p lock =>
    -- a LOCK whose operation has ended leaves its line filled and not locked (05 R178)
    let ranged := lock && (s.sl p).range.isSome
    let (s1, ok) := s.fillClean p o.line ranged data poison e
    let s2 := if !ranged then s1
      else if ok then s1.rangeCount (HC_RANGE_SUMMARY.HI 2) else s1.rangeCount (HC_RANGE_SUMMARY.LO 3)
    let end_ (t : Tracker) : Tracker := if t.mediaRead = some op then { t with mediaRead := none } else t
    (s2.modSl p fun x => { x with trackers := x.trackers.map end_ }).rangeCheck p
  | _ => s

/-- MEDIA_DATA_RETURN (03 R104, R107, R84): the answer of a media read reaches its slice. The data of an uncorrectable read
is a free value, and poisoned. -/
def execMediaDataReturn (op : Nat) (s : State) : Outcome State Fault Refusal :=
  match s.op op with
  | none => .next s
  | some o => match o.state with
    | .answered .uncorrectable =>
      .next ((s.setOp op none).draw.deliverRead op o (Config.freeLine s.freeTick) none)
    | .answered _ => .next ((s.setOp op none).deliverRead op o o.data (some o.dir))
    | _ => .next s

/-! ### Cleaner, budget, persistence mode -/

/-- The writes of a slice's cleaner that are not acknowledged. -/
def State.cleansOut (s : State) (p : PhysSlice) : Nat :=
  s.opsOf fun o => match o with | .clean q _ _ => q == p | _ => false

/-- Whether a way of a set holds a Dirty line that is not busy and has no clean in flight (05 R162). -/
def State.cleanable (s : State) (p : PhysSlice) (set phys : Nat) : Bool :=
  let t := (s.way p set phys).tagA
  t.valid && t.dirty && !t.cleaning && !s.hcBusy p set phys

/-- A way of a set is cleaned, with fewer than 64 writes in flight (05 R162). -/
def State.cleanWay (s : State) (p : PhysSlice) (set phys : Nat) : State :=
  if s.cleanable p set phys && decide (s.cleansOut p < 64) then
    s.cleanWrite p ((s.way p set phys).tagA.tag * 8192 + set) phys (.clean p set phys) false
  else s

/-- CLEANER_STEP (05 R162, R163): the cleaner of a slice, while active, visits the set at its pointer, which it leaves once it has written
every line there that it may. In step 1 of an entry to DORMANT it writes the lines in ways 4 to 15 (09 Table 9.9). -/
def execCleanerStep (p : PhysSlice) (s : State) : Outcome State Fault Refusal :=
  let active := s.cleanerActive p
  let s0 := s.cleanerCheck p
  let entry := s.aon.entryStep == 1
  if !(active || entry) ∨ 64 ≤ s.cleansOut p then .next s0
  else
    let set := (s.sl p).cleanSet
    let ways := (waysInService (s.hcSpare p set)).filter fun n => active || decide (4 ≤ n.1)
    let s1 := ways.foldl (fun s n => s.cleanWay p set n.2) s0
    .next (if ways.any fun n => s1.cleanable p set n.2 then s1 else s1.modSl p fun x => { x with cleanSet := (set + 1) % 8192 })

/-- DIRTY_BUDGET_WRITE (05 R159): a value above 128 is ignored in whole. -/
def execDirtyBudgetWrite (v : Word) (s : State) : Outcome State Fault Refusal :=
  if s.mode = 0 ∨ 128 < getBits v 0 8 then .next s else .next (s.wr GLB_DIRTY_BUDGET.BUDGET_MIB (getBits v 0 8)).quotaCheck

/-- GLB_PERSIST_CTRL.WT written; as it becomes 1 the lines that are Dirty then are noted for WT_CLEAN (05 R167). -/
def State.setWt (s : State) (wt : Bool) : State :=
  let s1 := s.wb GLB_PERSIST_CTRL.WT wt
  let dirty (x : Slice) : List Nat := (x.cache.filter fun e => e.2.tagA.valid && e.2.tagA.dirty).map fun e =>
    e.2.tagA.tag * 8192 + e.1 / 17
  if wt && !s.on GLB_PERSIST_CTRL.WT then
    allSlices.foldl (fun s p => s.modSl p fun x => { x with dirtyWhenWt := dirty x }) s1
  else s1

/-- PERSIST_MODE_WRITE (05 R167). -/
def execPersistModeWrite (v : Word) (s : State) : Outcome State Fault Refusal :=
  if s.mode = 0 then .next s else .next (s.setWt (getBits v 0 1 == 1))

/-! ### The range engine (05 R170 to R178) -/

/-- The error code a START meets, 0 for none (05 Table 5.8). Of several the lowest is recorded: the table gives them no order (DESIGN
CHOICE, log 106). -/
def State.rangeError (s : State) (op : Nat) (force discard : Bool) : Nat :=
  let base := s.rd HC_RANGE_BASE.LINE
  let limit := s.rd HC_RANGE_LIMIT.LINE
  if op = 0 ∨ 5 < op then 1
  else if (force || discard) ∧ op ≠ 2 then 2
  else if limit < base then 3
  else if op = 4 ∧ 2 ^ 19 < limit - base + 1 then 4
  else if s.rd GLB_CAPS.DPA_REGIONS * 2 ^ 28 ≤ limit then 5
  else 0

/-- A write of HC_RANGE_OP with START (05 R170, R172, R173). -/
def State.startRange (s : State) (op : Nat) (force discard : Bool) : State :=
  if s.mode = 0 ∨ s.on HC_RANGE_STATUS.BUSY then s
  else
    let s1 := ((s.wr HC_RANGE_OP.OP op).wb HC_RANGE_OP.FORCE force).wb HC_RANGE_OP.DISCARD discard
    let s2 := (List.range 4).foldl (fun s k => s.setReg (HC_RANGE_SUMMARY.reg k) 0#64) s1
    let s3 := ((s2.wr HC_RANGE_STATUS.DONE 0).wr HC_RANGE_STATUS.ERR 0).wr HC_RANGE_STATUS.ABORTED 0
    let code := s.rangeError op force discard
    let s4 := s3.wr HC_RANGE_STATUS.ERR_CODE code
    if code ≠ 0 then s4.wr HC_RANGE_STATUS.ERR 1
    else
      let ps := s.activeSlices
      let s5 := (s4.wr HC_RANGE_STATUS.BUSY 1).wr HC_RANGE_STATUS.PENDING (ps.foldl (fun a p => a + 2 ^ p.val) 0)
      let s6 := ps.foldl (fun s p => s.modSl p fun x => { x with range := some ⟨0, none, false, [], []⟩ }) s5
      if ps.isEmpty then s6.rangeDone false else s6

/-- RANGE_CLEAN (05 R174). -/
def execRangeClean (force discard : Bool) (s : State) : Outcome State Fault Refusal := .next (s.startRange 1 force discard)
/-- RANGE_INVALIDATE (05 R174). -/
def execRangeInvalidate (force discard : Bool) (s : State) : Outcome State Fault Refusal := .next (s.startRange 2 force discard)
/-- RANGE_CLEAN_INVALIDATE (05 R174). -/
def execRangeCleanInvalidate (force discard : Bool) (s : State) : Outcome State Fault Refusal :=
  .next (s.startRange 3 force discard)
/-- RANGE_LOCK (05 R175). -/
def execRangeLock (force discard : Bool) (s : State) : Outcome State Fault Refusal := .next (s.startRange 4 force discard)
/-- RANGE_UNLOCK (05 R174). -/
def execRangeUnlock (force discard : Bool) (s : State) : Outcome State Fault Refusal := .next (s.startRange 5 force discard)

/-- The agent asks for the tracker of a line, in a slice that does not have its eight such requests yet. -/
def State.rangeSend (s : State) (p : PhysSlice) (line : Nat) : State := s.bump.agentArrive p (agentReq s.nextId .range line s.now)

/-- The next step of a LOCK, from position `pos` of the range: the next line of it homed in the slice (05 R175). -/
def State.lockStep (s : State) (p : PhysSlice) (pos : Nat) : State :=
  let base := s.rd HC_RANGE_BASE.LINE
  match s.nextHomed p (base + pos) (s.rd HC_RANGE_LIMIT.LINE + 1) with
  | none => (s.modRange p fun r => { r with ebDone := true }).rangeCheck p
  | some l =>
    let s1 := s.modRange p fun r => { r with pos := l + 1 - base }
    if rgMode (s.region p l) = 0 then s1 else s1.rangeSend p l

/-- Whether a line is of the range, in a region that is not disabled. -/
def State.inRange (s : State) (p : PhysSlice) (line : Nat) : Bool :=
  decide (s.rd HC_RANGE_BASE.LINE ≤ line ∧ line ≤ s.rd HC_RANGE_LIMIT.LINE) && rgMode (s.region p line) != 0

/-- The next step of the walk, from place `pos`: the next way that holds a line of the range, and with none left the eviction buffer. -/
def State.walkRange (s : State) (p : PhysSlice) (pos : Nat) : State :=
  let lineAt (e : Nat × CacheWay) : Nat := e.2.tagA.tag * 8192 + e.1 / 17
  match (s.sl p).cache.find? fun e => decide (pos ≤ e.1) && e.2.tagA.valid
      && ((waysInService (s.hcSpare p (e.1 / 17))).map (·.2)).contains (e.1 % 17) && s.inRange p (lineAt e) with
  | some e => (s.modRange p fun r => { r with pos := e.1 + 1 }).rangeSend p (lineAt e)
  | none =>
    let ls := (((s.sl p).evict.map (·.line)).filter (s.inRange p)).eraseDups
    s.modRange p fun r => { r with buffer := some ls }

/-- RANGE_AGENT_LINE (05 R174, R175, 07 R247): the agent of a slice takes the next line of the range that it finds; after its walk it
examines the eviction buffer. It acts on a line once it has the line's tracker. It pauses in REPAIR. -/
def execRangeAgentLine (p : PhysSlice) (s : State) : Outcome State Fault Refusal :=
  match (s.sl p).range with
  | none => .next s
  | some r =>
    if s.mode = 5 ∨ !s.on HC_RANGE_STATUS.BUSY ∨ r.ebDone ∨ !s.agentRoom p .range then .next s
    else if s.rd HC_RANGE_OP.OP = 4 then .next (s.lockStep p r.pos)
    else match r.buffer with
      | none => .next (s.walkRange p r.pos)
      | some [] => .next ((s.modRange p fun r => { r with ebDone := true }).rangeCheck p)
      | some (l :: ls) => .next ((s.modRange p fun r => { r with buffer := some ls }).rangeSend p l)

/-- A range operation ends early: DRAIN, for every slice (05 R178). -/
def State.abortRange (s : State) : State :=
  if s.on HC_RANGE_STATUS.BUSY then
    (allSlices.foldl (fun s p => s.modSl p fun x => { x with range := none }) (s.wr HC_RANGE_STATUS.PENDING 0)).rangeDone true
  else s

end Sys2Proof.Machine
end

