-- ==== Sys2Proof/Machine/ModeOps.lean ====
section
/-! DEFINITION. The mode changes of chapter 9 as shared operations: operating points (09 R307, 17 R498), entry to and exit
from each mode, the configuration store's programs (12 R379 to R382, 17 R495), the unordered stop (09 R296, 08 R280). -/

namespace Sys2Proof.Machine

/-! ### The configuration store -/

/-- The bytes of a repair record entry: the head and its payload in 8-byte units (12 R381, log 20). -/
def RepairEntry.bytes : RepairEntry → Nat
  | .close => 8
  | .sliceMap _ _ => 24
  | .groupMap m => 8 + 8 * m.length
  | .ownerLoss l => 8 + 8 * l.length
  | .epoch _ _ | .pass _ _ _ | .retired _ _ | .spareWay _ _ _ | .remap _ _ _ _ _ _ | .hpDisabled _ | .coreMap _
  | .rebuild _ _ _ _ | .patrol _ | .activeSlot _ => 16

/-- The type code of an entry (12 Table 12.6). -/
def RepairEntry.code : RepairEntry → Nat
  | .close => 0x01
  | .epoch _ _ => 0x10
  | .pass _ _ _ => 0x11
  | .sliceMap _ _ => 0x20
  | .groupMap _ => 0x21
  | .retired _ _ => 0x22
  | .spareWay p f _ => 0x2300 + 2 * p + f.toNat
  | .remap _ _ _ _ _ _ => 0x24
  | .hpDisabled _ => 0x25
  | .coreMap _ => 0x26
  | .rebuild _ _ _ _ => 0x30
  | .patrol _ => 0x31
  | .ownerLoss _ => 0x40
  | .activeSlot _ => 0x50

/-- Whether entries of a type add up (12 R382). -/
def RepairEntry.cumulative (e : RepairEntry) : Bool := e.code == 0x22 || e.code == 0x24 || e.code == 0x40

/-- The snapshot of the current values that opens the other half (12 R381). -/
def repairSnapshot (l : List RepairEntry) : List RepairEntry :=
  (l.zipIdx.filter fun e => e.1.cumulative || !(l.drop (e.2 + 1)).any fun f => f.code == e.1.code).map (·.1)

/-- An entry appended to the repair record; where the half has less than 64 KiB free, a snapshot goes into the other. -/
def Store.append (t : Store) (e : RepairEntry) : Store :=
  let l := t.repair ++ [e]
  let used := 16 + (l.map RepairEntry.bytes).sum
  if 524288 < used + 65536 then { t with repair := repairSnapshot l, repairSeq := t.repairSeq + 1, half := !t.half }
  else { t with repair := l }

/-- A program that is complete in the store. -/
def Store.apply (t : Store) (w : StoreWrite) : Store :=
  match w with
  | .repair e => t.append e
  | .owner b c => if b then { t with copyB := c } else { t with copyA := c }
  | .image n i => if n = 1 then { t with slot1 := i } else { t with slot2 := i }

/-- Whether the repair record is closed: its last entry is CLOSE (12 R382). -/
def Store.closed (t : Store) : Bool := t.repair.getLast? == some .close

/-- Every program that awaits its acknowledgement completes, in order. -/
def Store.flush (t : Store) : Store := { t.programs.foldl Store.apply t with programs := [] }

/-! ### Operating points (09 R307, 17 R498) -/

/-- The operating point a slice is to run at in the mode in force (09 R307, Table 9.9, Table 9.10). -/
def State.oppGoal (s : State) (p : PhysSlice) : Nat :=
  let own := min (s.rd (SL_DVFS.OPP_TARGET p.val)) (s.rd PWR_STATUS.CEIL)
  match s.mode with
  | 1 => 3
  | 2 => if 3 ≤ s.aon.entryStep then 0 else own
  | 3 => if 2 ≤ s.aon.exitStep then own else 0
  | 4 => max 3 (s.rd (SL_DVFS.OPP_NOW p.val))
  | 5 => own
  | _ => s.rd (SL_DVFS.OPP_NOW p.val)

/-- A change of operating point starts: upwards the rail rises first, downwards the clock switches first (09 R307). -/
def State.startOpp (s : State) (p : PhysSlice) (target : Nat) : State :=
  let now := s.rd (SL_DVFS.OPP_NOW p.val)
  if target = now then s
  else
    let s1 := (s.wr (SL_DVFS.BUSY p.val) 1).emit (.voltage p target)
    if now < target then s1.modSl p fun x => { x with ramp := some ⟨target, true⟩ }
    else ((s1.wr (SL_DVFS.OPP_NOW p.val) target).inc (SL_DVFS.SWITCHES p.val)).modSl p fun x =>
      { x with ramp := some ⟨target, false⟩ }

/-- A slice with no change running starts the one its goal asks for. -/
def State.retarget (s : State) (p : PhysSlice) : State :=
  if (s.sl p).ramp.isSome then s else s.startOpp p (s.oppGoal p)

/-- Every slice starts the change its goal asks for. -/
def State.retargetAll (s : State) : State := allSlices.foldl (fun s p => s.retarget p) s

/-- The tag words of every way cleared, the data kept (05 R180). -/
def Tbl.clearTags (t : Tbl CacheWay) : Tbl CacheWay :=
  t.foldl (fun a e => Tbl.put CacheWay.empty e.1 ⟨TagWord.empty, TagWord.empty, e.2.data⟩ a) []

/-! ### Mode changes -/

/-- The scrub agents give up what they have asked for and not begun. -/
def State.dropScrubRequests (s : State) : State :=
  allSlices.foldl (fun s p => s.modSl p fun x => { x with
    waitq := x.waitq.filter fun w => w.req.cls != .scrub
    trackers := x.trackers.map fun t => if t.req.cls = .scrub ∧ t.phase = .data then { t with phase := .done } else t }) s

/-- The end of a scrub pass: BUSY clears, DONE or ABORTED is set, and SCRUB_DONE is raised (10 R329, 13 Table 13.10). -/
def State.endScrub (s : State) (aborted : Bool) : State :=
  let s1 := (s.wr SCRUB_STATUS.BUSY 0).wr (if aborted then SCRUB_STATUS.ABORTED else SCRUB_STATUS.DONE) 1
  let s2 := (((s1.wr SCRUB_STATUS.PAUSED 0).wr SCRUB_STATUS.PENDING 0).wr SCRUB_STATUS.CTRL_PENDING 0).wr
    SCRUB_STATUS.MEDIA_PENDING 0
  let s2 := if aborted then { s2.dropScrubRequests with fw := { s2.fw with patrol := none } } else s2
  s2.notice 1 0x0A 1 0x64 (getBits (s2.reg SCRUB_STATUS.reg) 0 4) (s2.rd (SCRUB_SUMMARY.LO 0))

/-- The mode becomes `m` (09 R291): PREV, CAUSE, CAUSE_HP, the end of CHANGING, a scrub pass paused or resumed (10 R329),
and the MODE notice. -/
def State.setMode (s : State) (m cause hp : Nat) : State :=
  let prev := s.mode
  let hp := if cause = 4 ∨ cause = 6 then hp else 0
  let s1 := (((s.wr GLB_MODE.PREV prev).wr GLB_MODE.MODE m).wr GLB_MODE.CAUSE cause).wr GLB_MODE.CAUSE_HP hp
  -- 10 R340: a mode change locks the checker test mode
  let s1 := allSlices.foldl (fun s p => s.wr (SL_ECC_TEST_UNLOCK.UNLOCKED p.val) 0) s1
  let s2 := (s1.wr GLB_MODE.CHANGING 0).wb SCRUB_STATUS.PAUSED (s.on SCRUB_STATUS.BUSY && (m == 3 || m == 5))
  s2.notice 0 0x02 (if m = 4 then 3 else 2) 0x62 (m + prev * 2 ^ 3 + cause * 2 ^ 6 + hp * 2 ^ 10) s.now

/-- Every reservation that a home holds clears; those of the data SRAM stay (08 R274). -/
def State.clearReservations (s : State) : State :=
  allSlices.foldl (fun s p => s.modSl p fun x => { x with reserved := [] }) s

/-- The requests that the HPs and the IA stop held in REPAIR are forwarded in the order received (09 R305). -/
def State.forwardHeld (s : State) : State :=
  let host (s : State) (h : HostId) : State :=
    (s.port h).held.foldl (fun s r => s.route r) (s.modPort h fun x => { x with held := [] })
  let ia (s : State) : State := { s with iaHeld := [] }.routeAll s.iaHeld
  State.byStop host ia s

/-- The coalescer releases every held write (07 R254). -/
def State.releaseCoalescer (s : State) : State :=
  (s.modMf fun m => { m with ops := m.ops.map fun e => (e.1, e.2.map fun o =>
    if o.state = .held then { o with state := .waiting } else o) }).settleMedia

/-- The owner-loss entries that one repair record entry each takes, 64 at a time (04 R143, 12 Table 12.6). -/
def lossChunks : Nat → List Word → List RepairEntry
  | 0, _ => []
  | n + 1, l => if l.isEmpty then [] else .ownerLoss (l.take 64) :: lossChunks n (l.drop 64)

/-- Firmware saves what DRAIN's step 2 asks for: sweeper progress, a rebuild's progress, the unread owner-loss entries
(04 R135, R143, 11 R369). -/
def State.saveProgress (s : State) : State :=
  let s1 := s.commit s.passEntry
  let s2 := if s.on MF_REBUILD_STATUS.ACTIVE then
      s1.commit (.rebuild (s.rd MF_REBUILD_STATUS.GROUP) (s.rd MF_REBUILD_STATUS.SLOT) (s.rd MF_REBUILD_STATUS.TARGET)
        (s.rd MF_REBUILD_STATUS.LINE))
    else s1
  (lossChunks 32 s.ownerLoss).foldl (fun s e => s.commit e) s2

/-- What an entry to DRAIN ends: a range operation, the reservations, the urgent pass, a scrub pass, and an activation before
its switch (08 Table 8.6, 12 R398). -/
def State.stopPasses (s : State) : State :=
  let s1 : State := { (s.abortRange.clearReservations).wr GLB_PASS_EPOCH.URGENT 0 with urgentSet := [] }
  let s2 := if s1.on SCRUB_STATUS.BUSY then s1.endScrub true else s1
  if s2.on BOOT_ACT.BUSY then
    let b := { s2.boot with load := none }
    { s2.wr BOOT_ACT.BUSY 0 with boot := b }
  else s2

/-- Entry to DRAIN: step 1 of 08 Table 8.6, 07 R254, 09 R294, R306. -/
def State.enterDrain (s : State) (cause hp : Nat) : State :=
  let onWays := s.aon.entryStep == 1 || s.aon.entryStep == 2
  let fromRepair := s.mode == 5
  let s1 := (s.setMode 4 cause hp).modAon fun a =>
    { a with drain := some .flush, drainAt := a.time, entryStep := 0, exitStep := 0, exitCause := none,
             heldCause := false, repairAfterExit := false }
  let s2 := if onWays then allSlices.foldl (fun s p => s.modSl p fun x => { x with dormantWays := false }) s1 else s1
  let s3 := (s2.activeSlices.filter fun p => decide (s2.rd (SL_DVFS.OPP_NOW p.val) < 3)).foldl
    (fun s p => s.startOpp p 3) s2
  let s6 := (s3.stopPasses.modMf fun m => { m with sleeping := [] }).wr PMU_SAMPLE_CTRL.EN 0
  let s7 := s6.releaseCoalescer
  -- the rebuild stops (08 Table 8.6), once its progress is saved: no aperture access is served from here (log 116)
  (if fromRepair then s7.forwardHeld else s7).saveProgress.wr MF_REBUILD_STATUS.ACTIVE 0

/-- HOLD (09 R290, R291): the always-on island, the media, the cipher unit's counters and the configuration store keep what
they hold, and everything else is at reset. PIP is driven to 0 (17 R503). -/
def State.enterHold (s : State) (restart : Bool) : State :=
  let r : State := { State.reset with
    pending := s.pending, media := s.media, counters := s.counters,
    store := { s.store with programs := [], stopped := false }, out := s.out, nextId := s.nextId, freeTick := s.freeTick,
    aon := { AlwaysOn.reset with
      power := s.aon.power, porDone := s.aon.porDone, blockReset := s.aon.blockReset, pfwLow := s.aon.pfwLow,
      highSince := s.aon.highSince, time := s.aon.time, mayRestart := restart } }
  if s.aon.pip then r.emit (.pipEdge false) else r

/-- A write issued to a channel when the block stops unordered: the line holds its old stored form or its new one
(08 R280), and its counters go with the form. -/
def State.stopWrite (s : State) (o : ChanOp) : State :=
  let form : Stored := if o.metaOnly then ⟨((s.mediaAt o.chan o.index).getD Stored.zero).data, o.form.md⟩ else o.form
  let land (s : State) : State := match o.use with
    | .batchWrite bid slot => match s.batch bid with
      | some b => s.landed b slot
      | none => s
    | _ => s
  let s1 := if Config.freeBool s.freeTick then land (s.setMedia o.chan o.index (some form)) else s
  s1.draw

/-- The unordered stop of a block reset or of a loss of power (09 R296, 08 R280): every issued media write, and the store's
program in progress, may or may not have taken effect. -/
def State.unorderedStop (s : State) : State :=
  let ws := s.mf.chops.filterMap fun e => e.2.bind fun o => if o.write && o.issued && !o.failed then some o else none
  let s1 := ws.foldl (fun s o => s.stopWrite o) s
  let s2 := match s1.store.programs with
    | [] => s1
    | w :: _ =>
      ({ s1 with store := if Config.freeBool s1.freeTick then s1.store.apply w else s1.store }).draw
  s2.enterHold false

/-- Entry to SPROUT (09 R297): the islands are powered, and every slice starts at OPP 3. -/
def State.enterSprout (s : State) (cause : Nat) : State :=
  let s1 := allSlices.foldl (fun s p => s.wr (SL_DVFS.OPP_NOW p.val) 3) (s.modAon fun a =>
    { a with mayRestart := false, releaseWaits := false, wdStart := 0, fed := false })
  let s2 := (List.range 4).foldl (fun s g => s.wr (MF_GROUP_MAP.RESYNCED g) 1) s1
  s2.setMode 1 cause 0

/-- Entry to REPAIR (09 R304). -/
def State.enterRepair (s : State) (cause : Nat) : State :=
  let s1 := ((s.setMode 5 cause 0).inc GLB_MODE.REPAIR_ENTRIES).modAon fun a => { a with repairAt := a.time, heldCause := false }
  s1.clearReservations

/-- The end of REPAIR (09 R305). -/
def State.exitRepair (s : State) (cause : Nat) : State :=
  (((s.setMode 2 cause 0).modAon fun a => { a with repairEnd := some a.time }).forwardHeld).retargetAll

/-- Whether a REPAIR cause has to wait for 1 ms of SERVE since the last exit from REPAIR (09 R304). -/
def State.repairTooSoon (s : State) : Bool :=
  match s.aon.repairEnd with
  | some t => decide (s.now < t + 1000)
  | none => false

/-- Entry to DORMANT begins (09 R300). -/
def State.startDormant (s : State) (cause : Nat) : State :=
  let s1 := (s.wr GLB_MODE.CHANGING 1).modAon fun a =>
    { a with entryStep := 1, entryAt := a.time, seqCause := cause, seqHp := 0, exitCause := none }
  allSlices.foldl (fun s p => s.modSl p fun x => { x with dormantWays := true }) s1

/-- An entry to DORMANT ends before its step 3, and Cesal stays in SERVE (09 R300). -/
def State.abortDormant (s : State) : State :=
  let s1 := (s.wr GLB_MODE.CHANGING 0).modAon fun a => { a with entryStep := 0 }
  allSlices.foldl (fun s p => s.modSl p fun x => { x with dormantWays := false }) s1

/-- A refused mode request (09 R292). -/
def State.refuseMode (s : State) (target code : Nat) : State :=
  ((s.wr GLB_MODE_REQ.TARGET target).wr GLB_MODE_REQ.ERR 1).wr GLB_MODE_REQ.ERR_CODE code

/-- An accepted mode request (09 R292). -/
def State.acceptMode (s : State) (target : Nat) : State := (s.wr GLB_MODE_REQ.TARGET target).wr GLB_MODE_REQ.ERR_CODE 0

/-- Whether a list of numbers has no repeats. -/
def distinct (l : List Nat) : Bool := l.eraseDups.length == l.length

/-- The code that refuses SERVE from SPROUT, 0 for none (09 Table 9.5). -/
def State.serveCode (s : State) : Nat :=
  let ps := (List.range 16).map fun j => s.rd (mapPs j)
  let cs := (List.range 4).flatMap fun g => (List.range 9).map fun k => s.rd (slotFld g k)
  if !s.on GLB_HASH_CTRL.LOCK then 2
  else if !distinct ps ∨ ps.any (fun n => s.on (SL_CTRL.HUSK n)) ∨ (List.range 16).any (fun j => s.on (mapHold j)) then 3
  else if !distinct cs then 4
  else if !s.boot.epochWritten then 5
  else if allSlices.any fun p => !s.on (SL_STATUS.CLEARED p.val) then 6
  else 0

/-- The lowest-numbered HP that is enabled and not merged away (13 R422). -/
def State.managingHead (s : State) : Option HostId := allHosts.find? fun h => s.on (HP_CTRL.ENABLE h.val) && !s.mergedAway h

/-- Intake opens: SPROUT becomes SERVE with the cause that asked for it (09 Table 9.3, Table 9.6), with DISTRUST tested (04 R131), the
armed rebuild and resync begun (06 R218, R213), the managing head fixed (13 R422), the slices at their operating points. -/
def State.enterServe (s : State) (cause : Nat) : State :=
  let d := (s.rd GLB_EPOCH.EPOCH + 4096 - s.rd GLB_PASS_EPOCH.PASS_EPOCH) % 4096
  -- firmware writes DISTRUST to the repair record whenever it changes (04 R131)
  let s1 := if 2048 ≤ d ∧ !s.on GLB_EPOCH.DISTRUST then (s.wr GLB_EPOCH.DISTRUST 1).commit (.epoch s.epoch true) else s
  let s2 :=
    if s1.mf.resumeArmed then
      ((((s1.wr (MF_GROUP_MAP.GSTATE (s1.rd MF_REBUILD_STATUS.GROUP)) 2).wr
        (MF_GROUP_MAP.LOST_SLOT (s1.rd MF_REBUILD_STATUS.GROUP)) (s1.rd MF_REBUILD_STATUS.SLOT)).wr
        (MF_CH_STATE.STATE (s1.rd MF_REBUILD_STATUS.TARGET)) 2).modMf fun m => { m with resumeArmed := false })
    else s1
  let s3 :=
    if s2.mf.resyncArmed then
      ((List.range 4).foldl (fun s g => s.wr (MF_GROUP_MAP.RESYNCED g) 0) (s2.wr MF_CTRL.RESYNC_BUSY 1)).modMf fun m =>
        { m with resyncArmed := false, resyncAt := some 0, resyncFixed := 0 }
    else s2
  let s4 := match s3.managingHead with
    | some h => (s3.wr MBX_CTRL.MANAGING_HP h.val).wr MBX_CTRL.MANAGING_VALID 1
    | none => s3.wr MBX_CTRL.MANAGING_VALID 0
  -- 04 R119: the spill limiters hold SPILL_BURST tokens
  let s5 := allSlices.foldl (fun s p => s.wr (SL_SF_CTRL.TOKENS p.val) (s.spillBurst p)) s4
  -- 02 R73: every incarnation is 0 after SPROUT, whatever departed in it
  let s5 := allHosts.foldl (fun s h => s.wr (GLB_HOST_INCARN.INCARN h.val) 0) s5
  ((s5.setMode 2 cause 0).retargetAll).forwardHeld

/-! ### The end of DRAIN (08 R283 to R285) -/

/-- The T_HOST setting in force, in us (08 Table 8.7). -/
def State.tHost (s : State) : Nat := match s.store.setting 0x0022 with | some v => v.toNat % 65536 | none => 1000

/-- Whether every linked, unhusked HP has had GPF Phase 2 acknowledged, or T_host has passed (08 Table 8.6 step 2). -/
def State.hostPhaseOver (s : State) : Bool :=
  decide (s.aon.drainAt + s.tHost ≤ s.now) ||
    allHosts.all fun h => !s.on (HP_STATUS.LINK h.val) || s.on (HP_CTRL.HUSK h.val) || (s.port h).gpfAcked

/-- Whether nothing is left for step 3 of DRAIN: no tracker, no wait-queue entry, no Dirty line, no media write. -/
def State.drained (s : State) : Bool :=
  allSlices.all (fun p =>
    let x := s.sl p
    x.trackers.isEmpty && x.waitq.isEmpty && x.evict.isEmpty && !x.anyDirty && x.wbs.isEmpty)
    && !s.mf.ops.any (fun e => match e.2 with | some o => o.isWrite | none => false)
    && !s.mf.chops.any (fun e => match e.2 with | some o => o.write | none => false)

/-- Running and ready DMA channels halt with code SHUTDOWN, with no notice and no event; what they have issued runs to its end
(14 R451). -/
def State.shutdownDma (s : State) : State :=
  let s1 := (List.range 16).foldl (fun s c =>
    if s.rd (DC_STATUS.STATE c) = 1 ∨ s.rd (DC_STATUS.STATE c) = 2 then
      let x := s.dma.look DmaState.idle c
      let y := { x with held := [], heldDst := [], heldMd := [], halting := none }
      let s1 := (s.wr (DC_STATUS.STATE c) 4).wr (DC_STATUS.CODE c) 5
      { s1 with dma := s1.dma.put DmaState.idle c y }
    else s) s
  [0, 1].foldl (fun s e =>
    { s with engines := s.engines.put Engine.idle e { s.engines.look Engine.idle e with running := none } }) s1

/-- Step 3 of DRAIN begins: the ports close to new requests, and the DMA channels shut down (08 Table 8.6). -/
def State.closeHosts (s : State) : State :=
  s.shutdownDma.modAon fun a => { a with drain := some .close, closeAt := a.time }

/-- Step 4 of DRAIN begins when step 3 has ended (08 Table 8.6). -/
def State.drainStep (s : State) : State :=
  if s.mode = 4 ∧ s.aon.drain = some .close ∧ s.drained then
    (s.modAon fun a => { a with drain := some .cipher }).emit .cipherFlush
  else s

end Sys2Proof.Machine
end

