-- ==== Sys2Proof/Machine/Modes.lean ====
section
/-! DEFINITION. The mode commands: PFW_N, block reset and power (17 R499 to R502), GLB_MODE_REQ (09 R292), DRAIN (08 R282 to
R285), DORMANT (09 R299 to R302), REPAIR (09 R304, R305), the end of the reset invalidation (09 R298). -/

namespace Sys2Proof.Machine

open Host (Outcome)

/-! ### Power, PFW_N and the block reset -/

/-- PFW_N_ASSERT (17 R501, 09 Table 9.6): a recognised warning enters DRAIN; in SPROUT the store's program in progress is
completed and HOLD is entered. The always-on island samples PFW_N after its own power-on reset only. -/
def execPfwNAssert (s : State) : Outcome State Fault Refusal :=
  if !s.aon.porDone then .next s
  else
    let s1 := s.modAon fun a => { a with pfwLow := true, highSince := none }
    match s.mode with
    | 1 =>
      let st := match s1.store.programs with | [] => s1.store | w :: _ => s1.store.apply w
      .next ({ s1 with store := st }.enterHold true)
    | 2 | 3 | 5 => .next (s1.enterDrain 3 0)
    | _ => .next s1

/-- PFW_N_DEASSERT (17 R501): the 10 ms of deasserted samples are counted from here. In DRAIN nothing changes (08 R282). -/
def execPfwNDeassert (s : State) : Outcome State Fault Refusal :=
  if !s.aon.porDone then .next s
  else .next (s.modAon fun a => { a with pfwLow := false, highSince := some a.time })

/-- BLOCK_RESET_ASSERT (09 R296, 17 R500): outside HOLD an unordered stop; in HOLD only the level of the signal changes. -/
def execBlockResetAssert (s : State) : Outcome State Fault Refusal :=
  let s1 := if s.mode = 0 then s else s.unorderedStop
  .next (s1.modAon fun a => { a with blockReset := true, releaseWaits := false })

/-- BLOCK_RESET_RELEASE (17 R499, R500, 09 Table 9.6): SPROUT begins, or waits for PFW_N. Released before the rails have been
in tolerance for 100 us, it leaves a state the spec does not define. -/
def execBlockResetRelease (railsReady : Bool) (s : State) : Outcome State Fault Refusal :=
  if !s.aon.blockReset ∨ !s.aon.power ∨ !s.aon.porDone then .next s
  else if !railsReady then .fault .stateUndefined
  else
    let s1 := s.modAon fun a => { a with blockReset := false }
    if s.aon.pfwLow then .next (s1.modAon fun a => { a with releaseWaits := true }) else .next (s1.enterSprout 0)

/-- AUTOMATIC_RESTART (09 R296, Table 9.6): PFW_N has been deasserted for 10 ms, HOLD having been entered by PFW_N, or with
the block reset released while PFW_N was asserted. -/
def execAutomaticRestart (s : State) : Outcome State Fault Refusal :=
  let high := match s.aon.highSince with | some t => decide (t + 10000 ≤ s.now) | none => false
  if s.mode ≠ 0 ∨ s.aon.pfwLow ∨ !high ∨ s.aon.blockReset ∨ !s.aon.porDone then .next s
  else if s.aon.mayRestart then .next (s.enterSprout 9)
  else if s.aon.releaseWaits then .next (s.enterSprout 0)
  else .next s

/-- POWER_LOSS (08 R280, R281): every volatile structure is lost; media and the configuration store keep what they hold. -/
def execPowerLoss (s : State) : Outcome State Fault Refusal :=
  let s1 := if s.mode = 0 then s.enterHold false else s.unorderedStop
  .next { s1 with aon := { AlwaysOn.reset with power := false, porDone := false } }

/-- POWER_ON_RESET (17 R499): the always-on island leaves its own reset, and PFW_N is sampled from here. -/
def execPowerOnReset (s : State) : Outcome State Fault Refusal :=
  if s.aon.porDone then .next s
  else .next (s.modAon fun a => { a with power := true, porDone := true, blockReset := true })

/-! ### Mode requests (09 R292, R293) -/

/-- MODE_REQ_SERVE (09 R293, Table 9.5): from SPROUT under codes 2 to 6, from DORMANT an exit, from REPAIR its end. -/
def execModeReqServe (s : State) : Outcome State Fault Refusal :=
  if s.mode = 0 then .next s
  else if s.on GLB_MODE.CHANGING then .next (s.refuseMode 2 9)
  else match s.mode with
    | 1 => .next (if s.serveCode ≠ 0 then s.refuseMode 2 s.serveCode else (s.acceptMode 2).enterServe 1)
    | 3 => .next ((s.acceptMode 2).dormTrigger 1 0)
    | 5 => .next ((s.acceptMode 2).exitRepair 1)
    | _ => .next (s.refuseMode 2 1)

/-- MODE_REQ_DORMANT (09 R299, R300). -/
def execModeReqDormant (s : State) : Outcome State Fault Refusal :=
  if s.mode = 0 then .next s
  else if s.on GLB_MODE.CHANGING then .next (s.refuseMode 3 9)
  else if s.mode ≠ 2 then .next (s.refuseMode 3 1)
  else if s.dormBlocked then .next (s.refuseMode 3 7)
  else .next ((s.acceptMode 3).startDormant 1)

/-- MODE_REQ_REPAIR (09 R304). -/
def execModeReqRepair (s : State) : Outcome State Fault Refusal :=
  if s.mode = 0 then .next s
  else if s.on GLB_MODE.CHANGING then .next (s.refuseMode 5 9)
  else if s.mode ≠ 2 then .next (s.refuseMode 5 1)
  else if s.repairTooSoon then .next (s.refuseMode 5 8)
  else .next ((s.acceptMode 5).enterRepair 1)

/-- MODE_REQ_HOLD (08 R283): in DRAIN, step 3 begins; while steps 3 to 5 run the request changes nothing. -/
def execModeReqHold (s : State) : Outcome State Fault Refusal :=
  if s.mode = 0 then .next s
  else if s.on GLB_MODE.CHANGING then .next (s.refuseMode 0 9)
  else if s.mode ≠ 4 then .next (s.refuseMode 0 1)
  else if s.aon.drain = some .flush then .next ((s.acceptMode 0).closeHosts).drainStep
  else .next (s.acceptMode 0)

/-! ### DRAIN -/

/-- DRAIN_HOST_PHASE_END (08 R283): the host phase is over and firmware requests HOLD. -/
def execDrainHostPhaseEnd (s : State) : Outcome State Fault Refusal :=
  if s.mode = 4 ∧ s.aon.drain = some .flush ∧ s.hostPhaseOver then .next ((s.acceptMode 0).closeHosts).drainStep
  else .next s

/-- DRAIN_SNOOP_TIMEOUT (08 R284): a snoop still outstanding 20 us after step 3 began is resolved as at a departure. -/
def execDrainSnoopTimeout (h : HostId) (bitag : BitVec 8) (s : State) : Outcome State Fault Refusal :=
  if s.mode ≠ 4 ∨ s.aon.drain = some .flush ∨ s.now < s.aon.closeAt + 20 then .next s
  else match (s.port h).table.look none bitag.toNat with
    | none => .next s
    | some e =>
      let s0 := (s.freeSnoop h bitag.toNat).modPort h fun x => { x with drained := x.drained ++ [bitag.toNat] }
      let s1 := e.open_.foldl (fun s l => s.resolveSnoop e.req.owner h l) s0
      .next ((s1.moveOwner e.req.owner).drainStep)

/-- CIPHER_FLUSH_DONE (08 R283): step 4 ends, and firmware writes the closing entry of the repair record. -/
def execCipherFlushDone (s : State) : Outcome State Fault Refusal :=
  let s := s.drainStep
  if s.mode = 4 ∧ s.aon.drain = some .cipher then
    .next (({ s with store := { s.store with programs := s.store.programs ++ [StoreWrite.repair .close] } }.modAon fun a =>
      { a with drain := some .record }).emit .storeProgram)
  else .next s

/-- RECORD_CLOSE_ACK (08 R283): the store acknowledges the closing entry, behind every program before it, and HOLD is
entered; after a drain caused by PFW_N Cesal may restart on its own (09 R296). -/
def execRecordCloseAck (s : State) : Outcome State Fault Refusal :=
  if s.mode = 4 ∧ s.aon.drain = some .record then
    .next ({ s with store := s.store.flush }.enterHold (s.rd GLB_MODE.CAUSE == 3))
  else .next s

/-! ### DORMANT -/

/-- DORMANT_IDLE_DWELL (09 R300): the dwell of idle intervals has passed with AUTO 1. -/
def execDormantIdleDwell (s : State) : Outcome State Fault Refusal :=
  if s.mode ≠ 2 ∨ s.on GLB_MODE.CHANGING ∨ !s.on PWR_DORM.AUTO ∨ s.aon.idleMs < max 1 (s.rd PWR_DORM.ENTRY_MS)
    ∨ s.dormBlocked then .next s
  else .next (s.startDormant 5)

/-- Whether a place of the cache, set and physical way, carries a way number from 4 to 15. -/
def State.highWay (s : State) (p : PhysSlice) (k : Nat) : Bool :=
  (waysInService (s.hcSpare p (k / 17))).any fun n => decide (4 ≤ n.1) && n.2 == k % 17

/-- Whether step 1 of an entry has ended in a slice: no line in ways 4 to 15 is Dirty or being cleaned (09 Table 9.9). -/
def State.highWaysClean (s : State) (p : PhysSlice) : Bool :=
  !(s.sl p).cache.any fun e => s.highWay p e.1 && e.2.tagA.valid && (e.2.tagA.dirty || e.2.tagA.cleaning)

/-- The ways 4 to 15 of a slice are cleared (09 Table 9.9 step 2). -/
def State.dropHighWays (s : State) (p : PhysSlice) : State :=
  s.modSl p fun x => { x with cache := x.cache.filter fun e => !s.highWay p e.1 }

/-- The ports of a DORMANT entry are narrowed (02 R79). -/
def State.narrowPorts (s : State) : State :=
  (allHosts.filter fun h => s.on (HP_STATUS.LINK h.val) && s.on (HP_CTRL.L0P_DORMANT h.val)).foldl (fun s h =>
    ((s.wr (HP_STATUS.L0P_REFUSED h.val) 0).modPort h fun x => { x with narrowed := true }).emit (.l0p h true)) s

/-- The ports that were narrowed are asked for full width (02 R79). -/
def State.widenPorts (s : State) : State :=
  (allHosts.filter fun h => (s.port h).narrowed).foldl (fun s h =>
    (s.modPort h fun x => { x with narrowed := false }).emit (.l0p h false)) s

/-- Every media channel is sent into light sleep (09 Table 9.9 step 4, 17 Table 17.3). -/
def State.sleepChannels (s : State) : State :=
  ((List.finRange 38).filter fun c => s.chState c != 3).foldl (fun s c => s.emit (.lightSleep c)) s

/-- DORMANT_ENTRY_STEP_END (09 Table 9.9): the step that runs ends, where its condition holds; with step 4 MODE reads 3, and a
trigger that arose after step 2 begins the exit at once. The tag words of ways 4 to 15 clear in every set at once, as step 2 begins: its
8192 slice cycles are below the model's time (DESIGN CHOICE, log 108). -/
def execDormantEntryStepEnd (s : State) : Outcome State Fault Refusal :=
  let go (s : State) (n : Nat) : State := s.modAon fun a => { a with entryStep := n }
  if s.mode ≠ 2 then .next s
  else match s.aon.entryStep with
    | 1 => if allSlices.all s.highWaysClean then .next (allSlices.foldl (fun s p => s.dropHighWays p) (go s 2)) else .next s
    | 2 => .next (go s 3).retargetAll
    | 3 =>
      if allSlices.all fun p => s.rd (SL_DVFS.OPP_NOW p.val) == 0 && (s.sl p).ramp.isNone then
        .next (((go s 4).modMf fun m => { m with sleeping := List.range 38 }).sleepChannels).narrowPorts
      else .next s.retargetAll
    | 4 =>
      let s1 := ((go s 0).setMode 3 s.aon.seqCause s.aon.seqHp).inc GLB_MODE.DORMANT_ENTRIES
      let s2 := s1.modAon fun a => { a with exitCause := none }
      .next (match s.aon.exitCause with | some (c, h) => s2.dormTrigger c h | none => s2)
    | _ => .next s

/-- DORMANT_ENTRY_TIMEOUT (09 R300): step 1 has run for 1 ms and the entry aborts. -/
def execDormantEntryTimeout (s : State) : Outcome State Fault Refusal :=
  if s.mode = 2 ∧ s.aon.entryStep = 1 ∧ s.aon.entryAt + 1000 ≤ s.now then .next s.abortDormant else .next s

/-- EXIT_COUNT as it acts (09 R301). -/
def State.exitCount (s : State) : Nat := max (s.rd PWR_DORM.EXIT_COUNT) (s.rd PWR_DORM.ENTRY_RATE * 10 + 1)

/-- DORMANT_EXIT_COUNT (09 R301): the requests that allocated trackers in the last 10 us reach EXIT_COUNT. -/
def execDormantExitCount (s : State) : Outcome State Fault Refusal :=
  let n := ((s.aon.allocs10.filter fun e => decide (s.now < e.1 + 10)).map (·.2)).sum
  if s.exitCount ≤ n then .next (s.dormTrigger 5 0) else .next s

/-- DORMANT_EXIT_STEP_END (09 Table 9.10, R302): the step that runs ends; with the last MODE reads 2, and a REPAIR cause that
arose in DORMANT is acted on (09 Table 9.6). Ways 4 to 15 become candidates in every set at once, at the end of step 1, not set by set
as 05 R181 clears them: the 8192 slice cycles of the clear are below the model's time (DESIGN CHOICE, log 108). -/
def execDormantExitStepEnd (s : State) : Outcome State Fault Refusal :=
  let go (s : State) (n : Nat) : State := s.modAon fun a => { a with exitStep := n }
  if s.mode ≠ 3 then .next s
  else match s.aon.exitStep with
    | 1 =>
      let s1 := allSlices.foldl (fun s p => s.modSl p fun x => { x with dormantWays := false }) (go s 2)
      .next ((s1.modMf fun m => { m with sleeping := [] }).retargetAll)
    | 2 => if allSlices.all fun p => (s.sl p).ramp.isNone then .next (go s 3) else .next s
    | 3 =>
      let s1 := ((go s 0).setMode 2 s.aon.seqCause s.aon.seqHp).widenPorts.modAon fun a =>
        { a with dormantEnd := some a.time, repairAfterExit := false, idleMs := 0 }
      let s2 := s1.retargetAll
      .next (if !s.aon.repairAfterExit then s2
        else if s2.repairTooSoon then s2.modAon fun a => { a with heldCause := true }
        else s2.enterRepair 7)
    | _ => .next s

/-! ### REPAIR -/

/-- The loss of a control core with no spare left asks for REPAIR (09 R294, R304): at once in SERVE, after the exit in
DORMANT, held within 1 ms of the last exit. -/
def State.repairCause (s : State) : State :=
  match s.mode with
  | 2 =>
    if 3 ≤ s.aon.entryStep then (s.dormTrigger 7 0).modAon fun a => { a with repairAfterExit := true }
    else
      let s1 := if s.aon.entryStep = 0 then s else s.abortDormant
      if s1.repairTooSoon then s1.modAon fun a => { a with heldCause := true } else s1.enterRepair 7
  | 3 => (s.dormTrigger 7 0).modAon fun a => { a with repairAfterExit := true }
  | _ => s

/-- CONTROL_COMPLEX_LOSS (09 R304). -/
def execControlComplexLoss (s : State) : Outcome State Fault Refusal := .next s.repairCause

/-- REPAIR_CAUSE_RELEASE (09 R304): the millisecond since the last exit has passed and the held cause is acted on. -/
def execRepairCauseRelease (s : State) : Outcome State Fault Refusal :=
  if s.aon.heldCause ∧ s.mode = 2 ∧ !s.repairTooSoon then .next s.repairCause else .next s

/-- REPAIR_TIMEOUT (09 R305): 5 ms after entry REPAIR ends with a severe event of source 0x58, whose info word the spec does
not lay out (log 1). -/
def execRepairTimeout (s : State) : Outcome State Fault Refusal :=
  if s.mode = 5 ∧ s.aon.repairAt + 5000 ≤ s.now then
    .next ((s.draw.exitRepair 8).major 0x58 ((Config.freeWord s.freeTick).extractLsb' 0 40))
  else .next s

/-! ### SPROUT -/

/-- RESET_INVALIDATION_DONE (09 R298, Table 9.8): the structures of every slice are cleared; data arrays are not. -/
def execResetInvalidationDone (s : State) : Outcome State Fault Refusal :=
  if s.mode ≠ 1 ∨ s.boot.invalidated then .next s
  else
    let s1 := allSlices.foldl (fun s p =>
      (s.modSl p fun x => { x with
        trackers := [], waitq := [], wbs := [], ingress := [], filter := [], sfPtr := [], victims := [], hcPtr := [],
        evict := [], cleanSet := 0, budgetQ := [], segOnes := false, segment := [], range := none, regions := [],
        cache := Tbl.clearTags x.cache }).wr (SL_STATUS.CLEARED p.val) 1) s
    let s2 := allHosts.foldl (fun s h => s.modPort h fun x => { x with park := [] }) s1
    .next { s2 with iaPark := [], boot := { s2.boot with invalidated := true } }

end Sys2Proof.Machine
end

