-- ==== Sys2Proof/Machine/Host.lean ====
section
/-! DEFINITION. The commands of the host ports (chapter 2): M2S requests, snoop responses and timers, the controller's link
reports, GPF, the husk, S2M credits. -/

namespace Sys2Proof.Machine

open Host (Outcome)

/-! ### M2S requests (02 R51 to R56) -/

/-- Every byte of a line. -/
def allBytes : ByteMask := BitVec.allOnes 64

/-- RD_SHARED (03 R97). -/
def execRdShared (h : HostId) (addr : Word) (tag : BitVec 16) (s : State) : Outcome State Fault Refusal :=
  .next (s.hostRequest h .rdShared addr tag 0#512 allBytes false false)

/-- RD_OWN (03 R98). -/
def execRdOwn (h : HostId) (addr : Word) (tag : BitVec 16) (s : State) : Outcome State Fault Refusal :=
  .next (s.hostRequest h .rdOwn addr tag 0#512 allBytes false false)

/-- RD_CUR (03 R99). -/
def execRdCur (h : HostId) (addr : Word) (tag : BitVec 16) (s : State) : Outcome State Fault Refusal :=
  .next (s.hostRequest h .rdCur addr tag 0#512 allBytes false false)

/-- INV_OWN (03 R100). -/
def execInvOwn (h : HostId) (addr : Word) (tag : BitVec 16) (s : State) : Outcome State Fault Refusal :=
  .next (s.hostRequest h .invOwn addr tag 0#512 0#64 false false)

/-- INV_FLUSH (03 R100). -/
def execInvFlush (h : HostId) (addr : Word) (tag : BitVec 16) (s : State) : Outcome State Fault Refusal :=
  .next (s.hostRequest h .invFlush addr tag 0#512 0#64 false false)

/-- WR_FULL (03 R101). -/
def execWrFull (h : HostId) (addr : Word) (tag : BitVec 16) (data : LineData) (poison shared : Bool) (s : State) :
    Outcome State Fault Refusal :=
  .next (s.hostRequest h .wrFull addr tag data allBytes poison shared)

/-- WR_PTL (03 R101): with every byte enable 1 it is a WR_FULL (02 R53). -/
def execWrPtl (h : HostId) (addr : Word) (tag : BitVec 16) (data : LineData) (be : ByteMask) (poison shared : Bool)
    (s : State) : Outcome State Fault Refusal :=
  .next (s.hostRequest h (if be = allBytes then .wrFull else .wrPtl) addr tag data be poison shared)

/-- CLN_EVCT (03 R102). -/
def execClnEvct (h : HostId) (addr : Word) (tag : BitVec 16) (s : State) : Outcome State Fault Refusal :=
  .next (s.hostRequest h .clnEvct addr tag 0#512 0#64 false false)

/-- SPEC (02 R56). -/
def execSpec (h : HostId) (addr : Word) (s : State) : Outcome State Fault Refusal :=
  .next (s.hostRequest h .spec addr 0#16 0#512 allBytes false false)

/-- Whether a port's messages are discarded: disabled, husked or merged away, or the mode accepts none. -/
def State.portClosed (s : State) (h : HostId) : Bool := !s.portLive h || decide (s.mode < 2)

/-- UNSUPPORTED_REQUEST (02 R55): answered with Cmp; at a husked port it is discarded and its credit returned (02 R72, 07 R224); from
step 3 of DRAIN it is discarded (08 R283). -/
def execUnsupportedRequest (h : HostId) (rwd : Bool) (opcode : BitVec 4) (addr : Word) (tag : BitVec 16) (s : State) :
    Outcome State Fault Refusal :=
  if s.portClosed h then .next (if s.on (HP_CTRL.HUSK h.val) ∧ 2 ≤ s.mode then s.emit (.creditReturn h rwd) else s)
  else if s.mode = 4 ∧ s.aon.drain ≠ some .flush then .next s
  else .next (s.unsupported h opcode.toNat rwd addr.toNat tag)

/-! ### Snoop responses (02 R63, 03 R87, R89; 07 R232) -/

/-- The opcode field of a BIRsp as CXL encodes it: I, S, E are 0, 1, 2, and a block response adds 4 (log 18). -/
def rspOpcode (r : SnoopRsp) (blk : Bool) : Nat :=
  (match r with | .i => 0 | .s => 1 | .e => 2) + (if blk then 4 else 0)

/-- Whether another host has answered BIRspE for a line as a possible owner (03 R89). -/
def State.otherOwner (s : State) (o : SnoopOwner) (h : HostId) (line : Nat) : Bool :=
  match o with
  | .tracker p id => match s.trk p id with
    | some t => t.snoops.any fun n => n.host != h && n.line == line && (n.answer == some .e || n.owned)
    | none => false
  | .victim _ _ => false

/-- A tracker's data snoop that found an owner becomes an invalidating one, which is awaited instead (03 Table 3.5). -/
def State.toInvalidate (s : State) (o : SnoopOwner) (h : HostId) (line : Nat) : State :=
  match o with
  | .tracker p id =>
    (s.modTrk p id fun t => { t with snoops := t.snoops.map fun n =>
      if n.host = h ∧ n.line = line then { n with kind := .inv, owned := true } else n }).issueSnoop h ⟨o, .inv, line, 1⟩
  | .victim _ _ => s

/-- The lines of a snoop-table entry are answered; with its last line the entry frees. -/
def State.entryAnswered (s : State) (h : HostId) (i : Nat) (e : SnoopEntry) (lines : List Nat) : State :=
  let e1 := { e with answered := e.answered ++ lines }
  if e1.open_.isEmpty then s.freeSnoop h i
  else s.modPort h fun x => { x with table := x.table.put none i (some e1) }

/-- A response that fits its snoop, for one line (03 Table 3.5, R89). The result says whether the host departs. -/
def State.takeAnswer (s : State) (e : SnoopEntry) (h : HostId) (rsp : SnoopRsp) (line : Nat) : State × Bool :=
  let o := e.req.owner
  match rsp, e.req.kind with
  | .i, _ => (s.setAnswer o h line .i, false)
  | .s, .inv | .e, .inv => (s, true)
  | .s, _ => (s.setAnswer o h line .s, false)
  | .e, k =>
    if !s.ownerMay o h line ∨ s.otherOwner o h line then (s, true)
    else if k = .data then (s.toInvalidate o h line, false)
    else (s.setAnswer o h line .e, false)

/-- BIRSP (02 R63, R65): matched by its BITag, discarded with PROTO_ERR where it fits no outstanding line, a departure where it
reports a state the host cannot hold, else combined. A block response that comes after single ones answers the lines still open: the
spec does not say how the two go together (DESIGN CHOICE, log 103). An answer to a snoop that DRAIN resolved is discarded (08 R284,
log 31). -/
def execBirsp (h : HostId) (bitag : BitVec 8) (rsp : SnoopRsp) (blk : Bool) (addr : Word) (s : State) :
    Outcome State Fault Refusal :=
  if s.portClosed h then .next s
  else
    let s0 := s.count h.val 9
    match (s.port h).table.look none bitag.toNat with
    | none => .next (if (s.port h).drained.contains bitag.toNat then s0 else s0.protoErr h (rspOpcode rsp blk) 2 0)
    | some e =>
      let lines := if blk then e.open_ else if e.req.lines = 1 then [e.req.line] else [lineOf addr]
      if (blk ∧ e.req.lines = 1) ∨ !lines.all (fun l => e.open_.contains l) then
        .next (s0.protoErr h (rspOpcode rsp blk) 2 (dpaOf e.req.line))
      else
        let bad := lines.any fun l => (s0.takeAnswer e h rsp l).2
        if bad then .next (s0.depart h 4)
        else
          let s1 := s0.entryAnswered h bitag.toNat e lines
          let s2 := lines.foldl (fun s l => (s.takeAnswer e h rsp l).1) (s1.passDone e.req.owner.slice)
          .next (s2.moveOwner e.req.owner)

/-- BICONFLICT (07 R232): answered with BIConflictAck at once, in any mode that takes messages. -/
def execBiconflict (h : HostId) (addr : Word) (s : State) : Outcome State Fault Refusal :=
  if s.portClosed h then .next s
  else .next ((s.count h.val 10).answerHost h (.biConflictAck (lineOf addr) (s.devLoad (s.homeOf (lineOf addr)))))

/-- SNOOP_REOFFER (02 R61): the first snoop that waits for the table takes the entry that freed. -/
def execSnoopReoffer (h : HostId) (s : State) : Outcome State Fault Refusal :=
  match (s.port h).offered, s.freeBiTag h with
  | r :: rest, some _ => .next ((s.modPort h fun x => { x with offered := rest }).enterSnoop h r)
  | _, _ => .next s

/-! ### Snoop timers (02 R66 to R68) -/

/-- FENCE_MS as it acts, in us. -/
def State.fenceUs (s : State) (h : HostId) : Nat := max 1 (s.rd (HP_BI_TIMERS.FENCE_MS h.val)) * 1000

/-- BI_WARN_EXPIRY (02 R67): BI_WARN, and the notice, once per snoop and once per HP in any 10 us. -/
def execBiWarnExpiry (h : HostId) (bitag : BitVec 8) (s : State) : Outcome State Fault Refusal :=
  let w := s.rd (HP_BI_TIMERS.WARN_US h.val)
  match (s.port h).table.look none bitag.toNat with
  | none => .next s
  | some e =>
    if w = 0 ∨ s.fenceUs h ≤ w ∨ e.warned ∨ s.now < e.since + w then .next s
    else
      let s1 := (s.wr (HP_STATUS.BI_WARN h.val) 1).modPort h fun x =>
        { x with table := x.table.put none bitag.toNat (some { e with warned := true }) }
      let quiet := match (s.port h).lastWarn with | some t => decide (s.now < t + 10) | none => false
      .next (if quiet then s1
        else (s1.modPort h fun x => { x with lastWarn := some s.now }).notice 2 0x10 1 h.val bitag.toNat (dpaOf e.req.line))

/-- BI_FENCE_EXPIRY (02 R68): the port is husked, the host departs, and the fence notice is raised. -/
def execBiFenceExpiry (h : HostId) (bitag : BitVec 8) (s : State) : Outcome State Fault Refusal :=
  match (s.port h).table.look none bitag.toNat with
  | none => .next s
  | some e =>
    if s.now < e.since + s.fenceUs h then .next s
    else
      let s1 := (s.wr (HP_STATUS.BI_FENCE h.val) 1).depart h 3
      .next (s1.notice 2 0x11 3 h.val ((s1.inc12 h).toNat + bitag.toNat * 2 ^ 12) (dpaOf e.req.line))

/-! ### Link reports of the controller (17 R492, 02 R48, R71, R79) -/

/-- LINK_UP (02 R48). In HOLD the port island is off and nothing is taken. -/
def execLinkUp (h : HostId) (s : State) : Outcome State Fault Refusal :=
  if s.mode = 0 then .next s else .next (s.wr (HP_STATUS.LINK h.val) 1)

/-- A link reset reported for a port: of a husked port it is noted for 02 R74, else its host departs. -/
def State.linkReset (s : State) (h : HostId) (cause : Nat) : State :=
  if s.on (HP_CTRL.HUSK h.val) then s.modPort h fun x => { x with linkReset := true } else s.depart h cause

/-- LINK_DOWN (02 R71). -/
def execLinkDown (h : HostId) (s : State) : Outcome State Fault Refusal :=
  if s.mode = 0 then .next s
  else .next (((s.wr (HP_STATUS.LINK h.val) 0).wr (HP_STATUS.WIDTH h.val) 3).linkReset h 0)

/-- HOT_RESET (02 R71). -/
def execHotReset (h : HostId) (s : State) : Outcome State Fault Refusal :=
  if s.mode = 0 then .next s else .next (s.linkReset h 1)

/-- BI_ENABLE_CHANGE (02 R71): a change from 1 to 0 is a departure. -/
def execBiEnableChange (h : HostId) (en : Bool) (s : State) : Outcome State Fault Refusal :=
  if s.mode = 0 then .next s
  else
    let s1 := s.wb (HP_STATUS.BI_EN h.val) en
    .next (if s.on (HP_STATUS.BI_EN h.val) && !en then s1.depart h 2 else s1)

/-- The code of a width in HP_STATUS.WIDTH (02 Table 2.3). -/
def widthCode : LinkWidth → Nat
  | .x8 => 0
  | .x16 => 1
  | .x2 => 2
  | .down => 3

/-- WIDTH_REPORT (17 R492, 09 R301): a host that raises its link from partial width ends DORMANT. -/
def execWidthReport (h : HostId) (w : LinkWidth) (hostInitiated : Bool) (s : State) : Outcome State Fault Refusal :=
  if s.mode = 0 then .next s
  else
    let raised := hostInitiated && s.rd (HP_STATUS.WIDTH h.val) == 2 && decide (widthCode w < 2)
    let s1 := s.wr (HP_STATUS.WIDTH h.val) (widthCode w)
    .next (if raised then s1.dormTrigger 6 h.val else s1)

/-- L0P_REFUSED (02 R79). -/
def execL0pRefused (h : HostId) (s : State) : Outcome State Fault Refusal :=
  if s.mode = 0 then .next s
  else .next ((s.wr (HP_STATUS.L0P_REFUSED h.val) 1).modPort h fun x => { x with narrowed := false })

/-! ### GPF (02 R78, 08 R282, R285) -/

/-- GPF_PHASE1 (02 R78): no action. -/
def execGpfPhase1 (_h : HostId) (s : State) : Outcome State Fault Refusal := .next s

/-- GPF_PHASE2 (02 R78, 08 R285): with GPF_DRAIN 1 it enters DRAIN, the first time; the acknowledgement then waits for the
port's writes. -/
def execGpfPhase2 (h : HostId) (s : State) : Outcome State Fault Refusal :=
  if s.mode < 2 ∨ s.mergedAway h then .next s
  else
    let s1 := s.modPort h fun x => { x with gpf2 := true, gpfAcked := false }
    .next (if s.on (HP_CTRL.GPF_DRAIN h.val) ∧ s.mode ≠ 4 then s1.enterDrain 4 h.val else s1)

/-- Whether a write of a port holds a tracker and has no Cmp yet. -/
def State.portWrites (s : State) (h : HostId) : Bool :=
  allSlices.any fun p => (s.sl p).trackers.any fun t => t.req.agent == .host h && t.req.cls.write && !t.responded

/-- GPF_PHASE2_ACK (02 R78, 08 R285). -/
def execGpfPhase2Ack (h : HostId) (s : State) : Outcome State Fault Refusal :=
  if !(s.port h).gpf2 ∨ s.portWrites h ∨ (s.on (HP_CTRL.GPF_DRAIN h.val) ∧ s.mode ≠ 4) then .next s
  else .next ((s.modPort h fun x => { x with gpf2 := false, gpfAcked := true }).emit (.gpfAck h))

/-! ### The husk (02 R71, R74) -/

/-- HP_HUSK_WRITE (02 R71). -/
def execHpHuskWrite (h : HostId) (s : State) : Outcome State Fault Refusal :=
  match s.mode with
  | 0 => .next s
  | _ =>
    -- 11 Table 11.9: on a permanent escalation firmware records the port as disabled
    let mask := hsOne h ||| ((s.store.repair.filterMap fun e => match e with | .hpDisabled m => some m | _ => none).getLast?.getD 0#16)
    let asked := s.on (FLT_SRC_COUNT.PERM h.val) && s.rd (FLT_SRC_CFG.ACTION h.val) == 1
    .next (if asked then (s.depart h 5).commit (.hpDisabled mask) else s.depart h 5)

/-- HP_ENABLE_CLEAR (02 R47, R71). -/
def execHpEnableClear (h : HostId) (s : State) : Outcome State Fault Refusal :=
  if s.mode = 0 then .next s else .next ((s.wr (HP_CTRL.ENABLE h.val) 0).depart h 6)

/-- HUSK_CLEAR (02 R74). -/
def execHuskClear (h : HostId) (s : State) : Outcome State Fault Refusal :=
  if s.on (HP_CTRL.HUSK h.val) ∧ !s.on (HP_STATUS.SWEEP h.val) ∧ s.on (HP_STATUS.LINK h.val) ∧ (s.port h).linkReset then
    .next (((s.wr (HP_CTRL.HUSK h.val) 0).wr (HP_STATUS.HUSKED h.val) 0).modPort h fun x => { x with linkReset := false })
  else .next s

/-! ### Credits (02 R69) -/

/-- HOST_CREDIT_ADVERTISED (02 R69): the credits are held, and messages of their class that wait leave. -/
def execHostCreditAdvertised (h : HostId) (cls : S2mClass) (n : Nat) (s : State) : Outcome State Fault Refusal :=
  if s.mode = 0 then .next s
  else
    let s1 := s.modPort h fun x => x.setCredits cls (x.credits cls + n)
    .next (State.release h cls (s.port h).egress.length s1)

end Sys2Proof.Machine
end

