-- ==== Sys2Proof/Machine/Tracker.lean ====
section
/-! DEFINITION. The commands of the trackers and wait queues (chapter 7) and of the spill map and spill limiter
(04 R119, R125, R126). -/

namespace Sys2Proof.Machine

open Host (Outcome)

/-! ### Trackers -/

/-- TRACKER_FREE (07 R222, R227): a tracker with nothing left to end frees its line, and the stops that waited for it go on (01 R22, 07
R225). A sweeper's tracker that leaves a state other than I makes its visit unclean (04 R133). -/
def execTrackerFree (p : PhysSlice) (trk : Nat) (s : State) : Outcome State Fault Refusal :=
  match s.trk p trk with
  | none => .next s
  | some t =>
    if !t.complete then .next s
    else
      let s1 := if t.req.cls == .sweep && t.after != .i then s.sweepDirty p else s
      let s2 := s1.freeTracker p trk
      .next ((if t.req.cls == .urgent then s2.urgentEnd else s2).drainIngress p).pump

/-- FILTER_WAY_RETRY (04 R114): a request whose state after is not recorded tries its allocation again, in a replay (15 R460). -/
def execFilterWayRetry (p : PhysSlice) (trk : Nat) (s : State) : Outcome State Fault Refusal :=
  match s.trk p trk with
  | none => .next s
  | some t =>
    .next (if t.toRecord then (s.replay p trk).advance p trk else s)

/-- HC_WAY_RETRY (05 R154): a request that found no replaceable way tries its allocation again. -/
def execHcWayRetry (p : PhysSlice) (trk : Nat) (s : State) : Outcome State Fault Refusal :=
  match s.trk p trk with
  | none => .next s
  | some t =>
    .next (if t.phase = .hcWay then ((s.replay p trk).modTrk p trk fun t => { t with phase := .data }).advance p trk else s)

/-- BUDGET_WAIT_PROCEED (05 R160): with the dirty count below the quota the first request that waits for it proceeds, to its media
read or to its merge. -/
def execBudgetWaitProceed (p : PhysSlice) (s : State) : Outcome State Fault Refusal :=
  match (s.sl p).budgetQ with
  | [] => .next s
  | id :: rest =>
    if s.atQuota p then .next s
    else
      let s1 := ((s.replay p id).modSl p fun x => { x with budgetQ := rest }).modTrk p id fun t =>
        { t with budget := true, phase := if t.phase = .budget then .data else t.phase }
      .next ((s1.earlyRead p id).advance p id)

/-- REQUEST_AGED (07 R228, R236): a request that has waited AGE_US becomes aged, and may then take a tracker that only an
aged request may (07 Table 7.1). With AGE_US 0 no request is aged. -/
def execRequestAged (p : PhysSlice) (req : Nat) (s : State) : Outcome State Fault Refusal :=
  match (s.sl p).waitq.find? fun w => w.req.id == req with
  | none => .next s
  | some w =>
    let us := s.rd (SL_WAITQ_AGING.AGE_US p.val)
    if w.aged ∨ us = 0 ∨ s.now < w.since + us then .next s
    else
      let s1 := s.modSl p fun x => { x with waitq := x.waitq.map fun v => if v = w then { v with aged := true } else v }
      .next (((s1.count (16 + p.val) 25).inc (SL_WAITQ_AGING.AGED_COUNT p.val)).drainWait p)

/-! ### The spill map (04 R125, R126) -/

/-- A spill map message, changed or ended. -/
def State.setMsg (s : State) (msg : Nat) (m : Option SpillMsg) : State := { s with fabric := s.fabric.put none msg m }

/-- A segment message that has reached a husked slice is answered with an error by the fence responder, and its home sends it again,
to the slice that the PS field in force names (01 R21, 04 R128). -/
def State.resendMsg (s : State) (msg : Nat) (m : SpillMsg) : State :=
  (s.emit (.ringError (sliceStop m.owner.slice.val) (sliceStop m.holder.val) (m.chunk * 2 ^ 20))).setMsg msg
    (some { m with holder := s.holderOf m.chunk })

/-- SPILL_MAP_SET (04 R125): the holder sets the bit and acknowledges. -/
def execSpillMapSet (msg : Nat) (s : State) : Outcome State Fault Refusal :=
  match s.fabric.look none msg with
  | none => .next s
  | some m =>
    if !m.set ∨ m.acked then .next s
    else if s.slHusked m.holder then .next (s.resendMsg msg m)
    else .next ((s.holderSet m.holder m.chunk).setMsg msg (some { m with acked := true }))

/-- SPILL_MAP_SET_ACK (04 R125): the tracker or victim way that waits for the acknowledgement has it. -/
def execSpillMapSetAck (msg : Nat) (s : State) : Outcome State Fault Refusal :=
  match s.fabric.look none msg with
  | none => .next s
  | some m =>
    if !m.acked then .next s
    else
      let s1 := s.setMsg msg none
      match m.owner with
      | .tracker p id => .next (s1.modTrk p id fun t => { t with setAcks := t.setAcks - 1 })
      | .victim p id => .next ((s1.modVictim p id fun v => { v with setAck := false }).finishVictim p id)

/-- SPILL_MAP_QUERY (04 R126, 03 R82): the holder answers a query, and the derivation goes on with the bit. -/
def execSpillMapQuery (msg : Nat) (s : State) : Outcome State Fault Refusal :=
  match s.fabric.look none msg with
  | none => .next s
  | some m =>
    if m.set then .next s
    else if s.slHusked m.holder then .next (s.resendMsg msg m)
    else
      let s1 := s.setMsg msg none
      match m.owner with
      | .victim _ _ => .next s1
      | .tracker p id =>
        match s1.trk p id with
        | none => .next s1
        | some t =>
          let s2 := match t.phase, s1.derive p (rgMask t.region) t.req.line with
            | .query, .needMap =>
              let s2 := s1.checkSpill m.holder m.chunk
              s2.mapKnown p t ((s2.sl m.holder).spillBit m.chunk)
            | _, _ => s1
          .next (s2.advance p id)

/-- SPILL_TOKEN_TICK (04 R119): every slice's bucket gains SPILL_RATE tokens, up to SPILL_BURST. Tokens above a depth that has been
lowered are kept: the spec does not say that they are lost (DESIGN CHOICE, log 104). -/
def execSpillTokenTick (s : State) : Outcome State Fault Refusal :=
  if s.mode = 0 then .next s
  else .next (allSlices.foldl (fun s p =>
    let b := s.spillBurst p
    let t := s.rd (SL_SF_CTRL.TOKENS p.val)
    s.wr (SL_SF_CTRL.TOKENS p.val) (max t (min b (t + s.rd (SL_SF_CTRL.SPILL_RATE p.val))))) s)

end Sys2Proof.Machine
end

