-- ==== Sys2Proof/Machine/Fault.lean ====
section
/-! DEFINITION. The commands of the fault collector (chapter 11): events on a source's pairs, wiring faults, windows, closing a
record, PIP and its watchdog. The collector is off in HOLD. -/

namespace Sys2Proof.Machine

open Host (Outcome)

/-- Whether the collector takes events of a source: it runs outside HOLD, and 0x5B and 0x5D to 0x5F have no pairs (11 Table
11.1, R355). -/
def State.takesEvents (s : State) (src : SourceId) : Bool :=
  s.mode != 0 && src.val != 0x5B && !decide (0x5D ≤ src.val)

/-- MINOR_EVENT (11 R342, R345). -/
def execMinorEvent (src : SourceId) (info : BitVec 40) (s : State) : Outcome State Fault Refusal :=
  .next (if s.takesEvents src then s.minor src.val info else s)

/-- MAJOR_EVENT (11 R342, R345, R348). -/
def execMajorEvent (src : SourceId) (info : BitVec 40) (s : State) : Outcome State Fault Refusal :=
  .next (if s.takesEvents src then s.major src.val info else s)

/-- FATAL_DECLARATION (11 R342, R348): one declaration of a source is recorded. -/
def execFatalDeclaration (src : SourceId) (info : BitVec 40) (s : State) : Outcome State Fault Refusal :=
  .next (if s.takesEvents src && !s.on (FLT_SRC_COUNT.FATAL src.val) then s.fatal src.val info else s)

/-- WIRING_FAULT (11 R343): a wiring event of source 0x5B that names the source and the pair, and the escalation of the
source, whatever its MASK; its pairs are ignored from then on. -/
def execWiringFault (src : SourceId) (onMajor : Bool) (s : State) : Outcome State Fault Refusal :=
  if !s.takesEvents src ∨ s.srcIgnored src.val then .next s
  else
    let info := BitVec.ofNat 40 (src.val + onMajor.toNat * 2 ^ 8)
    let s1 := (s.wr (FLT_SRC_COUNT.WIRED src.val) 1).openRecord 0x5B 8 false info
    .next (if s1.on (FLT_SRC_COUNT.PERM src.val) then s1 else s1.escalate src.val false info)

/-- WINDOW_RESTART (11 R346): counter A restarts at every k·W µs of the timestamp, counter B half a window later. -/
def execWindowRestart (src : SourceId) (counterB : Bool) (s : State) : Outcome State Fault Refusal :=
  let w := max 1 (s.rd (FLT_SRC_CFG.W_US src.val))
  if s.now % w ≠ (if counterB then w / 2 else 0) then .next s
  else .next (s.wr (if counterB then FLT_SRC_COUNT.CNT_B src.val else FLT_SRC_COUNT.CNT_A src.val) 0)

/-- HANDLING_CLOSE (11 R350). -/
def execHandlingClose (s : State) : Outcome State Fault Refusal :=
  if s.mode = 0 then .next s else .next (s.wr FLT_HANDLING.HANDLING 0)

/-- PERM_CLEAR (11 R347). -/
def execPermClear (src : SourceId) (s : State) : Outcome State Fault Refusal :=
  if s.mode = 0 then .next s else .next (s.wr (FLT_SRC_COUNT.PERM src.val) 0)

/-- The watchdog's time in ms; 0 acts as 1 (11 R358). -/
def State.wdTime (s : State) : Nat := max 1 (s.rd FLT_PIP_CTRL.WD_MS)

/-- WATCHDOG_FEED (11 R352, R353): the watchdog is reloaded; the first write after entry to SPROUT starts PIP with its edge
from 0 to 1. Once stopped, PIP starts again only after HOLD. -/
def execWatchdogFeed (s : State) : Outcome State Fault Refusal :=
  if s.mode = 0 then .next s
  else
    let s1 := s.modAon fun a => { a with wdStart := a.time / 1000, fed := true }
    if s.on FLT_PIP_CTRL.RUNNING ∨ s.rd FLT_PIP_CTRL.STOP_CAUSE ≠ 0 ∨ s.on FLT_HANDLING.FROZEN then .next s1
    else
      let s2 := (s1.wr FLT_PIP_CTRL.RUNNING 1).wr FLT_PIP_CTRL.LEVEL 1
      .next ((s2.modAon fun a => { a with pip := true, lastEdge := a.time }).emit (.pipEdge true))

/-- WATCHDOG_EXPIRY (11 R353): at 0 PIP stops and a fatal event of the core that BOOT_CORE_MAP.LC_0 names is recorded; its
info word is the core's, and free (log 1). -/
def execWatchdogExpiry (s : State) : Outcome State Fault Refusal :=
  if s.mode = 0 ∨ !s.aon.fed ∨ s.now / 1000 < s.aon.wdStart + s.wdTime ∨ s.rd FLT_PIP_CTRL.STOP_CAUSE ≠ 0 then .next s
  else
    let src := 0x4A + s.rd BOOT_CORE_MAP.CORES % 8
    .next ((s.stopPip 2).draw.openRecord src 4 false ((Config.freeWord s.freeTick).extractLsb' 0 40))

/-- The toggle period of PIP in µs (11 R352, R358). -/
def State.pipPeriod (s : State) : Nat := min 1000 (max 1 (s.rd FLT_PIP_CTRL.PERIOD)) * 100

/-- PIP_TOGGLE (11 R352): PIP changes level every PERIOD x 100 µs while it runs. -/
def execPipToggle (s : State) : Outcome State Fault Refusal :=
  if !s.on FLT_PIP_CTRL.RUNNING ∨ s.now < s.aon.lastEdge + s.pipPeriod then .next s
  else
    let l := !s.aon.pip
    .next (((s.wb FLT_PIP_CTRL.LEVEL l).modAon fun a => { a with pip := l, lastEdge := a.time }).emit (.pipEdge l))

end Sys2Proof.Machine
end

