-- ==== Sys2Proof/Machine/Power.lean ====
section
/-! DEFINITION. The commands of the power manager (09 R307 to R310, 17 R498) and of the clock monitor (17 R496). -/

namespace Sys2Proof.Machine

open Host (Outcome)

/-- OPP_TARGET_WRITE (09 R307, R308): the target is set, and a change of operating point begins where it asks for one. -/
def execOppTargetWrite (p : PhysSlice) (opp : BitVec 3) (s : State) : Outcome State Fault Refusal :=
  if s.mode = 0 then .next s
  else
    let s1 := s.wr (SL_DVFS.OPP_TARGET p.val) opp.toNat
    .next (if s.slHusked p then s1 else s1.retarget p)

/-- REGULATOR_SETTLED (17 R498, 09 R307): a rail that rose is followed by the clock switch; the change ends, and one that the
target asks for now begins. -/
def execRegulatorSettled (p : PhysSlice) (s : State) : Outcome State Fault Refusal :=
  match (s.sl p).ramp with
  | none => .next s
  | some r =>
    let s1 := if r.up then (s.wr (SL_DVFS.OPP_NOW p.val) r.target).inc (SL_DVFS.SWITCHES p.val) else s
    .next (((s1.modSl p fun x => { x with ramp := none }).wr (SL_DVFS.BUSY p.val) 0).retarget p)

/-- REGULATOR_TIMEOUT (17 R498): an event of source 0x58, whose info word is not laid out (log 1); the slice stays at its old
clock. -/
def execRegulatorTimeout (p : PhysSlice) (s : State) : Outcome State Fault Refusal :=
  if (s.sl p).ramp.isNone then .next s
  else .next (s.draw.major 0x58 ((Config.freeWord s.freeTick).extractLsb' 0 40))

/-- THERMAL_READING (09 R309, Table 9.16: HOT_C above 108 acts as 108, HYST_C 0 as 1): `tj` is the junction temperature in °C plus 40,
as PWR_STATUS.TJ codes it. The first reading at or above 110 °C sets the ceiling to OPP 3 with a severe event of 0x5C; a reading below
110 °C ends that stretch. -/
def execThermalReading (tj : BitVec 8) (s : State) : Outcome State Fault Refusal :=
  if s.mode = 0 then .next s
  else
    let t := tj.toNat
    let hot := min 108 (s.rd PWR_THERM.HOT_C) + 40
    let cool := hot - max 1 (s.rd PWR_THERM.HYST_C)
    let ceil := s.rd PWR_STATUS.CEIL
    let s1 := s.wr PWR_STATUS.TJ t
    let s2 :=
      if 150 ≤ t ∧ !s.aon.hotSeen then
        ((s1.wr PWR_STATUS.CEIL 3).modAon fun a => { a with hotSeen := true }).major 0x5C (BitVec.ofNat 40 t)
      else if hot ≤ t then s1.wr PWR_STATUS.CEIL (max 3 (ceil - 1))
      else if t < cool then s1.wr PWR_STATUS.CEIL (min 7 (ceil + 1))
      else s1
    .next ((if t < 150 then s2.modAon fun a => { a with hotSeen := false } else s2).retargetAll)

/-- CLOCK_MONITOR_CHECK (17 R496): an event of source 0x59 for each island beyond ±2 %. -/
def execClockMonitorCheck (outOfTolerance : List Nat) (s : State) : Outcome State Fault Refusal :=
  if s.mode = 0 then .next s
  else .next (outOfTolerance.foldl (fun s i => s.major 0x59 (BitVec.ofNat 40 (i % 16))) s)

end Sys2Proof.Machine
end

