-- ==== Sys2Proof/Machine/Firmware.lean ====
section
/-! DEFINITION. What firmware train 7.2 and the slice map do as shared operations: event records (13 R427), owner copies
(12 R379), the dirty budget of a degraded block (08 R289), writes of the slice map and the cutover of a slice (01 R31, 04 R127,
05 R178, 07 R250), the region table, the parts of a scrub pass. -/

namespace Sys2Proof.Machine

open Host (Outcome)

/-! ### Event records (13 R427) -/

/-- A record is placed in a device event log of 64 records, 0 Informational to 3 Fatal; a full log loses its oldest. The event
interrupt goes to the managing head. -/
def State.logRecord (s : State) (log : Nat) (words : List Native) : State :=
  let l := s.fw.logs.look [] log
  let full := decide (64 ≤ l.length)
  let fw := { s.fw with
    logs := s.fw.logs.put [] log ((if full then l.drop 1 else l) ++ [words]),
    overflow := if full then s.fw.overflow.put 0 log (s.fw.overflow.look 0 log + 1) else s.fw.overflow }
  let s1 := { s with fw := fw }
  if s.on MBX_CTRL.MANAGING_VALID then s1.emit (.eventInterrupt (s.rd MBX_CTRL.MANAGING_HP)) else s1

/-- The log of a priority: 0 and 1 Informational, 2 Warning, 3 Failure. -/
def logOf (prio : Nat) : Nat := if prio < 2 then 0 else prio - 1

/-- An event firmware raises itself (13 Table 13.13). -/
def State.fwEvent (s : State) (typ prio info payload : Nat) : State :=
  s.logRecord (logOf prio) [noticeWord typ prio 1 0 info payload]

/-! ### Owner copies (12 R379) -/

/-- The newest owner copy that firmware has written, programs under way included, with the area it lies in. -/
def Store.newest (t : Store) : Option (Bool × OwnerCopy) :=
  match (t.programs.filterMap fun w => match w with | .owner b c => some (b, c) | _ => none).getLast? with
  | some c => some c
  | none => t.owner.map fun c => (!(t.copyA.valid && t.copyA == c), c)

/-- A complete new owner copy with a key's record replaced or removed, into the area not in force. -/
def State.setOwner (s : State) (key : Nat) (v : Option Word) : State :=
  if s.store.stopped then s
  else
    let (area, c) := match s.store.newest with
      | some (b, c) => (!b, c)
      | none => (false, OwnerCopy.mk false 0 [])
    let rs := (c.records.filter fun r => r.key != key) ++ (match v with | some v => [⟨key, v, true⟩] | none => [])
    let w := StoreWrite.owner area ⟨true, c.seq + 1, rs⟩
    { s with store := { s.store with programs := s.store.programs ++ [w] } }.emit .storeProgram

/-- The owner's setting of a key as firmware knows it, its own programs under way included (12 R378). -/
def Store.known (t : Store) (key : Nat) : Option Word :=
  match if key < 0x10 then none else t.newest.bind fun c => findRecord c.2.records key with
  | some v => some v
  | none => findRecord t.factory key

/-! ### The budget of a degraded block (08 R289) -/

/-- The host write volume V_HOST in MiB (08 Table 8.7). -/
def State.vHost (s : State) : Nat := match s.store.known 0x0023 with | some v => v.toNat | none => 0
/-- The budget the owner set, in MiB. -/
def State.ownerBudget (s : State) : Nat := match s.store.known 0x0020 with | some v => v.toNat | none => 64
/-- The persistence mode the owner set. -/
def State.ownerWt (s : State) : Bool := match s.store.known 0x0021 with | some v => v.getLsbD 0 | none => false

/-- The microseconds a number of MiB takes at a rate in GB/s, rounded up. -/
def flushUs (rate mib : Nat) : Nat := (mib * 1048576 + (rate * 1000 - 1)) / (rate * 1000)

/-- The drain rate in GB/s: D_rate of 08 Table 8.8. -/
def State.drainRate (s : State) : Nat := if (List.range 4).any s.abnormal then 160 else 192

/-- A group leaves the normal state: the budget is lowered, or write-through is selected (08 R289). -/
def State.lowerBudget (s : State) (g : Nat) : State :=
  if s.fw.ownerBudget.isSome then s
  else
    let b := s.ownerBudget
    let v := s.vHost
    let s1 := { s with fw := { s.fw with ownerBudget := some (b, s.ownerWt) } }
    let n := (b + v) * 160 / 192
    if v + 1 ≤ n then (s1.wr GLB_DIRTY_BUDGET.BUDGET_MIB (n - v)).quotaCheck
    else
      let s2 := s1.setWt true
      if (b + v) * 160 < v * 192 then s2.fwEvent 0xE1 3 g (s.tHost + flushUs 160 v + 200) else s2

/-- With every group normal again the owner's budget and persistence mode are restored (08 R289). -/
def State.restoreBudget (s : State) : State :=
  if (List.range 4).any s.abnormal then s
  else match s.fw.ownerBudget with
    | none => s
    | some _ =>
      let s1 := { s with fw := { s.fw with ownerBudget := none } }
      (s1.wr GLB_DIRTY_BUDGET.BUDGET_MIB s.ownerBudget).setWt s.ownerWt

/-- Firmware's budget follows the groups: lowered when one leaves the normal state, by whatever cause, and the owner's again with every
group normal (08 R289). -/
def State.budgetFollow (s : State) : State :=
  match (List.range 4).find? s.abnormal with
  | some g => s.lowerBudget g
  | none => s.restoreBudget

/-! ### Parts of a scrub pass (10 R329, R331) -/

/-- A pass ends when every part has ended; after a patrol pass firmware commits the patrol's next chunk (10 R334). -/
def State.scrubCheck (s : State) : State :=
  if s.on SCRUB_STATUS.BUSY ∧ s.rd SCRUB_STATUS.PENDING = 0 ∧ !s.on SCRUB_STATUS.CTRL_PENDING
    ∧ !s.on SCRUB_STATUS.MEDIA_PENDING then
    let s1 := s.endScrub false
    match s.fw.patrol with
    | none => s1
    | some n => { s1 with fw := { s1.fw with patrol := none }, boot := { s1.boot with patrolNext := n } }.commit (.patrol n)
  else s

/-- A slice's part of a scrub pass ends. -/
def State.scrubPartEnd (s : State) (p : PhysSlice) : State :=
  if s.rd SCRUB_STATUS.PENDING / 2 ^ p.val % 2 = 1 then
    (s.wr SCRUB_STATUS.PENDING (s.rd SCRUB_STATUS.PENDING - 2 ^ p.val)).scrubCheck
  else s

/-! ### The slice map (01 R28 to R31) -/

/-- A logical slice passes from one physical slice to another (04 R127, 05 R178, 08 R274, 10 R329): the new segment is all
ones, the old slice's reservations clear, and its parts of range, scrub and sweep end; the visit of a chunk that it leaves
unfinished goes on in the new slice as not clean, and its walks have nothing left to do. -/
def State.cutover (s : State) (old new : PhysSlice) : State :=
  let part := (s.sl old).sweep.map fun v => { v with clean := false }
  let hs := match (s.sl old).walk with | some w => w.hosts.map Prod.fst | none => []
  let s1 := s.modSl old fun x => { x with reserved := [], sweep := none, walk := none }
  let s2 := (s1.modSl new fun x => { x with segOnes := true, segment := [], sweep := part }).wr (SL_SF_CTRL.FORGET old.val) 0
  let s3 := if (s2.sl old).range.isSome then s2.rangePartEnd old else s2
  hs.foldl (fun s h => s.sweepDone h) (s3.scrubPartEnd old)

/-- A write of GLB_SLICE_MAP0, or of GLB_SLICE_MAP1 with `high` (01 R30, R31). -/
def State.writeSliceMap (s : State) (high : Bool) (v : Word) : State :=
  let base := if high then 8 else 0
  let ls := (List.range 8).map (base + ·)
  let new (j : Nat) : Nat := getBits v (8 * (j - base)) 5
  let hold (j : Nat) : Bool := getBits v (8 * (j - base) + 7) 1 == 1
  let all := (List.range 16).map fun j => if ls.contains j then new j else s.rd (mapPs j)
  let changed (j : Nat) : Bool := new j != s.rd (mapPs j)
  -- a write that changes only HOLD bits is always accepted
  let bad := ls.any changed && (ls.any (fun j => decide (17 < new j) || s.on (SL_CTRL.HUSK (new j))) ||
    (s.mode != 1 && (!distinct all || ls.any fun j => changed j && !s.on (mapHold j))))
  if s.mode = 0 then s
  else if bad then s.wr GLB_HASH_CTRL.MAP_ERR 1
  else
    let s1 := ls.foldl (fun s j => (s.wr (mapPs j) (new j)).wb (mapHold j) (hold j)) s
    let moved := ls.filter changed
    let s2 := if s.mode = 1 then s1 else moved.foldl (fun t j => t.cutover (s.psOf j) (toSlice (new j))) s1
    if ls.any fun j => s.on (mapHold j) && !hold j then s2.pump else s2

/-- One byte of the slice map written, the others as they are. -/
def State.writeMapByte (s : State) (j ps : Nat) (hold : Bool) : State :=
  let high := decide (8 ≤ j)
  let old := s.reg (if high then GLB_SLICE_MAP1.reg else GLB_SLICE_MAP0.reg)
  s.writeSliceMap high (putBits old (8 * (j % 8)) 8 (ps + hold.toNat * 128))

/-- A write of SL_LOGICAL_ID (12 R393). -/
def State.writeLogicalId (s : State) (p : PhysSlice) (v : Word) : State :=
  let ignored := s.mode == 0 || (s.mode != 1 && s.active p) || s.slHusked p
    || (getBits v 4 1 == 1 && s.rd (SL_LOGICAL_ID.HEALTH p.val) != 0)
  if ignored then s
  else ((s.wr (SL_LOGICAL_ID.LS p.val) (getBits v 0 4)).wr (SL_LOGICAL_ID.VALID p.val) (getBits v 4 1)).drainIngress p

/-! ### The region table (01 R33, R37 to R39) -/

/-- The region entry that the first slice that is not husked holds, as the port reads it. -/
def State.regionEntry (s : State) (i : Nat) : BitVec 32 :=
  match allSlices.find? fun p => !s.slHusked p with
  | some p => (s.sl p).regions.look 0#32 i
  | none => 0#32

/-- Whether a write of a region entry is refused (01 R39); bits [15:10] are reserved (01 Table 1.7). -/
def State.regionRefused (s : State) (i : Nat) (e : BitVec 32) : Bool :=
  let hosts := (hsList (rgMask e)).length
  ((rgMode e == 2 || rgMode e == 3) && hosts != 1)
    || (decide (s.rd GLB_CAPS.DPA_REGIONS ≤ i) && rgMode e != 0)
    || (rgKey e != rgKey (s.regionEntry i) && rgMode (s.regionEntry i) != 0)
    || e.extractLsb' 10 6 != 0#6

/-- An entry written into the copy of every slice that is not husked (01 R38, R39): it is half a code word (10 R314). -/
def State.putRegion (s : State) (i : Nat) (e : BitVec 32) : State :=
  (allSlices.filter fun p => !s.slHusked p).foldl (fun s p =>
    (s.modSl p fun x => { x with regions := x.regions.put 0#32 i e }).patchWords p [regionWord i]) s

/-- Firmware writes an entry through GLB_REGION_PORT, which is not refused (01 R37, R38). -/
def State.writeRegion (s : State) (i : Nat) (e : BitVec 32) : State :=
  ((s.wr GLB_REGION_PORT.INDEX i).wr GLB_REGION_PORT.ENTRY e.toNat).putRegion i e

/-- A region's entry is written, and its owner record kept or, for 0, deleted (01 R41). -/
def State.regionDone (s : State) (i : Nat) (e : BitVec 32) : State :=
  (s.writeRegion i e).setOwner (0x4000 + i) (if e = 0#32 then none else some (e.setWidth 64))

/-! ### Firmware images (12 R384, R385; log 7) -/

/-- The image of a slot. -/
def Store.image (t : Store) (n : Nat) : FwImage := if n = 1 then t.slot1 else if n = 2 then t.slot2 else FwImage.none

/-- A number that names the fields of an image's header. -/
def headerNumber (i : FwImage) : Nat :=
  i.hashes.foldl (fun a d => a * 2 ^ 384 + d.toNat)
    ((((1 * 2 ^ 32 + i.format.toNat) * 2 ^ 16 + i.train.toNat) * 2 ^ 16 + i.oldestLayout.toNat) * 2 ^ 32
      + i.entry * 2 ^ 16 + i.blocks)

/-- The number of the bytes of a block of an image. -/
def blockNumber (i : FwImage) (k : Nat) : Nat := if k = 0 then 2 * headerNumber i + 1 else contentBlock i.content k

/-- The SHA-384 of a block of an image. -/
def blockDigest (i : FwImage) (k : Nat) : BitVec 384 := Config.sha384 (blockHashed (blockNumber i k))

/-- Whether a block has the hash that the header gives it; the header gives none of itself (log 122). -/
def blockGood (i : FwImage) (k : Nat) : Bool := k == 0 || i.hashes[k - 1]? == some (blockDigest i k)

/-- A block of an image is written into a bank: 256 macro words, over whatever stores have left there (12 R385). -/
def State.loadBlock (s : State) (b : Bool) (i : FwImage) (k : Nat) : State :=
  let base := b.toNat * 64 + k
  { s.setValid (b.toNat * 8 + k / 8) (k % 8 * 256) 256 true with boot := { s.boot with
    bankBlocks := s.boot.bankBlocks.put 0 base (blockNumber i k)
    bankEdits := s.boot.bankEdits.filter fun e => e.1 / 4096 != base } }

/-- The control-space address of an image's entry in a bank (12 R384, Table 12.1). -/
def entryAddr (b : Bool) (i : FwImage) : Word := BitVec.ofNat 64 (0x8000_0000_0010_0000 + b.toNat * 0x4_0000 + i.entry)

/-! ### Retirements in progress (11 R361) -/

/-- The retirement of a unit, in progress. -/
def State.retire (s : State) (unit number : Nat) : Option Retire :=
  s.fw.retiring.find? fun r => r.unit == unit && r.number == number

/-- A retirement's record changed. -/
def State.setRetire (s : State) (r : Retire) : State :=
  { s with fw := { s.fw with retiring := s.fw.retiring.map fun x => if x.unit = r.unit ∧ x.number = r.number then r else x } }

/-- A retirement begins, unless one of its kind runs. -/
def State.addRetire (s : State) (r : Retire) : State :=
  if s.fw.retiring.any fun x => x.unit == r.unit then s else { s with fw := { s.fw with retiring := s.fw.retiring ++ [r] } }

/-- A retirement ends, with its event (13 Table 13.13). -/
def State.endRetire (s : State) (r : Retire) : State :=
  { s with fw := { s.fw with retiring := s.fw.retiring.filter fun x => !(x.unit == r.unit && x.number == r.number) } }.fwEvent
    0xE2 1 (r.unit + r.number * 2 ^ 8) s.now

/-- Whether a source asks for its unit's retirement: a permanent fault with ACTION 01, which WIRED and FATAL are too (11 R359); for
what a slice declares fatal, 10 R321, R323 and 11 R368 say themselves what firmware does. -/
def State.retireAsked (s : State) (src : Nat) : Bool :=
  (s.on (FLT_SRC_COUNT.PERM src) || s.on (FLT_SRC_COUNT.WIRED src)
    || (s.on (FLT_SRC_COUNT.FATAL src) && !decide (0x10 ≤ src ∧ src < 0x22)))
    && s.rd (FLT_SRC_CFG.ACTION src) == 1 && !s.on (FLT_SRC_COUNT.RETIRED src)

end Sys2Proof.Machine
end

