-- ==== Sys2Proof/Machine/Sparing.lean ====
section
/-! DEFINITION. Way moves and retirements (11 R360 to R371). A retirement is a procedure of firmware: each command of it takes
the next step whose condition holds. -/

namespace Sys2Proof.Machine

open Host (Outcome)

/-! ### Way moves (11 R363) -/

/-- A write of HC_MOVE or SF_MOVE: ignored while a move runs or the array's spare way is in use. -/
def State.startMove (s : State) (p : PhysSlice) (filter : Bool) (way : Nat) : State :=
  let spare := if filter then s.rd (SL_CTRL.SF_SPARE_FOR p.val) else s.rd (SL_HC_CTRL.SPARE_FOR p.val)
  if s.mode = 0 ∨ s.on (SL_CTRL.MOVE_BUSY p.val) ∨ spare < 16 then s
  else
    (((s.wr (SL_CTRL.MOVE_WAY p.val) way).wr (SL_CTRL.MOVE_BUSY p.val) 1).wr (SL_CTRL.MOVE_SET p.val) 0).modSl p fun x =>
      { x with move := some ⟨filter, way, 0⟩ }

/-- HC_MOVE (11 R363). -/
def execHcMove (p : PhysSlice) (way : Fin 16) (s : State) : Outcome State Fault Refusal := .next (s.startMove p false way.val)

/-- SF_MOVE (11 R363). -/
def execSfMove (p : PhysSlice) (way : Fin 16) (s : State) : Outcome State Fault Refusal := .next (s.startMove p true way.val)

/-- A code word is copied: as corrected, and as chaff where it cannot be read (10 R336, 11 R363). -/
def State.copyWord (s : State) (p : PhysSlice) (src dst : CodeWord) : State :=
  let (s1, f) := s.readKey p src (s.keyOfWord p src) false
  let s2 := s1.modSl p fun x => { x with errors := x.errors.put WordError.none (s1.keyOfWord p src) WordError.none }
  if f == .uncorrectable then s2.modSl p fun x =>
    { x with errors := x.errors.put WordError.none (s2.keyOfWord p dst) ⟨[], true, false, false⟩ }
  else s2.writeKey p dst (s2.keyOfWord p dst) false

/-- The code words of a way of a set are copied into way 16. -/
def State.copyWords (s : State) (p : PhysSlice) (src dst : List CodeWord) : State :=
  if s.eccIdle p then s else (src.zip dst).foldl (fun s w => s.copyWord p w.1 w.2) s

/-- One set of a home-cache move; a tag-lost way is copied as empty. -/
def State.moveHcSet (s : State) (p : PhysSlice) (set way : Nat) : State :=
  let w := s.way p set way
  let lost := (s.sl p).tagLost.contains (set * 17 + way)
  let s1 := s.modSl p fun x => { x with
    cache := (x.cache.put CacheWay.empty (set * 17 + 16) (if lost then CacheWay.empty else w)).put CacheWay.empty
      (set * 17 + way) CacheWay.empty
    tagLost := x.tagLost.filter (· != set * 17 + way) }
  if lost then s1.writeWords p (tagAWords set 16 ++ tagBWords set 16)
  else s1.copyWords p (tagAWords set way ++ tagBWords set way ++ dataWords set way)
    (tagAWords set 16 ++ tagBWords set 16 ++ dataWords set 16)

/-- One set of a filter move: the entry and its echo. -/
def State.moveSfSet (s : State) (p : PhysSlice) (set way : Nat) : State :=
  let w := s.sfWay p set way
  let s1 := s.modSl p fun x => { x with
    filter := (x.filter.put FilterWay.empty (set * 17 + 16) w).put FilterWay.empty (set * 17 + way) FilterWay.empty }
  s1.copyWords p [filterWord set way, echoWord set way] [filterWord set 16, echoWord set 16]

/-- MOVE_SET_STEP (11 R363; DRAIN abandons a move at its set, R361): the next set is copied into way 16, unless the way is busy there;
after the last set the spare-for field names the way. -/
def execMoveSetStep (p : PhysSlice) (s : State) : Outcome State Fault Refusal :=
  match (if s.mode = 4 then none else (s.sl p).move) with
  | none => .next s
  | some m =>
    let sector := (s.sfWay p m.set m.way).entry.tag * 32768 + m.set
    let busy := if m.filter then
        (s.sfWay p m.set m.way).entry.valid && ((s.sl p).sectorHeld sector || (s.sl p).sectorVictim sector)
      else s.hcBusy p m.set m.way
    if busy then .next s
    else
      let s1 := if m.filter then s.moveSfSet p m.set m.way else s.moveHcSet p m.set m.way
      if m.set + 1 = (if m.filter then 32768 else 8192) then
        let s2 := s1.wr (if m.filter then SL_CTRL.SF_SPARE_FOR p.val else SL_HC_CTRL.SPARE_FOR p.val) m.way
        .next (((s2.wr (SL_CTRL.MOVE_BUSY p.val) 0).wr (SL_CTRL.MOVE_SET p.val) 0).modSl p fun x => { x with move := none })
      else
        .next ((s1.wr (SL_CTRL.MOVE_SET p.val) (m.set + 1)).modSl p fun x =>
          { x with move := some { m with set := m.set + 1 } })

/-! ### The filter drain (11 R366, 07 R249) -/

/-- SL_CTRL.SF_DRAIN written as 1: the drain starts at set 0. -/
def State.startDrain (s : State) (p : PhysSlice) : State :=
  if s.on (SL_CTRL.SF_DRAIN p.val) then s
  else (s.wr (SL_CTRL.SF_DRAIN p.val) 1).modSl p fun x => { x with drainSet := some 0 }

/-- SF_DRAIN (11 R366). -/
def execSfDrain (p : PhysSlice) (s : State) : Outcome State Fault Refusal :=
  if s.mode = 0 then .next s else .next (s.startDrain p)

/-- A valid entry is spilled, unless a tracker holds a line of its sector or 64 victims are being spilled. -/
def State.drainWay (s : State) (p : PhysSlice) (set phys : Nat) : State :=
  let f := (s.sfWay p set phys).entry
  let sector := f.tag * 32768 + set
  if !f.valid || (s.sl p).sectorHeld sector || (s.sl p).sectorVictim sector
      || decide (64 ≤ (s.sl p).victims.countP fun v => v.spill) then s
  else
    let id := s.nextId
    (s.startVictim p set phys true).finishVictim p id

/-- SF_DRAIN_STEP (11 R366): the drain visits its set, spills every valid entry, and goes on once none is left that has not
begun. -/
def execSfDrainStep (p : PhysSlice) (s : State) : Outcome State Fault Refusal :=
  match (s.sl p).drainSet with
  | none => .next s
  | some set =>
    if !s.on (SL_CTRL.SF_DRAIN p.val) then .next (s.modSl p fun x => { x with drainSet := none })
    else
      let ways := (waysInService (s.sfSpare p set)).map (·.2)
      let s1 := ways.foldl (fun s w => s.drainWay p set w) s
      let left := ways.any fun w =>
        let f := (s1.sfWay p set w).entry
        f.valid && !(s1.sl p).sectorVictim (f.tag * 32768 + set)
      .next (if left then s1
        else s1.modSl p fun x => { x with drainSet := if set + 1 = 32768 then none else some (set + 1) })

/-! ### Slice retirement (11 R364 to R368) -/

/-- SL_CTRL.HUSK written as 1: the slice is husked, and its logical VALID clears (11 R364, 12 R393). -/
def State.huskSlice (s : State) (p : PhysSlice) : State :=
  (s.wr (SL_CTRL.HUSK p.val) 1).wr (SL_LOGICAL_ID.VALID p.val) 0

/-- SLICE_HUSK_WRITE (11 R364). -/
def execSliceHuskWrite (p : PhysSlice) (s : State) : Outcome State Fault Refusal :=
  if s.mode = 0 then .next s else .next (s.huskSlice p)

/-- The lowest-numbered slice whose SPARE and CLEARED are both 1 (11 R366 step 1). -/
def State.spareSlice (s : State) : Option PhysSlice :=
  allSlices.find? fun p => !s.active p && !s.slHusked p && s.on (SL_STATUS.CLEARED p.val)

/-- The logical slice that a physical slice serves. -/
def State.servedBy (s : State) (p : PhysSlice) : Option Nat := (List.range 16).find? fun j => s.rd (mapPs j) == p.val

/-- The slice map as firmware records it, HOLD bits 0 (12 Table 12.6). -/
def State.mapEntry (s : State) : RepairEntry :=
  let clear (w : Word) : Word := w &&& 0x7F7F_7F7F_7F7F_7F7F#64
  .sliceMap (clear (s.reg GLB_SLICE_MAP0.reg)) (clear (s.reg GLB_SLICE_MAP1.reg))

/-- A slice that is not retired for want of a spare, or because it holds a blind set: NO_ALLOC (11 R368). -/
def State.keepSlice (s : State) (p : PhysSlice) : State := s.wr (SL_HC_CTRL.NO_ALLOC p.val) 1

/-- A slice retirement begins, or the slice is kept in service without allocating (11 R366, R368). -/
def State.beginSliceRetirement (s : State) (p : PhysSlice) : State :=
  if !(s.sl p).blind.isEmpty ∨ s.spareSlice.isNone then s.keepSlice p
  else s.addRetire ⟨0, p.val, 1, 0⟩

/-- The next step of a slice retirement (11 R366, R367). -/
def State.sliceStep (s : State) (p : PhysSlice) (r : Retire) : State :=
  let q := toSlice r.spare
  let next (s : State) : State := s.setRetire { r with step := r.step + 1 }
  match r.step with
  | 0 | 1 =>
    match s.spareSlice with
    | none => (s.keepSlice p).endRetire r
    | some q =>
      let r1 := { r with spare := q.val }
      if s.on (SL_STATUS.CREDITED q.val) then (s.setRetire { r1 with step := 3 }).wr (SL_HC_CTRL.NO_ALLOC p.val) 1
      -- 11 R367: the husked stop's credits move in a REPAIR
      else if s.repairTooSoon ∨ s.on GLB_MODE.CHANGING then s
      else ((s.setRetire { r1 with step := 2 }).acceptMode 5).enterRepair 1
  | 2 =>
    if s.mode ≠ 5 then s.setRetire { r with step := 1 }
    else
      let husked := allSlices.find? fun x => s.slHusked x && s.on (SL_STATUS.CREDITED x.val)
      let s1 := match husked with | some x => s.wr (SL_STATUS.CREDITED x.val) 0 | none => s
      let s2 := (s1.wr (SL_STATUS.CREDITED q.val) 1).setRetire { r with step := 3 }
      ((s2.wr (SL_HC_CTRL.NO_ALLOC p.val) 1).acceptMode 2).exitRepair 1
  | 3 => next (s.startDrain p)
  | 4 =>
    if (s.sl p).dirtyCount ≠ 0 ∨ (s.sl p).filter.any (fun e => e.2.entry.valid) then s
    else match s.servedBy p with
      | none => s.endRetire r
      | some j =>
        let s1 := (s.wr (SL_DVFS.OPP_TARGET q.val) (s.rd (SL_DVFS.OPP_TARGET p.val))).retarget q
        let s2 := (s1.wr (SL_SF_CTRL.SPILL_RATE q.val) (s.rd (SL_SF_CTRL.SPILL_RATE p.val))).wr
          (SL_SF_CTRL.SPILL_BURST q.val) (s.rd (SL_SF_CTRL.SPILL_BURST p.val))
        let s3 := (s2.wr (SL_HC_CTRL.CLEAN_HI q.val) (s.rd (SL_HC_CTRL.CLEAN_HI p.val))).wr
          (SL_HC_CTRL.CLEAN_LO q.val) (s.rd (SL_HC_CTRL.CLEAN_LO p.val))
        let s4 := ((s3.wr (SL_WAITQ_AGING.AGE_US q.val) (s.rd (SL_WAITQ_AGING.AGE_US p.val))).wr
          (SL_WAITQ_AGING.IA_MAX q.val) (s.rd (SL_WAITQ_AGING.IA_MAX p.val))).wr
          (SL_WAITQ_AGING.BG_MAX q.val) (s.rd (SL_WAITQ_AGING.BG_MAX p.val))
        next (s4.writeLogicalId q (BitVec.ofNat 64 (j + 16)))
  | 5 =>
    match s.servedBy p with
    | none => s.endRetire r
    | some j => next (s.writeMapByte j p.val true)
  | 6 =>
    if !s.quiescent p then s
    else match s.servedBy p with
      | none => s.endRetire r
      | some j => next ((s.writeMapByte j q.val true).writeMapByte j q.val false)
  | _ =>
    let j := (s.servedBy q).getD 0
    let s1 := ((s.huskSlice p).wr (SL_CTRL.SF_DRAIN p.val) 0).wr (FLT_SRC_COUNT.RETIRED (0x10 + p.val)) 1
    let s2 := s1.fwEvent 0xE0 2 j s1.now
    ((s2.commit s2.mapEntry).commit (.retired 0 p.val)).endRetire r

/-- SLICE_RETIREMENT (11 R366 to R368): firmware retires a slice whose source is escalated as permanent, step by step, in
SERVE. -/
def execSliceRetirement (p : PhysSlice) (s : State) : Outcome State Fault Refusal :=
  match s.retire 0 p.val with
  | some r => .next (if s.mode = 2 ∨ (s.mode = 5 ∧ r.step = 2) then s.sliceStep p r else s)
  | none =>
    .next (if s.mode = 2 ∧ s.active p ∧ !s.slHusked p ∧ s.retireAsked (0x10 + p.val) then s.beginSliceRetirement p else s)

/-- The array and way that a slice macro lies in (11 Table 11.11). -/
def macroWay (m : Nat) : Option (Bool × Nat) :=
  if m < 272 then some (false, m / 16)
  else if m < 340 then some (false, (m - 272) / 4)
  else if m < 408 then some (false, (m - 340) / 4)
  else if m < 544 then some (true, (m - 408) / 8)
  else if m < 612 then some (true, (m - 544) / 4)
  else none

/-- The one way in which every uncorrectable array event recorded of a slice in its last window lies, tag-lost ways among them; none
where they lie in several or outside the ways (11 R362, 10 R321). -/
def State.faultyWay (s : State) (p : PhysSlice) : Option (Bool × Nat) :=
  let evs := s.fw.arrayEvents.filter fun e => e.2.1 == 0x10 + p.val
  let ways := evs.map (fun e => macroWay (e.2.2.extractLsb' 0 10).toNat) ++
    (s.sl p).tagLost.map fun k => some (false, k % 17)
  match ways with
  | some x :: l => if l.all fun y => y == some x then some x else none
  | _ => none

/-- WAY_RETIREMENT (11 R362, R363): on a slice's permanent escalation, or with a way tag-lost, firmware moves the failing way
into the spare way, or else begins a slice retirement; once the move has ended, the spare way is recorded. -/
def execWayRetirement (p : PhysSlice) (s : State) : Outcome State Fault Refusal :=
  let running := s.fw.retiring.find? fun r => (r.unit == 3 || r.unit == 4) && r.number == p.val
  match running with
  | some r =>
    let filter := r.unit == 4
    if s.mode ≠ 2 then .next s
    else if r.step = 0 then .next ((s.startMove p filter r.spare).setRetire { r with step := 1 })
    else if s.on (SL_CTRL.MOVE_BUSY p.val) then .next s
    else
      let w := if filter then s.rd (SL_CTRL.SF_SPARE_FOR p.val) else s.rd (SL_HC_CTRL.SPARE_FOR p.val)
      .next ((s.commit (.spareWay p.val filter w)).endRetire r)
  | none =>
    let asked := s.retireAsked (0x10 + p.val) || !(s.sl p).tagLost.isEmpty
    if s.mode ≠ 2 ∨ !asked ∨ !s.active p ∨ s.slHusked p ∨ (s.retire 0 p.val).isSome then .next s
    else match s.faultyWay p with
      | some (filter, way) =>
        let idle := decide (16 ≤ if filter then s.rd (SL_CTRL.SF_SPARE_FOR p.val) else s.rd (SL_HC_CTRL.SPARE_FOR p.val))
        if idle && decide (way < 16) && !s.on (SL_CTRL.MOVE_BUSY p.val) then
          let s1 := s.startMove p filter way
          let r : Retire := ⟨if filter then 4 else 3, p.val, 1, way⟩
          .next { s1 with fw := { s1.fw with retiring := s1.fw.retiring ++ [r] } }
        else .next (s.beginSliceRetirement p)
      | none => .next (s.beginSliceRetirement p)

/-! ### Channel retirement (11 R369) -/

/-- The lowest-numbered spare channel. -/
def State.spareChannel (s : State) : Option Nat := (List.range 38).find? fun c => s.rd (MF_CH_STATE.STATE c) == 0

/-- The group maps as firmware records them. -/
def State.groupEntry (s : State) : RepairEntry :=
  .groupMap ((List.range 4).map fun g => s.reg (MF_GROUP_MAP.reg g) &&& 0x003F_FFFF_FFFF_FFFF#64)

/-- The next step of a channel retirement. -/
def State.channelStep (s : State) (c : Channel) (r : Retire) : State :=
  let g := s.rd (MF_CH_STATE.GROUP c.val)
  match r.step with
  | 0 | 1 =>
    let s1 := if s.chState c = 3 then s else (s.huskChannel c).settleMedia
    let s2 := (s1.wr (FLT_SRC_COUNT.RETIRED (0x22 + c.val)) 1).budgetFollow
    s2.setRetire { r with step := 2 }
  | 2 =>
    -- a group that has failed takes no spare (06 R214, 11 R370)
    match if s.rd (MF_GROUP_MAP.GSTATE g) = 1 then s.spareChannel else none with
    | none => (s.commit (.retired 1 c.val)).endRetire r
    | some t =>
      let v := putBits (s.reg (MF_GROUP_MAP.reg g)) (6 * s.rd (MF_GROUP_MAP.LOST_SLOT g)) 6 t
      (s.writeGroupMap g v).setRetire { r with step := 3, spare := t }
  | _ =>
    if s.rd (MF_GROUP_MAP.GSTATE g) = 0 then
      (((s.commit s.groupEntry).commit (.retired 1 c.val)).budgetFollow).endRetire r
    else if s.on MF_REBUILD_STATUS.ACTIVE then s
    else (s.commit (.retired 1 c.val)).endRetire r

/-- CHANNEL_RETIREMENT (11 R369): a channel whose source is escalated as permanent, or that the media front has husked, is
retired, and a spare brought in and rebuilt. -/
def execChannelRetirement (c : Channel) (s : State) : Outcome State Fault Refusal :=
  if s.mode ≠ 2 then .next s
  else match s.retire 1 c.val with
    | some r => .next (s.channelStep c r)
    | none =>
      let husked := s.chState c == 3 && !s.on (FLT_SRC_COUNT.RETIRED (0x22 + c.val))
      let used := s.chState c == 1 || s.chState c == 2
      if husked || (used && s.retireAsked (0x22 + c.val)) then
        let s1 := s.addRetire ⟨1, c.val, 1, 0⟩
        .next (match s1.retire 1 c.val with | some r => s1.channelStep c r | none => s1)
      else .next s

/-! ### Control core retirement (11 R371) -/

/-- The physical core of a logical core (12 R375). -/
def State.physCore (s : State) (k : Nat) : Nat := getBits (s.reg BOOT_CORE_MAP.reg) (3 * k) 3

/-- A logical core's state. -/
def State.core (s : State) (k : LogicalCore) : Core := s.cores.look Core.idle k.val

/-- A logical core's state changed. -/
def State.modCore (s : State) (k : LogicalCore) (f : Core → Core) : State :=
  { s with cores := s.cores.put Core.idle k.val (f (s.core k)) }

/-- The work of a logical core that a restart drops: its queue, its barrier, its outstanding accesses. -/
def Core.restarted (c : Core) : Core :=
  { c with queue := [], loads := [], stores := [], granule := [], acquire := none, releases := [], halted := false }

/-- A core starts from the active instruction bank, at the entry of the image in force (11 R371, 12 R396; log 123). -/
def State.startCore (s : State) (c : Core) : Core :=
  { c.restarted with startAt := some (entryAddr (s.on BOOT_ACT.ACTIVE) s.boot.running) }

/-- The healthy core that no logical core names, if any. -/
def State.spareCore (s : State) : Option Nat :=
  (List.range 5).find? fun c => s.rd BOOT_CORE_MAP.HEALTHY / 2 ^ c % 2 == 1 &&
    (List.range 4).all (fun k => s.physCore k != c) && !s.on (FLT_SRC_COUNT.RETIRED (0x4A + c))

/-- A failing core hands its logical number to the spare; without one, the control complex restarts in REPAIR as three logical
cores (11 R371, 09 R304). -/
def State.retireCore (s : State) (c : CoreId) : State :=
  match (List.finRange 4).find? fun k => s.physCore k.val == c.val with
  | none => s
  | some k =>
    let s1 := ((s.wr (FLT_SRC_COUNT.RETIRED (0x4A + c.val)) 1).dropReservation k)
    match s.spareCore with
    | some n =>
      let s2 := (s1.setReg BOOT_CORE_MAP.reg (putBits (s1.reg BOOT_CORE_MAP.reg) (3 * k.val) 3 n)).modCore k s.startCore
      ((s2.commit (.coreMap ((s2.reg BOOT_CORE_MAP.reg).extractLsb' 0 12))).commit (.retired 2 c.val)).fwEvent 0xE2 1
        (2 + c.val * 2 ^ 8) s2.now
    | none =>
      let s2 := s1.setReg BOOT_CORE_MAP.reg (putBits (putBits (s1.reg BOOT_CORE_MAP.reg) (3 * k.val) 3 (s1.physCore 3)) 9 3 c.val)
      let s3 := (List.finRange 4).foldl (fun s k => (s.dropReservation k).modCore k s.startCore) s2
      let s4 := s3.modCore 3 fun c => { c with halted := true, husked := true }
      (s4.commit (.retired 2 c.val)).repairCause

/-- CONTROL_CORE_RETIREMENT (11 R371): on a permanent escalation of a core's source. -/
def execControlCoreRetirement (c : CoreId) (s : State) : Outcome State Fault Refusal :=
  match s.retire 2 c.val with
  | some r => .next (if s.mode = 2 then (s.retireCore c).endRetire r else s)
  | none =>
    .next (if s.mode = 2 ∧ s.retireAsked (0x4A + c.val) then s.retireCore c else s)

end Sys2Proof.Machine
end

