-- ==== Sys2Proof/Machine/Remap.lean ====
section
/-! DEFINITION. Remapping of macro words (10 R335 to R339, 11 R372) and the checker test mode's registers (10 R340, R341). -/

namespace Sys2Proof.Machine

open Host (Outcome)

/-! ### The remap ports -/

/-- A field of SL_REMAP or GLB_REMAP, which are laid out alike (10 Table 10.12). -/
def remapFld (u : RemapUnit) (lo w : Nat) : Fld :=
  ⟨match u with | .slice p => SL_REMAP.reg p.val | .device => GLB_REMAP.reg, lo, w⟩

/-- A unit's remap table. -/
def State.remapTable (s : State) (u : RemapUnit) : Tbl RemapEntry :=
  match u with | .slice p => (s.sl p).remap | .device => s.devRemap

/-- A unit's remap table with an entry replaced. -/
def State.setRemap (s : State) (u : RemapUnit) (m e : Nat) (r : RemapEntry) : State :=
  match u with
  | .slice p => s.modSl p fun x => { x with remap := x.remap.put RemapEntry.none (m * 8 + e) r }
  | .device => { s with devRemap := s.devRemap.put RemapEntry.none (m * 8 + e) r }

/-- The copy in progress in a unit: macro, entry, word. -/
def State.copying (s : State) (u : RemapUnit) : Option (Nat × Nat × Nat) :=
  match u with | .slice p => (s.sl p).copying | .device => s.devCopying

/-- The copy in progress in a unit replaced. -/
def State.setCopying (s : State) (u : RemapUnit) (c : Option (Nat × Nat × Nat)) : State :=
  match u with | .slice p => s.modSl p fun x => { x with copying := c } | .device => { s with devCopying := c }

/-- The words of a macro of a unit. -/
def macroWords (u : RemapUnit) (m : Nat) : Nat := match u with | .slice _ => sliceMacroWords m | .device => deviceMacroWords m

/-- The code of a remap entry's state (10 Table 10.12). -/
def RemapState.code : RemapState → Nat
  | .free => 0 | .copying => 1 | .active => 2 | .activeChaff => 3

/-- The free entries of a macro. -/
def State.freeEntries (s : State) (u : RemapUnit) (m : Nat) : List Nat :=
  (List.range 8).filter fun e => ((s.remapTable u).look RemapEntry.none (m * 8 + e)).state == .free

/-- STATE, WORD and FREE of the port show an entry after an operation. -/
def State.showEntry (s : State) (u : RemapUnit) (m e : Nat) : State :=
  let r := (s.remapTable u).look RemapEntry.none (m * 8 + e)
  ((s.wr (remapFld u 17 11) r.word).wr (remapFld u 28 2) r.state.code).wr (remapFld u 30 4) (s.freeEntries u m).length

/-- Whether a write of the port is taken: not in HOLD, nor while BUSY (10 R338). -/
def State.remapOpen (s : State) (u : RemapUnit) : Bool := s.mode != 0 && !s.on (remapFld u 15 1)

/-- Whether an install is refused (10 R339). -/
def State.installRefused (s : State) (u : RemapUnit) (m e w : Nat) (zeroed : Bool) : Bool :=
  decide (macroWords u m ≤ w) || ((s.remapTable u).look RemapEntry.none (m * 8 + e)).state != .free
    || (remapFor (s.remapTable u) m w).isSome || (zeroed && s.mode != 1)

/-- REMAP_READ_ENTRY (10 R338). What a read shows for a number that names no macro is not stated: free values (log 1). -/
def execRemapReadEntry (u : RemapUnit) (macroId : BitVec 10) (entry : Fin 8) (s : State) : Outcome State Fault Refusal :=
  if !s.remapOpen u then .next s
  else
    let m := macroId.toNat
    let s1 := (s.wr (remapFld u 0 10) m).wr (remapFld u 10 3) entry.val
    if macroWords u m = 0 then
      let v := Config.freeWord s.freeTick
      .next (((s1.draw.wr (remapFld u 17 11) (getBits v 0 11)).wr (remapFld u 28 2) (getBits v 11 2)).wr (remapFld u 30 4)
        (getBits v 13 4))
    else .next (s1.showEntry u m entry.val)

/-- An install is refused: ERR is set, and FREE is valid as after any operation (10 R339, Table 10.12). -/
def State.refuseInstall (s : State) (u : RemapUnit) (m : Nat) : State :=
  let s1 := s.wr (remapFld u 16 1) 1
  if macroWords u m = 0 then s1 else s1.wr (remapFld u 30 4) (s.freeEntries u m).length

/-- OP 10: the install with copy begins, or is refused. -/
def State.install (s : State) (u : RemapUnit) (m e w : Nat) : State :=
  let s1 := ((s.wr (remapFld u 0 10) m).wr (remapFld u 10 3) e).wr (remapFld u 17 11) w
  if s.installRefused u m e w false then s1.refuseInstall u m
  else (((s1.setRemap u m e ⟨.copying, w⟩).showEntry u m e).wr (remapFld u 15 1) 1).setCopying u (some (m, e, w))

/-- INSTALL_WITH_COPY (10 R336). -/
def execInstallWithCopy (u : RemapUnit) (macroId : BitVec 10) (entry : Fin 8) (word : BitVec 11) (s : State) :
    Outcome State Fault Refusal :=
  if !s.remapOpen u then .next s else .next (s.install u macroId.toNat entry.val word.toNat)

/-- The array number of a slice macro, as SL_ECC_TEST.ARRAY has it (10 Table 10.14). -/
def arrayOf (m : Nat) : Nat :=
  if m < 272 then 0 else if m < 340 then 1 else if m < 408 then 2 else if m < 544 then 3 else if m < 612 then 4
  else if m < 614 then 5 else if m = 614 then 6 else if m < 618 then 7 else if m = 618 then 8 else 9

/-- One code word of a slice is read and written into the spare; the result says whether it is chaff there. -/
def State.copyHalf (s : State) (p : PhysSlice) (m e w : Nat) (upper : Bool) : State × Bool :=
  if s.eccIdle p then (s, false)
  else
    let (s1, f) := s.readKey p ⟨arrayOf m, m, w, upper, 0⟩ (wordKey m w upper) false
    let bad := f == .uncorrectable
    let err : WordError := if bad then ⟨[], true, false, false⟩ else WordError.none
    let moved (t : Tbl WordError) : Tbl WordError :=
      (t.put WordError.none (wordKey m w upper) WordError.none).put WordError.none (wordKey m (2048 + e) upper) err
    (s1.modSl p fun x => { x with errors := moved x.errors }, bad)

/-- One code word of a control or media-front macro is copied likewise. The valid bit is kept by macro word, so it goes with it. -/
def State.copyDevHalf (s : State) (m e w : Nat) (upper : Bool) : State × Bool :=
  let f := if s.wordValid m w then s.devFound (wordKey m w upper) else .good
  let bad := f == .uncorrectable
  let s1 := s.devFinding m w upper f
  let err : WordError := if bad then ⟨[], true, false, false⟩ else WordError.none
  let moved (t : Tbl WordError) : Tbl WordError :=
    (t.put WordError.none (wordKey m w upper) WordError.none).put WordError.none (wordKey m (2048 + e) upper) err
  ({ s1 with devErrors := moved s1.devErrors }, bad)

/-- REMAP_COPY_EXECUTE (10 R336): the word is read, the spare written and the entry made active; a word remap of firmware's is
then recorded (11 R361). -/
def execRemapCopyExecute (u : RemapUnit) (s : State) : Outcome State Fault Refusal :=
  match s.copying u with
  | none => .next s
  | some (m, e, w) =>
    let (s1, bad0, bad1) : State × Bool × Bool := match u with
      | .slice p =>
        let (s1, b0) := s.copyHalf p m e w false
        let (s2, b1) := s1.copyHalf p m e w true
        (s2, b0, b1)
      | .device =>
        let (s1, b0) := s.copyDevHalf m e w false
        let (s2, b1) := s1.copyDevHalf m e w true
        (s2, b0, b1)
    let chaff := bad0 || bad1
    let s2 := (((s1.setRemap u m e ⟨if chaff then .activeChaff else .active, w⟩).setCopying u none).wr (remapFld u 15 1) 0).showEntry u m e
    let number := match u with | .slice p => p.val | .device => 255
    .next (match s2.retire 5 number with
      | some r => (s2.commit (.remap (u == .device) (if u == .device then 0 else number) m e w chaff)).endRetire r
      | none => s2)

/-- The spare that serves a word of a unit is written as zeros, with a clear valid bit (10 R337). -/
def State.zeroSpare (s : State) (u : RemapUnit) (m e w : Nat) : State :=
  match u with
  | .slice p => s.modSl p fun x => { x with errors :=
      (x.errors.put WordError.none (wordKey m (2048 + e) false) WordError.none).put WordError.none (wordKey m (2048 + e) true) WordError.none }
  | .device => s.freshWord m w false

/-- INSTALL_ZEROED (10 R337): in SPROUT the spare is written as zeros and the entry made active at once; a word of the control
SRAM reads as unwritten then. -/
def execInstallZeroed (u : RemapUnit) (macroId : BitVec 10) (entry : Fin 8) (word : BitVec 11) (s : State) :
    Outcome State Fault Refusal :=
  if !s.remapOpen u then .next s
  else
    let m := macroId.toNat
    let w := word.toNat
    let s1 := ((s.wr (remapFld u 0 10) m).wr (remapFld u 10 3) entry.val).wr (remapFld u 17 11) w
    if s.installRefused u m entry.val w true then .next (s1.refuseInstall u m)
    else .next (((s1.setRemap u m entry.val ⟨.active, w⟩).zeroSpare u m entry.val w).showEntry u m entry.val)

/-- A day of the always-on timestamp in us. -/
def dayUs : Nat := 86400000000

/-- Firmware installs a word into the lowest free spare of its macro; with none free it records a severe event with info bit
24 (11 R372). -/
def State.remapWord (s : State) (u : RemapUnit) (m w : Nat) (lower : Bool) : State :=
  let number := match u with | .slice p => p.val | .device => 255
  if (remapFor (s.remapTable u) m w).isSome ∨ !s.remapOpen u ∨ (s.retire 5 number).isSome then s
  else match s.freeEntries u m with
    | [] =>
      let src := match u with | .slice p => 0x10 + p.val | .device => deviceSource m
      s.major src (arrayInfo m w lower true false true 0)
    | e :: _ =>
      let s1 := s.install u m e w
      if s1.on (remapFld u 16 1) ∧ (s1.copying u).isNone then s1
      else { s1 with fw := { s1.fw with retiring := s1.fw.retiring ++ [⟨5, number, 1, e⟩] } }

/-- WORD_REMAP (11 R372): firmware remaps a word on a confirmed uncorrectable finding, a failed fetch reload, or a second
corrected finding at one code word within 24 hours; injected findings are never remapped. It keeps the last 256 corrected
addresses. -/
def execWordRemap (u : RemapUnit) (macroId : BitVec 10) (word : BitVec 11) (cause : RemapCause) (s : State) :
    Outcome State Fault Refusal :=
  let m := macroId.toNat
  let w := word.toNat
  if s.mode < 2 ∨ macroWords u m ≤ w then .next s
  else match cause with
    | .confirmedUncorrectable | .failedReload => .next (s.remapWord u m w false)
    | .correctedFinding lower injected =>
      if injected then .next s
      else
        let unit := match u with | .slice p => p.val | .device => 18
        let key := unit * 2 ^ 24 + wordKey m w (!lower)
        let again := s.fw.corrected.any fun e => e.1 == key && decide (s.now < e.2 + dayUs)
        let l := s.fw.corrected ++ [(key, s.now)]
        let s1 := { s with fw := { s.fw with corrected := l.drop (l.length - 256) } }
        .next (if again then s1.remapWord u m w lower else s1)

/-! ### The checker test mode -/

/-- ECC_TEST_UNLOCK_KEY (10 R340): 0x5EED and then, within 1 us, 0xC0DE sets UNLOCKED; any other write of KEY clears it. -/
def execEccTestUnlockKey (p : PhysSlice) (key : BitVec 16) (s : State) : Outcome State Fault Refusal :=
  if s.mode = 0 then .next s
  else if key = 0x5EED#16 then .next (s.modSl p fun x => { x with ecc := some s.now })
  else
    let ok := key == 0xC0DE#16 && (match (s.sl p).ecc with | some t => decide (s.now ≤ t + 1) | none => false)
    let s1 := s.wb (SL_ECC_TEST_UNLOCK.UNLOCKED p.val) ok
    .next (s1.modSl p fun x => { x with ecc := none, eccUntil := if ok then some (s.now + 1000) else none })

/-- ECC_UNLOCK_EXPIRY (10 R340). -/
def execEccUnlockExpiry (p : PhysSlice) (s : State) : Outcome State Fault Refusal :=
  match (s.sl p).eccUntil with
  | none => .next s
  | some t =>
    if t ≤ s.now then .next ((s.wr (SL_ECC_TEST_UNLOCK.UNLOCKED p.val) 0).modSl p fun x => { x with eccUntil := none })
    else .next s

/-- ECC_TEST_ARM (10 R341): a write of SL_ECC_TEST; one that sets ARM is ignored while UNLOCKED is 0. -/
def execEccTestArm (p : PhysSlice) (v : Word) (s : State) : Outcome State Fault Refusal :=
  if s.mode = 0 ∨ (getBits v 29 1 = 1 ∧ !s.on (SL_ECC_TEST_UNLOCK.UNLOCKED p.val)) then .next s
  else
    let off := SL_ECC_TEST.reg p.val
    .next (s.setReg off ((access off).apply (s.reg off) v))

end Sys2Proof.Machine
end

