-- ==== Sys2Proof/Machine/Scrub.lean ====
section
/-! DEFINITION. Scrub passes (10 R326 to R334, 07 R252, R253): the start and end of a pass, the visits of the slice, control and
media parts, deferred findings, the patrol. -/

namespace Sys2Proof.Machine

open Host (Outcome)

/-! ### Places and counts -/

/-- The rank of the array that a visit reads: the arrays of a part are visited one after another (DESIGN CHOICE, log 21). -/
def rankOf : ScrubArray → Nat
  | .hcData => 0 | .tagA | .tagB | .tagPair => 1 | .filter | .echo | .sfPair => 2 | .region => 3 | .spillMap => 4 | .sram => 5

/-- A counter of the scrub summaries, saturating (10 R332). -/
def State.scrubCount (s : State) (f : Fld) (k : Nat := 1) : State := s.inc f k

/-- The next location of an array at or after an index: every way and word, but of the data array the valid ways
(10 R319, R326). -/
def State.nextIn (s : State) (p : PhysSlice) (rank from_ : Nat) : Option Nat :=
  match rank with
  | 0 => ((s.sl p).cache.find? fun e => decide (from_ ≤ e.1) && e.2.tagA.valid).map (·.1)
  | 1 => if from_ < 8192 * 17 then some from_ else none
  | 2 => if from_ < 32768 * 17 then some from_ else none
  | 3 => if from_ < 4096 then some from_ else none
  | _ => if from_ < 2048 then some from_ else none

/-- Whether the running pass reads the array of a rank. -/
def State.targets (s : State) (rank : Nat) : Bool := s.rd SCRUB_TARGET.HC_DATA + 2 * s.rd SCRUB_TARGET.HC_TAG
  + 4 * s.rd SCRUB_TARGET.SF + 8 * s.rd SCRUB_TARGET.REGION + 16 * s.rd SCRUB_TARGET.SPILL_MAP |>.testBit rank

/-- The next location of a slice's part: array rank and index. -/
def State.nextPlace (s : State) (p : PhysSlice) : Option (Nat × Nat) :=
  let pos := (s.sl p).scrubPos
  (List.range 5).findSome? fun r =>
    if !s.targets r || decide (r < pos / 2 ^ 20) then none
    else (s.nextIn p r (if r = pos / 2 ^ 20 then pos % 2 ^ 20 else 0)).map fun i => (r, i)

/-- Whether a slice's part runs. -/
def State.scrubbing (s : State) (p : PhysSlice) : Bool :=
  s.on SCRUB_STATUS.BUSY && s.rd SCRUB_STATUS.PENDING / 2 ^ p.val % 2 == 1

/-- The scrub agent's tracker that has been allocated and has not acted. -/
def State.scrubHeld (s : State) (p : PhysSlice) : Option Tracker :=
  (s.sl p).trackers.find? fun t => t.req.cls == .scrub && t.phase == .data

/-- A slice's part ends with its last location visited, no finding deferred and no request waiting. -/
def State.scrubSliceEnd (s : State) (p : PhysSlice) : State :=
  if s.scrubbing p && (s.nextPlace p).isNone && (s.sl p).deferred.isEmpty && (s.scrubHeld p).isNone
    && !(s.sl p).waitq.any (fun w => w.req.cls == .scrub) then s.scrubPartEnd p else s

/-! ### What a visit finds -/

/-- The worse of two findings. -/
def worstOf (a b : Found) : Found :=
  match a, b with
  | .uncorrectable, _ | _, .uncorrectable => .uncorrectable
  | .corrected, _ | _, .corrected => .corrected
  | .good, .good => .good

/-- The worst of several findings. -/
def worstIn (l : List Found) : Found := l.foldl worstOf .good

/-- How many findings are of one kind. -/
def countOf (f : Found) (l : List Found) : Nat := l.countP fun x => x == f

/-- Code words are read by the scrub agent: what it finds in each, and in the first also `extra`, what the visit finds beside what is
stored. Each code word with a finding is one event (10 R315). -/
def State.scrubRead (s : State) (p : PhysSlice) (l : List CodeWord) (extra : Found) : State × List Found :=
  let (s1, fs) := if s.eccIdle p then (s, l.map fun _ => Found.good)
    else l.foldl (fun (acc : State × List Found) c =>
      let (s1, f) := acc.1.readKey p c (acc.1.keyOfWord p c) false
      (s1, acc.2 ++ [f])) (s, [])
  match l, fs with
  | c :: _, f :: r => if f = .good then (s1.finding p c extra false false, extra :: r) else (s1, worstOf f extra :: r)
  | _, _ => (s1, fs)

/-- Corrected and uncorrectable code words enter the summaries (10 R332). -/
def State.scrubTally (s : State) (l : List Found) (confirmed : Bool) : State :=
  let s1 := s.scrubCount (SCRUB_SUMMARY.HI 0) (countOf .corrected l)
  if confirmed then s1.scrubCount (SCRUB_SUMMARY.LO 1) (countOf .uncorrectable l) else s1

/-- The corrected code words of those read are rewritten (10 R326). -/
def State.scrubRewrite (s : State) (p : PhysSlice) (l : List CodeWord) (fs : List Found) : State :=
  s.writeWords p ((l.zip fs).filterMap fun e => if e.2 = .corrected then some e.1 else none)

/-! ### The slice part -/

/-- Whether a location is busy for the agent: a tracker holds its line or a line of its sector, or the line is busy under
05 R153. -/
def State.placeBusy (s : State) (p : PhysSlice) (rank index : Nat) : Bool :=
  match rank with
  | 0 | 1 => s.hcBusy p (index / 17) (index % 17)
  | 2 =>
    let f := (s.sfWay p (index / 17) (index % 17)).entry
    let sector := f.tag * 32768 + index / 17
    f.valid && ((s.sl p).sectorHeld sector || (s.sl p).sectorVictim sector)
  | _ => false

/-- The line whose tracker a revisit of a location needs: its own, or the first of its sector (10 R326). -/
def State.placeLine (s : State) (p : PhysSlice) (rank index : Nat) : Nat :=
  match rank with
  | 0 | 1 => (s.way p (index / 17) (index % 17)).tagA.tag * 8192 + index / 17
  | _ => ((s.sfWay p (index / 17) (index % 17)).entry.tag * 32768 + index / 17) * 4

/-- A tracker of the scrub agent has acted. -/
def State.scrubFreed (s : State) (p : PhysSlice) (id : Nat) : State := s.modTrk p id fun t => { t with phase := .done }

/-- The refill of a Clean line that was dropped, as a SPEC fill, under the scrub agent's tracker, which holds the line until its data
returns (10 Table 10.4, 07 R222). -/
def State.scrubRefill (s : State) (p : PhysSlice) (t : Tracker) : State :=
  (s.modTrk p t.id fun t => { t with phase := .done, mediaRead := some s.nextId }).issue .readSealed t.req.line (.fill p false) 5
    0#512 0#32

/-- The scrub agent asks for the tracker of a line. -/
def State.scrubSend (s : State) (p : PhysSlice) (line : Nat) : State := s.bump.agentArrive p (agentReq s.nextId .scrub line s.now)

/-- A Clean line is dropped and its refill asked for; where the agent has the line's tracker already, the refill begins under it. -/
def State.scrubDrop (s : State) (p : PhysSlice) (set way : Nat) : State :=
  let line := (s.way p set way).tagA.tag * 8192 + set
  let s1 := (s.dropBad p line way).scrubCount (SCRUB_SUMMARY.LO 2)
  match s1.scrubHeld p with
  | some t => if t.req.line = line then s1.scrubRefill p t else s1
  | none =>
    let s2 := s1.scrubSend p line
    match s2.scrubHeld p with
    | some t => if t.req.line = line then s2.scrubRefill p t else s2
    | none => s2

/-- The action on the data of a line (10 Table 10.4). -/
def State.scrubData (s : State) (p : PhysSlice) (set way : Nat) (fs : List Found) : State :=
  let t := (s.way p set way).tagA
  let line := t.tag * 8192 + set
  match worstIn fs with
  | .good => s
  | .corrected => s.scrubRewrite p (dataWords set way) fs
  | .uncorrectable =>
    if !t.valid then s
    else if t.dirty then
      ((s.setTag p set way { t with poison := true }).cleanWrite p line way (.clean p set way) false).scrubCount (SCRUB_SUMMARY.HI 2)
    else s.scrubDrop p set way

/-- The action on the two copies of a tag word (10 Table 10.4). -/
def State.scrubTags (s : State) (p : PhysSlice) (set way : Nat) (a b : List Found) : State :=
  let s1 := (s.scrubRewrite p (tagAWords set way) a).scrubRewrite p (tagBWords set way) b
  let (s2, repaired) := s1.tagOutcome p set way (worstIn a == .uncorrectable) (worstIn b == .uncorrectable)
  if repaired then s2.scrubCount (SCRUB_SUMMARY.HI 3) else s2

/-- The action on a filter entry and its echo (10 Table 10.4). -/
def State.scrubFilter (s : State) (p : PhysSlice) (set way : Nat) (e o : List Found) : State :=
  let s1 := (s.scrubRewrite p [filterWord set way] e).scrubRewrite p [echoWord set way] o
  let badE := worstIn e == .uncorrectable
  let badO := worstIn o == .uncorrectable
  let s2 := s1.filterOutcome p set way badE badO
  if badE && !badO && (s.sfWay p set way).echoValid then s2.scrubCount (SCRUB_SUMMARY.LO 3)
  else if badO && !badE then s2.scrubCount (SCRUB_SUMMARY.HI 3) else s2

/-- The code words that a location of an array holds, copy by copy or entry and echo apart. -/
def placeWords (rank index : Nat) : List CodeWord × List CodeWord :=
  let set := index / 17
  let way := index % 17
  match rank with
  | 0 => (dataWords set way, [])
  | 1 => (tagAWords set way, tagBWords set way)
  | 2 => ([filterWord set way], [echoWord set way])
  | 3 => ([regionWord (index * 4), regionWord (index * 4 + 2)], [])
  | _ => (bothHalves 6 614 index 0, [])

/-- What a visit finds in the first and in the second part of a location, beside what is stored. -/
def splitOf (a : ScrubArray) (f : Found) : Found × Found :=
  match a with
  | .tagB | .echo => (.good, f)
  | .tagPair | .sfPair => (f, f)
  | _ => (f, .good)

/-- A code word of a region table copy that cannot be read is rewritten from another slice's copy (10 Table 10.4). -/
def State.scrubRegion (s : State) (p : PhysSlice) (i : Nat) : State :=
  let (s1, ok) := s.regionOutcome p i
  if ok then s1.scrubCount (SCRUB_SUMMARY.HI 3) else s1

/-- The action on findings at a location that is free (10 R326, R327). -/
def State.scrubAct (s : State) (p : PhysSlice) (rank index : Nat) (f g : List Found) : State :=
  let set := index / 17
  let way := index % 17
  let words := (placeWords rank index).1
  match rank with
  | 0 => s.scrubData p set way f
  | 1 => s.scrubTags p set way f g
  | 2 => s.scrubFilter p set way f g
  | 3 =>
    f.zipIdx.foldl (fun s e => if e.1 = .uncorrectable then s.scrubRegion p (index * 4 + e.2 * 2) else s) (s.scrubRewrite p words f)
  | _ =>
    match worstIn f with
    | .good => s
    | .corrected => s.scrubRewrite p words f
    | .uncorrectable =>
      (s.modSl p fun x => { x with
        segment := (List.range 128).foldl (fun t i => t.put x.segOnes (index * 128 + i) true) x.segment }).writeWords p words

/-- A visit of a slice's next location (10 R326). -/
def State.scrubSlice (s : State) (p : PhysSlice) (a : ScrubArray) (index : Nat) (found : Found) : State :=
  if !s.scrubbing p ∨ s.nextPlace p ≠ some (rankOf a, index) then s
  else
    let rank := rankOf a
    let (w, w2) := placeWords rank index
    let (x, y) := splitOf a found
    let (s1, f) := s.scrubRead p w x
    let (s2, g) := s1.scrubRead p w2 y
    let s3 := (s2.scrubCount (SCRUB_SUMMARY.LO 0) (w.length + w2.length)).modSl p fun x =>
      { x with scrubPos := rank * 2 ^ 20 + index + 1 }
    if worstIn (f ++ g) = .good then s3
    else
      -- a location is put off, too, while the agent has as many requests out as it may (07 Table 7.1)
      let busy := s.placeBusy p rank index || (rank == 0 && !s.agentRoom p .scrub)
      -- a corrected word is counted where it is found, an uncorrectable one where it is confirmed (10 Table 10.9)
      let s4 := s3.scrubTally (f ++ g) (!busy)
      if busy then
        (s4.scrubCount (SCRUB_SUMMARY.HI 1)).modSl p fun x => { x with deferred := x.deferred ++ [(a, index)] }
      else s4.scrubAct p rank index f g

/-! ### The control part -/

/-- The words of the control SRAMs in address order: instruction banks A and B, data SRAM, owner-loss list. -/
def controlWords : Nat := 32 * 2048 + 1024

/-- Firmware rewrites the 4 KiB block of an instruction bank that holds a word from the configuration store's copy of the bank's
image, where its SHA-384 is the one recorded at load; a mismatch, which a second read finds again, is a fatal event (10 Table 10.3). A
bank that holds no whole image has no copy to take the block from. -/
def State.reloadBlock (s : State) (m w : Nat) : State :=
  let b := decide (8 ≤ m)
  let k := m % 8 * 8 + w / 256
  match if b then s.boot.bankB else s.boot.bankA with
  | none => s
  | some i =>
    let copy := s.store.image (if b == s.on BOOT_ACT.ACTIVE then s.boot.slot else s.rd BOOT_ACT.STANDBY_SLOT)
    if blockDigest copy k = blockDigest i k then
      (List.range 256).foldl (fun s n => s.freshWord m (w / 256 * 256 + n) true) (s.loadBlock b i k)
    else s.fatal 0x4F (arrayInfo m w false true false false 0)

/-- A code word of a control memory is read by the scrubber: a corrected one is rewritten, an uncorrectable one left as it is; `extra` is
what the visit finds beside what is stored, which stays (10 R326, Table 10.4). -/
def State.scrubHalf (s : State) (m w : Nat) (up : Bool) (extra : Found) : State × Found :=
  let f := worstOf (s.devStored m w up) extra
  let s1 := s.devFinding m w up f
  (match f with
    | .good => s1
    | .corrected => s1.setDevError m w up WordError.none
    | .uncorrectable => if s.devStored m w up = .uncorrectable then s1 else s1.setDevError m w up ⟨[0, 1, 2], false, false, false⟩, f)

/-- A visit of the control part's next word (10 R326, Table 10.4): an uncorrectable word is left and reported; firmware rewrites
a block of an instruction SRAM. -/
def State.scrubControl (s : State) (a : ScrubArray) (index : Nat) (found : Found) : State :=
  if !s.on SCRUB_STATUS.BUSY ∨ !s.on SCRUB_STATUS.CTRL_PENDING ∨ a ≠ .sram ∨ index ≠ s.scrubWord ∨ controlWords ≤ index then s
  else
    let s1 := { s with scrubWord := index + 1 }
    let m := index / 2048
    let w := index % 2048
    let (s1, valid) := s1.readValid m w
    let s2 :=
      if !valid then s1.scrubCount (SCRUB_SUMMARY.HI 5)
      else
        let (s2, f) := s1.scrubHalf m w false found
        let (s3, g) := s2.scrubHalf m w true .good
        let s4 := (s3.scrubCount (SCRUB_SUMMARY.LO 0) 2).scrubTally [f, g] true
        if worstOf f g = .uncorrectable ∧ m < 16 then s4.reloadBlock m w else s4
    if index + 1 = controlWords then (s2.wr SCRUB_STATUS.CTRL_PENDING 0).scrubCheck else s2

/-- Whether a pass makes visits now: it pauses in DORMANT and REPAIR, and the modes before SERVE run none (10 R329). -/
def State.scrubRuns (s : State) : Bool := s.mode == 2 && s.on SCRUB_STATUS.BUSY

/-- SCRUB_VISIT (10 R326). A visit at any other place than the part's next has no effect. -/
def execScrubVisit (part : ScrubPart) (a : ScrubArray) (index : Nat) (found : Found) (s : State) :
    Outcome State Fault Refusal :=
  if !s.scrubRuns then .next s
  else match part with
    | .slice p => .next ((s.scrubSlice p a index found).scrubSliceEnd p)
    | .control => .next (s.scrubControl a index found)

/-- A deferred location is read again and acted on, where the finding is still there (07 R252, 10 R326). -/
def State.scrubAgain (s : State) (p : PhysSlice) (d : ScrubArray × Nat) (found : Found) : State :=
  let (w, w2) := placeWords (rankOf d.1) d.2
  let (x, y) := splitOf d.1 found
  if (rankOf d.1) = 0 ∧ !(s.way p (d.2 / 17) (d.2 % 17)).tagA.valid then s
  else
    let (s1, f) := s.scrubRead p w x
    let (s2, g) := s1.scrubRead p w2 y
    (s2.scrubCount (SCRUB_SUMMARY.LO 1) (countOf .uncorrectable (f ++ g))).scrubAct p (rankOf d.1) d.2 f g

/-- The scrub agent acts under a tracker it has got: on the deferred finding it was asked for, or by the refill of a line dropped. -/
def State.scrubUnder (s : State) (p : PhysSlice) (t : Tracker) (found : Found) : State :=
  match (s.sl p).deferred.find? fun d => s.placeLine p (rankOf d.1) d.2 == t.req.line with
  | some d =>
    let s1 := (s.modSl p fun x => { x with deferred := x.deferred.erase d }).scrubAgain p d found
    match s1.scrubHeld p with
    | some u => if u.id = t.id then s1.scrubFreed p t.id else s1
    | none => s1
  | none => if s.dataState p t.req.line = .absent then s.scrubRefill p t else s.scrubFreed p t.id

/-- SCRUB_REVISIT (07 R252, 10 R326): a deferred finding of a slice is read again under a background tracker, once it is free, and acted
on only if it is still there. A finding whose line has no tracker yet asks for one, and waits for it as every request does (07
R221). -/
def execScrubRevisit (p : PhysSlice) (found : Found) (s : State) : Outcome State Fault Refusal :=
  if !s.scrubRuns then .next s
  else match s.scrubHeld p with
    | some t => .next ((s.scrubUnder p t found).scrubSliceEnd p)
    | none =>
      match (s.sl p).deferred.find? fun d => !(s.sl p).waitq.any fun w =>
          w.req.cls == .scrub && w.req.line == s.placeLine p (rankOf d.1) d.2 with
      | none => .next s
      | some d =>
        if !s.agentRoom p .scrub then .next s
        else
          let s1 := s.scrubSend p (s.placeLine p (rankOf d.1) d.2)
          .next (match s1.scrubHeld p with
            | some t => (s1.scrubUnder p t found).scrubSliceEnd p
            | none => s1)

/-! ### The media part (10 R328) -/

/-- A media line that a stripe visit could not read or whose MAC fails is rebuilt from the other eight, or lost. -/
def State.scrubRebuild (s : State) (g stripe slot : Nat) (usable mac : Bool) : State :=
  let line := lineAt g stripe slot
  let others := (List.range 9).filter (· != slot)
  let form := xorAll (others.map fun k => (s.mediaAt (s.chanOf g k) stripe).getD Stored.zero)
  let ok := usable && (slot == paritySlot stripe || form.mac == 0#64 || s.macGood line form)
  let s1 := if mac then s.integrity line ok else s
  if ok then
    ((s1.visitOps g stripe [slot] true).setMedia (s.chanOf g slot) stripe (some form)).scrubCount (SCRUB_SUMMARY.LO 4)
  else if slot = paritySlot stripe then s1
  else (s1.lineLost 0x48 3 line).scrubCount (SCRUB_SUMMARY.LO 5)

/-- A stripe of a normal group is read and repaired; `found` gives the channel statuses by slot. -/
def State.scrubStripeVisit (s : State) (g stripe : Nat) (found : List Found) : State :=
  let st (k : Nat) : Found := (found[k]?).getD .good
  let slots := List.range 9
  let s1 := (s.visitOps g stripe slots false).scrubCount (SCRUB_SUMMARY.LO 0) 9
  let s2 := slots.foldl (fun s k =>
    let c := s.chanOf g k
    match st k with
    | .good => s
    | .corrected => (s.minor (0x22 + c.val) (channelInfo stripe 1)).scrubCount (SCRUB_SUMMARY.HI 0)
    | .uncorrectable => s.major (0x22 + c.val) (channelInfo stripe 3)) s1
  let bad := slots.filter fun k => st k == .uncorrectable
  let s3 := bad.foldl (fun s k => s.scrubRebuild g stripe k (bad.length == 1) false) s2
  if 2 ≤ bad.length ∨ xorAll (s3.stripeForms g stripe) = Stored.zero then s3
  else
    let data := (dataSlots stripe).filterMap fun k => (s3.mediaAt (s3.chanOf g k) stripe).map fun f => (k, f)
    let failing := data.filter fun f => f.2.mac != 0#64 && !s3.macGood (lineAt g stripe f.1) f.2
    let s4 := s3.visitOps g stripe (data.map (·.1)) false
    if failing.isEmpty then
      let p := paritySlot stripe
      let form := xorAll (data.map (·.2))
      ((s4.visitOps g stripe [p] true).setMedia (s4.chanOf g p) stripe (some form)).scrubCount (SCRUB_SUMMARY.HI 4)
    else failing.foldl (fun s f => s.scrubRebuild g stripe f.1 (failing.length == 1) true) s4

/-- Whether the pass may visit another stripe in this second of the always-on timestamp: MEDIA_KSTRIPES × 1024 visits, a setting of 0
acting as 1 (10 R328, Table 10.7; log 121). -/
def State.scrubPaced (s : State) : Bool :=
  s.scrubSecond != s.now / 1000000 || decide (s.scrubVisits < max 1 (s.rd SCRUB_START.MEDIA_KSTRIPES) * 1024)

/-- A stripe visit counts towards its second. -/
def State.scrubVisited (s : State) : State :=
  { s with scrubSecond := s.now / 1000000, scrubVisits := (if s.scrubSecond = s.now / 1000000 then s.scrubVisits else 0) + 1 }

/-- SCRUB_MEDIA_STRIPE_VISIT (10 R328): the next stripe of the chunks in SCRUB_RANGE; it waits for an open batch of the stripe and for
the pass's pace, and a stripe of a group that is not normal is skipped. -/
def execScrubMediaStripeVisit (found : List Found) (s : State) : Outcome State Fault Refusal :=
  if !s.scrubRuns ∨ !s.on SCRUB_STATUS.MEDIA_PENDING ∨ !s.scrubPaced then .next s
  else
    let base := s.rd SCRUB_RANGE.BASE_CHUNK
    let k := s.scrubStripe
    let stripe := base * 2 ^ 15 + k / 4
    let g := k % 4
    if (s.openBatch g stripe).isSome then .next s
    else
      let s1 := if s.abnormal g then s.scrubCount (SCRUB_SUMMARY.HI 5) else s.scrubVisited.scrubStripeVisit g stripe found
      let n := k + 1
      let s2 := { s1 with scrubStripe := n }.wr SCRUB_STATUS.MEDIA_CHUNK (min (base + n / 2 ^ 17) (s.rd SCRUB_RANGE.LIMIT_CHUNK))
      if (s.rd SCRUB_RANGE.LIMIT_CHUNK + 1 - base) * 2 ^ 17 ≤ n then
        .next ((s2.wr SCRUB_STATUS.MEDIA_PENDING 0).scrubCheck)
      else .next s2

/-! ### Start, stop, patrol -/

/-- The slices that take part in a pass: named by PS_MASK, active, not husked (10 Table 10.5). -/
def State.scrubSlices (s : State) : List PhysSlice :=
  s.activeSlices.filter fun p => s.rd SCRUB_TARGET.PS_MASK / 2 ^ p.val % 2 == 1

/-- The error code a START meets, 0 for none (10 Table 10.8). -/
def State.scrubError (s : State) : Nat :=
  let sliced := (List.range 5).any s.targets
  if !sliced ∧ !s.on SCRUB_TARGET.CTRL_SRAM ∧ !s.on SCRUB_TARGET.MEDIA then 1
  else if sliced ∧ s.scrubSlices = [] then 2
  else if s.on SCRUB_TARGET.MEDIA ∧ s.rd SCRUB_RANGE.LIMIT_CHUNK < s.rd SCRUB_RANGE.BASE_CHUNK then 3
  else if s.on SCRUB_TARGET.MEDIA ∧ s.chunks ≤ s.rd SCRUB_RANGE.LIMIT_CHUNK then 4
  else 0

/-- A pass begins, or START is refused (10 R330, R331). -/
def State.startScrub (s : State) : State :=
  let s1 := (List.range 6).foldl (fun s k => s.setReg (SCRUB_SUMMARY.reg k) 0#64) s
  let s2 := ((s1.wr SCRUB_STATUS.DONE 0).wr SCRUB_STATUS.ABORTED 0).wr SCRUB_STATUS.ERR 0
  let code := s.scrubError
  let s3 := s2.wr SCRUB_STATUS.ERR_CODE code
  if code ≠ 0 then s3.wr SCRUB_STATUS.ERR 1
  else
    let ps := if (List.range 5).any s.targets then s.scrubSlices else []
    let s4 := (s3.wr SCRUB_STATUS.BUSY 1).wr SCRUB_STATUS.PENDING (ps.foldl (fun a p => a + 2 ^ p.val) 0)
    let s5 := ((s4.wb SCRUB_STATUS.CTRL_PENDING (s.on SCRUB_TARGET.CTRL_SRAM)).wb SCRUB_STATUS.MEDIA_PENDING
      (s.on SCRUB_TARGET.MEDIA)).wr SCRUB_STATUS.MEDIA_CHUNK (s.rd SCRUB_RANGE.BASE_CHUNK)
    let s6 := { ps.foldl (fun s p => s.modSl p fun x => { x with scrubPos := 0, deferred := [] }) s5 with
      scrubStripe := 0, scrubWord := 0 }
    let s7 := s6.wb SCRUB_STATUS.PAUSED (s.mode == 3 || s.mode == 5)
    ps.foldl (fun s p => s.scrubSliceEnd p) s7

/-- SCRUB_START_PASS (10 R330): while a pass runs a write without STOP is ignored. In DRAIN a pass would be ended at once
(10 R329), so none begins. -/
def execScrubStartPass (v : Word) (s : State) : Outcome State Fault Refusal :=
  if s.mode < 2 ∨ s.mode = 4 ∨ s.on SCRUB_STATUS.BUSY then .next s
  else
    let s1 := (s.wr SCRUB_START.PACE (getBits v 16 16)).wr SCRUB_START.MEDIA_KSTRIPES (getBits v 32 12)
    .next s1.startScrub

/-- SCRUB_STOP (10 R329). -/
def execScrubStop (s : State) : Outcome State Fault Refusal :=
  .next (if s.on SCRUB_STATUS.BUSY then s.endScrub true else s)

/-- A number of an owner or factory record. -/
def State.settingNat (s : State) (k : Nat) : Nat := match s.store.known k with | some v => v.toNat | none => 0

/-- A patrol pass begins: every on-chip target and active slice, and the next block of chunks of media (10 R334). -/
def State.startPatrol (s : State) (period days : Nat) : State :=
  let n := (s.chunks * period + days * 86400 - 1) / (days * 86400)
  let first := if s.boot.patrolNext < s.chunks then s.boot.patrolNext else 0
  let last := min (first + n) s.chunks - 1
  let mask := s.activeSlices.foldl (fun a p => a + 2 ^ p.val) 0
  let media := days != 0 && decide (0 < n)
  let s1 := s.setReg SCRUB_TARGET.reg (BitVec.ofNat 64 (0x3F + media.toNat * 64 + mask * 256))
  let s2 := if media then
      (s1.setReg SCRUB_RANGE.reg (BitVec.ofNat 64 (first + last * 2 ^ 32))).wr SCRUB_START.MEDIA_KSTRIPES
        (min 4095 (((last + 1 - first) * 131072 * 5 + 4 * period * 1024 - 1) / (4 * period * 1024)))
    else s1
  let next := if media then (if last + 1 = s.chunks then 0 else last + 1) else s.boot.patrolNext
  let s3 := s2.wr SCRUB_START.PACE 4095
  State.startScrub { s3 with fw := { s3.fw with patrol := some next } }

/-- PATROL_PERIOD (10 R334): a period of 0 stops the patrol, and one at which a pass still runs is skipped. -/
def execPatrolPeriod (s : State) : Outcome State Fault Refusal :=
  if s.mode ≠ 2 ∨ s.on SCRUB_STATUS.BUSY ∨ s.settingNat 0x0058 = 0 then .next s
  else .next (s.startPatrol (s.settingNat 0x0058) (s.settingNat 0x0059))

end Sys2Proof.Machine
end

