-- ==== Sys2Proof/Machine/Boot.lean ====
section
/-! DEFINITION. The boot of the control complex (12 R383 to R394): the Acorn ROM's sequence, ring enumeration, measured loads,
and firmware's loading of the configuration (09 Table 9.7 step 4), which is the command after the ROM's last step. -/

namespace Sys2Proof.Machine

open Host (Outcome)

/-! ### Measurements (12 R386, R388) -/

/-- The CRC-32C of bytes, as the configuration store keeps it (12 R377; its polynomial and bit order are the standard's, log 125). -/
def crc32c (l : List Byte) : BitVec 32 :=
  let bit (c : BitVec 32) : BitVec 32 := if c.getLsbD 0 then (c >>> 1) ^^^ 0x82F63B78#32 else c >>> 1
  ~~~ l.foldl (fun c b => (List.range 8).foldl (fun c _ => bit c) (c ^^^ b.setWidth 32)) 0xFFFF_FFFF#32

/-- The 16 bytes of a configuration record; one with a bad CRC holds another than its bytes' (12 R377, log 125). -/
def ConfigRecord.bytes (r : ConfigRecord) : List Byte :=
  let b := leBytes 2 r.key ++ leBytes 2 8 ++ leBytes 8 r.value.toNat
  b ++ leBytes 4 (if r.crcOk then crc32c b else ~~~ crc32c b).toNat

/-- The bytes of a configuration layer: the header with its sequence number, record count and CRC, and the records (12 R377). -/
def layerBytes (seq : Nat) (l : List ConfigRecord) : List Byte :=
  let h := leBytes 8 seq ++ leBytes 52 l.length
  h ++ leBytes 4 (crc32c h).toNat ++ l.flatMap ConfigRecord.bytes

/-- A number that names the bytes of a configuration layer. -/
def layerNumber (seq : Nat) (l : List ConfigRecord) : Nat := (layerBytes seq l).foldl (fun a b => a * 256 + b.toNat) 1

/-- The digest of the ROM. -/
def romDigest : BitVec 384 := Config.sha384 1
/-- The digest of a firmware image: of the whole of it, as stored (12 R385). -/
def imageDigest (i : FwImage) : BitVec 384 := Config.sha384 (8 * (headerNumber i * 2 ^ 64 + i.content) + 2)
/-- The digest of the factory layer. -/
def factoryDigest (t : Store) : BitVec 384 := Config.sha384 (8 * layerNumber 0 t.factory + 3)
/-- The digest of the owner copy in force; of no bytes where none is valid. -/
def ownerDigest (c : Option OwnerCopy) : BitVec 384 :=
  match c with | some c => Config.sha384 (8 * layerNumber c.seq c.records + 4) | none => Config.sha384 0

/-- Measurement `i` written, word by word. -/
def State.setMeas (s : State) (i : Nat) (d : BitVec 384) : State :=
  (List.range 6).foldl (fun s w => s.setReg (BOOT_MEAS.reg (i, w)) (d.extractLsb' (64 * w) 64)) s

/-- Measurement `i`. -/
def State.meas (s : State) (i : Nat) : BitVec 384 :=
  (List.range 6).foldl (fun a w => a ||| ((s.reg (BOOT_MEAS.reg (i, w))).setWidth 384 <<< (64 * w))) 0#384

/-- BOOT_PEND written. -/
def State.setPend (s : State) (d : BitVec 384) : State :=
  (List.range 6).foldl (fun s w => s.setReg (BOOT_PEND.reg w) (d.extractLsb' (64 * w) 64)) s

/-- BOOT_PEND. -/
def State.pend (s : State) : BitVec 384 :=
  (List.range 6).foldl (fun a w => a ||| ((s.reg (BOOT_PEND.reg w)).setWidth 384 <<< (64 * w))) 0#384

/-- An entry of the measurement log; a full log overwrites its oldest entry after entry 3 (12 R388). -/
def State.logMeas (s : State) (index event : Nat) (digest : BitVec 384) : State :=
  let e : LogEntry := ⟨index, event, s.rd BOOT_ACT.ACT_COUNT, s.now, digest⟩
  let n := s.rd BOOT_LOG.NEXT
  let l := if n < s.boot.log.length then s.boot.log.set n e else s.boot.log ++ [e]
  let s1 := { s.setValid 31 (1024 + 4 * n) 4 true with boot := { s.boot with log := l } }
  let s2 := (s1.wr BOOT_LOG.ENTRIES (min 256 l.length)).wr BOOT_LOG.NEXT (if n = 255 then 4 else n + 1)
  if 256 ≤ s.boot.log.length then s2.wr BOOT_LOG.WRAPPED 1 else s2

/-! ### The repair record's values in force (12 R382) -/

/-- The latest entry for which `f` answers. -/
def Store.latest {α : Type} (t : Store) (f : RepairEntry → Option α) : Option α := (t.repair.filterMap f).getLast?

/-- Every entry for which `f` answers. -/
def Store.every {α : Type} (t : Store) (f : RepairEntry → Option α) : List α := t.repair.filterMap f

/-- The firmware slot the record names. -/
def Store.activeSlot (t : Store) : Nat := (t.latest fun e => match e with | .activeSlot n => some n | _ => none).getD 1

/-- A remap entry of the record reinstalled (12 Table 12.6): active, its spare zeroed or chaff. -/
def State.reinstall (s : State) (device : Bool) (p m e w : Nat) (chaff : Bool) : State :=
  let u : RemapUnit := if device then .device else .slice (toSlice p)
  let s1 := s.setRemap u m e ⟨.active, w⟩
  let bad (t : Tbl WordError) : Tbl WordError :=
    (t.put WordError.none (wordKey m (2048 + e) false) ⟨[], chaff, false, false⟩).put WordError.none
      (wordKey m (2048 + e) true) ⟨[], chaff, false, false⟩
  match u with
  | .device =>
    let s2 := s1.freshWord m w chaff
    { s2 with devErrors := bad s2.devErrors }
  | .slice q => s1.modSl q fun x => { x with errors := bad x.errors }

/-- The remap entries of the record whose macro `f` accepts. -/
def State.reinstallAll (s : State) (f : Bool → Nat → Bool) : State :=
  s.store.repair.foldl (fun s e => match e with
    | .remap d p m n w c => if f d m then s.reinstall d p m n w c else s
    | _ => s) s

/-! ### The Acorn ROM's steps (12 Table 12.7) -/

/-- The sequence stops: every core stays halted, and Cesal stays in SPROUT with PIP at 0 (12 R383, R385). -/
def State.bootStop (s : State) : State := { s with boot := { s.boot with halted := true, load := none } }

/-- The sequence has ended a step. -/
def State.bootStep (s : State) (n : Nat) : State := { s with boot := { s.boot with step := n } }

/-- Step 3: the core map, with the boot core's substitute where the core of LC_0 failed its self-test; remaps of the control
macros. -/
def State.loadCoreMap (s : State) : State :=
  let map := (s.store.latest fun e => match e with | .coreMap m => some m | _ => none).getD 0x688#12
  let core (k : Nat) : Nat := (map.extractLsb' (3 * k) 3).toNat
  let ok (c : Nat) : Bool := s.rd BOOT_CORE_MAP.HEALTHY / 2 ^ c % 2 == 1
  let cores : List Nat := (List.range 4).map core
  let cores := if ok (core 0) then cores
    else match (List.range 5).find? ok with
      | none => cores
      | some b => cores.map fun c => if c = core 0 then b else if c = b then core 0 else c
  let v := (cores.zipIdx).foldl (fun a c => a + c.1 * 2 ^ (3 * c.2)) 0
  (s.wr BOOT_CORE_MAP.CORES v).reinstallAll fun d m => d && decide (m < 35)

/-- A measured load of a slot begins (12 R385). -/
def State.startLoad (s : State) (slot : Nat) (bankB boot : Bool) : State :=
  { s with boot := { s.boot with
    load := some ⟨slot, bankB, 0, 0, boot⟩
    bankA := if bankB then s.boot.bankA else none
    bankB := if bankB then none else s.boot.bankB } }

/-- Step 6: the owner copy in force is read and measured; records with a bad CRC are counted and noted (12 R378). -/
def State.readOwner (s : State) : State :=
  let c := s.store.owner
  let code := match c with
    | none => 0
    | some c => if s.store.copyA.valid && s.store.copyA == c then 1 else 2
  let records : List ConfigRecord := match c with
    | some c => c.records
    | none => []
  let bad : List ConfigRecord := records.filter fun r => !r.crcOk
  let s1 := ((s.wr BOOT_STATUS.OWNER_COPY code).wr BOOT_STATUS.BAD_RECORDS (min 65535 bad.length)).setMeas 4 (ownerDigest c)
  bad.foldl (fun s r => s.major 0x5A (BitVec.ofNat 40 r.key)) s1

/-- Digest `k` listed in the owner copy, where all six parts are present (12 R390). -/
def listedDigest (c : OwnerCopy) (k : Nat) : Option (BitVec 384) :=
  (List.range 6).foldl (fun a j =>
    match a, findRecord c.records (0x0080 + 8 * k + j) with
    | some d, some v => some (d ||| (v.setWidth 384 <<< (64 * j)))
    | _, _ => none) (some 0#384)

/-- Step 7: the enforcement check (12 R390). -/
def State.enforce (s : State) : State :=
  if ((s.store.setting 0x0070).getD 0#64).getLsbD 0 then
    let s1 := s.wr BOOT_STATUS.ENFORCE 1
    let listed := match s.store.owner with
      | some c => (List.range 4).any fun k => listedDigest c k == some (s.meas 2)
      | none => false
    if listed then s1 else s1.wr BOOT_STATUS.MISMATCH 1
  else s

/-- Step 8: the cores run, and the boot's four measurements are logged (12 R388). -/
def State.releaseCores (s : State) : State :=
  let s1 := (List.finRange 4).foldl (fun s k => s.modCore k fun c => { c with halted := false }) s
  let s1 := s1.modCore 0 fun c => { c with startAt := some (entryAddr false s.boot.running) }
  let s2 := [1, 2, 3, 4].foldl (fun s i => s.logMeas i 0 (s.meas i)) s1
  s2.wr BOOT_STATUS.ROM_DONE 1

/-! ### Firmware's loading of the configuration (09 Table 9.7 step 4, 12 Table 12.4) -/

/-- A register's writable bits loaded from a value. -/
def State.loadReg (s : State) (off : Nat) (mask v : Word) : State :=
  let m := mask &&& (access off).rw
  s.setReg off ((s.reg off &&& ~~~m) ||| (v &&& m))

/-- A setting in force given to what takes it. -/
def State.withSetting (s : State) (key : Nat) (f : State → Word → State) : State :=
  match s.store.setting key with | some v => f s v | none => s

/-- R394 and R367: retired and unhealthy slices are husked, the map's slices numbered, the map written, ring credits given.
Where the map names a husked slice the lowest-numbered healthy spare takes its place, and the new map is recorded. -/
def State.loadSlices (s : State) : State :=
  let retired := s.store.every fun e => match e with | .retired 0 n => some n | _ => none
  let gone (p : PhysSlice) : Bool := retired.contains p.val || s.rd (SL_LOGICAL_ID.HEALTH p.val) != 0
  let s1 := (allSlices.filter gone).foldl (fun s p => s.wr (SL_CTRL.HUSK p.val) 1) s
  let (lo, hi) := (s.store.latest fun e => match e with | .sliceMap a b => some (a, b) | _ => none).getD
    (0x0706_0504_0302_0100#64, 0x0F0E_0D0C_0B0A_0908#64)
  let named : List Nat := (List.range 16).map fun j => if j < 8 then getBits lo (8 * j) 5 else getBits hi (8 * (j - 8)) 5
  let subst : List Nat × Bool := (List.range 16).foldl (fun (acc : List Nat × Bool) j =>
    let cur := (acc.1[j]?).getD 0
    if gone (toSlice cur) then
      match allSlices.find? fun q => !gone q && !acc.1.contains q.val with
      | some q => (acc.1.set j q.val, true)
      | none => acc
    else acc) (named, false)
  let map := subst.1
  let s2 := map.zipIdx.foldl (fun s e =>
    let p := toSlice e.1
    if s.slHusked p then s else (s.wr (SL_LOGICAL_ID.LS p.val) e.2).wr (SL_LOGICAL_ID.VALID p.val) 1) s1
  let word (base : Nat) : Word :=
    BitVec.ofNat 64 ((List.range 8).foldl (fun a k => a + (map[base + k]?).getD 0 * 2 ^ (8 * k)) 0)
  let s3 := (s2.writeSliceMap false (word 0)).writeSliceMap true (word 8)
  let spare := s3.spareSlice
  let s4 := allSlices.foldl (fun s p =>
    s.wb (SL_STATUS.CREDITED p.val) ((s3.active p && !s3.slHusked p) || spare == some p)) s3
  if subst.2 then
    let news := (allSlices.filter gone).filter fun p => named.contains p.val && !retired.contains p.val
    news.foldl (fun s p => s.commit (.retired 0 p.val)) (s4.commit s4.mapEntry)
  else s4

/-- The slices' settings: spare ways, clock, spill limiter, cleaner, aging (12 Table 12.4). -/
def State.loadSliceSettings (s : State) : State :=
  let s0 := allSlices.foldl (fun s p => (s.wr (SL_HC_CTRL.SPARE_FOR p.val) 16).wr (SL_CTRL.SF_SPARE_FOR p.val) 16) s
  let s1 := s.store.repair.foldl (fun s e => match e with
    | .spareWay p f w => s.wr (if f then SL_CTRL.SF_SPARE_FOR p else SL_HC_CTRL.SPARE_FOR p) w
    | _ => s) s0
  let each (f : State → PhysSlice → Word → State) (s : State) (v : Word) : State := allSlices.foldl (fun s p => f s p v) s
  let s2 := s1.withSetting 0x0024 (each fun s p v =>
    (s.wr (SL_HC_CTRL.CLEAN_HI p.val) (getBits v 0 8)).wr (SL_HC_CTRL.CLEAN_LO p.val) (getBits v 8 8))
  let s3 := s2.withSetting 0x0025 (each fun s p v =>
    (s.wr (SL_SF_CTRL.SPILL_RATE p.val) (getBits v 0 8)).wr (SL_SF_CTRL.SPILL_BURST p.val) (getBits v 8 12))
  let s4 := s3.withSetting 0x0026 (each fun s p v => s.loadReg (SL_WAITQ_AGING.reg p.val) 0x3FFF_FFFF#64 v)
  s4.withSetting 0x0040 (each fun s p v => s.wr (SL_DVFS.OPP_TARGET p.val) (getBits v 0 3))

/-- The host ports' settings; a port that the repair record disables stays disabled (11 Table 11.9). -/
def State.loadPorts (s : State) : State :=
  let off := (s.store.latest fun e => match e with | .hpDisabled m => some m | _ => none).getD 0#16
  allHosts.foldl (fun s h =>
    let s1 := s.withSetting (0x0010 + h.val) fun s v =>
      -- MERGE is reserved in odd ports (02 Table 2.2)
      let s1 := s.loadReg (HP_CTRL.reg h.val) (if h.val % 2 = 0 then 0xEF#64 else 0xED#64) v
      let s2 := s1.loadReg (HP_BI_TIMERS.reg h.val) 0xFFFF_FFFF#64 (v >>> 8)
      (s2.wr (HP_CREDITS.TRK_MAX h.val) (getBits v 40 8)).wr (HP_CREDITS.BISNP_MAX h.val) (getBits v 48 8)
    if hsMem off h then s1.wr (HP_CTRL.ENABLE h.val) 0 else s1) s

/-- A channel the repair record retires; one that a group map still names leaves its group without the slot (11 R369). -/
def State.markRetired (s : State) (c : Nat) : State :=
  let s1 := s.wr (MF_CH_STATE.STATE c) 3
  if s.rd (MF_CH_STATE.STATE c) = 1 then
    let g := s.rd (MF_CH_STATE.GROUP c)
    if s.rd (MF_GROUP_MAP.GSTATE g) = 0 then
      (s1.wr (MF_GROUP_MAP.GSTATE g) 1).wr (MF_GROUP_MAP.LOST_SLOT g) (s.rd (MF_CH_STATE.SLOT c))
    else (s1.wr (MF_GROUP_MAP.GSTATE g) 3).modMf fun m =>
      { m with lostMore := m.lostMore.put [] g (m.lostMore.look [] g ++ [s.rd (MF_CH_STATE.SLOT c)]) }
  else s1

/-- A rebuild that the repair record holds goes on once the media resumes (06 R214, R218), and the retirement of the channel `c` that it
replaces with it (11 R361, R369). -/
def State.resumeRebuild (s : State) (g k t l c : Nat) : State :=
  let s := ((s.wr (MF_CH_STATE.STATE c) 3).wr (FLT_SRC_COUNT.RETIRED (0x22 + c)) 1).addRetire ⟨1, c, 3, t⟩
  let w := ((((s.wr MF_REBUILD_STATUS.ACTIVE 1).wr MF_REBUILD_STATUS.GROUP g).wr MF_REBUILD_STATUS.SLOT k).wr
    MF_REBUILD_STATUS.TARGET t).wr MF_REBUILD_STATUS.LINE l
  w.modMf fun m => { m with resumeArmed := true }

/-- The group maps after a sanitise of all media: each slot that a failed group has lost is filled with the lowest-numbered spare channel,
where one remains (11 R370). -/
def refillMaps (maps : List Word) (gone : List Nat) : List Word :=
  (List.range (9 * maps.length)).foldl (fun ms i =>
    let g := i / 9
    let k := i % 9
    let old := (maps[g]?).getD 0#64
    let lost := (List.range 9).countP fun k => gone.contains (getBits old (6 * k) 6)
    if lost < 2 ∨ !gone.contains (getBits old (6 * k) 6) then ms
    else
      let used := ms.flatMap fun m => (List.range 9).map fun k => getBits m (6 * k) 6
      match (List.range 38).find? fun c => !used.contains c && !gone.contains c with
      | some c => ms.set g (putBits ((ms[g]?).getD 0#64) (6 * k) 6 c)
      | none => ms) maps

/-- The media front: its settings, the group maps, lost slots, a rebuild to resume (06 R214, R218, 11 R369). -/
def State.loadMedia (s : State) : State :=
  let s1 := s.withSetting 0x0030 fun s v => s.loadReg MF_HEDGE_CTRL.reg (BitVec.allOnes 64) v
  let s2 := s1.withSetting 0x0031 fun s v => s.loadReg MF_CTRL.reg 0xFFF#64 v
  let recorded := (s.store.latest fun e => match e with | .groupMap l => some l | _ => none).getD []
  let gone := s.store.every fun e => match e with | .retired 1 n => some n | _ => none
  let maps := if s.store.sanitised then refillMaps recorded gone else recorded
  let rebuild := s.store.latest fun e => match e with | .rebuild g k t l => some (g, k, t, l) | _ => none
  let resume := match rebuild with
    | some (g, k, t, _) => getBits ((maps[g]?).getD 0#64) (6 * k) 6 != t
    | none => false
  let s3 := maps.zipIdx.foldl (fun s e =>
    let v := match rebuild with
      | some (g, k, t, _) => if resume && g == e.2 then putBits e.1 (6 * k) 6 t else e.1
      | none => e.1
    s.writeGroupMap e.2 v) s2
  let s4 := gone.foldl (fun s c => s.markRetired c) s3
  let s4 := if maps = recorded then s4 else s4.commit (.groupMap maps)
  match rebuild with
  | some (g, k, t, l) => if resume then s4.resumeRebuild g k t l (getBits ((maps[g]?).getD 0#64) (6 * k) 6) else s4
  | none => s4

/-- The region table from the owner layer; a record that R39 would refuse is ignored and noted (01 R41). -/
def State.loadRegions (s : State) : State :=
  let records : List ConfigRecord := match s.store.owner with
    | some c => c.records
    | none => []
  let rs : List ConfigRecord := records.filter fun r => r.crcOk && decide (0x4000 ≤ r.key)
  rs.foldl (fun s r =>
    let e := r.value.extractLsb' 0 32
    let i := r.key - 0x4000
    if 16384 ≤ i then s
    else if s.regionRefused i e then s.major 0x5A (BitVec.ofNat 40 r.key) else s.putRegion i e) s

/-- The rest of the owner layer: budget, persistence mode, sweeper, power, PIP, fault policies. -/
def State.loadRest (s : State) : State :=
  let s1 := s.withSetting 0x0020 fun s v => if 128 < getBits v 0 8 then s else s.wr GLB_DIRTY_BUDGET.BUDGET_MIB (getBits v 0 8)
  let s2 := s1.withSetting 0x0021 fun s v => s.wr GLB_PERSIST_CTRL.WT (getBits v 0 1)
  let s3 := s2.withSetting 0x0027 fun s v => s.wr GLB_PASS_EPOCH.PASS_HOURS (getBits v 0 8)
  let s4 := s3.withSetting 0x0041 fun s v => s.loadReg PWR_DORM.reg (BitVec.allOnes 64) v
  let s5 := s4.withSetting 0x0042 fun s v => s.loadReg PWR_THERM.reg (BitVec.allOnes 64) v
  let s6 := s5.withSetting 0x0060 fun s v => s.wr FLT_PIP_CTRL.PERIOD (getBits v 0 10)
  let s7 := s6.withSetting 0x0061 fun s v => s.wr FLT_PIP_CTRL.WD_MS (getBits v 0 16)
  (List.range 96).foldl (fun s k => s.withSetting (0x0100 + k) fun s v =>
    s.loadReg (FLT_SRC_CFG.reg k) (BitVec.allOnes 64) v) s7

/-- The epochs and the sweep's progress; the new epoch's entry is the first after a SPROUT (04 R129, R131, 12 R382). -/
def State.loadEpochs (s : State) : State :=
  let (e, d) := (s.store.latest fun x => match x with | .epoch e d => some (e, d) | _ => none).getD (0#12, false)
  let (pe, se, n) := (s.store.latest fun x => match x with | .pass a b n => some (a, b, n) | _ => none).getD (0#12, 0#12, 0)
  let s1 := (s.wr GLB_EPOCH.EPOCH (e + 1).toNat).wb GLB_EPOCH.DISTRUST d
  let s2 := ((s1.wr GLB_PASS_EPOCH.PASS_EPOCH pe.toNat).wr GLB_PASS_EPOCH.START_EPOCH se.toNat).wr GLB_PASS_EPOCH.NEXT_CHUNK n
  { s2 with boot := { s2.boot with epochWritten := true } }.commit (.epoch (e + 1) d)

/-- The owner-loss entries that the last DRAIN saved: those after the last epoch of the record (04 R143). -/
def Store.savedLosses (t : Store) : List Word :=
  t.repair.foldl (fun l e => match e with | .epoch _ _ => [] | .ownerLoss w => l ++ w | _ => l) []

/-- Firmware loads every field marked cfg, and asks for a resync where the record was not closed (06 R206). -/
def State.loadConfig (s : State) : State :=
  let closed := s.store.closed
  let s0 := s.withSetting 0x0001 fun s v => s.wr GLB_CAPS.DPA_REGIONS (getBits v 0 15)
  let s1 := s0.loadEpochs.loadSlices
  let s2 := (s1.reinstallAll fun d m => !d || decide (35 ≤ m)).loadSliceSettings
  let s3 := s2.loadPorts.loadMedia.loadRegions.loadRest
  let s4 := if closed then s3 else (s3.wr MF_CTRL.RESYNC 1).modMf fun m => { m with resyncArmed := true }
  let patrol := (s.store.latest fun x => match x with | .patrol n => some n | _ => none).getD 0
  let s5 := s4.setLosses s.store.savedLosses
  { s5 with store := { s5.store with sanitised := false }, boot := { s5.boot with patrolNext := patrol, step := 9 } }

/-! ### The commands -/

/-- ACORN_ROM_SEQUENCE (12 R383, Table 12.7; 09 Table 9.7): the next step. Enumeration and the measured load are steps of their
own commands. After step 8 firmware loads the configuration, once the reset invalidation has ended and unless MISMATCH is 1
(09 R297). With no healthy core the sequence stops. Where in the data SRAM step 8 leaves the store's images the spec does not say, and
the model leaves none (DESIGN CHOICE, log 127). -/
def execAcornRomSequence (r : AcornInput) (s : State) : Outcome State Fault Refusal :=
  if s.mode ≠ 1 ∨ s.boot.halted ∨ s.boot.load.isSome then .next s
  else match s.boot.step with
    | 0 =>
      let s1 := s.wr BOOT_CORE_MAP.HEALTHY r.healthy.toNat
      .next (if r.healthy = 0#5 then s1.bootStop else (s1.setMeas 1 romDigest).bootStep 1)
    | 2 => .next (s.loadCoreMap.bootStep 3)
    | 3 => .next (s.startLoad s.store.activeSlot false true)
    | 4 =>
      .next (if r.signatureOk then ((s.wr BOOT_STATUS.FACT_OK 1).setMeas 3 (factoryDigest s.store)).bootStep 5 else s.bootStop)
    | 5 => .next (s.readOwner.bootStep 6)
    | 6 => .next (s.enforce.bootStep 7)
    | 7 => .next (s.releaseCores.bootStep 8)
    | 8 => .next (if s.on BOOT_STATUS.MISMATCH ∨ !s.boot.invalidated then s else s.loadConfig)
    | _ => .next s

/-- RING_ENUMERATION (12 R391, R392): each slice's answer, 0 good, 1 array self-test failed, 2 clock island failed; any other
value, or none, is no answer. It is step 2 of the Acorn sequence. -/
def execRingEnumeration (answers : List Nat) (s : State) : Outcome State Fault Refusal :=
  if s.mode ≠ 1 ∨ s.boot.halted ∨ s.boot.step ≠ 1 then .next s
  else
    let health (p : PhysSlice) : Nat := match answers[p.val]? with | some a => min a 3 | none => 3
    let set (f : Nat → Bool) : Nat := allSlices.foldl (fun a p => if f (health p) then a + 2 ^ p.val else a) 0
    let s1 := allSlices.foldl (fun s p => s.wr (SL_LOGICAL_ID.HEALTH p.val) (health p)) s
    .next (((s1.wr BOOT_ENUM.PRESENT (set (· < 3))).wr BOOT_ENUM.HEALTHY (set (· == 0))).bootStep 2)

/-- A measured load has failed: at boot the other slot is loaded, and with both failed the sequence stops (12 R385). -/
def State.loadFailed (s : State) (l : Load) : State :=
  let s1 := { s with boot := { s.boot with load := none } }
  if l.boot then
    if s.boot.triedOther then s1.bootStop
    else
      let s2 := { s1 with boot := { s1.boot with triedOther := true } }.wr BOOT_STATUS.FALLBACK 1
      s2.startLoad (if l.slot = 1 then 2 else 1) false true
  else ((s1.wr BOOT_ACT.LOAD_ERR 1).wr BOOT_ACT.BUSY 0)

/-- A measured load is complete (12 R385, R396). -/
def State.loadDone (s : State) (l : Load) (i : FwImage) : State :=
  let b := { s.boot with load := none }
  if l.boot then
    let s1 := { s with boot := { b with bankA := some i, running := i, slot := l.slot } }
    ((s1.wr BOOT_STATUS.SLOT l.slot).setMeas 2 (imageDigest i)).bootStep 4
  else
    let s1 := { s with boot := if l.bankB then { b with bankB := some i } else { b with bankA := some i } }
    (((s1.wr BOOT_ACT.STANDBY_VALID 1).wr BOOT_ACT.STANDBY_SLOT l.slot).wr BOOT_ACT.BUSY 0).setPend (imageDigest i)

/-- MEASURED_LOAD_BLOCK (12 R385): a block is read, up to three times again where the read fails, hashed into the bank and checked against
the header's hash of it. -/
def execMeasuredLoadBlock (readOk : Bool) (s : State) : Outcome State Fault Refusal :=
  match s.boot.load with
  | none => .next s
  | some l =>
    let i := s.store.image l.slot
    if !readOk then
      if 3 ≤ l.failures then .next (s.loadFailed l)
      else .next { s with boot := { s.boot with load := some { l with failures := l.failures + 1 } } }
    else if !i.valid ∨ i.blocks = 0 then .next (s.loadFailed l)
    else
      let s1 := s.loadBlock l.bankB i l.block
      if !blockGood i l.block then .next (s1.loadFailed l)
      else if i.blocks ≤ l.block + 1 then .next (s1.loadDone l i)
      else .next { s1 with boot := { s1.boot with load := some { l with block := l.block + 1, failures := 0 } } }

end Sys2Proof.Machine
end

