-- ==== Sys2Proof/Machine/Glb.lean ====
section
/-! DEFINITION. The commands of the block's routing and naming registers: the region port (01 R37 to R39), the slice map (01
R31), the hash (01 R32), logical slice numbers (12 R393), the core map (12 R375). No register is reachable in HOLD (16 R475). -/

namespace Sys2Proof.Machine

open Host (Outcome)

/-- REGION_PORT_READ (01 R37, R38): the entry is read into ENTRY. The operation is whole in the step, so BUSY is never seen. -/
def execRegionPortRead (index : BitVec 14) (s : State) : Outcome State Fault Refusal :=
  if s.mode = 0 then .next s
  else .next ((s.wr GLB_REGION_PORT.INDEX index.toNat).wr GLB_REGION_PORT.ENTRY (s.regionEntry index.toNat).toNat)

/-- REGION_PORT_WRITE (01 R38, R39, R41): an accepted entry is applied at once to the copy of every slice that is not husked, and firmware
keeps its owner record; a refused one changes no copy and sets ERR. -/
def execRegionPortWrite (index : BitVec 14) (entry : BitVec 32) (s : State) : Outcome State Fault Refusal :=
  if s.mode = 0 then .next s
  else
    .next (if s.regionRefused index.toNat entry then
        ((s.wr GLB_REGION_PORT.INDEX index.toNat).wr GLB_REGION_PORT.ENTRY entry.toNat).wr GLB_REGION_PORT.ERR 1
      else s.regionDone index.toNat entry)

/-- SLICE_MAP_WRITE (01 R30, R31). -/
def execSliceMapWrite (high : Bool) (v : Word) (s : State) : Outcome State Fault Refusal := .next (s.writeSliceMap high v)

/-- A write of GLB_HASH_CTRL: MODE is writable in SPROUT while LOCK is 0; LOCK once 1 ignores writes and holds MODE; MAP_ERR
is cleared by a 1 (01 R32). -/
def State.writeHash (s : State) (v : Word) : State :=
  let s1 := if getBits v 2 1 = 1 then s.wr GLB_HASH_CTRL.MAP_ERR 0 else s
  if s.on GLB_HASH_CTRL.LOCK then s1
  else
    let s2 := if s.mode = 1 then s1.wr GLB_HASH_CTRL.MODE (getBits v 0 1) else s1
    s2.wr GLB_HASH_CTRL.LOCK (getBits v 1 1)

/-- HASH_CTRL_WRITE (01 R32). -/
def execHashCtrlWrite (v : Word) (s : State) : Outcome State Fault Refusal :=
  if s.mode = 0 then .next s else .next (s.writeHash v)

/-- SL_LOGICAL_ID_WRITE (12 R393). -/
def execSlLogicalIdWrite (p : PhysSlice) (v : Word) (s : State) : Outcome State Fault Refusal := .next (s.writeLogicalId p v)

/-- A write of BOOT_CORE_MAP: ignored in whole where it names one physical core for two logical numbers, or a core that is
not healthy (12 R375). -/
def State.writeCoreMap (s : State) (v : Word) : State :=
  let cores : List Nat := (List.range 4).map fun k => getBits v (3 * k) 3
  if distinct cores ∧ cores.all (fun c => s.rd BOOT_CORE_MAP.HEALTHY / 2 ^ c % 2 == 1) then
    s.wr BOOT_CORE_MAP.CORES (getBits v 0 12)
  else s

/-- BOOT_CORE_MAP_WRITE (12 R375). -/
def execBootCoreMapWrite (v : Word) (s : State) : Outcome State Fault Refusal :=
  if s.mode = 0 then .next s else .next (s.writeCoreMap v)

end Sys2Proof.Machine
end

