-- ==== Sys2Proof/Machine/Queues.lean ====
section
/-! DEFINITION. The commands of the pod queues (13 R399 to R415): reading an item, appending to the capture queue, resets,
replays. What a crossing holds is kept with its port, slice or stop (log 11). -/

namespace Sys2Proof.Machine

open Host (Outcome)

/-! ### Reading (13 R400 to R403, R415) -/

/-- The place of the item that a read takes: the first in arrival order, the oldest of the highest priority in priority order.
A packet's items share its priority and stand together, so they are read consecutively (13 R401). -/
def pickItem (byPrio : Bool) (l : List PqItem) : Nat :=
  if byPrio then
    let top := l.foldl (fun a i => max a i.prio) 0
    l.findIdx fun i => i.prio == top
  else 0

/-- Whether firmware keeps a notice in an event log: FAULT, FENCE, DEPARTURE, REGION_VIOL, INTEGRITY, UNKNOWN_RANGE,
WRITE_DROPPED, LINE_LOST (13 R427). -/
def loggedType (t : Nat) : Bool :=
  t == 0x01 || t == 0x11 || t == 0x12 || t == 0x14 || t == 0x21 || t == 0x22 || t == 0x23 || t == 0x26

/-- A notice that firmware has read whole is placed in its event log; a FAULT of fatal class goes to Fatal (13 R427). -/
def State.logNotice (s : State) (words : List Native) : State :=
  match words with
  | [] => s
  | w :: _ =>
    let typ := (w.extractLsb' 0 8).toNat
    if !loggedType typ then s
    else
      let fatal := typ == 0x01 && (w.extractLsb' 30 1) == 1#1
      s.logRecord (if fatal then 3 else logOf (w.extractLsb' 8 2).toNat) words

/-- One item is read: the banks swap first where the drain bank is empty; none where no item is committed, and then nothing
changes (13 R400, R403). -/
def State.pqPop (s : State) (q : Nat) : State × Option PqItem :=
  let s1 := s.pqSwap q
  let x := s1.pq q
  match x.drain[pickItem (s.on (PQ_CTRL.ORDER q)) x.drain]? with
  | none => (s, none)
  | some i =>
    let k := pickItem (s.on (PQ_CTRL.ORDER q)) x.drain
    let words := x.reading ++ [i.word]
    let s2 := s1.modPq q fun y => { y with drain := y.drain.eraseIdx k, reading := if i.eop then [] else words }
    let s3 := (s2.wr (PQ_STATUS.POP_VBC q) (min 16 i.vbc)).wb (PQ_STATUS.POP_EOP q) i.eop
    (if 70 ≤ q ∧ q < 74 ∧ i.eop then s3.logNotice words else s3, some i)

/-- A load that is answered with an error: its core takes a precise bus-error exception, which ends the core's own
reservation (08 R274, R277). -/
def State.preciseError (s : State) (k : LogicalCore) (addr : Word) : State :=
  ((s.dropReservation k).count 78 6).modCore k fun c => { c with precise := c.precise + 1, preciseAddr := addr }

/-- The logical core that drains a queue: k for NQk, and 0 for the boot intake and capture queues, whose consumer the spec
names only as a control core (log 23). -/
def queueCore (q : Nat) : LogicalCore := Fin.ofNat 4 (if 70 ≤ q ∧ q < 74 then q - 70 else 0)

/-- The control-space address of a register (16 R470). -/
def regAddress (off : Nat) : Word := BitVec.ofNat 64 (0x8000_0000_4000_0000 + off)

/-- PQ_DATA_READ (13 R415, 16 R471): a 16-byte load reads one item whole; an 8-byte load at 0x40 reads one item and latches
its upper half; at 0x48 the latched half is returned; a narrower load is answered with an error and reads none. In a crossing
PQ_DATA reads 0 (13 R410). -/
def execPqDataRead (q : QueueId) (size : PqAccess) (s : State) : Outcome State Fault Refusal :=
  if s.mode = 0 then .next s
  else match size with
    | .narrow => .next (s.preciseError (queueCore q.val) (regAddress (PQ_CTRL.reg q.val + 0x40)))
    | .high =>
      .next (s.emit (.pqItem q (if q.val < 70 then 0#128 else (s.pq q.val).latched.setWidth 128)))
    | .full =>
      if q.val < 70 then .next (s.emit (.pqItem q 0#128))
      else
        let (s1, i) := s.pqPop q.val
        .next (s1.emit (.pqItem q (match i with | some i => i.word | none => 0#128)))
    | .low =>
      if q.val < 70 then .next (s.emit (.pqItem q 0#128))
      else
        let (s1, i) := s.pqPop q.val
        -- the idle item changes nothing, the latch included (13 R403)
        .next (match i with
          | none => s1.emit (.pqItem q 0#128)
          | some i => (s1.modPq q.val fun y => { y with latched := i.word.extractLsb' 64 64 }).emit
              (.pqItem q (i.word &&& 0xFFFF_FFFF_FFFF_FFFF#128)))

/-! ### The capture queue (13 R408, R414) -/

/-- A word closes: its bytes, least significant first, padded with zeros, with their count. -/
def closedWord (bs : List Byte) (eop : Bool) : PqItem :=
  ⟨BitVec.ofNat 128 (leAt bs 0 bs.length), 0, bs.length, eop⟩

/-- Bytes appended under packing mode: the words that close, and the bytes of the word left open (13 R408). -/
def packBytes (old new : List Byte) (eop : Bool) : List PqItem × List Byte :=
  let l := old ++ new
  if l.length < 16 then if eop then ([closedWord l true], []) else ([], l)
  else
    let rest := l.drop 16
    let first := closedWord (l.take 16) (eop && rest.isEmpty)
    if eop && !rest.isEmpty then ([first, closedWord rest true], []) else ([first], rest)

/-- Whether the capture queue admits producer writes: SPROUT, REPAIR, or TEST (13 R408). -/
def State.captureOpen (s : State) : Bool := s.mode == 1 || s.mode == 5 || (s.mode != 0 && s.on (PQ_CTRL.TEST 75))

/-- PQ_FILL_WRITE (13 R414): bytes are appended to the capture queue, or its open word is rewound. -/
def execPqFillWrite (v : Word) (s : State) : Outcome State Fault Refusal :=
  if !s.captureOpen then .next s
  else if getBits v 35 1 = 1 then .next (s.modPq 75 fun y => { y with openBytes := [] })
  else
    let new := leBytes (getBits v 32 2 + 1) (getBits v 0 32)
    let (items, rest) := packBytes (s.pq 75).openBytes new (getBits v 34 1 == 1)
    .next (items.foldl (fun s i => s.pqWrite 75 [i]) (s.modPq 75 fun y => { y with openBytes := rest }))

/-! ### Resets and replay (13 R405, R406, R411) -/

/-- The fault source of a queue (13 Table 13.1). -/
def queueSource (q : Nat) : Nat :=
  if q < 16 then q else if q < 32 then q - 16 else if q < 50 then 0x10 + (q - 32) else if q < 68 then 0x10 + (q - 50)
  else if q < 70 then 0x57 else if q < 74 then 0x52 + (q - 70) else 0x56

/-- The info word of an event of a queue (13 Table 13.2). -/
def queueEvent (q event : Nat) : BitVec 40 :=
  if q = 68 ∨ q = 69 then BitVec.ofNat 40 (19 + q * 2 ^ 6 + event * 2 ^ 13) else queueInfo q event

/-- A queue is emptied and its banks return to bank 0 filling; a boot intake queue so reset loses its block, which counts as
one failed read (13 R405, Table 13.1). -/
def State.emptyQueue (s : State) (q : Nat) : State :=
  let s1 := (s.modPq q fun y => { y with fill := [], drain := [], openBytes := [], reading := [] }).wr
    (PQ_STATUS.FILL_BANK q) 0
  if q = 74 then
    match s1.boot.load with
    | some l =>
      if 3 ≤ l.failures then s1.loadFailed l
      else { s1 with boot := { s1.boot with load := some { l with failures := l.failures + 1 } } }
    | none => s1
  else s1

/-- PQ_RESET (13 R411): ignored in crossings; no fault event is raised. -/
def execPqReset (q : QueueId) (s : State) : Outcome State Fault Refusal :=
  if s.mode = 0 ∨ q.val < 70 then .next s else .next (s.emptyQueue q.val)

/-- POINTER_MISMATCH_RESET (13 R405). -/
def execPointerMismatchReset (q : QueueId) (s : State) : Outcome State Fault Refusal :=
  if s.mode = 0 then .next s
  else
    let s1 := ((s.emptyQueue q.val).wr (PQ_STATUS.RESET_SEEN q.val) 1).inc (PQ_STATUS.RESET_COUNT q.val)
    .next ((s1.queueInterrupt q.val).major (queueSource q.val) (queueEvent q.val 0))

/-- CROSSING_REPLAY (13 R406): after a reset the sender has written again what was not read, so the crossing holds what it held;
nothing is lost, duplicated or reordered. Its completion is reported as a minor event with event code 001, whose class the spec does
not give (log 24). -/
def execCrossingReplay (q : QueueId) (s : State) : Outcome State Fault Refusal :=
  if s.mode = 0 ∨ 70 ≤ q.val ∨ !s.on (PQ_STATUS.RESET_SEEN q.val) then .next s
  else .next (s.minor (queueSource q.val) (queueEvent q.val 1))

end Sys2Proof.Machine
end

