-- ==== Sys2Proof/Machine/Pmu.lean ====
section
/-! DEFINITION. The commands of the performance monitor (15 R456 to R469): snapshots, sampling control, the sample buffer, and
the tracker peak (07 R235). -/

namespace Sys2Proof.Machine

open Host (Outcome)

/-- A snapshot: every counter is copied, at the always-on edge that the step stands for; the copy is whole in the step, so
SNAP_BUSY is never seen (15 R459). -/
def State.takeSnap (s : State) : State :=
  ({ s with snap := s.pmu }.wr PMU_SNAP_TIME.TIME s.now).wr PMU_CTRL.SNAP_SEQ (s.rd PMU_CTRL.SNAP_SEQ + 1)

/-- PMU_SNAP (15 R459). -/
def execPmuSnap (s : State) : Outcome State Fault Refusal := if s.mode = 0 then .next s else .next s.takeSnap

/-- PEAK_CLR (07 R235): TRK_PEAK takes the present TRK_USED. -/
def execPeakClr (p : PhysSlice) (s : State) : Outcome State Fault Refusal :=
  if s.mode = 0 ∨ s.slHusked p then .next s else .next (s.wr (SL_TOR_STATUS.TRK_PEAK p.val) (s.sl p).trkUsed)

/-- Every slice's LFSR is loaded from a seed; a seed that would leave it at 0 loads 1 (15 R463). -/
def State.loadLfsrs (s : State) : State :=
  let seed := BitVec.ofNat 32 (s.rd PMU_SAMPLE_SEED.SEED)
  allSlices.foldl (fun s p =>
    let x := seed ^^^ BitVec.ofNat 32 (0x0001_0001 * (p.val + 1))
    s.modSl p fun y => { y with lfsr := if x = 0#32 then 1#32 else x }) s

/-- CLEAR: the buffer is emptied and its counts are zeroed (15 R465). -/
def State.clearSamples (s : State) : State :=
  (({ s with samples := [] }.wr PMU_SAMPLE_STATUS.LOST 0).wr PMU_SAMPLE_STATUS.DISCARDED 0).wr PMU_SAMPLE_STATUS.ABANDONED 0

/-- Whether a value of PMU_SAMPLE_CTRL is ignored: 2^(JITTER-1) at or above N, with JITTER above 16 as 16 and N 0 as 1
(15 R463). -/
def sampleRefused (v : Word) : Bool :=
  let j := min 16 (getBits v 4 5)
  j != 0 && decide (max 1 (getBits v 32 32) ≤ 2 ^ (j - 1))

/-- A write of PMU_SAMPLE_CTRL (15 R463, R465, R468): as EN becomes 1 every slice's LFSR is loaded and its countdown
reloaded. -/
def State.writeSampleCtrl (s : State) (v : Word) : State :=
  if sampleRefused v then s.wr PMU_SAMPLE_CTRL.ERR 1
  else
    let s1 := s.setReg PMU_SAMPLE_CTRL.reg ((access PMU_SAMPLE_CTRL.reg).apply (s.reg PMU_SAMPLE_CTRL.reg) v)
    let s2 := if getBits v 2 1 = 1 then s1.clearSamples else s1
    if getBits v 0 1 = 1 ∧ !s.on PMU_SAMPLE_CTRL.EN then allSlices.foldl (fun s p => s.reloadCountdown p) s2.loadLfsrs else s2

/-- SAMPLE_CTRL_WRITE (15 R463, R468). -/
def execSampleCtrlWrite (v : Word) (s : State) : Outcome State Fault Refusal :=
  if s.mode = 0 then .next s else .next (s.writeSampleCtrl v)

/-- A write of PMU_SAMPLE_SEED (15 R463). -/
def State.writeSampleSeed (s : State) (v : Word) : State :=
  (s.setReg PMU_SAMPLE_SEED.reg ((access PMU_SAMPLE_SEED.reg).apply (s.reg PMU_SAMPLE_SEED.reg) v)).loadLfsrs

/-- SAMPLE_SEED_WRITE (15 R463). -/
def execSampleSeedWrite (v : Word) (s : State) : Outcome State Fault Refusal :=
  if s.mode = 0 then .next s else .next (s.writeSampleSeed v)

/-- SAMPLE_CLEAR (15 R465). -/
def execSampleClear (s : State) : Outcome State Fault Refusal := if s.mode = 0 then .next s else .next s.clearSamples

/-- SAMPLE_DATA_READ (15 R468): word 3 of the oldest unread record is returned and the record removed; 0 from an empty
buffer. -/
def execSampleDataRead (s : State) : Outcome State Fault Refusal :=
  if s.mode = 0 then .next s
  else
    let w : Word := match s.samples with
      | [] => 0#64
      | r :: _ => r.extractLsb' 192 64
    .next ({ s with samples := s.samples.drop 1 }.emit (.sampleWord w))

end Sys2Proof.Machine
end

