-- ==== Sys2Proof/Machine/Activation.lean ====
section
/-! DEFINITION. Live firmware activation (12 R395 to R398) and the acknowledgement of a program of the configuration store (12
R379, 17 R495). -/

namespace Sys2Proof.Machine

open Host (Outcome)

/-- The bank that does not execute: B where ACTIVE is 0 (12 Table 12.10). -/
def State.standbyIsB (s : State) : Bool := !s.on BOOT_ACT.ACTIVE

/-- The image of a bank. -/
def State.bank (s : State) (b : Bool) : FwImage := ((if b then s.boot.bankB else s.boot.bankA).getD FwImage.none)

/-- A write of BOOT_ACT.LOAD: nothing is loaded where the standby bank holds the slot's image already, nor while a load runs
(12 R396 step 1). -/
def State.loadStandby (s : State) (slot : Nat) : State :=
  if s.on BOOT_ACT.BUSY then s
  else
    let s1 := s.wr BOOT_ACT.LOAD_SLOT slot
    if s.on BOOT_ACT.STANDBY_VALID ∧ s.rd BOOT_ACT.STANDBY_SLOT = slot then s1
    else ((s1.wr BOOT_ACT.STANDBY_VALID 0).wr BOOT_ACT.BUSY 1).startLoad slot s.standbyIsB false

/-- BOOT_LOAD (12 R396). -/
def execBootLoad (slot : BitVec 2) (s : State) : Outcome State Fault Refusal :=
  if s.mode = 0 then .next s else .next (s.loadStandby slot.toNat)

/-- Every logical core that runs restarts at the entry of the image in force, without its reservation (12 R396, R397, 08 R274). -/
def State.restartCores (s : State) : State :=
  (List.finRange 4).foldl (fun s k =>
    let s1 := s.dropReservation k
    if (s1.core k).husked then s1
    else s1.modCore k s.startCore) s

/-- A bank switch (12 R396 step 3, R397, R388): the banks, their slots and the measurements change places, ACT_COUNT counts,
and an index-2 and an index-5 entry are logged; `event` is 1 for an activation, 2 for a rollback. -/
def State.switchBanks (s : State) (event : Nat) : State :=
  let old := s.meas 2
  let s1 := ((s.wr BOOT_ACT.ACTIVE (1 - s.rd BOOT_ACT.ACTIVE)).setMeas 2 s.pend).setPend old
  let s2 := s1.wr BOOT_ACT.ACT_COUNT (s.rd BOOT_ACT.ACT_COUNT + 1)
  let s3 := s2.setMeas 5 (BitVec.ofNat 384 (s2.rd BOOT_ACT.ACT_COUNT))
  let s4 := (s3.logMeas 2 event (s3.meas 2)).logMeas 5 event (s3.meas 5)
  let image := s.bank s.standbyIsB
  let s5 := s4.wr BOOT_ACT.STANDBY_SLOT s.boot.slot
  { s5 with boot := { s5.boot with running := image, slot := s.rd BOOT_ACT.STANDBY_SLOT } }.restartCores

/-- A write of BOOT_ACT.SWITCH (12 R396 step 3): the old image stays in the standby bank, and the trial begins. A DRAIN trigger
before it has ended the activation (12 R398). -/
def State.bootSwitch (s : State) : State :=
  let s1 := ((s.switchBanks 1).wr BOOT_ACT.TRIAL 1).wr BOOT_ACT.LIVE 1
  { s1 with boot := { s1.boot with trialUntil := some (s.now + max 1 (s.rd BOOT_ACT.TRIAL_MS) * 1000) } }

/-- BOOT_SWITCH (12 R396): it is written by running firmware. -/
def execBootSwitch (s : State) : Outcome State Fault Refusal :=
  if s.mode = 0 ∨ s.mode = 4 ∨ !s.on BOOT_STATUS.ROM_DONE then .next s else .next s.bootSwitch

/-- A write of BOOT_ACT.CONFIRM: the trial ends, and firmware appends ACTIVE_SLOT for the new slot (12 R396 step 4). -/
def State.bootConfirm (s : State) : State :=
  if s.on BOOT_ACT.TRIAL then
    let slot := s.boot.slot
    let s1 := s.wr BOOT_ACT.TRIAL 0
    ({ s1 with boot := { s1.boot with trialUntil := none } }.commit (.activeSlot slot)).fwEvent 0xE3 1 0
      (s.rd BOOT_ACT.ACT_COUNT)
  else s

/-- BOOT_CONFIRM (12 R396). -/
def execBootConfirm (s : State) : Outcome State Fault Refusal := if s.mode = 0 then .next s else .next s.bootConfirm

/-- The rollback of a trial (12 R397). -/
def State.rollBack (s : State) : State :=
  let s1 := ((s.switchBanks 2).wr BOOT_ACT.ROLLED_BACK 1).wr BOOT_ACT.TRIAL 0
  { s1 with boot := { s1.boot with trialUntil := none } }.fwEvent 0xE3 1 1 (s1.rd BOOT_ACT.ACT_COUNT)

/-- TRIAL_EXPIRY (12 R397): the trial time has passed without CONFIRM. -/
def execTrialExpiry (s : State) : Outcome State Fault Refusal :=
  match s.boot.trialUntil with
  | some t => .next (if t ≤ s.now ∧ s.mode ≠ 0 then s.rollBack else s)
  | none => .next s

/-- CONFIG_PROGRAM_ACK (17 R495): the first program in progress is complete. -/
def execConfigProgramAck (s : State) : Outcome State Fault Refusal :=
  match s.store.programs with
  | [] => .next s
  | w :: rest =>
    .next { s with store := { s.store.apply w with programs := rest } }

end Sys2Proof.Machine
end

