-- ==== Sys2Proof/Machine/Control.lean ====
section
/-! DEFINITION. The control space (12 R374, Table 12.1): what each address is, and reads and writes of its memories with their
code words and valid bits (10 R314, R317, R318, R324). -/

namespace Sys2Proof.Machine

/-- What lies at an address of the control space (12 Table 12.1). -/
inductive Space where
  | rom | bank (b : Bool) | data | measLog | loss | payload (mb : Mailbox) | regs | aperture | hole
  deriving DecidableEq, Repr

/-- The space of an address, and the offset from its base; the measurement log keeps its offset in the data SRAM. -/
def spaceOf (a : Nat) : Space × Nat :=
  let b := 0x8000_0000_0000_0000
  let at_ (lo n : Nat) : Bool := decide (b + lo ≤ a ∧ a < b + lo + n)
  if at_ 0 0x10000 then (.rom, a - b)
  else if at_ 0x100000 0x40000 then (.bank false, a - b - 0x100000)
  else if at_ 0x140000 0x40000 then (.bank true, a - b - 0x140000)
  else if at_ 0x200000 0x7C000 then (.data, a - b - 0x200000)
  else if at_ 0x27C000 0x4000 then (.measLog, a - b - 0x200000)
  else if at_ 0x300000 0x4000 then (.loss, a - b - 0x300000)
  else if at_ 0x310000 0x1000 then (.payload .primary, a - b - 0x310000)
  else if at_ 0x311000 0x1000 then (.payload .secondary, a - b - 0x311000)
  else if at_ 0x40000000 0x100000 then (.regs, a - b - 0x40000000)
  else if at_ 0x100000000000 0x80000000000 then (.aperture, a - b - 0x100000000000)
  else (.hole, 0)

/-- A mailbox. -/
def State.mbx (s : State) (mb : Mailbox) : MbxState := match mb with | .primary => s.mbxP | .secondary => s.mbxS

/-- A mailbox changed. -/
def State.modMbx (s : State) (mb : Mailbox) (f : MbxState → MbxState) : State :=
  match mb with | .primary => { s with mbxP := f s.mbxP } | .secondary => { s with mbxS := f s.mbxS }

/-- Byte `i` of a list written; the list grows with zeros to hold it. -/
def setByte (l : List Byte) (i : Nat) (v : Byte) : List Byte :=
  (l ++ List.replicate (i + 1 - l.length) 0#8).set i v

/-! ### Contents -/

/-- The bytes of an entry of the measurement log (12 R388). -/
def LogEntry.bytes (e : LogEntry) : List Byte :=
  leBytes 64 (e.index + e.event * 2 ^ 8 + e.actCount % 2 ^ 32 * 2 ^ 32 + e.time % 2 ^ 64 * 2 ^ 64 + e.digest.toNat * 2 ^ 128)

/-- The byte at an offset of a memory of the control space (log 7 for the ROM and images). Bytes of the owner-loss list past
its entries lie after the data SRAM in `sram`. -/
def State.ctrlByte (s : State) (sp : Space) (o : Nat) : Byte :=
  match sp with
  | .rom => Config.romByte o
  | .bank b =>
    match s.boot.bankEdits.look none (o + b.toNat * 262144) with
    | some v => v
    | none => Config.imageByte (s.boot.bankBlocks.look 0 (b.toNat * 64 + o / 4096)) (o % 4096)
  | .data => Sram.look o s.sram
  | .measLog =>
    match s.boot.log[(o - 0x7C000) / 64]? with
    | some e => (e.bytes[o % 64]?).getD 0#8
    | none => 0#8
  | .loss =>
    match s.ownerLoss[o / 8]? with
    | some w => w.extractLsb' (8 * (o % 8)) 8
    | none => Sram.look (0x80000 + o) s.sram
  | .payload mb => (((s.mbx mb).payload)[o]?).getD 0#8
  | _ => 0#8

/-- A byte of a memory of the control space written. -/
def State.setCtrlByte (s : State) (sp : Space) (o : Nat) (v : Byte) : State :=
  match sp with
  | .bank b => { s with boot := { s.boot with bankEdits := s.boot.bankEdits.put none (o + b.toNat * 262144) (some v) } }
  | .data => { s with sram := Sram.put o v s.sram }
  | .loss =>
    match s.ownerLoss[o / 8]? with
    | some w => { s with ownerLoss := s.ownerLoss.set (o / 8) (BitVec.ofNat 64 (putBits w (8 * (o % 8)) 8 v.toNat).toNat) }
    | none => { s with sram := Sram.put (0x80000 + o) v s.sram }
  | .payload mb => s.modMbx mb fun x => { x with payload := setByte x.payload o v }
  | _ => s

/-! ### Code words -/

/-- The macro, the macro word and the half of an offset, where the space is a protected memory. -/
def codeWordOf (sp : Space) (o : Nat) : Option (Nat × Nat × Bool) :=
  let up := o / 8 % 2 == 1
  match sp with
  | .bank b => some ((if b then 8 else 0) + o / 32768, o / 16 % 2048, up)
  | .data | .measLog => some (16 + o / 32768, o / 16 % 2048, up)
  | .loss => some (32, o / 16, up)
  | .payload .primary => some (33, o / 16, up)
  | .payload .secondary => some (34, o / 16, up)
  | _ => none

/-- The code words that `n` bytes from an offset touch. -/
def halvesOf (o n : Nat) : List Nat := (List.range ((o + n + 7) / 8 - o / 8)).map (o / 8 + ·)

/-- A byte as a read gives it: zero in a macro word not yet written (10 R318). -/
def State.ctrlData (s : State) (sp : Space) (o : Nat) : Byte :=
  match codeWordOf sp o with
  | some (m, w, _) => if s.wordValid m w then s.ctrlByte sp o else 0#8
  | none => s.ctrlByte sp o

/-- Bytes are read; the result says whether a code word was uncorrectable (10 R315, R317, R318, R324). -/
def State.ctrlRead (s : State) (sp : Space) (o n : Nat) : State × List Byte × Bool :=
  let (s1, bad) := (halvesOf o n).foldl (fun (acc : State × Bool) k =>
    match codeWordOf sp (8 * k) with
    | none => acc
    | some (m, w, up) =>
      let (s1, valid) := acc.1.readValid m w
      if valid then
        let f := s1.devStored m w up
        (s1.devFinding m w up f, acc.2 || f == .uncorrectable)
      else (s1, acc.2)) (s, false)
  (s1, (List.range n).map fun i => s.ctrlData sp (o + i), bad)

/-- Whether a store to an address is answered with an error: the ROM, the active bank, the measurement log, an address not in
the table (12 R374). -/
def State.storeRefused (s : State) (sp : Space) : Bool :=
  match sp with
  | .rom | .measLog | .hole => true
  | .bank b => b == s.on BOOT_ACT.ACTIVE
  | _ => false

/-- A macro word not yet written is written: every byte of it that the write leaves out is zero (10 R318). -/
def State.firstWrite (s : State) (sp : Space) (o m w : Nat) : State :=
  ((List.range 16).foldl (fun s i => s.setCtrlByte sp (o / 16 * 16 + i) 0#8) s).freshWord m w true

/-- Bytes are written into a memory of the control space: a code word written whole is fresh, one written in part is checked
first and stays uncorrectable as chaff (10 R314), and a macro word not yet written becomes valid without a read (10 R318); the data SRAM
clears every reservation on the granule (08 R274). -/
def State.ctrlWrite (s : State) (sp : Space) (o : Nat) (bs : List Byte) : State :=
  let s1 := (halvesOf o bs.length).foldl (fun s k =>
    match codeWordOf sp (8 * k) with
    | none => s
    | some (m, w, up) =>
      let whole := decide (o ≤ 8 * k ∧ 8 * k + 8 ≤ o + bs.length)
      let (s, valid) := s.readValid m w
      if !valid then s.firstWrite sp (8 * k) m w
      else if whole then s.setDevError m w up WordError.none
      else
        let f := s.devStored m w up
        (s.devFinding m w up f).setDevError m w up
          (if f = .uncorrectable then ⟨[], true, false, false⟩ else WordError.none)) s
  let s2 := bs.zipIdx.foldl (fun s e => s.setCtrlByte sp (o + e.2) e.1) s1
  if sp = .data then
    let g (a : Nat) : Nat := a / 256 + 1
    { s2 with sramReserved := s2.sramReserved.filter fun e => decide (e.2 < g o ∨ g (o + (bs.length - 1)) < e.2) }
  else s2

end Sys2Proof.Machine
end

