-- ==== Sys2Proof/Machine/Dma.lean ====
section
/-! DEFINITION. The DMA engines (14 R431 to R455). An engine acts on its own within its shares; the model lets a channel have
one read and one write outstanding, which every rule on order allows (R432, R442, 08 R278), fetches each descriptor only when
the channel reaches it, and lets the engines act at the DMA commands and at each tick (log 25). -/

namespace Sys2Proof.Machine

open Host (Outcome)

/-! ### Requests at the IA stop (01 R21 to R23, 09 R304) -/

/-- A request of IA, with a number of its own, leaves its stop: in REPAIR it is held there, and in SPROUT, where the stop accepts no
access to device memory, until SERVE (09 R297, R304); in HOLD there is none. -/
def State.iaSend (s : State) (id : Nat) (cls : ReqClass) (stream line : Nat) (data : LineData) (be : ByteMask)
    (core : Option LogicalCore) : State :=
  if s.mode = 0 then s
  else
    let r : Request := ⟨id, cls, .ia stream, line, 0#16, data, be, false, false, core, s.now, 0#12⟩
    let s1 := match cls with
      | .iaRd => s.count 78 0
      | .iaWr => s.count 78 1
      | _ => s
    if s.mode = 1 ∨ s.mode = 5 then { s1 with iaHeld := s1.iaHeld ++ [r] } else s1.route r

/-- A request of IA leaves its stop under the next number. -/
def State.iaIssue (s : State) (cls : ReqClass) (stream line : Nat) (data : LineData) (be : ByteMask)
    (core : Option LogicalCore) : State :=
  if s.mode = 0 then s else s.bump.iaSend s.nextId cls stream line data be core

/-- The stream of a core's access to a line (08 Table 8.3). -/
def State.streamOf (s : State) (k : LogicalCore) (line : Nat) : Nat := 16 + 12 * k.val + s.lsOf line % 8

/-! ### Channels -/

/-- The channels of an engine: 0 data, 1 utility (14 Table 14.1). -/
def engineOf (c : DmaChannel) : Nat := c.val / 8

/-- An engine's state. -/
def State.engine (s : State) (e : Nat) : Engine := s.engines.look Engine.idle e

/-- An engine's state changed. -/
def State.modEngine (s : State) (e : Nat) (f : Engine → Engine) : State :=
  { s with engines := s.engines.put Engine.idle e (f (s.engine e)) }

/-- A channel's state. -/
def State.chan (s : State) (c : DmaChannel) : DmaState := s.dma.look DmaState.idle c.val

/-- A channel's state changed. -/
def State.modChan (s : State) (c : DmaChannel) (f : DmaState → DmaState) : State :=
  { s with dma := s.dma.put DmaState.idle c.val (f (s.chan c)) }

/-- DC_STATUS.STATE of a channel. -/
def State.dcState (s : State) (c : DmaChannel) : Nat := s.rd (DC_STATUS.STATE c.val)

/-- DC_STATUS.STATE written. -/
def State.setDc (s : State) (c : DmaChannel) (n : Nat) : State := s.wr (DC_STATUS.STATE c.val) n

/-- A channel stops running: its engine is free. -/
def State.yieldEngine (s : State) (c : DmaChannel) : State :=
  s.modEngine (engineOf c) fun e => if e.running = some c then { e with running := none } else e

/-- The address of the descriptor in progress. -/
def State.descAddr (s : State) (c : DmaChannel) : Nat := s.rd (DC_DESC_PTR.ADDR c.val) * 128

/-- Whether engines issue nothing new: from step 3 of DRAIN, and in HOLD (14 R451). -/
def State.dmaClosed (s : State) : Bool :=
  s.mode == 0 || (s.mode == 4 && !(s.aon.drain == some .flush || s.aon.drain == none))

/-- Whether a channel of an engine has a request outstanding. -/
def State.engineBusy (s : State) (e : Nat) : Bool :=
  (List.range 8).any fun k =>
    let x := s.dma.look DmaState.idle (8 * e + k)
    x.reading.isSome || !x.writesOut.isEmpty

/-! ### Descriptors (14 R434 to R439) -/

/-- A 64-bit number read as a signed distance. -/
def signedOf (n : Nat) : Int := if n < 2 ^ 63 then (n : Int) else (n : Int) - 2 ^ 64

/-- The descriptor that 128 bytes hold (14 Table 14.2). -/
def descOf (b : BitVec 1024) : Descriptor :=
  let q (o : Nat) : Word := b.extractLsb' (8 * o) 64
  let h (o : Nat) : Nat := (b.extractLsb' (8 * o) 32).toNat
  { last := (q 0).getLsbD 0, next := q 0 &&& ~~~0x7F#64, op := (q 8).extractLsb' 0 2, acq := (q 8).getLsbD 8,
    rel := (q 8).getLsbD 9, waitAll := (q 8).getLsbD 10, irqEnd := (q 8).getLsbD 11, srcBase := q 0x10, dstBase := q 0x18,
    srcRowBytes := h 0x20, srcRows := h 0x24, srcStride := signedOf (q 0x28).toNat, dstRowBytes := h 0x30,
    dstRows := h 0x34, dstStride := signedOf (q 0x38).toNat, pattern := b.extractLsb' (8 * 0x40) 128 }

/-- A descriptor's length (14 R435). -/
def Descriptor.length (d : Descriptor) : Nat := d.dstRowBytes * d.dstRows

/-- Whether a reserved bit of offset 0x00 or 0x08 is 1. -/
def reservedSet (b : BitVec 1024) : Bool :=
  b.extractLsb' 1 6 != 0#6 || b.extractLsb' 66 6 != 0#6 || b.extractLsb' 76 52 != 0#52

/-- Whether `n` bytes from an address of device memory lie below the installed capacity (14 Table 14.3). -/
def State.dpaIn (s : State) (lo hi : Int) : Bool :=
  decide (0 ≤ lo ∧ hi < (s.rd GLB_CAPS.DPA_REGIONS * 2 ^ 34 : Nat))

/-- Whether a descriptor may lie at an address (14 R434). -/
def State.descPlace (s : State) (a : Nat) : Bool :=
  a % 128 == 0 &&
    (if a < 2 ^ 63 then s.dpaIn a (a + 127) && decide (a < 2 ^ 48)
     else (spaceOf a).1 == .data && (spaceOf (a + 127)).1 == .data)

/-- Whether a descriptor fails its check (14 R438). -/
def State.descBad (s : State) (a : Nat) (b : BitVec 1024) : Bool :=
  let d := descOf b
  !s.descPlace a || d.op == 3#2 || reservedSet b || (d.op != 1#2 && d.srcRowBytes * d.srcRows != d.length)
    || decide (2 ^ 40 ≤ d.length)

/-- The lowest and the highest byte address of a stream's rows. -/
def streamSpan (base : Word) (rowBytes rows : Nat) (stride : Int) : Int × Int :=
  let b : Int := base.toNat
  let lastRow : Int := b + ((rows : Int) - 1) * stride
  (min b lastRow, max b lastRow + (rowBytes : Int) - 1)

/-- Whether a span lies wholly within one range of 14 Table 14.3 that permits its use. -/
def State.spanAllowed (s : State) (c : DmaChannel) (write : Bool) (lo hi : Int) : Bool :=
  if lo < 0 ∨ hi < lo then false
  else if lo < 2 ^ 63 then s.dpaIn lo hi
  else if 2 ^ 64 ≤ hi then false
  else
    let (a, _) := spaceOf lo.toNat
    let (b, _) := spaceOf hi.toNat
    -- the measurement log may only be read; the data SRAM proper ends below it
    a == b && match a with
      | .bank _ | .data | .loss => true
      | .payload _ => true
      | .measLog => !write
      | .aperture => decide (c.val < 8)
      | _ => false

/-- Whether the two instruction banks, or the two payload buffers, hold a span between them: each pair is one range. -/
def State.spanPaired (lo hi : Int) : Bool :=
  if lo < 0 ∨ hi < lo ∨ 2 ^ 64 ≤ hi then false
  else match spaceOf lo.toNat, spaceOf hi.toNat with
    | (.bank _, _), (.bank _, _) => true
    | (.payload _, _), (.payload _, _) => true
    | _, _ => false

/-- The lowest address of the first stream that fails its range check, if one does (14 R439): the source, then the
destination. A stream of no bytes touches nothing. -/
def State.rangeFault (s : State) (c : DmaChannel) (d : Descriptor) : Option Word :=
  let bad (write : Bool) (base : Word) (rowBytes rows : Nat) (stride : Int) : Option Word :=
    if rowBytes * rows = 0 then none
    else
      let (lo, hi) := streamSpan base rowBytes rows stride
      if s.spanAllowed c write lo hi || State.spanPaired lo hi then none else some (BitVec.ofInt 64 lo)
  let src := if d.op = 1#2 then none else bad false d.srcBase d.srcRowBytes d.srcRows d.srcStride
  src.or (bad (d.op != 2#2) d.dstBase d.dstRowBytes d.dstRows d.dstStride)

/-! ### Stream bytes -/

/-- The address of byte `k` of a stream. -/
def streamAddr (base : Word) (rowBytes : Nat) (stride : Int) (k : Nat) : Nat :=
  let n := max 1 rowBytes
  ((base.toNat : Int) + ((k / n : Nat) : Int) * stride + ((k % n : Nat) : Int)).toNat

/-- The bytes from byte `k` of a stream that one request may cover: one row within one 64-byte block (14 R440). -/
def chunkOfStream (base : Word) (rowBytes : Nat) (stride : Int) (len k : Nat) : Nat :=
  let a := streamAddr base rowBytes stride k
  min (64 - a % 64) (min (rowBytes - k % max 1 rowBytes) (len - k))

/-- The address and size of the next source request. -/
def Descriptor.srcAt (d : Descriptor) (k : Nat) : Nat × Nat :=
  (streamAddr d.srcBase d.srcRowBytes d.srcStride k, chunkOfStream d.srcBase d.srcRowBytes d.srcStride d.length k)

/-- The address and size of the next destination request. -/
def Descriptor.dstAt (d : Descriptor) (k : Nat) : Nat × Nat :=
  (streamAddr d.dstBase d.dstRowBytes d.dstStride k, chunkOfStream d.dstBase d.dstRowBytes d.dstStride d.length k)

/-- A read rounded outward to whole native words. -/
def roundOut (a n : Nat) : Nat × Nat := let lo := a / 16 * 16; (lo, (a + n + 15) / 16 * 16 - lo)

/-- The bytes of a number, as a line's data from byte `o`. -/
def lineBytes (o : Nat) (bs : List Byte) : LineData :=
  bs.zipIdx.foldl (fun (x : LineData) (e : Byte × Nat) => x ||| (e.1.setWidth 512 <<< (8 * (o + e.2)))) 0#512

/-- Bytes `o` to `o + n - 1` of a line. -/
def bytesOfLine (d : LineData) (o n : Nat) : List Byte := (List.range n).map fun i => d.extractLsb' (8 * (o + i)) 8

/-! ### Halts (14 R448, R449) -/

/-- A channel halts with a code of 1 to 4: DMA_ERR, one major event, its count. -/
def State.haltWith (s : State) (c : DmaChannel) (code side : Nat) (addr : Word) : State :=
  let s1 := (((s.setDc c 4).wr (DC_STATUS.ERR c.val) 1).wr (DC_STATUS.CODE c.val) code).wr (DC_STATUS.SIDE c.val) side
  let s2 := (s1.setReg (DC_ERR.reg c.val) addr).yieldEngine c
  let s3 := s2.modChan c fun x => { x with held := [], heldDst := [], heldMd := [], halting := none }
  let s4 := (s3.count (76 + engineOf c) 4).notice 3 0x29 2 (0x50 + engineOf c) (c.val + code * 2 ^ 4) (s.descAddr c)
  s4.major (0x50 + engineOf c) (BitVec.ofNat 40 (c.val + code * 2 ^ 4))

/-- The data of writes of device memory whose requests are under way becomes undefined (14 Table 14.4; log 94). -/
def State.blurWrites (s : State) (ids : List Nat) : State :=
  if ids.isEmpty then s
  else
    let f (r : Request) : Request := if ids.contains r.id then { r with data := Config.freeLine s.freeTick } else r
    let s1 := { s.draw with iaPark := s.iaPark.map f, iaIngress := s.iaIngress.map f, iaHeld := s.iaHeld.map f }
    allSlices.foldl (fun s p => s.modSl p fun x => { x with
      trackers := x.trackers.map fun (t : Tracker) => { t with req := f t.req }
      waitq := x.waitq.map fun (w : Waiting) => { w with req := f w.req }
      ingress := x.ingress.map f }) s1

/-- A bus error: every running or ready channel of the engine halts, and the engine stops; what its writes under way leave is
undefined (14 R449, Table 14.4). -/
def State.busError (s : State) (c : DmaChannel) (side : Nat) (addr : Word) : State :=
  let e := engineOf c
  let cs : List DmaChannel := (List.finRange 16).filter fun k => engineOf k == e && (s.dcState k == 1 || s.dcState k == 2)
  let s1 := s.blurWrites (cs.flatMap fun k => (s.chan k).writesOut)
  (cs.foldl (fun s k => s.haltWith k 2 side addr) s1).modEngine e fun x => { x with running := none, stopped := true }

/-! ### Issuing -/

/-- A read of `n` bytes at an address is issued. In the data SRAM and the other control memories nothing crosses the ring; the
rebuild aperture's line is reconstructed; an access that the aperture refuses is a bus error (14 R440 to R443). -/
def State.dmaRead (s : State) (c : DmaChannel) (kind : DmaRead) (a n : Nat) : State :=
  let side := match kind with | .descriptor => 0 | .source => 1 | .destination => 2 | .result => 3
  let (lo, len) := roundOut a n
  let s1 := s.modChan c fun x => { x with reading := some kind }
  if a < 2 ^ 63 then
    let s2 := s1.iaIssue .iaRd c.val (a / 64) 0#512 (enables (lo % 64) len) none
    -- a descriptor lies in two lines
    if kind = .descriptor then s2.iaIssue .iaRd c.val (a / 64 + 1) 0#512 (enables 0 64) none else s2
  else if (spaceOf a).1 = .aperture then
    match s1.apertureRead (BitVec.ofNat 64 lo) len c with
    | some s2 => s2
    | none => (s.modChan c fun x => { x with reading := none }).busError c side (BitVec.ofNat 64 lo)
  else s1

/-- The metadata of the next aperture line a channel writes: what came with the line read, or free (log 33). -/
def State.takeMeta (s : State) (c : DmaChannel) : State × LineMeta :=
  match (s.chan c).heldMd with
  | m :: rest => (s.modChan c fun x => { x with heldMd := rest }, m)
  | [] => (s.draw, (Config.freeLine s.freeTick).extractLsb' 0 128)

/-- A write of bytes at an address is issued; a control memory takes it at once, and its active instruction bank answers with an
error (12 R374). A write of the aperture takes the metadata that came with the line; what stands there without any is free. -/
def State.dmaWrite (s : State) (c : DmaChannel) (a : Nat) (bs : List Byte) (result : Bool) : State :=
  let side := if result then 3 else 2
  if a < 2 ^ 63 then
    let s1 := s.modChan c fun x => { x with writesOut := x.writesOut ++ [s.nextId] }
    s1.iaIssue .iaWr c.val (a / 64) (lineBytes (a % 64) bs) (enables (a % 64) bs.length) none
  else
    let (sp, o) := spaceOf a
    if sp = .aperture then
      let (s1, md) := s.takeMeta c
      match s1.apertureWrite (BitVec.ofNat 64 a) bs.length c ⟨lineBytes 0 bs, md⟩ with
      | some s2 => s2.modChan c fun x => { x with writesOut := x.writesOut ++ [apertureId (o / 64)] }
      | none => s1.busError c side (BitVec.ofNat 64 a)
    else if s.storeRefused sp then s.busError c side (BitVec.ofNat 64 a)
    else s.ctrlWrite sp o bs

/-- DC_COUNT is set to what is left of the descriptor. -/
def State.setCount (s : State) (c : DmaChannel) (d : Descriptor) (wr : Nat) : State :=
  s.wr (DC_COUNT.COUNT c.val) (d.length - wr)

/-- The compare result as the descriptor keeps it (14 R436). -/
def DmaState.result (x : DmaState) : List Byte :=
  leBytes 8 x.mismatches ++ leBytes 8 (match x.firstMismatch with | some k => k | none => 2 ^ 64 - 1)

/-- Held source and destination bytes are compared. -/
def State.compareHeld (s : State) (c : DmaChannel) (d : Descriptor) : State :=
  let x := s.chan c
  let n := min x.held.length x.heldDst.length
  if n = 0 then s
  else
    let ne : List Nat := ((x.held.take n).zip (x.heldDst.take n)).zipIdx.filterMap fun e =>
      if e.1.1 = e.1.2 then none else some (x.wr + e.2)
    let s1 := s.modChan c fun y => { y with
      held := y.held.drop n, heldDst := y.heldDst.drop n, wr := y.wr + n, mismatches := y.mismatches + ne.length,
      firstMismatch := match y.firstMismatch with | some k => some k | none => ne.head? }
    s1.setCount c d (x.wr + n)

/-- Whether an address is one of the source stream's (14 R435): a row that begins at or below it and reaches past it. -/
def Descriptor.inSource (d : Descriptor) (a : Nat) : Bool :=
  let k : Int := (a : Int) - d.srcBase.toNat
  let n : Int := d.srcRowBytes
  let last : Int := (d.srcRows : Int) - 1
  if d.srcStride = 0 then decide (0 ≤ k ∧ k < n ∧ 0 ≤ last)
  else if 0 < d.srcStride then decide (max 0 ((k - n) / d.srcStride + 1) ≤ min last (k / d.srcStride))
  else decide (max 0 (-(k / (-d.srcStride))) ≤ min last ((n - k - 1) / (-d.srcStride)))

/-- Whether the bytes of a copy that lie in an overlap of its streams are undefined (14 R437): not where both have one row and the
destination begins below the source. -/
def Descriptor.loose (d : Descriptor) : Bool :=
  d.op == 0#2 && !(d.srcRows == 1 && d.dstRows == 1 && decide (d.dstBase.toNat < d.srcBase.toNat))

/-- The bytes a copy writes at an address: those read, but undefined ones in an overlap. The rebuild aperture's destination is the
spare, which its source is not (06 R205; log 94). -/
def State.copied (s : State) (d : Descriptor) (a : Nat) (bs : List Byte) : State × List Byte :=
  if d.loose && (spaceOf a).1 != .aperture && (List.range bs.length).any (fun i => d.inSource (a + i)) then
    (s.draw, bs.mapIdx fun i b => if d.inSource (a + i) then (Config.freeLine s.freeTick).extractLsb' (8 * i) 8 else b)
  else (s, bs)

/-- The next write of a copy or a fill, where the bytes for a whole request are held, or no more will come. -/
def State.nextWrite (s : State) (c : DmaChannel) (d : Descriptor) (stopping : Bool) : Option State :=
  let x := s.chan c
  if !x.writesOut.isEmpty ∨ d.length ≤ x.wr then none
  else
    let (a, n) := d.dstAt x.wr
    let go (s : State) (bs : List Byte) (y : DmaState → DmaState) : Option State :=
      let s1 := (s.modChan c fun x => { y x with wr := x.wr + bs.length }).setCount c d (x.wr + bs.length)
      some ((s1.count (76 + engineOf c) 2 bs.length).dmaWrite c a bs false)
    if d.op = 1#2 then
      if stopping then none
      else go s ((List.range n).map fun i => d.pattern.extractLsb' (8 * ((x.wr + i) % 16)) 8) id
    else
      let m := min n x.held.length
      if m = 0 ∨ (m < n ∧ !stopping) then none
      else
        let (s1, bs) := s.copied d a (x.held.take m)
        go s1 bs fun x => { x with held := x.held.drop m }

/-- The next read of a copy or a compare. -/
def State.nextRead (s : State) (c : DmaChannel) (d : Descriptor) : Option State :=
  let x := s.chan c
  let src := x.wr + x.held.length
  let dst := x.wr + x.heldDst.length
  let read (kind : DmaRead) (at_ : Nat × Nat) : Option State := some (s.dmaRead c kind at_.1 at_.2)
  if d.op = 1#2 then none
  else if d.op = 2#2 then
    if x.held.isEmpty ∧ src < d.length then read .source (d.srcAt src)
    else if x.heldDst.isEmpty ∧ dst < d.length then read .destination (d.dstAt dst)
    else none
  else if src < d.length ∧ x.held.length < (d.dstAt x.wr).2 then read .source (d.srcAt src)
  else none

/-- The compare result is written to the descriptor as one 16-byte write. -/
def State.writeResult (s : State) (c : DmaChannel) : State :=
  let s1 := s.modChan c fun x => { x with resultOut := true }
  s1.dmaWrite c (s.descAddr c + 0x50) (s.chan c).result true

/-- A running channel becomes paused (14 R446). -/
def State.becomePaused (s : State) (c : DmaChannel) : State :=
  ((s.setDc c 3).yieldEngine c).modChan c fun x => { x with held := [], heldDst := [], heldMd := [], resultOut := false }

/-- One action of a running channel, if it has one. -/
def State.dmaAct (s : State) (c : DmaChannel) : Option State :=
  let x := s.chan c
  let pausing := decide (c.val < 8) && s.on (DC_CTRL.PAUSE c.val)
  if s.dcState c ≠ 2 ∨ s.dmaClosed then none
  else match x.desc with
    | none =>
      if x.reading.isSome then none
      else if pausing then some (s.becomePaused c)
      else match x.halting with
        | some (code, side, addr) => some (s.haltWith c code side addr)
        | none =>
          if s.descPlace (s.descAddr c) then some (s.dmaRead c .descriptor (s.descAddr c) 64)
          else
            -- 14 R438: the address is checked before the fetch; there is no length to count
            some (s.haltWith c 3 0 (BitVec.ofNat 64 (s.descAddr c)))
    | some d =>
      -- 09 R304: in REPAIR the rebuild's list waits at its next step
      let aperture (a : Nat) : Bool := (spaceOf a).1 == .aperture
      if s.mode = 5 ∧ (aperture (d.srcAt (x.wr + x.held.length)).1 ∨ aperture (d.dstAt x.wr).1) then none
      else if d.op = 2#2 ∧ !x.held.isEmpty ∧ !x.heldDst.isEmpty then some (s.compareHeld c d)
      else match if d.op = 2#2 then none else s.nextWrite c d (pausing || x.halting.isSome) with
        | some s1 => some s1
        | none =>
          if x.reading.isSome ∨ !x.writesOut.isEmpty then none
          else match x.halting with
            | some (code, side, addr) => some (s.haltWith c code side addr)
            | none =>
              if d.length ≤ x.wr then
                if d.op = 2#2 ∧ !x.resultOut then some (s.writeResult c) else none
              else if pausing then
                if d.op = 2#2 ∧ !x.resultOut then some (s.writeResult c) else some (s.becomePaused c)
              else (s.modChan c fun x => { x with resultOut := false }).nextRead c d

/-- The actions of a running channel until it waits. -/
def State.dmaActs (c : DmaChannel) : Nat → State → State
  | 0, s => s
  | n + 1, s => match s.dmaAct c with
    | some s1 => State.dmaActs c n s1
    | none => s

/-- A channel acts. A control memory answers at once, so a bound ends the step; the next command or tick goes on. -/
def State.dmaGoOn (s : State) (c : DmaChannel) : State := State.dmaActs c 16 s

/-- Every running channel acts. -/
def State.dmaAll (s : State) : State := (List.finRange 16).foldl (fun s c => s.dmaGoOn c) s

/-! ### Commands -/

/-- A write of DC_CTRL.GO (14 R444, R446, R447). -/
def State.dmaGo (s : State) (c : DmaChannel) : State :=
  let st := s.dcState c
  if (st ≠ 0 ∧ st ≠ 4) ∨ (8 ≤ c.val ∧ s.on (DC_CTRL.DISABLE c.val)) then s
  else
    let s1 := ((s.wr (DC_STATUS.DONE c.val) 0).wr (DC_STATUS.ERR c.val) 0).wr (DC_STATUS.CODE c.val) 0
    let s2 := (s1.wr (DC_STATUS.DESCS c.val) 0).modEngine (engineOf c) fun e => { e with stopped := false }
    let s3 := s2.modChan c fun x => { DmaState.idle with reading := x.reading, writesOut := x.writesOut }
    s3.setDc c (if c.val < 8 ∧ s.on (DC_CTRL.PAUSE c.val) then 3 else 1)

/-- DMA_GO (14 R444). -/
def execDmaGo (c : DmaChannel) (s : State) : Outcome State Fault Refusal :=
  if s.mode = 0 then .next s else .next (s.dmaGo c)

/-- DC_CTRL.PAUSE set (14 R446): a ready channel leaves the ready set at once, a running one stops without loss. -/
def State.dmaPause (s : State) (c : DmaChannel) : State :=
  if 8 ≤ c.val then s
  else
    let s1 := s.wr (DC_CTRL.PAUSE c.val) 1
    if s.dcState c = 1 then s1.setDc c 3 else s1.dmaGoOn c

/-- DMA_PAUSE (14 R446). -/
def execDmaPause (c : DmaChannel) (s : State) : Outcome State Fault Refusal :=
  if s.mode = 0 then .next s else .next (s.dmaPause c)

/-- DC_CTRL.PAUSE cleared (14 R446): a paused channel is ready again. -/
def State.dmaResume (s : State) (c : DmaChannel) : State :=
  if 8 ≤ c.val then s
  else
    let s1 := s.wr (DC_CTRL.PAUSE c.val) 0
    if s.dcState c = 3 then s1.setDc c 1 else s1.dmaGoOn c

/-- DMA_RESUME (14 R446). -/
def execDmaResume (c : DmaChannel) (s : State) : Outcome State Fault Refusal :=
  if s.mode = 0 then .next s else .next (s.dmaResume c)

/-- DC_CTRL.DISABLE set (14 R447): the work is dropped, and DC_DESC_PTR and DC_COUNT are undefined from then on. -/
def State.dmaDisable (s : State) (c : DmaChannel) : State :=
  if c.val < 8 then s
  else
    let s1 := s.wr (DC_CTRL.DISABLE c.val) 1
    if s.dcState c = 0 ∨ s.dcState c = 5 then s1
    else
      let s2 := ((s1.setDc c 5).yieldEngine c).modChan c fun x =>
        { DmaState.idle with reading := x.reading, writesOut := x.writesOut }
      ((s2.setReg (DC_DESC_PTR.reg c.val) (Config.freeWord s.freeTick &&& ~~~0x7F#64)).wr (DC_COUNT.COUNT c.val)
        ((Config.freeWord (s.freeTick + 1)).toNat % 2 ^ 40)).draw.draw

/-- DMA_DISABLE (14 R447). -/
def execDmaDisable (c : DmaChannel) (s : State) : Outcome State Fault Refusal :=
  if s.mode = 0 then .next s else .next (s.dmaDisable c)

/-- DMA_DRAIN_DONE (14 R447): the last response of a draining channel is back. -/
def execDmaDrainDone (c : DmaChannel) (s : State) : Outcome State Fault Refusal :=
  let x := s.chan c
  -- a control memory or a finished aperture access leaves no response to wait for
  if s.dcState c = 5 ∧ x.reading.isNone ∧ x.writesOut.isEmpty then .next (s.setDc c 0) else .next s

/-- The next ready channel of an engine after the last one to run (14 R433). -/
def State.nextReady (s : State) (e : Nat) : Option DmaChannel :=
  ((List.range 8).map fun k => (Fin.ofNat 16 (8 * e + ((s.engine e).lastRun + 1 + k) % 8) : DmaChannel)).find? fun c =>
    s.dcState c == 1

/-- A compare in progress reads its running result back (14 R446). -/
def State.refetch (s : State) (c : DmaChannel) : State :=
  match (s.chan c).desc with
  | some d => if d.op = 2#2 then s.dmaRead c .result (s.descAddr c + 0x50) 16 else s
  | none => s

/-- DMA_CHANNEL_START (14 R433): the engine starts the next ready channel, once every response of the last is back. -/
def execDmaChannelStart (engine : Fin 2) (s : State) : Outcome State Fault Refusal :=
  let e := engine.val
  if s.dmaClosed ∨ (s.engine e).running.isSome ∨ (s.engine e).stopped ∨ s.engineBusy e then .next s
  else match s.nextReady e with
    | none => .next s
    | some c =>
      let s1 := (s.setDc c 2).modEngine e fun x => { x with running := some c, lastRun := c.val }
      .next ((s1.refetch c).dmaGoOn c)

/-- A fetched descriptor is checked and taken (14 R438, R439). -/
def State.takeDescriptor (s : State) (c : DmaChannel) (b : BitVec 1024) : State :=
  let a := s.descAddr c
  let d := descOf b
  let s1 := s.setCount c d 0
  if s.descBad a b then s1.haltWith c 3 0 (BitVec.ofNat 64 a)
  else match s.rangeFault c d with
    | some w => s1.haltWith c 4 0 w
    | none => s1.modChan c fun x => { x with
        desc := some d, wr := 0, held := [], heldDst := [], heldMd := [], mismatches := 0, firstMismatch := none,
        resultOut := false, halting := none }

/-- DESCRIPTOR_FETCH (14 R438): the bytes are the ring's where the descriptor lies in device memory, and the data SRAM's own
where it lies there; an uncorrectable word there is a poisoned read (14 Table 14.4). -/
def execDescriptorFetch (c : DmaChannel) (bytes : BitVec 1024) (s : State) : Outcome State Fault Refusal :=
  if (s.chan c).reading ≠ some .descriptor then .next s
  else
    let s1 := s.modChan c fun x => { x with reading := none }
    if s.dcState c ≠ 2 then .next s1
    else
      let a := s.descAddr c
      if a < 2 ^ 63 then .next ((s1.takeDescriptor c bytes).dmaGoOn c)
      else
        let (sp, o) := spaceOf a
        let (s2, bs, bad) := s1.ctrlRead sp o 128
        if bad then .next (s2.haltWith c 1 0 (BitVec.ofNat 64 a))
        else .next ((s2.takeDescriptor c (BitVec.ofNat 1024 (leAt bs 0 128))).dmaGoOn c)

/-- The data of a read: the bytes asked for, and whether they are poisoned. `line` is the ring's line; a control memory gives
its own bytes. -/
def State.readBytes (s : State) (a n : Nat) (line : LineData) (poison : Bool) : State × List Byte × Bool :=
  if a < 2 ^ 63 ∨ (spaceOf a).1 = .aperture then (s, bytesOfLine line (a % 64) n, poison)
  else
    let (sp, o) := spaceOf a
    let (lo, len) := roundOut o n
    let (s1, bs, bad) := s.ctrlRead sp lo len
    (s1, (bs.drop (o - lo)).take n, bad)

/-- DMA_READ_RESPONSE (14 R440, R448): the response of the channel's outstanding read; poison halts the channel once the stream
bytes before it are written. A channel that is not running drops it. -/
def execDmaReadResponse (c : DmaChannel) (data : LineData) (poison : Bool) (s : State) : Outcome State Fault Refusal :=
  let x := s.chan c
  match x.reading with
  | none => .next s
  | some kind =>
    let s1 := s.modChan c fun x => { x with reading := none }
    if s.dcState c ≠ 2 then .next s1
    else
      let halt (s : State) (side a : Nat) : State :=
        (s.modChan c fun x => { x with halting := some (1, side, BitVec.ofNat 64 a) }).dmaGoOn c
      let e := 76 + engineOf c
      match kind, x.desc with
      | .descriptor, _ =>
        if poison ∧ s.descAddr c < 2 ^ 63 then .next (halt s1 0 (s.descAddr c)) else .next s
      | .source, some d =>
        let (a, n) := d.srcAt (x.wr + x.held.length)
        let (s2, bs, bad) := s1.readBytes a n data poison
        if bad then .next (halt s2 1 (a / 16 * 16))
        else .next (((s2.count e 1 n).modChan c fun x => { x with held := x.held ++ bs }).dmaGoOn c)
      | .destination, some d =>
        let (a, n) := d.dstAt (x.wr + x.heldDst.length)
        let (s2, bs, bad) := s1.readBytes a n data poison
        if bad then .next (halt s2 2 (a / 16 * 16))
        else .next (((s2.count e 1 n).modChan c fun x => { x with heldDst := x.heldDst ++ bs }).dmaGoOn c)
      | .result, some _ =>
        let a := s.descAddr c + 0x50
        let (s2, bs, bad) := s1.readBytes a 16 data poison
        if bad then .next (halt s2 2 a)
        else
          let first := leAt bs 8 8
          .next ((s2.modChan c fun x => { x with
            mismatches := leAt bs 0 8, firstMismatch := if first = 2 ^ 64 - 1 then none else some first }).dmaGoOn c)
      | _, none => .next s1

/-- DESCRIPTOR_COMPLETE (14 R445): every write is acknowledged; the engine moves to the next descriptor, or the list
completes. -/
def execDescriptorComplete (c : DmaChannel) (s : State) : Outcome State Fault Refusal :=
  let x := s.chan c
  match x.desc with
  | none => .next s
  | some d =>
    if s.dcState c ≠ 2 ∨ x.wr < d.length ∨ x.reading.isSome ∨ !x.writesOut.isEmpty ∨ x.halting.isSome
        ∨ (d.op = 2#2 ∧ !x.resultOut) then .next s
    else
      let s1 := (s.inc (DC_STATUS.DESCS c.val)).count (76 + engineOf c) 3
      let s2 := s1.modChan c fun _ => DmaState.idle
      if d.last then
        let s3 := ((s2.setDc c 0).wr (DC_STATUS.DONE c.val) 1).yieldEngine c
        .next (if d.irqEnd then s3.notice 3 0x28 1 (0x50 + engineOf c) c.val (s.descAddr c) else s3)
      else .next ((s2.setReg (DC_DESC_PTR.reg c.val) d.next).dmaGoOn c)

/-- DMA_BUS_ERROR (14 R448, R449): an error response to a request of a running channel; its draining is not disturbed by one
(R447). On a list's last write response COUNT has reached 0. -/
def execDmaBusError (c : DmaChannel) (addr : Word) (lastWrite : Bool) (s : State) : Outcome State Fault Refusal :=
  let x := s.chan c
  if x.reading.isNone ∧ x.writesOut.isEmpty then .next s
  else
    let side := match x.reading with
      | some .descriptor => 0
      | some .source => 1
      | some .destination => 2
      | some .result => 2
      | none => if x.resultOut then 3 else 2
    -- the error is the response of the request in error
    let ended (x : DmaState) : DmaState :=
      if lastWrite ∨ x.reading.isNone then { x with writesOut := [] } else { x with reading := none }
    if s.dcState c ≠ 2 then .next (s.modChan c ended)
    else
      let s1 := (s.blurWrites x.writesOut).modChan c ended
      .next ((if lastWrite then s1.wr (DC_COUNT.COUNT c.val) 0 else s1).busError c
      (if lastWrite then (if x.resultOut then 3 else 2) else side) addr)

end Sys2Proof.Machine
end

