-- ==== Sys2Proof/Machine/Settings.lean ====
section
/-! DEFINITION. Writes of registers that an owner setting also reaches: HP_CTRL and HP_CREDITS (02 R47, R69), the clocks (09
R308), and the settings that take effect when Set Owner Setting completes (12 R380). -/

namespace Sys2Proof.Machine

open Host (Outcome)

/-- The state that a command leads to; a command that stops leaves the state as it was. -/
def State.after (s : State) (o : Outcome State Fault Refusal) : State := match o with | .next t => t | _ => s

/-- A store into a register whose fields only follow their access codes (00 R14, 16 R473). -/
def State.plain (s : State) (off : Nat) (v : Word) : State := s.setReg off ((access off).apply (s.reg off) v)

/-- A store into some bits of a register, under its access codes. -/
def State.plainBits (s : State) (off : Nat) (mask v : Word) : State :=
  let a := access off
  s.setReg off ((Access.mk (a.rw &&& mask) (a.w1c &&& mask)).apply (s.reg off) v)

/-- A write of HP_CTRL (02 R47): MERGE only in SPROUT and at even ports; ENABLE 0 and HUSK 1 at a port that is not husked are
departures (02 R71), and HUSK 0 clears a husk under 02 R74. -/
def State.writeHpCtrl (s : State) (h : HostId) (v : Word) : State :=
  let merge : Word := if s.mode = 1 ∧ h.val % 2 = 0 then 0x2#64 else 0#64
  let s1 := s.plainBits (HP_CTRL.reg h.val) (0x2C#64 ||| merge) v
  let s2 :=
    if getBits v 4 1 = 1 then if s1.on (HP_CTRL.HUSK h.val) then s1 else s1.after (execHpHuskWrite h s1)
    else s1.after (execHuskClear h s1)
  if getBits v 0 1 = 1 then s2.wr (HP_CTRL.ENABLE h.val) 1 else s2.after (execHpEnableClear h s2)

/-- A write of HP_CREDITS: BISNP_MAX only in SPROUT (02 R69). -/
def State.writeHpCredits (s : State) (h : HostId) (v : Word) : State :=
  s.plainBits (HP_CREDITS.reg h.val) (if s.mode = 1 then BitVec.allOnes 64 else 0xFF_0000_0000#64) v

/-- Whether Set Owner Setting takes a key (12 R380, Table 12.4). -/
def ownerKey (k : Nat) : Bool :=
  decide (0x10 ≤ k ∧ k ≤ 0x1F) || decide (0x22 ≤ k ∧ k ≤ 0x27) || k == 0x31 || decide (0x40 ≤ k ∧ k ≤ 0x42) || k == 0x51
    || k == 0x58 || k == 0x59 || k == 0x60 || k == 0x61 || k == 0x70
    || (decide (0x80 ≤ k ∧ k < 0xA0) && decide (k % 8 < 6))

/-- The last byte of Set Owner Setting's output: bit 0, a field takes the value at completion; bit 1, one takes it at the next
SPROUT. HP settings hold fields of both kinds; ENFORCE and the listed digests are read by the ROM (12 Table 12.5). -/
def appliedBits (k : Nat) : Nat := if 0x10 ≤ k ∧ k ≤ 0x1F then 3 else if 0x70 ≤ k ∧ k < 0xA0 then 2 else 1

/-- A setting given to the fields that are writable in SERVE (12 R380). The settings that firmware itself reads need nothing. -/
def State.applySetting (s : State) (k : Nat) (v : Word) : State :=
  let each (f : State → PhysSlice → State) (s : State) : State := allSlices.foldl (fun s p => f s p) s
  if 0x10 ≤ k ∧ k ≤ 0x1F then
    let h : HostId := Fin.ofNat 16 (k - 0x10)
    -- bit 4 of the value is ignored: HUSK stays as it is
    let ctrl := putBits (v &&& 0xFF#64) 4 1 (s.rd (HP_CTRL.HUSK h.val))
    let s1 := (s.writeHpCtrl h ctrl).plain (HP_BI_TIMERS.reg h.val) (v >>> 8)
    s1.writeHpCredits h (putBits (s1.reg (HP_CREDITS.reg h.val)) 32 8 (getBits v 40 8))
  else if k = 0x24 then
    each (fun s p => (s.wr (SL_HC_CTRL.CLEAN_HI p.val) (getBits v 0 8)).wr (SL_HC_CTRL.CLEAN_LO p.val) (getBits v 8 8)) s
  else if k = 0x25 then
    each (fun s p => (s.wr (SL_SF_CTRL.SPILL_RATE p.val) (getBits v 0 8)).wr (SL_SF_CTRL.SPILL_BURST p.val) (getBits v 8 12)) s
  else if k = 0x26 then each (fun s p => s.plainBits (SL_WAITQ_AGING.reg p.val) 0x3FFF_FFFF#64 v) s
  else if k = 0x27 then s.wr GLB_PASS_EPOCH.PASS_HOURS (getBits v 0 8)
  else if k = 0x31 then s.plainBits MF_CTRL.reg 0xFFF#64 v
  else if k = 0x40 then each (fun s p => s.after (execOppTargetWrite p (v.extractLsb' 0 3) s)) s
  else if k = 0x41 then s.plain PWR_DORM.reg v
  else if k = 0x42 then s.plain PWR_THERM.reg v
  else if k = 0x60 then s.wr FLT_PIP_CTRL.PERIOD (getBits v 0 10)
  else if k = 0x61 then s.wr FLT_PIP_CTRL.WD_MS (getBits v 0 16)
  else s

end Sys2Proof.Machine
end

