-- ==== Sys2Proof/Machine/Mailbox.lean ====
section
/-! DEFINITION. The mailboxes (13 R421 to R430): doorbells, completion, background commands, and every command that firmware
train 7.2 answers. CXL's opcodes, return codes and standard payloads are not in the spec (log 18). -/

namespace Sys2Proof.Machine

open Host (Outcome)

/-! ### Return codes (log 18) -/

/-- Success. -/
def rcSuccess : Nat := 0
/-- Background Command Started. -/
def rcStarted : Nat := 1
/-- Invalid Input. -/
def rcInvalidInput : Nat := 2
/-- Unsupported. -/
def rcUnsupported : Nat := 3
/-- Internal Error. -/
def rcInternal : Nat := 4
/-- Busy. -/
def rcBusy : Nat := 6
/-- FW Verification Failed. -/
def rcVerification : Nat := 0xA
/-- Invalid Slot. -/
def rcInvalidSlot : Nat := 0xB
/-- Activation Failed, FW Rolled Back. -/
def rcRolledBack : Nat := 0xC
/-- Activation Failed, Cold Reset Required: the image does not accept the running train's data layout. -/
def rcColdReset : Nat := 0xD
/-- Invalid Handle. -/
def rcInvalidHandle : Nat := 0xE
/-- Invalid Payload Length. -/
def rcLength : Nat := 0x16

/-! ### The doorbell (13 R422, R423, R426) -/

/-- A mailbox's doorbell bit of MBX_CTRL. -/
def bellFld : Mailbox → Fld
  | .primary => MBX_CTRL.P_DOORBELL
  | .secondary => MBX_CTRL.S_DOORBELL
/-- A mailbox's closed bit of MBX_CTRL. -/
def closedFld : Mailbox → Fld
  | .primary => MBX_CTRL.P_CLOSED
  | .secondary => MBX_CTRL.S_CLOSED
/-- The other mailbox. -/
def otherMbx : Mailbox → Mailbox
  | .primary => .secondary
  | .secondary => .primary

/-- Whether a submitter reaches a mailbox: never in HOLD, and the primary one only while a managing head holds it (13 R422). -/
def State.mbxReachable (s : State) (mb : Mailbox) : Bool :=
  s.mode != 0 && (mb == .secondary || s.on MBX_CTRL.MANAGING_VALID)

/-- A doorbell is set for a command whose opcode, input and length the submitter has written (13 R423); on a closed mailbox
hardware completes it with Busy (13 R426). -/
def State.doorbell (s : State) (mb : Mailbox) : State :=
  if !s.mbxReachable mb ∨ s.on (bellFld mb) then s
  else if s.on (closedFld mb) then
    (s.modMbx mb fun x => { x with rc := BitVec.ofNat 16 rcBusy }).emit (.mbxDone mb (s.mbx mb).intEnable)
  else
    let s1 := (s.modMbx mb fun x => { x with since := s.nextId, answered := false }).bump.wr (bellFld mb) 1
    s1.notice 1 0x08 2 (match mb with | .primary => 0x60 | .secondary => 0x61) (s.mbx mb).opcode.toNat (s.mbx mb).len

/-- MAILBOX_DOORBELL (13 R423): the submitter writes the command and its input and sets the doorbell; while the doorbell is 1 it
is ignored. -/
def execMailboxDoorbell (mb : Mailbox) (opcode : BitVec 16) (input : List Byte) (s : State) : Outcome State Fault Refusal :=
  if !s.mbxReachable mb ∨ s.on (bellFld mb) then .next s
  else
    let s1 := s.ctrlWrite (.payload mb) 0 (input.take 4096)
    .next ((s1.modMbx mb fun x => { x with opcode := opcode, len := input.length }).doorbell mb)

/-! ### Answering (13 R425, R426, R428) -/

/-- Firmware writes the output and the return code. -/
def State.reply (s : State) (mb : Mailbox) (rc : Nat) (out : List Byte := []) : State :=
  (if out.isEmpty then s else s.ctrlWrite (.payload mb) 0 out).modMbx mb fun x =>
    { x with rc := BitVec.ofNat 16 rc, len := out.length, answered := true }

/-- Whether firmware runs and takes a mailbox's command now: the doorbell is 1, its command not yet answered, no earlier one of
the other mailbox under way (13 R425). In REPAIR a doorbell waits until firmware runs (13 R426), which the command's own row stands
for (log 30). -/
def State.mayAnswer (s : State) (mb : Mailbox) : Bool :=
  s.on (bellFld mb) && !(s.mbx mb).answered && s.mode != 0 && s.on BOOT_STATUS.ROM_DONE
    && !(s.on (bellFld (otherMbx mb)) && decide ((s.mbx (otherMbx mb)).since < (s.mbx mb).since))

/-- Whether DRAIN is past step 3 of 08 Table 8.6. -/
def State.drainClosing (s : State) : Bool := s.mode == 4 && s.aon.drain != some .flush

/-- A command of an opcode is executed where the mailbox holds it: Busy past step 3 of DRAIN, the checks of R428 on its input
(the length, the reserved bits given as byte and mask), and its body. A payload that cannot be read ends in Internal Error
(10 R318). -/
def State.command (s : State) (mb : Mailbox) (opcode : Nat) (inLen : Option Nat) (reserved : List (Nat × Nat))
    (body : State → List Byte → State) : State :=
  let x := s.mbx mb
  if !s.mayAnswer mb ∨ x.opcode.toNat ≠ opcode then s
  else if s.drainClosing then s.reply mb rcBusy
  else
    let (s1, input, bad) := s.ctrlRead (.payload mb) 0 (min 4096 x.len)
    if bad then s1.reply mb rcInternal
    else if inLen ≠ none ∧ inLen ≠ some x.len then s1.reply mb rcLength
    else if reserved.any fun r => leAt input r.1 1 &&& r.2 != 0 then s1.reply mb rcInvalidInput
    else body s1 input

/-- A background command starts (13 R425). -/
def State.startBg (s : State) (mb : Mailbox) (opcode arg arg2 : Nat) (out : List Byte := []) : State :=
  let s1 := { s with fw := { s.fw with bg := some ⟨mb, BitVec.ofNat 16 opcode, arg, arg2⟩ } }
  (s1.modMbx mb fun x => { x with bgOpcode := BitVec.ofNat 16 opcode, bgPercent := 0, bgRc := 0#16 }).reply mb rcStarted out

/-- Output that a background command gives at its end, where no new command holds the payload. -/
def State.lateOutput (s : State) (mb : Mailbox) (o : Nat) (out : List Byte) : State :=
  if s.on (bellFld mb) then s else s.ctrlWrite (.payload mb) o out

/-- The bytes of whole registers. -/
def State.regBytes (s : State) (offs : List Nat) : List Byte := offs.flatMap fun o => leBytes 8 (s.view o).toNat

/-- Reserved input bytes, from one to another. -/
def rsvBytes (lo hi : Nat) : List (Nat × Nat) := (List.range (hi + 1 - lo)).map fun i => (lo + i, 0xFF)

/-! ### Home status, budget, persistence, modes -/

/-- The output of Get Home Status (13 Table 13.15). -/
def State.homeStatus (s : State) : List Byte :=
  let bits (n : Nat) (f : Nat → Bool) : Nat := (List.range n).foldl (fun a k => a + (f k).toNat * 2 ^ k) 0
  let low (off n : Nat) : List Byte := leBytes n (s.view off).toNat
  let sl (b : Nat) : List Byte := leBytes 3 (bits 18 fun p => (s.view (SL_STATUS.reg p)).getLsbD b)
  let hp (b : Nat) : List Byte := leBytes 2 (bits 16 fun h => (s.view (HP_STATUS.reg h)).getLsbD b)
  let wt := getBits (s.view GLB_PERSIST_CTRL.reg) 0 2 + getBits (s.view GLB_DIRTY_BUDGET.reg) 8 1 * 4
  let gstates := (List.range 4).foldl (fun a g => a + s.rd (MF_GROUP_MAP.GSTATE g) * 4 ^ g) 0
  let busy := s.rd MF_CTRL.RESYNC_BUSY + s.rd MF_REBUILD_STATUS.ACTIVE * 2
    + getBits (s.view MF_REKEY_STATUS.reg) 0 1 * 4 + s.rd GLB_PASS_EPOCH.URGENT * 8 + s.rd GLB_PASS_EPOCH.PAUSE * 16
  let flt := s.rd FLT_HANDLING.HANDLING + s.rd FLT_HANDLING.FROZEN * 2 + s.rd FLT_PIP_CTRL.RUNNING * 4
    + s.rd FLT_PIP_CTRL.STOP_CAUSE * 8
  let pwr := s.view PWR_STATUS.reg
  low GLB_MODE.reg 2 ++ low GLB_EPOCH.reg 2 ++ low GLB_PASS_EPOCH.reg 4 ++ leBytes 1 (s.rd GLB_DIRTY_BUDGET.BUDGET_MIB)
    ++ leBytes 1 wt ++ leBytes 4 (s.rd GLB_DIRTY_BUDGET.DIRTY_LINES) ++ sl 0 ++ sl 2 ++ leBytes 1 gstates ++ leBytes 3 busy
    ++ hp 0 ++ hp 2 ++ hp 7 ++ leBytes 1 flt ++ leBytes 1 (getBits pwr 10 8) ++ leBytes 2 (getBits pwr 0 10)
    ++ leBytes 2 (getBits pwr 18 3) ++ [7#8, 2#8] ++ leBytes 2 Config.buildNumber.toNat
    ++ leBytes 4 (s.rd BOOT_ACT.ACT_COUNT) ++ low GLB_VERSION.reg 2 ++ leBytes 2 0 ++ leBytes 8 s.now ++ leBytes 8 0

/-- GET_HOME_STATUS (13 R429). -/
def execGetHomeStatus (mb : Mailbox) (s : State) : Outcome State Fault Refusal :=
  .next (s.command mb 0xC100 (some 0) [] fun s _ => s.reply mb rcSuccess s.homeStatus)

/-- SET_DIRTY_BUDGET (05 R168). -/
def execSetDirtyBudget (mb : Mailbox) (s : State) : Outcome State Fault Refusal :=
  .next (s.command mb 0xC101 (some 1) [] fun s b =>
    let n := leAt b 0 1
    let old := s.rd GLB_DIRTY_BUDGET.BUDGET_MIB
    if n = 0 ∨ 128 < n then s.reply mb rcInvalidInput
    else if n < old ∧ s.fw.bg.isSome then s.reply mb rcBusy
    else
      let s1 := ((s.wr GLB_DIRTY_BUDGET.BUDGET_MIB n).setOwner 0x0020 (some (BitVec.ofNat 64 n))).quotaCheck
      if n < old then s1.startBg mb 0xC101 0 0 (leBytes 1 old) else s1.reply mb rcSuccess (leBytes 1 old))

/-- SET_PERSISTENCE_MODE (05 R169). -/
def execSetPersistenceMode (mb : Mailbox) (s : State) : Outcome State Fault Refusal :=
  .next (s.command mb 0xC102 (some 1) [] fun s b =>
    let n := leAt b 0 1
    if 1 < n then s.reply mb rcInvalidInput
    else if n = 1 ∧ s.fw.bg.isSome then s.reply mb rcBusy
    else
      let s1 := (s.setWt (n == 1)).setOwner 0x0021 (some (BitVec.ofNat 64 n))
      if n = 1 then s1.startBg mb 0xC102 0 0 else s1.reply mb rcSuccess)

/-- Whether Request Mode may ask for a target in the present mode: 09 Table 9.6, without SERVE from REPAIR (09 R295). -/
def State.targetAllowed (s : State) (t : Nat) : Bool :=
  match t with
  | 2 => s.mode == 1 || s.mode == 3
  | 3 => s.mode == 2
  | _ => s.mode == 2 || s.mode == 3

/-- Request Mode's targets 2 and 3 as the mode controller takes them (09 R299 to R302); the cause recorded is Request Mode's. -/
def State.askMode (s : State) (t : Nat) : State :=
  if t = 2 then
    if s.mode = 1 then (if s.serveCode = 0 then s.enterServe 2 else s) else s.dormTrigger 2 0
  else if s.dormBlocked then s else s.startDormant 2

/-- REQUEST_MODE (09 R295, 13 R426). -/
def execRequestMode (mb : Mailbox) (s : State) : Outcome State Fault Refusal :=
  .next (s.command mb 0xC103 (some 1) [] fun s b =>
    let t := leAt b 0 1
    if t < 2 ∨ 4 < t ∨ !s.targetAllowed t then s.reply mb rcInvalidInput
    else if s.on GLB_MODE.CHANGING then s.reply mb rcBusy
    else if t = 4 then
      let out := [BitVec.ofNat 8 s.mode, 4#8, 0#8, 0#8, 0#8, 0#8, 0#8, 0#8]
      ((s.enterDrain 2 0).reply mb rcSuccess out).setReg MBX_CTRL.reg ((s.reg MBX_CTRL.reg) ||| 0xC0#64)
    else if s.fw.bg.isSome then s.reply mb rcBusy
    else
      let refused := if t = 3 then (if s.dormBlocked then 7 else 0) else if s.mode = 1 then s.serveCode else 0
      (s.askMode t).startBg mb 0xC103 (s.mode + t * 16) refused)

/-! ### Range operations and scrub passes -/

/-- START_RANGE_OPERATION (05 R179). -/
def execStartRangeOperation (mb : Mailbox) (s : State) : Outcome State Fault Refusal :=
  .next (s.command mb 0xC110 (some 24) ((17, 0xFC) :: rsvBytes 18 23) fun s b =>
    let op := leAt b 16 1
    let force := leAt b 17 1 % 2 == 1
    let discard := leAt b 17 1 / 2 % 2 == 1
    let line (o : Nat) : Nat := leAt b o 8 / 64 % 2 ^ 42
    let s1 := (s.wr HC_RANGE_BASE.LINE (line 0)).wr HC_RANGE_LIMIT.LINE (line 8)
    if s.on HC_RANGE_STATUS.BUSY then s.reply mb rcBusy
    else if s1.rangeError op force discard ≠ 0 then s.reply mb rcInvalidInput
    else if s.fw.bg.isSome then s.reply mb rcBusy
    else (s1.startRange op force discard).startBg mb 0xC110 0 0)

/-- GET_RANGE_SUMMARY (05 R179). -/
def execGetRangeSummary (mb : Mailbox) (s : State) : Outcome State Fault Refusal :=
  .next (s.command mb 0xC111 (some 0) [] fun s _ =>
    s.reply mb rcSuccess (s.regBytes ((List.range 4).map HC_RANGE_SUMMARY.reg)
      ++ leBytes 4 (getBits (s.reg HC_RANGE_STATUS.reg) 0 8)))

/-- START_SCRUB_PASS (10 R333). -/
def execStartScrubPass (mb : Mailbox) (s : State) : Outcome State Fault Refusal :=
  .next (s.command mb 0xC120 (some 24) ((0, 0x80) :: (3, 0xFC) :: rsvBytes 4 7 ++ [(10, 0xC0), (11, 0xFF), (14, 0xC0), (15, 0xFF),
      (19, 0xF0)] ++ rsvBytes 20 23) fun s b =>
    let word (o n : Nat) : Word := BitVec.ofNat 64 (leAt b o n)
    let s1 := (s.plain SCRUB_TARGET.reg (word 0 8)).plain SCRUB_RANGE.reg (word 8 8)
    let s2 := (s1.wr SCRUB_START.PACE (leAt b 16 2)).wr SCRUB_START.MEDIA_KSTRIPES (leAt b 18 2)
    if s.on SCRUB_STATUS.BUSY then s.reply mb rcBusy
    else if s2.scrubError ≠ 0 then s.reply mb rcInvalidInput
    else if s.fw.bg.isSome then s.reply mb rcBusy
    else
      -- a pass that DRAIN would end at once does not begin, and its BUSY reads 0 (10 R329)
      (if s.mode < 2 ∨ s.mode = 4 then s2 else s2.startScrub).startBg mb 0xC120 0 0)

/-- GET_SCRUB_SUMMARY (10 R333). -/
def execGetScrubSummary (mb : Mailbox) (s : State) : Outcome State Fault Refusal :=
  .next (s.command mb 0xC121 (some 0) [] fun s _ =>
    s.reply mb rcSuccess (s.regBytes ((List.range 6).map SCRUB_SUMMARY.reg ++ [SCRUB_STATUS.reg])))

/-! ### Faults and sparing (11 R373) -/

/-- The valid records of the fault history, oldest first: those from NEXT onwards that are not empty. -/
def State.validRecords (s : State) : List Native :=
  ((List.range 16).map fun k => s.record ((s.rd FLT_HANDLING.NEXT + k) % 16)).filter (· != 0#128)

/-- GET_FAULT_HISTORY (11 R373). -/
def execGetFaultHistory (mb : Mailbox) (s : State) : Outcome State Fault Refusal :=
  .next (s.command mb 0xC130 (some 0) [] fun s _ =>
    let rs := s.validRecords
    s.reply mb rcSuccess (leBytes 1 rs.length ++ leBytes 3 (s.rd FLT_HANDLING.HANDLING + s.rd FLT_HANDLING.FROZEN * 2)
      ++ leBytes 8 (s.reg FLT_MERGED0.reg).toNat ++ leBytes 4 (s.rd FLT_MERGED1.SRC_HI)
      ++ rs.flatMap fun r => leBytes 16 r.toNat))

/-- SET_FAULT_POLICY (11 R373). -/
def execSetFaultPolicy (mb : Mailbox) (s : State) : Outcome State Fault Refusal :=
  .next (s.command mb 0xC131 (some 16) (rsvBytes 1 7 ++ [(9, 0x80), (10, 0xFF), (11, 0xFF)]) fun s b =>
    let src := leAt b 0 1
    let v : Word := BitVec.ofNat 64 (leAt b 8 8)
    let old := s.reg (FLT_SRC_CFG.reg src)
    if src = 0x5B ∨ 0x5C < src then s.reply mb rcInvalidInput
    else ((s.plain (FLT_SRC_CFG.reg src) v).setOwner (0x0100 + src) (some v)).reply mb rcSuccess (leBytes 8 old.toNat))

/-- The output of Get Spare Inventory (11 Table 11.14). -/
def State.spareInventory (s : State) : List Byte :=
  let n (l : List Bool) : Nat := l.countP id
  let slices := n (allSlices.map fun p => !s.active p && !s.slHusked p && s.on (SL_STATUS.CLEARED p.val))
  let chans := n ((List.range 38).map fun c => s.rd (MF_CH_STATE.STATE c) == 0)
  let cores := n ((List.range 5).map fun c => s.rd BOOT_CORE_MAP.HEALTHY / 2 ^ c % 2 == 1
    && (List.range 4).all (fun k => s.physCore k != c) && !s.on (FLT_SRC_COUNT.RETIRED (0x4A + c)))
  let used (f : Nat → Fld) : Nat := allSlices.foldl (fun a p => a + (decide (s.rd (f p.val) < 16)).toNat * 2 ^ p.val) 0
  let free := (List.range 81).map fun m => if deviceMacroWords m = 0 then 8 else (s.freeEntries .device m).length
  leBytes 1 slices ++ leBytes 1 chans ++ leBytes 2 cores ++ leBytes 3 (used SL_HC_CTRL.SPARE_FOR)
    ++ leBytes 3 (used SL_CTRL.SF_SPARE_FOR) ++ leBytes 2 (free.countP (· == 0))
    ++ leBytes 4 (free.countP fun k => k == 1 || k == 2)

/-- GET_SPARE_INVENTORY (11 R373). -/
def execGetSpareInventory (mb : Mailbox) (s : State) : Outcome State Fault Refusal :=
  .next (s.command mb 0xC140 (some 0) [] fun s _ => s.reply mb rcSuccess s.spareInventory)

/-- The unit that Retire Unit's type 5 names as the remap port's. -/
def retireRemapUnit (mac n : Nat) : RemapUnit := if 2 ^ 15 ≤ mac then .device else .slice (toSlice n)

/-- Whether a unit is in service, and its procedure has the spare it needs (11 R373). -/
def State.mayRetire (s : State) (typ n way mac word : Nat) : Bool :=
  let p := toSlice n
  let live := decide (n < 18) && s.active p && !s.slHusked p
  match typ with
  | 0 => live && s.spareSlice.isSome && (s.sl p).blind.isEmpty
  | 1 => decide (n < 38) && (s.rd (MF_CH_STATE.STATE n) == 1 || s.rd (MF_CH_STATE.STATE n) == 2) && s.spareChannel.isSome
  | 2 => decide (n < 5) && (List.range 4).any (fun k => s.physCore k == n) && s.spareCore.isSome
  | 3 => live && decide (way < 16) && decide (16 ≤ s.rd (SL_HC_CTRL.SPARE_FOR n))
  | 4 => live && decide (way < 16) && decide (16 ≤ s.rd (SL_CTRL.SF_SPARE_FOR n))
  | 5 =>
    let u := retireRemapUnit mac n
    let m := mac % 2 ^ 15
    decide (word < macroWords u m) && (2 ^ 15 ≤ mac || (decide (n < 18) && !s.slHusked p))
      && !(s.freeEntries u m).isEmpty && (remapFor (s.remapTable u) m word).isNone
  | _ => false

/-- Whether a retirement of the same kind runs. -/
def State.sameKind (s : State) (typ n : Nat) : Bool :=
  (s.fw.retiring.any fun r => r.unit == typ) || ((typ == 3 || typ == 4) && s.on (SL_CTRL.MOVE_BUSY n))

/-- RETIRE_UNIT (11 R373): the procedure goes on in the retirement commands. -/
def execRetireUnit (mb : Mailbox) (s : State) : Outcome State Fault Refusal :=
  .next (s.command mb 0xC141 (some 8) [(3, 0xFE)] fun s b =>
    let typ := leAt b 0 1
    let n := leAt b 1 1
    let way := leAt b 2 1
    let mac := leAt b 4 2
    let word := leAt b 6 2
    if leAt b 3 1 % 2 = 0 ∨ !s.mayRetire typ n way mac word then s.reply mb rcInvalidInput
    else if s.sameKind typ n ∨ s.fw.bg.isSome then s.reply mb rcBusy
    else
      let u := retireRemapUnit mac n
      let number := if typ = 5 ∧ 2 ^ 15 ≤ mac then 255 else n
      let s1 := match typ with
        | 3 | 4 => s.addRetire ⟨typ, n, 0, way⟩
        | 5 => s.remapWord u (mac % 2 ^ 15) word false
        | _ => s.addRetire ⟨typ, n, 1, 0⟩
      s1.startBg mb 0xC141 typ number)

/-! ### Owner loss, hedging -/

/-- SET_OWNER_LOSS_POLICY (04 R145). -/
def execSetOwnerLossPolicy (mb : Mailbox) (s : State) : Outcome State Fault Refusal :=
  .next (s.command mb 0xC150 (some 3) [] fun s b =>
    let i := leAt b 0 2
    let pol := leAt b 2 1
    let e := s.regionEntry i
    if 16384 ≤ i ∨ 1 < pol ∨ !rgTracked e then s.reply mb rcInvalidInput
    else
      let e1 := (e &&& ~~~8#32) ||| BitVec.ofNat 32 (pol * 8)
      (s.regionDone i e1).reply mb rcSuccess)

/-- Whether the code word of an entry of the owner-loss area is uncorrectable. -/
def State.lossBad (s : State) (i : Nat) : Bool := s.wordValid 32 (i / 2) && s.devStored 32 (i / 2) (i % 2 == 1) == .uncorrectable

/-- The oldest `n` entries are removed from the owner-loss list (04 R144). The list is shown from the start of its area, so an entry that
cannot be read takes its error to its new place (log 22). -/
def State.dropLosses (s : State) (n : Nat) : State :=
  let rest := s.ownerLoss.drop n
  let error (i : Nat) : WordError := s.devErrors.look WordError.none (s.devKey 32 ((i + n) / 2) ((i + n) % 2 == 1))
  (List.range rest.length).foldl (fun s i => s.setDevError 32 (i / 2) (i % 2 == 1) (error i)) { s with ownerLoss := rest }

/-- GET_OWNER_LOSS_LIST (04 R144): entries oldest first, consumed where asked. An entry that cannot be read is left out, and
LIST_OVF is set for every host (10 Table 10.2). Where nothing is consumed, the entries left are the whole list: the spec does not say
otherwise (DESIGN CHOICE, log 105). -/
def execGetOwnerLossList (mb : Mailbox) (s : State) : Outcome State Fault Refusal :=
  .next (s.command mb 0xC151 (some 8) ((2, 0xFC) :: rsvBytes 3 7) fun s b =>
    let max_ := leAt b 0 2
    let consume := leAt b 2 1 % 2 == 1
    let clear := leAt b 2 1 / 2 % 2 == 1
    let n := min s.ownerLoss.length (min 511 (if max_ = 0 then 511 else max_))
    let taken := s.ownerLoss.take n
    let good := (taken.zipIdx.filter fun e => !s.lossBad e.2).map Prod.fst
    let (s1, _, bad) := s.ctrlRead .loss 0 (8 * n)
    let s2 := if bad then (List.range 16).foldl (fun s h => s.wr (HP_OWNER_LOSS.LIST_OVF h) 1) s1 else s1
    let ovf := (List.range 16).foldl (fun a h => a + s2.rd (HP_OWNER_LOSS.LIST_OVF h) * 2 ^ h) 0
    let s3 := if consume then s2.dropLosses n else s2
    let s4 := if clear then (List.range 16).foldl (fun s h => s.wr (HP_OWNER_LOSS.LIST_OVF h) 0) s3 else s3
    s4.reply mb rcSuccess (leBytes 2 good.length ++ leBytes 2 s3.ownerLoss.length ++ leBytes 4 ovf
      ++ good.flatMap fun w => leBytes 8 w.toNat))

/-- SET_HEDGE_POLICY (06 R219). -/
def execSetHedgePolicy (mb : Mailbox) (s : State) : Outcome State Fault Refusal :=
  .next (s.command mb 0xC160 (some 16) ([(0, 0xFC), (3, 0xFC), (5, 0xF0), (7, 0xF0)] ++ rsvBytes 10 15) fun s b =>
    let f (o n lo : Nat) : Nat := leAt b o n * 2 ^ lo
    let v : Word := BitVec.ofNat 64 (leAt b 0 1 % 2 + f 1 1 4 + f 2 2 12 + f 8 1 24 + f 6 2 32 + f 4 2 44 + f 9 1 56)
    let old := s.reg MF_HEDGE_CTRL.reg
    if leAt b 6 2 < leAt b 4 2 then s.reply mb rcInvalidInput
    else
      let s1 := s.plain MF_HEDGE_CTRL.reg v
      let s2 := if leAt b 0 1 / 2 % 2 = 1 then s1.modMf fun m => { m with
          bands := m.bands.mapVals BandTable.untrained fun t => { t with trained := false, deadline := BandTable.untrained.deadline } }
        else s1
      (s2.setOwner 0x0030 (some v)).reply mb rcSuccess (leBytes 8 old.toNat))

/-! ### Counters and sampling (15 R469) -/

/-- READ_COUNTER_SNAPSHOT (15 R469). -/
def execReadCounterSnapshot (mb : Mailbox) (s : State) : Outcome State Fault Refusal :=
  .next (s.command mb 0xC170 (some 4) [(0, 0xFE), (3, 0xFF)] fun s b =>
    let first := leAt b 1 1
    let n := leAt b 2 1
    if 78 < first ∨ n = 0 ∨ 15 < n ∨ 79 < first + n then s.reply mb rcInvalidInput
    else
      let s1 := if leAt b 0 1 % 2 = 1 then s.takeSnap else s
      s1.reply mb rcSuccess (leBytes 8 (s1.rd PMU_SNAP_TIME.TIME)
        ++ ((List.range (32 * n)).map (32 * first + ·)).flatMap fun k => leBytes 8 (s1.snap.look 0 k)))

/-- CONFIGURE_SAMPLING (15 R469): the seed is written, and then the control register. -/
def execConfigureSampling (mb : Mailbox) (s : State) : Outcome State Fault Refusal :=
  .next (s.command mb 0xC171 (some 16) [(1, 0xFE), (2, 0xFF), (3, 0xFF), (14, 0xFE), (15, 0xFF)] fun s b =>
    let v : Word := BitVec.ofNat 64 (leAt b 0 8)
    let old := s.reg PMU_SAMPLE_CTRL.reg
    if sampleRefused v then s.reply mb rcInvalidInput
    else ((s.writeSampleSeed (BitVec.ofNat 64 (leAt b 8 8))).writeSampleCtrl v).reply mb rcSuccess (leBytes 8 old.toNat))

/-- READ_SAMPLE_BUFFER (15 R469). -/
def execReadSampleBuffer (mb : Mailbox) (s : State) : Outcome State Fault Refusal :=
  .next (s.command mb 0xC172 (some 4) (rsvBytes 2 3) fun s b =>
    let want := leAt b 0 2
    if 127 < want then s.reply mb rcInvalidInput
    else
      let n := min s.samples.length (if want = 0 then 127 else want)
      let rs := s.samples.take n
      { s with samples := s.samples.drop n }.reply mb rcSuccess (leBytes 2 n ++ leBytes 2 (s.samples.length - n)
        ++ leBytes 2 (s.rd PMU_SAMPLE_STATUS.LOST) ++ leBytes 2 (s.rd PMU_SAMPLE_STATUS.ABANDONED)
        ++ rs.flatMap fun (r : BitVec 256) => leBytes 32 r.toNat))

/-! ### Owner settings (12 R380) -/

/-- A setting's value in force, 0 where no record has the key. -/
def State.inForce (s : State) (k : Nat) : Nat := match s.store.setting k with | some v => v.toNat | none => 0

/-- GET_OWNER_SETTING (12 R380, Table 12.5). -/
def execGetOwnerSetting (mb : Mailbox) (s : State) : Outcome State Fault Refusal :=
  .next (s.command mb 0xC180 (some 2) [] fun s b =>
    let k := leAt b 0 2
    let f := findRecord s.store.factory k
    let rs : List ConfigRecord := match s.store.owner with
      | some c => c.records.filter fun r => r.key == k
      | none => []
    let flags := f.isSome.toNat + (rs.any fun r => r.crcOk).toNat * 2 + (rs.any fun r => !r.crcOk).toNat * 4
    s.reply mb rcSuccess (leBytes 8 (s.inForce k) ++ leBytes 8 (match f with | some v => v.toNat | none => 0) ++ leBytes 1 flags))

/-- SET_OWNER_SETTING (12 R380). -/
def execSetOwnerSetting (mb : Mailbox) (s : State) : Outcome State Fault Refusal :=
  .next (s.command mb 0xC181 (some 16) ((2, 0xFE) :: rsvBytes 3 7) fun s b =>
    let k := leAt b 0 2
    if !ownerKey k then s.reply mb rcInvalidInput
    else if s.fw.bg.isSome then s.reply mb rcBusy
    else
      let v : Option Word := if leAt b 2 1 % 2 = 1 then none else some (BitVec.ofNat 64 (leAt b 8 8))
      (s.setOwner k v).startBg mb 0xC181 k 0 (leBytes 8 (s.inForce k) ++ leBytes 1 (appliedBits k)))

/-! ### Regions (01 R40, 06 R211, 13 R430) -/

/-- The lines of a region's first and last place. -/
def regionLines (i : Nat) : Nat × Nat := (i * 2 ^ 28, i * 2 ^ 28 + (2 ^ 28 - 1))

/-- How many lines some ranges cover within bounds; a line in several counts once. -/
def linesCovered (lo hi : Nat) (l : List (Nat × Nat)) : Nat :=
  ((l.mergeSort fun a b => a.1 ≤ b.1).foldl (fun (acc : Nat × Nat) r =>
    let a := max acc.2 r.1
    let b := min (hi + 1) (r.2 + 1)
    if a < b then (acc.1 + (b - a), b) else acc) (0, lo)).1

/-- The lines of a region that Re-seal Region writes as poisoned zeros: those in an integrity-unknown range whose own counters cannot
be read (06 R211 step 2). -/
def State.resealLines (s : State) (i : Nat) : List Nat :=
  let (lo, hi) := regionLines i
  ((Config.unreadableLines i).eraseDups.filter fun l => decide (lo ≤ l ∧ l ≤ hi)).filter s.lineUnknown

/-- RESEAL_REGION (06 R211): the cipher unit is asked to rebuild the region's tree nodes (step 1), and every line whose own counters
cannot be read is written (step 2). The number of lines written is kept for the output. -/
def execResealRegion (mb : Mailbox) (s : State) : Outcome State Fault Refusal :=
  .next (s.command mb 0xC190 (some 8) ((2, 0xFE) :: rsvBytes 3 7) fun s b =>
    let i := leAt b 0 2
    let (lo, hi) := regionLines i
    let unknown := s.mf.unknownRegions.contains i || s.mf.unknown.any fun r => decide (r.1 ≤ hi ∧ lo ≤ r.2)
    if leAt b 2 1 % 2 = 0 ∨ !unknown then s.reply mb rcInvalidInput
    else if s.fw.bg.isSome then s.reply mb rcBusy
    else
      let lines := s.resealLines i
      (lines.foldl (fun s l => s.issue .writeLine l .reseal (s.writeClass false) 0#512 (deNone s.epoch true))
        (s.emit (.cipherRebuild i))).startBg mb 0xC190 i lines.length)

/-- The parts of an integrity-unknown range that lie outside a region. -/
def outsideRegion (i : Nat) (r : Nat × Nat) : List (Nat × Nat) :=
  let (lo, hi) := regionLines i
  if hi < r.1 ∨ r.2 < lo then [r]
  else (if r.1 < lo then [(r.1, lo - 1)] else []) ++ (if hi < r.2 then [(hi + 1, r.2)] else [])

/-- Re-seal Region's end (06 R211 steps 3 and 4): the region's ranges are removed. `n` is how many lines step 2 has written. -/
def State.resealEnd (s : State) (mb : Mailbox) (i n : Nat) : State :=
  let (lo, hi) := regionLines i
  let all := if s.mf.unknownRegions.contains i then 2 ^ 28 else linesCovered lo hi s.mf.unknown
  let dropped := s.mf.dropped.look 0 i
  let s1 := s.modMf fun m => { m with
    unknown := m.unknown.flatMap (outsideRegion i), unknownRegions := m.unknownRegions.filter (· ≠ i),
    dropped := m.dropped.put 0 i 0 }
  s1.lateOutput mb 0 (leBytes 8 (all - n) ++ leBytes 8 n ++ leBytes 8 dropped)

/-- The hosts that a filter entry names for its line `k`; those of a spilled line stand in its directory entry. -/
def FilterEntry.hosts (f : FilterEntry) (k : Nat) : HostSet :=
  match f.lst k with
  | 1 => f.presence
  | 2 => hsOne f.owner
  | _ => 0#16

/-- The hosts that a line's directory entry names (03 Table 3.4). -/
def State.dirHosts (s : State) (line : Nat) (e : DirEntry) : HostSet :=
  (s.decodeDir (rgMask (s.region (s.homeOf line) line)) e).hosts

/-- The lines of a region that a host may hold, with the hosts named: those with a valid filter state; those whose entry a way, an
eviction buffer or a media write under way holds; and, in chunks whose spill map bit is set, those whose entry on media names a host
(01 R40). -/
def State.regionCopies (s : State) (i : Nat) : List (Nat × HostSet) :=
  let inRegion (l : Nat) : Bool := regionOf l == i
  let dir (l : Nat) (e : DirEntry) : Nat × HostSet := (l, s.dirHosts l e)
  let filter := s.activeSlices.flatMap fun p => (s.sl p).filter.flatMap fun e =>
    if e.2.entry.valid then
      ((List.range 4).filter fun k => e.2.entry.lst k != 0).map fun k =>
        (e.2.entry.tag * 131072 + e.1 / 17 * 4 + k, e.2.entry.hosts k)
    else []
  let cache := s.activeSlices.flatMap fun p =>
    ((s.sl p).cache.filter fun e => e.2.tagA.valid && e.2.tagA.dirValid).map
        (fun e => dir (e.2.tagA.tag * 8192 + e.1 / 17) e.2.tagA.dir)
      ++ ((s.sl p).evict.filter fun e => e.dirValid).map fun e => dir e.line e.dir
  let writes := s.mf.ops.filterMap fun (e : Nat × Option MediaOp) => match e.2 with
    | some o => if o.kind = .writeMeta ∨ o.kind = .writeLine then some (dir o.line o.dir) else none
    | none => none
  let media := s.media.filterMap fun (e : Nat × Option Stored) =>
    let c := e.1 / 2 ^ 37
    let st := e.1 % 2 ^ 37
    match (List.range 36).find? (fun k => s.rd (slotFld (k / 9) (k % 9)) == c), e.2 with
    | some k, some f =>
      if k % 9 = paritySlot st then none
      else
        let l := lineAt (k / 9) st (k % 9)
        if inRegion l ∧ s.spillBitOf l ∧ s.decodeDir (rgMask (s.region (s.homeOf l) l)) f.dir ≠ .i then some (dir l f.dir) else none
    | _, _ => none
  (filter ++ cache ++ writes).filter (fun c => inRegion c.1) ++ media

/-- Whether a recall of a region is under way. -/
def State.recalling (s : State) (i : Nat) : Bool :=
  let mine (r : Request) : Bool := r.fromIa && r.cls == .invFlush && regionOf r.line == i
  s.iaHeld.any mine || s.iaPark.any mine || s.iaIngress.any mine || allSlices.any fun p =>
    (s.sl p).trackers.any (fun t => mine t.req) || (s.sl p).waitq.any (fun w => mine w.req) || (s.sl p).ingress.any mine

/-- The lines of a region that name a host of a set are recalled, on the streams of logical core 0, which runs firmware (log 111). -/
def State.recallRegion (s : State) (i : Nat) (hosts : HostSet) : State :=
  let lines := ((s.regionCopies i).filter fun c => hosts == BitVec.allOnes 16 || c.2 &&& hosts != 0#16).map (·.1)
  lines.eraseDups.foldl (fun s l => s.iaIssue .invFlush (s.streamOf 0 l) l 0#512 0#64 none) s

/-- Whether a tracker still acts under an entry that a region had before (01 R38). -/
def State.regionUnsettled (s : State) (i : Nat) : Bool :=
  allSlices.any fun p => (s.sl p).trackers.any fun t => regionOf t.req.line == i && t.region != s.regionEntry i

/-- The hosts that a region's entry does not admit. -/
def State.outsiders (s : State) (i : Nat) : HostSet := ~~~(rgMask (s.regionEntry i))

/-- Whether step 2 of 01 R40 is over: no recall is under way, nothing acts under the entry before the interim one, and no host that was
removed is named for a line of the region. -/
def State.recallOver (s : State) (i : Nat) : Bool :=
  !s.recalling i && !s.regionUnsettled i && (s.regionCopies i).all fun c => c.2 &&& s.outsiders i == 0#16

/-- Whether a change of a region's entry takes a host out of MASK or the region out of a tracked mode (01 R40). -/
def needsRecall (old new : BitVec 32) : Bool :=
  rgTracked old && ((rgMask old &&& ~~~(rgMask new)) != 0#16 || !rgTracked new)

/-- The interim entry: the old mode, and a MASK without the hosts being removed. -/
def interimEntry (old new : BitVec 32) : BitVec 32 := (old &&& 0xFFFF#32) ||| ((rgMask old &&& rgMask new).setWidth 32 <<< 16)

/-- SET_REGION_ENTRY (01 R40, 13 R430): the interim entry is written and the hosts' copies recalled; the previous entry is the
output. -/
def execSetRegionEntry (mb : Mailbox) (s : State) : Outcome State Fault Refusal :=
  .next (s.command mb 0xC1A0 (some 8) (rsvBytes 2 3) fun s b =>
    let i := leAt b 0 2
    let e := BitVec.ofNat 32 (leAt b 4 4)
    let old := s.regionEntry i
    if 16384 ≤ i ∨ s.regionRefused i e then s.reply mb rcInvalidInput
    else if s.fw.bg.isSome then s.reply mb rcBusy
    else
      let s1 := if needsRecall old e then (s.writeRegion i (interimEntry old e)).recallRegion i (BitVec.allOnes 16) else s
      s1.startBg mb 0xC1A0 i (e.toNat + old.toNat * 2 ^ 32))

/-- GET_REGION_ENTRY (13 R430). -/
def execGetRegionEntry (mb : Mailbox) (s : State) : Outcome State Fault Refusal :=
  .next (s.command mb 0xC1A1 (some 2) [] fun s b =>
    let i := leAt b 0 2
    let rec_ := (s.store.newest.bind fun c => findRecord c.2.records (0x4000 + i))
    let busy := match s.fw.bg with | some g => g.opcode == 0xC1A0#16 && g.arg == i | none => false
    if 16384 ≤ i then s.reply mb rcInvalidInput
    else s.reply mb rcSuccess (leBytes 4 (s.regionEntry i).toNat
      ++ leBytes 4 (match rec_ with | some v => v.toNat | none => 0) ++ leBytes 4 (rec_.isSome.toNat + busy.toNat * 2)))

/-! ### Firmware slots (12 R395, R396; log 18) -/

/-- The output of Get FW Info: two slots, the slot in force and one staged for the next SPROUT, online activation, and each slot's
train as its revision. -/
def State.fwInfo (s : State) : List Byte :=
  let rev (i : FwImage) : List Byte := leBytes 16 (if i.valid then i.train.toNat else 0)
  let staged := if s.store.activeSlot = s.boot.slot then 0 else s.store.activeSlot
  leBytes 1 2 ++ leBytes 1 (s.boot.slot + staged * 8) ++ leBytes 14 1 ++ rev s.store.slot1 ++ rev s.store.slot2
    ++ leBytes 32 0

/-- GET_FW_INFO (12 R395). -/
def execGetFwInfo (mb : Mailbox) (s : State) : Outcome State Fault Refusal :=
  .next (s.command mb 0x0200 (some 0) [] fun s _ => s.reply mb rcSuccess s.fwInfo)

/-- TRANSFER_FW (12 R395): it writes only the slot not in force. -/
def execTransferFw (mb : Mailbox) (slot : BitVec 2) (image : FwImage) (s : State) : Outcome State Fault Refusal :=
  .next (s.command mb 0x0201 none [] fun s _ =>
    let n := slot.toNat
    if (n ≠ 1 ∧ n ≠ 2) ∨ n = s.boot.slot then s.reply mb rcInvalidSlot
    else if s.store.stopped then s.reply mb rcBusy
    else
      let s1 := { s with store := { s.store with programs := s.store.programs ++ [StoreWrite.image n image] } }
      (s1.emit .storeProgram).reply mb rcSuccess)

/-- ACTIVATE_FW_OFFLINE (12 R395). -/
def execActivateFwOffline (mb : Mailbox) (slot : BitVec 2) (s : State) : Outcome State Fault Refusal :=
  .next (s.command mb 0x0202 none [] fun s _ =>
    if !(s.store.image slot.toNat).valid then s.reply mb rcInvalidSlot
    else (s.commit (.activeSlot slot.toNat)).reply mb rcSuccess)

/-- ACTIVATE_FW_ONLINE (12 R395, R396): the load into the standby bank begins. -/
def execActivateFwOnline (mb : Mailbox) (slot : BitVec 2) (s : State) : Outcome State Fault Refusal :=
  .next (s.command mb 0x0202 none [] fun s _ =>
    let i := s.store.image slot.toNat
    if (s.mode ≠ 2 ∧ s.mode ≠ 3) ∨ s.on BOOT_ACT.TRIAL ∨ !s.fw.retiring.isEmpty ∨ s.fw.bg.isSome then s.reply mb rcBusy
    else if !i.valid then s.reply mb rcInvalidSlot
    else if s.boot.running.train < i.oldestLayout then s.reply mb rcColdReset
    else ((s.wr BOOT_ACT.LOAD_ERR 0).loadStandby slot.toNat).startBg mb 0x0202 slot.toNat (s.rd BOOT_ACT.ACT_COUNT))

/-! ### Event records (13 R427; log 18) -/

/-- A CXL event record of a notice or a firmware event: its vendor identifier, its handle, and the words as its data. -/
def eventRecord (handle : Nat) (words : List Native) : List Byte :=
  leBytes 16 Config.eventUuid.toNat ++ leBytes 32 (128 + handle * 2 ^ 32) ++ (words.flatMap fun w => leBytes 16 w.toNat)
    ++ leBytes (80 - 16 * words.length) 0

/-- GET_EVENT_RECORDS (13 R427): the oldest records of a log, with its overflow count. -/
def execGetEventRecords (mb : Mailbox) (log : Fin 4) (s : State) : Outcome State Fault Refusal :=
  .next (s.command mb 0x0100 none [] fun s _ =>
    let l := s.fw.logs.look [] log.val
    let n := min 31 l.length
    let ovf := s.fw.overflow.look 0 log.val
    let flags := (decide (0 < ovf)).toNat + (decide (n < l.length)).toNat * 2
    s.reply mb rcSuccess (leBytes 2 flags ++ leBytes 18 (min 65535 ovf) ++ leBytes 12 n
      ++ ((l.take n).zipIdx).flatMap fun e => eventRecord (e.2 + 1) e.1))

/-- CLEAR_EVENT_RECORDS (13 R427): the oldest records of a log are removed. -/
def execClearEventRecords (mb : Mailbox) (log : Fin 4) (count : Nat) (s : State) : Outcome State Fault Refusal :=
  .next (s.command mb 0x0101 none [] fun s _ =>
    let l := s.fw.logs.look [] log.val
    if l.length < count then s.reply mb rcInvalidHandle
    else
      let fw := { s.fw with logs := s.fw.logs.put [] log.val (l.drop count), overflow := s.fw.overflow.put 0 log.val 0 }
      { s with fw := fw }.reply mb rcSuccess)

/-! ### Standard memory-device commands (13 R428, 02 R50) -/

/-- The duration of GPF Phase 2 in us: T_host, 0.2 ms and the flush of the dirty budget in force, which needs none while WT_CLEAN is 1
(08 R286). -/
def State.gpfDuration (s : State) : Nat :=
  let clean := getBits (s.view GLB_PERSIST_CTRL.reg) 1 1 == 1
  s.tHost + 200 + if clean then 0 else flushUs s.drainRate (s.rd GLB_DIRTY_BUDGET.BUDGET_MIB)

/-- What firmware supplies to the controller for a port (02 Table 2.5): memory type HDM-DB with back-invalidation, the heads, the host
metadata bits stored per line, poison and GPF supported, the Phase 2 duration in us, the capacity in GiB. -/
structure Enumeration where
  hdmDb : Bool
  backInvalidate : Bool
  heads : Nat
  metaBits : Nat
  poison : Bool
  gpf : Bool
  gpfUs : Nat
  capacityGib : Nat
  deriving DecidableEq, Repr

/-- The enumeration values of every port (02 R50): they are the same for all. -/
def State.enumeration (s : State) (_ : HostId) : Enumeration where
  hdmDb := true
  backInvalidate := true
  heads := (allHosts.filter fun h => s.on (HP_CTRL.ENABLE h.val) && !s.mergedAway h).length
  metaBits := 0
  poison := true
  gpf := true
  gpfUs := s.gpfDuration
  capacityGib := s.rd GLB_CAPS.DPA_REGIONS * 16

/-- The Identify answer: the running train, the capacity in units of 256 MiB, four event logs of 64 records, the heads, poison and
GPF supported, the GPF duration: the values of 02 Table 2.5 (log 18). -/
def State.identify (s : State) : List Byte :=
  let e := s.enumeration 0
  leBytes 16 s.boot.running.train.toNat ++ leBytes 32 (e.capacityGib * 4) ++ leBytes 2 64 ++ leBytes 2 64
    ++ leBytes 2 64 ++ leBytes 2 64 ++ leBytes 1 e.heads ++ leBytes 1 (e.poison.toNat + e.gpf.toNat * 2) ++ leBytes 8 e.gpfUs

/-- The controller's Sanitize command over all media: every line reads as unwritten, on media as on chip, and the next SPROUT may take
failed groups back (11 R370). What else the command does to Cesal the spec does not say; the counters of the cipher unit stay (log
124). -/
def State.sanitise (s : State) : State :=
  let s1 := allSlices.foldl (fun s p => s.modSl p fun x => { x with cache := Tbl.clearTags x.cache, dirtyWhenWt := [] }) s
  { s1 with media := [], store := { s1.store with sanitised := true } }

/-- STANDARD_MEMORY_DEVICE_COMMAND (13 R428, 02 R50): the commands that enumeration requires are answered with the values of
02 Table 2.5, and an opcode that neither CXL nor 13 Table 13.14 gives Cesal with Unsupported. -/
def execStandardMemoryDeviceCommand (mb : Mailbox) (opcode : BitVec 16) (s : State) : Outcome State Fault Refusal :=
  let listed : List Nat := [0x0100, 0x0101, 0x0200, 0x0201, 0x0202, 0xC100, 0xC101, 0xC102, 0xC103, 0xC110, 0xC111, 0xC120, 0xC121,
    0xC130, 0xC131, 0xC140, 0xC141, 0xC150, 0xC151, 0xC160, 0xC170, 0xC171, 0xC172, 0xC180, 0xC181, 0xC190, 0xC1A0, 0xC1A1]
  if listed.contains opcode.toNat then .next s
  else .next (s.command mb opcode.toNat none [] fun s _ =>
    match opcode.toNat with
    | 0x4000 => s.reply mb rcSuccess s.identify
    | 0x4400 => if s.fw.bg.isSome then s.reply mb rcBusy else s.sanitise.startBg mb 0x4400 0 0
    | _ => s.reply mb rcUnsupported)

/-! ### Completion (13 R423 to R425) -/

/-- Firmware writes P_COMPLETE or S_COMPLETE: the doorbell clears, and the completion interrupt goes to a submitter that enabled
it. -/
def State.complete (s : State) (mb : Mailbox) : State :=
  if s.mode = 0 ∨ !s.on (bellFld mb) then s
  else ((s.wr (bellFld mb) 0).modMbx mb fun x => { x with answered := false }).emit (.mbxDone mb (s.mbx mb).intEnable)

/-- P_COMPLETE (13 R423). -/
def execPComplete (s : State) : Outcome State Fault Refusal := .next (s.complete .primary)
/-- S_COMPLETE (13 R423). -/
def execSComplete (s : State) : Outcome State Fault Refusal := .next (s.complete .secondary)

/-- Whether the work of a background command has ended, and the return code it ends with. A change to write-through also ends where WT is
0 again, since WT_CLEAN can then not come to read 1 (DESIGN CHOICE, log 107). -/
def State.bgEnded (s : State) (g : Background) : Option Nat :=
  let when (b : Bool) : Option Nat := if b then some rcSuccess else none
  match g.opcode.toNat with
  | 0xC101 => when (s.activeSlices.all fun p => decide ((s.sl p).dirtyCount ≤ s.quota))
  | 0xC102 => when (getBits (s.view GLB_PERSIST_CTRL.reg) 1 1 == 1 || !s.on GLB_PERSIST_CTRL.WT)
  | 0xC103 => when (!s.on GLB_MODE.CHANGING)
  | 0xC110 => when (!s.on HC_RANGE_STATUS.BUSY)
  | 0xC120 => when (!s.on SCRUB_STATUS.BUSY)
  | 0xC141 => when ((s.retire g.arg g.arg2).isNone)
  | 0xC181 => when (!s.store.programs.any fun w => match w with | .owner _ _ => true | _ => false)
  | 0xC190 => when (!s.mf.ops.any fun e => match e.2 with | some o => o.src == .reseal | none => false)
  | 0xC1A0 => when (!needsRecall (BitVec.ofNat 32 (g.arg2 / 2 ^ 32)) (BitVec.ofNat 32 g.arg2) || s.recallOver g.arg)
  | 0x0202 =>
    if s.on BOOT_ACT.LOAD_ERR then some rcVerification
    else if s.rd BOOT_ACT.ACT_COUNT ≠ g.arg2 ∧ !s.on BOOT_ACT.TRIAL then
      some (if s.on BOOT_ACT.ROLLED_BACK then rcRolledBack else rcSuccess)
    else none
  | _ => some rcSuccess

/-- What firmware still does as a background command ends. -/
def State.bgFinal (s : State) (g : Background) : State :=
  match g.opcode.toNat with
  | 0xC103 =>
    let after := s.mode
    let err := if g.arg2 ≠ 0 then g.arg2 else if g.arg / 16 = 3 ∧ after = 2 then 15 else 0
    s.lateOutput g.mb 0 [BitVec.ofNat 8 (g.arg % 16), BitVec.ofNat 8 after, BitVec.ofNat 8 err, 0#8, 0#8, 0#8, 0#8, 0#8]
  | 0xC181 => match s.store.setting g.arg with
    | some v => s.applySetting g.arg v
    | none => s
  | 0xC190 => s.resealEnd g.mb g.arg g.arg2
  | 0xC1A0 => (s.regionDone g.arg (BitVec.ofNat 32 g.arg2)).lateOutput g.mb 0 (leBytes 4 (g.arg2 / 2 ^ 32))
  | _ => s

/-- What firmware does where it finds the work of a background command not ended: copies that a removed host was granted after the recall
began are recalled too (01 R40). -/
def State.bgGoOn (s : State) (g : Background) : State :=
  if g.opcode = 0xC1A0#16 ∧ !s.recalling g.arg ∧ !s.regionUnsettled g.arg then s.recallRegion g.arg (s.outsiders g.arg) else s

/-- Firmware writes P_BG_DONE or S_BG_DONE (13 R424, R425): the interrupt goes to a submitter that enabled it; a background
command of the mailbox ends there once its work has ended, with its return code and 100 percent, and not before. -/
def State.bgDone (s : State) (mb : Mailbox) : State :=
  let irq (s : State) : State := s.emit (.mbxBgDone mb (s.mbx mb).bgIntEnable)
  if s.mode = 0 then s
  else match s.fw.bg with
    | none => irq s
    | some g =>
      if g.mb ≠ mb then irq s
      else match s.bgEnded g with
        | none => s.bgGoOn g
        | some rc =>
          let s1 := ({ s with fw := { s.fw with bg := none } }.bgFinal g).modMbx mb fun x =>
            { x with bgPercent := 100, bgRc := BitVec.ofNat 16 rc }
          irq s1

/-- P_BG_DONE (13 R424). -/
def execPBgDone (s : State) : Outcome State Fault Refusal := .next (s.bgDone .primary)
/-- S_BG_DONE (13 R424). -/
def execSBgDone (s : State) : Outcome State Fault Refusal := .next (s.bgDone .secondary)

end Sys2Proof.Machine
end

