-- ==== Sys2Proof/Machine/RegisterWrite.lean ====
section
/-! DEFINITION. Register stores (16 R470 to R490): what a store of 8 bytes at each offset does, by the field tables of the owning
chapters. A store whose effect is a command of its own acts as that command. -/

namespace Sys2Proof.Machine

open Host (Outcome)

/-- The GO of GLB_MODE_REQ: a request of the target written with it (09 R292, R293). -/
def State.requestMode (s : State) (target : Nat) : State :=
  match target with
  | 0 => s.after (execModeReqHold s)
  | 2 => s.after (execModeReqServe s)
  | 3 => s.after (execModeReqDormant s)
  | 5 => s.after (execModeReqRepair s)
  | _ => s.refuseMode target (if s.on GLB_MODE.CHANGING then 9 else 1)

/-- A write of GLB_EPOCH (04 R130): EPOCH only in SPROUT, DISTRUST only as 1 and in SPROUT. -/
def State.writeEpoch (s : State) (v : Word) : State :=
  if s.mode ≠ 1 then s
  else
    let s1 := s.wr GLB_EPOCH.EPOCH (getBits v 0 12)
    let s2 := if getBits v 12 1 = 1 then s1.wr GLB_EPOCH.DISTRUST 1 else s1
    { s2 with boot := { s2.boot with epochWritten := true } }

/-- A write of SL_REMAP or GLB_REMAP (10 R338): ignored while BUSY; OP reads an entry or installs one. -/
def State.writeRemap (s : State) (u : RemapUnit) (off : Nat) (v : Word) : State :=
  if !s.remapOpen u then s
  else
    let s1 := s.plain off v
    let m : BitVec 10 := v.extractLsb' 0 10
    let e : Fin 8 := Fin.ofNat 8 (getBits v 10 3)
    let w : BitVec 11 := v.extractLsb' 17 11
    match getBits v 13 2 with
    | 1 => s1.after (execRemapReadEntry u m e s1)
    | 2 => s1.after (execInstallWithCopy u m e w s1)
    | 3 => s1.after (execInstallZeroed u m e w s1)
    | _ => s1

/-- A write of GLB_REGION_PORT (01 R37): ERR is cleared by a 1 before OP acts. -/
def State.writeRegionPort (s : State) (v : Word) : State :=
  let s1 := s.plain GLB_REGION_PORT.reg v
  let i : BitVec 14 := v.extractLsb' 0 14
  match getBits v 14 2 with
  | 1 => s1.after (execRegionPortRead i s1)
  | 2 => s1.after (execRegionPortWrite i (v.extractLsb' 32 32) s1)
  | _ => s1

/-- A store in the GLB window (16 Table 16.2). -/
def State.storeGlb (s : State) (off : Nat) (v : Word) : State :=
  if off = GLB_MODE_REQ.reg then
    let s1 := s.plain off v
    if getBits v 3 1 = 1 then s1.requestMode (getBits v 0 3) else s1
  else if off = GLB_SLICE_MAP0.reg then s.writeSliceMap false v
  else if off = GLB_SLICE_MAP1.reg then s.writeSliceMap true v
  else if off = GLB_HASH_CTRL.reg then s.writeHash v
  else if off = GLB_DIRTY_BUDGET.reg then s.after (execDirtyBudgetWrite v s)
  else if off = GLB_PERSIST_CTRL.reg then s.after (execPersistModeWrite v s)
  else if off = GLB_EPOCH.reg then s.writeEpoch v
  else if off = GLB_PASS_EPOCH.reg then
    -- outside SPROUT only PASS_HOURS and PAUSE (04 R136)
    s.plainBits off (if s.mode = 1 then BitVec.allOnes 64 else 0x80_0000_FF00_0000#64) v
  else if off = GLB_REGION_PORT.reg then s.writeRegionPort v
  else if off = GLB_REMAP.reg then s.writeRemap .device off v
  else s.plain off v

/-- A store in an HP window (16 Table 16.3). -/
def State.storeHp (s : State) (h : HostId) (k : Nat) (v : Word) : State :=
  if k = 0 then s.writeHpCtrl h v else if k = 0x20 then s.writeHpCredits h v else s.plain (0x10000 + 0x400 * h.val + k) v

/-- A write of SL_CTRL (11 R364): HUSK 0 only in SPROUT; SF_DRAIN 1 starts the drain and 0 ends it; a move takes the MOVE_WAY of
its write. -/
def State.writeSlCtrl (s : State) (p : PhysSlice) (v : Word) : State :=
  let s1 := s.plainBits (SL_CTRL.reg p.val) 0x3E00_00F0#64 v
  let s2 :=
    if getBits v 1 1 = 1 then if s1.slHusked p then s1 else s1.huskSlice p
    else if s1.mode = 1 then s1.wr (SL_CTRL.HUSK p.val) 0 else s1
  let s3 :=
    if getBits v 0 1 = 1 then s2.startDrain p
    else (s2.wr (SL_CTRL.SF_DRAIN p.val) 0).modSl p fun x => { x with drainSet := none }
  let s4 := if getBits v 2 1 = 1 then s3.startMove p false (getBits v 4 4) else s3
  if getBits v 3 1 = 1 then s4.startMove p true (getBits v 4 4) else s4

/-- A store in an SL window (16 Table 16.4). At a husked slice only SL_CTRL, SL_STATUS and SL_LOGICAL_ID answer, and the fence
responder answers every other store with an error (16 R475). -/
def State.storeSl (s : State) (p : PhysSlice) (k : Nat) (v : Word) : State :=
  let off := 0x20000 + 0x1000 * p.val + k
  if s.slHusked p ∧ k ≠ 0 ∧ k ≠ 8 ∧ k ≠ 0x10 then s.count 78 6
  else if k = 0 then s.writeSlCtrl p v
  else if k = 0x10 then s.writeLogicalId p v
  else if k = 0x18 then s.after (execOppTargetWrite p (v.extractLsb' 0 3) s)
  else if k = 0x20 then if getBits v 63 1 = 1 then s.after (execPeakClr p s) else s
  else if k = 0x40 then s.writeRemap (.slice p) off v
  else if k = 0x48 then s.after (execEccTestArm p v s)
  else if k = 0x50 then s.after (execEccTestUnlockKey p (v.extractLsb' 0 16) s)
  else s.plain off v

/-- A store in the HC and SCRUB windows (16 Table 16.5; 05 R170, R172; 10 R330). -/
def State.storeAgents (s : State) (off : Nat) (v : Word) : State :=
  let scrub := s.on SCRUB_STATUS.BUSY
  if off = HC_RANGE_BASE.reg ∨ off = HC_RANGE_LIMIT.reg then if s.on HC_RANGE_STATUS.BUSY then s else s.plain off v
  else if off = HC_RANGE_OP.reg then
    if s.on HC_RANGE_STATUS.BUSY then s
    else if getBits v 8 1 = 1 then s.startRange (getBits v 0 3) (getBits v 3 1 == 1) (getBits v 4 1 == 1)
    else s.plain off v
  else if off = SCRUB_TARGET.reg ∨ off = SCRUB_RANGE.reg then if scrub then s else s.plain off v
  else if off = SCRUB_START.reg then
    -- while BUSY is 1 a write without STOP is ignored (10 R330); a write with STOP and START does both (log 112)
    let stop := getBits v 1 1 = 1
    if scrub ∧ !stop then s
    else
      let s1 := (if stop then s.after (execScrubStop s) else s).plain off v
      if getBits v 0 1 = 1 then s1.after (execScrubStartPass v s1) else s1
  else s.plain off v

/-- A store in the MF window (16 Table 16.6; 06 R202, R213, R214, R217, R218): RESYNC takes only a 1, in SPROUT; RETIRE husks a
channel that is active or a rebuild target. -/
def State.storeMf (s : State) (off : Nat) (v : Word) : State :=
  if off = MF_CTRL.reg then
    let s1 := s.plainBits off 0x4FFF#64 v
    let s2 := if getBits v 12 1 = 1 then s1.after (execResyncStart s1) else s1
    let c := getBits v 16 6
    let st := s2.rd (MF_CH_STATE.STATE c)
    if getBits v 22 1 = 1 ∧ c < 38 ∧ (st = 1 ∨ st = 2) then s2.after (execChannelRetire (Fin.ofNat 38 c) s2) else s2
  else if MF_GROUP_MAP.reg 0 ≤ off ∧ off ≤ MF_GROUP_MAP.reg 3 then s.writeGroupMap ((off - MF_GROUP_MAP.reg 0) / 8) v
  else if off = MF_HEDGE_TABLE.reg then s.after (execMfHedgeTableLatch v s)
  else if off = MF_REBUILD_STATUS.reg then s.after (execRebuildResume v s)
  else s.plain off v

/-- A store in a PQ window (16 Table 16.8; 13 R411 to R414): TEST only in the capture queue and in SPROUT; RESET empties. -/
def State.storePq (s : State) (q : QueueId) (k : Nat) (v : Word) : State :=
  let off := 0x58000 + 0x100 * q.val + k
  if k = 0 then
    let s1 := s.plainBits off (if q.val = 75 ∧ s.mode = 1 then 0x28#64 else 0x8#64) v
    -- an interrupt enabled while its cause stands is asserted (13 R404)
    let cause := s.on (PQ_STATUS.LEVEL_HIT q) || s.on (PQ_STATUS.OVERRUN q) || s.on (PQ_STATUS.RESET_SEEN q)
    let s1 := if cause && !s.on (PQ_CTRL.LEVEL_IE q) then s1.queueInterrupt q else s1
    if getBits v 4 1 = 1 then s1.after (execPqReset q s1) else s1
  else if k = 0x18 then if q.val = 75 then s.after (execPqFillWrite v s) else s
  else s.plain off v

/-- A store of a submitter to the registers of its mailbox (13 R421, R423): the interrupt enables always; the command, the
payload and the doorbell while the doorbell is 0. Firmware's own writes of these fields are ignored, and what it writes of the
others is the commands' (log 18). -/
def State.storeMbx (s : State) (mb : Mailbox) (k : Nat) (v : Word) : State :=
  let rung := s.on (bellFld mb)
  if !s.mbxReachable mb then s
  else if k = 0 then
    let s1 := s.modMbx mb fun x => { x with intEnable := v.getLsbD 33, bgIntEnable := v.getLsbD 34 }
    if v.getLsbD 32 ∧ !rung then s1.doorbell mb else s1
  else if k = 8 then
    if rung then s else s.modMbx mb fun x => { x with opcode := v.extractLsb' 0 16, len := getBits v 16 21 }
  else if 0x20 ≤ k ∧ !rung then s.ctrlWrite (.payload mb) (k - 0x20) (leBytes 8 v.toNat)
  else s

/-! ### The host register window (00 R13, 16 R477) -/

/-- Whether a host is the managing head, whose window shows the primary mailbox (13 R422, 16 R477). -/
def State.managing (s : State) (h : HostId) : Bool :=
  s.on MBX_CTRL.MANAGING_VALID && s.rd MBX_CTRL.MANAGING_HP == h.val

/-- Whether the register window of a host shows the register at an offset (16 Table 16.14). -/
def State.windowShows (s : State) (h : HostId) (off : Nat) : Bool :=
  off == GLB_ID.reg || off == GLB_VERSION.reg || off == GLB_MODE.reg || off == GLB_CAPS.reg || off == HP_STATUS.reg h.val
    || (decide (0x60000 ≤ off ∧ off < 0x61020) && s.managing h)
    || decide (0x80000 ≤ off ∧ off < 0x84F00) || decide (0x88000 ≤ off ∧ off < 0x8CF00)

/-- What a host reads through its window (16 R477): 4 or 8 bytes, naturally aligned, of a register that the window shows, and 0 at every
other offset of it. Nothing else is a read of the window, and in HOLD no register is reachable (16 R475). Reading changes nothing: a
field that a 1 clears is not cleared. -/
def State.hostWindow (s : State) (h : HostId) (off size : Nat) : Option Word :=
  if s.mode = 0 ∨ 0x90000 ≤ off ∨ (size ≠ 4 ∧ size ≠ 8) ∨ off % size ≠ 0 then none
  else if s.windowShows h (off / 8 * 8) then
    some (BitVec.ofNat 64 ((s.view (off / 8 * 8)).toNat / 2 ^ (8 * (off % 8)) % 2 ^ (8 * size)))
  else some 0#64

/-- A host's write through its window is ignored, but for the managing head's to the submitter's fields of the primary mailbox (00 R13,
13 R423, 16 R477). -/
def State.hostWrite (s : State) (h : HostId) (off : Nat) (v : Word) : State :=
  if 0x60000 ≤ off ∧ off < 0x61020 ∧ s.managing h then s.storeMbx .primary (off - 0x60000) v else s

/-- A store in the MBX window (16 Table 16.9, 13 Table 13.12). -/
def State.storeMbxWindow (s : State) (off : Nat) (v : Word) : State :=
  if off = MBX_CTRL.reg then
    let one (b : Nat) (f : State → State) (s : State) : State := if getBits v b 1 = 1 then f s else s
    let s1 := s.plain off v
    one 5 (fun s => s.bgDone .secondary) (one 4 (fun s => s.bgDone .primary)
      (one 3 (fun s => s.complete .secondary) (one 2 (fun s => s.complete .primary) s1)))
  else if off < 0x61020 then s.storeMbx .primary (off - 0x60000) v
  else if 0x62000 ≤ off ∧ off < 0x63020 then s.storeMbx .secondary (off - 0x62000) v
  else s

/-- A write of DC_CTRL (14 R444, R446, R447): PAUSE or DISABLE as written, and then GO. -/
def State.writeDcCtrl (s : State) (c : DmaChannel) (v : Word) : State :=
  let s1 :=
    if c.val < 8 then
      if getBits v 1 1 = 1 then if s.on (DC_CTRL.PAUSE c.val) then s else s.dmaPause c
      else if s.on (DC_CTRL.PAUSE c.val) then s.dmaResume c else s
    else if getBits v 2 1 = 1 then if s.on (DC_CTRL.DISABLE c.val) then s else s.dmaDisable c
    else s.wr (DC_CTRL.DISABLE c.val) 0
  if getBits v 0 1 = 1 then s1.dmaGo c else s1

/-- A store in a DMA window (16 Table 16.10): DC_DESC_PTR takes a value only in a channel that is idle or halted. -/
def State.storeDma (s : State) (c : DmaChannel) (k : Nat) (v : Word) : State :=
  if k = 0 then s.writeDcCtrl c v
  else if k = 0x10 ∧ s.dcState c ≠ 0 ∧ s.dcState c ≠ 4 then s
  else s.plain (0x70000 + 0x40 * c.val + k) v

/-- A write of BOOT_ACT (12 Table 12.10): the cleared flags, LOAD_SLOT and TRIAL_MS, and then LOAD, SWITCH and CONFIRM. -/
def State.writeBootAct (s : State) (v : Word) : State :=
  let s1 := s.plain BOOT_ACT.reg v
  let s2 := if getBits v 4 1 = 1 then s1.loadStandby (getBits v 5 2) else s1
  let s3 := if getBits v 7 1 = 1 then s2.after (execBootSwitch s2) else s2
  if getBits v 8 1 = 1 then s3.bootConfirm else s3

/-- A store of 8 bytes at an offset outside HOLD (16 R470 to R475). An offset of no register ignores it. -/
def State.storeReg (s : State) (off : Nat) (v : Word) : State :=
  if off < 0x10000 then s.storeGlb off v
  else if off < 0x14000 then s.storeHp (Fin.ofNat 16 ((off - 0x10000) / 0x400)) (off % 0x400) v
  else if 0x20000 ≤ off ∧ off < 0x32000 then s.storeSl (Fin.ofNat 18 ((off - 0x20000) / 0x1000)) (off % 0x1000) v
  else if 0x38000 ≤ off ∧ off < 0x40000 then s.storeAgents off v
  else if 0x40000 ≤ off ∧ off < 0x50000 then s.storeMf off v
  else if 0x58000 ≤ off ∧ off < 0x5CC00 then s.storePq (Fin.ofNat 76 ((off - 0x58000) / 0x100)) (off % 0x100) v
  else if 0x60000 ≤ off ∧ off < 0x70000 then s.storeMbxWindow off v
  else if 0x70000 ≤ off ∧ off < 0x70400 then s.storeDma (Fin.ofNat 16 ((off - 0x70000) / 0x40)) (off % 0x40) v
  else if off = FLT_WD_FEED.reg then if getBits v 0 1 = 1 then s.after (execWatchdogFeed s) else s
  else if off = PMU_CTRL.reg then if getBits v 0 1 = 1 then s.takeSnap else s
  else if off = PMU_SAMPLE_CTRL.reg then s.writeSampleCtrl v
  else if off = PMU_SAMPLE_SEED.reg then s.writeSampleSeed v
  else if off = BOOT_ACT.reg then s.writeBootAct v
  else if off = BOOT_CORE_MAP.reg then s.writeCoreMap v
  else s.plain off v

/-- REGISTER_WRITE (16 R473): a store of 8 bytes. No register is reachable in HOLD (16 R475); a store that is not naturally
aligned is answered with an error and has no effect (16 R471). -/
def execRegisterWrite (off : Nat) (v : Word) (s : State) : Outcome State Fault Refusal :=
  if s.mode = 0 then .next s
  else if off % 8 ≠ 0 then .next (s.count 78 6)
  else .next (s.storeReg off v)

end Sys2Proof.Machine
end

