-- ==== Sys2Proof/Machine/Spdm.lean ====
section
/-! DEFINITION. The SPDM responder (12 R387): SPDM's message codes and the places of its fields are not in the spec (log 26). An
answer names its code, its fields, and the signature where one is asked. -/

namespace Sys2Proof.Machine

open Host (Outcome)

/-- Whether the responder runs: firmware does, from the ROM's last step on, and not in HOLD (12 Table 12.7). -/
def State.responds (s : State) : Bool := s.mode != 0 && s.on BOOT_STATUS.ROM_DONE

/-- A number that names a transcript of fields. -/
def transcript (l : List Nat) : Nat := l.foldl (fun a x => a * 2 ^ 384 + x) 1

/-- The identity key's signature over a digest that a control core hands over; none while MISMATCH is 1 (12 R387, R390). -/
def State.signed (s : State) (l : List Nat) : Option (BitVec 768) :=
  if s.on BOOT_STATUS.MISMATCH then none else some (Config.sign (Config.sha384 (8 * transcript l + 6)))

/-- The ERROR answer. -/
def State.spdmError (s : State) (via : SpdmBus) : State := s.emit (.spdm via 0x7F [] none)

/-- An answer that asks for no signature. -/
def State.spdmPlain (s : State) (via : SpdmBus) (code : Nat) (body : List Nat) : Outcome State Fault Refusal :=
  .next (if s.responds then s.emit (.spdm via code body none) else s)

/-- SPDM_GET_VERSION (12 R387): version 1.2. -/
def execSpdmGetVersion (via : SpdmBus) (s : State) : Outcome State Fault Refusal := s.spdmPlain via 0x04 [0x12]

/-- SPDM_GET_CAPABILITIES (12 R387): certificates, challenges, signed measurements; no session. -/
def execSpdmGetCapabilities (via : SpdmBus) (s : State) : Outcome State Fault Refusal := s.spdmPlain via 0x61 [0x12, 0x16]

/-- SPDM_NEGOTIATE_ALGORITHMS (12 R387): ECDSA P-384 with SHA-384 only. -/
def execSpdmNegotiateAlgorithms (via : SpdmBus) (s : State) : Outcome State Fault Refusal := s.spdmPlain via 0x63 [0x80, 0x02]

/-- The digest of the certificate chain. -/
def chainDigest : Nat := (Config.sha384 5).toNat

/-- SPDM_GET_DIGESTS (12 R387): slot 0 alone. -/
def execSpdmGetDigests (via : SpdmBus) (s : State) : Outcome State Fault Refusal := s.spdmPlain via 0x01 [0x01, chainDigest]

/-- SPDM_GET_CERTIFICATE (12 R387): a part of the chain of slot 0, with the length that remains. -/
def execSpdmGetCertificate (via : SpdmBus) (slot : BitVec 8) (offset len : Nat) (s : State) : Outcome State Fault Refusal :=
  let part := (Config.certChain.drop offset).take len
  .next (if !s.responds then s
    else if slot ≠ 0#8 then s.spdmError via
    else s.emit (.spdm via 0x02 (part.length :: (Config.certChain.length - offset - part.length) :: part.map (·.toNat)) none))

/-- A signed answer, with a nonce of the responder's, which is free (log 1); none without a signature. -/
def State.spdmSigned (s : State) (via : SpdmBus) (code : Nat) (request body : List Nat) : State :=
  let nonce := (List.range 4).map fun i => (Config.freeWord (s.freeTick + i)).toNat
  let s1 := s.draw.draw.draw.draw
  match s.signed (request ++ body ++ nonce) with
  | some sig => s1.emit (.spdm via code (body ++ nonce) (some sig))
  | none => s1.spdmError via

/-- SPDM_CHALLENGE (12 R387): signed by the identity key, under slot 0. -/
def execSpdmChallenge (via : SpdmBus) (slot : BitVec 8) (nonce : BitVec 256) (s : State) : Outcome State Fault Refusal :=
  .next (if !s.responds then s
    else if slot ≠ 0#8 then s.spdmError via
    else s.spdmSigned via 0x03 [0x83, slot.toNat, nonce.toNat] [0x01, chainDigest])

/-- The DMTF value type of a measurement, bit 7 for a raw bit stream (12 Table 12.8). -/
def measType (i : Nat) : Nat := match i with | 1 => 0x00 | 2 => 0x01 | 3 => 0x02 | 4 => 0x03 | _ => 0x81

/-- The measurement block of an index: its index, type and value; index 5 is the count of 4 bytes (12 R386, R388). -/
def State.measBlock (s : State) (i : Nat) : List Nat :=
  [i, measType i, if i = 5 then (s.meas 5).toNat % 2 ^ 32 else (s.meas i).toNat]

/-- SPDM_GET_MEASUREMENTS (12 R386, R387): index 0 asks for their number, 0xFF for all. -/
def execSpdmGetMeasurements (via : SpdmBus) (index : BitVec 8) (signed : Bool) (nonce : BitVec 256) (s : State) :
    Outcome State Fault Refusal :=
  let i := index.toNat
  let body : Option (List Nat) :=
    if i = 0 then some [5]
    else if i = 0xFF then some (5 :: [1, 2, 3, 4, 5].flatMap s.measBlock)
    else if i ≤ 5 then some (1 :: s.measBlock i)
    else none
  .next (if !s.responds then s
    else match body with
      | none => s.spdmError via
      | some b =>
        if signed then s.spdmSigned via 0x60 [0xE0, i, nonce.toNat] b else s.emit (.spdm via 0x60 b none))

end Sys2Proof.Machine
end

