-- ==== Sys2Proof/Machine/Ia.lean ====
section
/-! DEFINITION. The commands of the internal agents (03 R103; 08 R265 to R277): requests at the IA stop, and the control cores'
accesses, which a core issues in program order, each as soon as 08 Table 8.2 lets it. A core's accesses that wait go on at the next
command of this file and at each tick (log 27). -/

namespace Sys2Proof.Machine

open Host (Outcome)

/-! ### Errors (08 R271, R277) -/

/-- A store of a core that is answered with an error is discarded, and an imprecise bus error is pending (08 R277). -/
def State.impreciseError (s : State) (k : LogicalCore) (addr : Word) : State :=
  (s.count 78 6).modCore k fun c => c.storeFailed addr

/-- A core enters the imprecise bus-error exception that is pending: it reports the first address and the count, and failures from here
on belong to the next one; the core's reservation ends (08 R274, R277). The core takes it before its next access (DESIGN CHOICE, log
119). -/
def State.takeImprecise (s : State) (k : LogicalCore) : State :=
  match (s.core k).busErrAddr with
  | none => s
  | some a => (s.dropReservation k).modCore k fun c =>
      { c with busErrAddr := none, busErrCount := 0, imprecise := c.imprecise + 1, impreciseAddr := a, impreciseStores := c.busErrCount }

/-- An alignment fault: no request is sent (08 R271). -/
def State.alignFault (s : State) (k : LogicalCore) : State :=
  (s.dropReservation k).modCore k fun c => { c with alignFaults := c.alignFaults + 1 }

/-- Whether a marked or reserved access is aligned and of a size that 08 R271 allows. -/
def aligned (addr : Word) (size : Nat) : Bool := (size == 4 || size == 8 || size == 16) && addr.toNat % size == 0

/-! ### Control space (12 R374, 16 R471) -/

/-- Whether an address is in the control space. -/
def isControl (addr : Word) : Bool := addr.getLsbD 63

/-- Whether a register offset is behind the fence of a husked slice (16 R475). -/
def State.fenced (s : State) (off : Nat) : Bool :=
  decide (0x20000 ≤ off ∧ off < 0x32000) && s.slHusked (Fin.ofNat 18 ((off - 0x20000) / 0x1000))
    && !decide (off % 0x1000 < 0x18)

/-- Whether an offset lies in the registers of a mailbox. -/
def inMailbox (off : Nat) : Bool := decide (0x60000 ≤ off ∧ off < 0x61020) || decide (0x62000 ≤ off ∧ off < 0x63020)

/-- Whether a register load of a size is accepted (16 R471). -/
def loadTaken (off size : Nat) : Bool :=
  let pq := decide (0x58000 ≤ off ∧ off < 0x5CC00)
  if inMailbox off then (size == 1 || size == 2 || size == 4 || size == 8) && off % size == 0
  else if size = 16 then off % 16 == 0 && ((pq && off % 0x100 == 0x40) || decide (0x50900 ≤ off ∧ off < 0x50A00))
  else if size = 8 then off % 8 == 0
  else size == 4 && off % 4 == 0 && !(pq && decide (0x40 ≤ off % 0x100 ∧ off % 0x100 < 0x50))
    && !decide (0x8F058 ≤ off ∧ off < 0x8F060)

/-- A register load by a core: PQ_DATA and PMU_SAMPLE_DATA[3] act as their commands. -/
def State.loadReg16 (s : State) (k : LogicalCore) (addr : Word) (off size : Nat) : State :=
  if !loadTaken off size ∨ s.fenced off then s.preciseError k addr
  else if 0x58000 ≤ off ∧ off < 0x5CC00 ∧ 0x40 ≤ off % 0x100 ∧ off % 0x100 < 0x50 then
    let q : QueueId := Fin.ofNat 76 ((off - 0x58000) / 0x100)
    let how : PqAccess := if size = 16 then .full else if off % 0x100 = 0x40 then .low else .high
    s.after (execPqDataRead q how s)
  else if 0x8F058 ≤ off ∧ off < 0x8F060 then s.after (execSampleDataRead s)
  else
    let lo := s.view (off / 8 * 8)
    let hi := if size = 16 then s.view (off + 8) else 0#64
    s.emit (.coreData k addr (BitVec.ofNat 128
      ((lo.toNat + hi.toNat * 2 ^ 64) / 2 ^ (8 * (off % 8)) % 2 ^ (8 * size))))

/-- A load of up to 16 bytes of the control space by a core. -/
def State.ctrlLoad (s : State) (k : LogicalCore) (addr : Word) (size : Nat) : State :=
  let (sp, o) := spaceOf addr.toNat
  match sp with
  | .hole | .aperture => s.preciseError k addr
  | .regs => s.loadReg16 k addr o size
  | _ =>
    let (s1, bs, bad) := s.ctrlRead sp o size
    if bad then s1.preciseError k addr else s1.emit (.coreData k addr (BitVec.ofNat 128 (leAt bs 0 size)))

/-- Firmware's own store to a mailbox register (13 R423, R425): the return code, the background status and the payload; the
submitter's fields ignore it. The percentage never decreases. -/
def State.firmwareMbx (s : State) (mb : Mailbox) (k : Nat) (v : Word) : State :=
  if k = 0x10 then s.modMbx mb fun x => { x with rc := v.extractLsb' 32 16 }
  else if k = 0x18 then s.modMbx mb fun x => { x with
    bgOpcode := v.extractLsb' 0 16, bgPercent := max x.bgPercent (getBits v 16 7), bgRc := v.extractLsb' 32 16 }
  else if 0x20 ≤ k then s.ctrlWrite (.payload mb) (k - 0x20) (leBytes 8 v.toNat)
  else s

/-- A store of bytes into the control space by a core (12 R374; 16 R471, R473). -/
def State.ctrlStore (s : State) (k : LogicalCore) (addr : Word) (bs : List Byte) : State :=
  let (sp, o) := spaceOf addr.toNat
  match sp with
  | .aperture => s.impreciseError k addr
  | .regs =>
    let v : Word := BitVec.ofNat 64 (leAt bs 0 8)
    if bs.length ≠ 8 ∨ o % 8 ≠ 0 ∨ s.fenced o then s.impreciseError k addr
    else if inMailbox o then
      if o < 0x62000 then s.firmwareMbx .primary (o - 0x60000) v else s.firmwareMbx .secondary (o - 0x62000) v
    else s.storeReg o v
  | _ => if s.storeRefused sp then s.impreciseError k addr else s.ctrlWrite sp o bs

/-! ### Requests to device memory (08 R265 to R267, R270) -/

/-- The part of a byte mask that lies in a native word of the line. -/
def wordMask (be : ByteMask) (w : Nat) : ByteMask := be &&& enables (16 * w) 16

/-- The runs of enabled bytes of a line, cut at native words: offset and bytes. -/
def byteRuns (data : LineData) (be : ByteMask) : List (Nat × List Byte) :=
  (List.range 64).foldr (fun k (acc : List (Nat × List Byte)) =>
    if be.getLsbD k then
      let b : Byte := data.extractLsb' (8 * k) 8
      match acc with
      | (o, bs) :: r => if o = k + 1 ∧ o % 16 ≠ 0 then (k, b :: bs) :: r else (k, [b]) :: acc
      | [] => [(k, [b])]
    else acc) []

/-- A core's plain load of a line: one request for each native word it touches (08 R270); an acquire load is awaited. -/
def State.coreLoad (s : State) (k : LogicalCore) (stream line : Nat) (be : ByteMask) (acq : Bool) : State :=
  (List.range 4).foldl (fun s w =>
    if wordMask be w = 0#64 then s
    else
      let id := s.nextId
      (s.modCore k fun c => { c with loads := c.loads ++ [id], acquire := if acq then some id else c.acquire }).iaIssue .iaRd stream
        line 0#512 (wordMask be w) none) s

/-- A core's store to a line: one request for each native word it touches (08 R270); its bytes stay in the write buffer until it is
acknowledged. -/
def State.coreStore (s : State) (k : LogicalCore) (stream line : Nat) (data : LineData) (be : ByteMask) (release : Bool) : State :=
  let store := s.nextId
  (List.range 4).foldl (fun s w =>
    let m := wordMask be w
    if m = 0#64 then s
    else
      let id := s.nextId
      let held : List HeldStore := (byteRuns data m).map fun r => ⟨id, store, dpaOf line + r.1, r.2⟩
      (s.modCore k fun c => { c with stores := c.stores ++ held, releases := if release then c.releases ++ [id] else c.releases
        }).iaIssue .iaWr stream line data m none) s

/-- The byte of a held piece at an address. -/
def HeldStore.byteAt (h : HeldStore) (a : Nat) : Option Byte := if h.addr ≤ a then h.bytes[a - h.addr]? else none

/-- Whether a held piece has bytes among `n` bytes from an address. -/
def HeldStore.overlaps (h : HeldStore) (a n : Nat) : Bool := decide (h.addr < a + n ∧ a < h.addr + h.bytes.length) && !h.bytes.isEmpty

/-- What a plain load finds in the write buffer: nothing; the bytes wholly in the latest store that holds any of them, in one piece or in
several; or only some, and it waits (08 R266). -/
def Core.forward (c : Core) (a n : Nat) : Option (Option (List Byte)) :=
  match (c.stores.filter fun h => h.overlaps a n).getLast? with
  | none => some none
  | some h =>
    let pieces := c.stores.filter fun g => g.store == h.store
    (((List.range n).mapM fun i => pieces.findSome? fun g => g.byteAt (a + i)).map some)

/-- The data of an access placed in its line. -/
def placed (addr : Word) (size : Nat) (data : Native) : LineData := lineBytes (addr.toNat % 64) (leBytes size data.toNat)

/-- The enables of an access in its line. -/
def accessMask (addr : Word) (size : Nat) : ByteMask := enables (addr.toNat % 64) size

/-- A reserved load (08 R272, R273): a request for each line of the granule, in ascending order and under successive numbers, only the
addressed one for bytes. None of the four responds before all have passed their snoops. -/
def State.reservedLoad (s : State) (k : LogicalCore) (addr : Word) (size : Nat) (acq : Bool) : State :=
  let line := addr.toNat / 64
  let id := s.nextId
  let own := id + lineInSector line
  let s0 := ({ s with nextId := s.nextId + 4 }).modCore k fun c =>
    { c with loads := c.loads ++ [own], granule := c.granule ++ (List.range 4).map (id + ·), acquire := if acq then some own else c.acquire }
  (List.range 4).foldl (fun s j =>
    let l := line / 4 * 4 + j
    s.iaSend (id + j) .resLoad (s.streamOf k l) l 0#512 (if l = line then accessMask addr size else 0#64) (some k)) s0

/-! ### A core's accesses in program order (08 Table 8.2) -/

/-- The part of an access that its line holds. -/
def inLine (addr : Word) (len : Nat) : Nat := min len (64 - addr.toNat % 64)

/-- The pieces of a control-space access, cut at native words (08 R270). -/
def pieces (addr : Word) (len : Nat) : List (Word × Nat) :=
  ((List.range 5).map fun i =>
    let a := addr.toNat
    let lo := max a (a / 16 * 16 + 16 * i)
    (BitVec.ofNat 64 lo, min (a + len) (a / 16 * 16 + 16 * i + 16) - lo)).filter fun e => e.2 != 0

/-- Whether an address of the control space lies in the data SRAM, whose top 16 KiB hold the measurement log (12 Table 12.1). -/
def Space.inSram : Space → Bool
  | .data | .measLog => true
  | _ => false

/-- A reserved load of the control space: of the data SRAM alone (08 R272). -/
def State.sramReserve (s : State) (k : LogicalCore) (addr : Word) (size : Nat) : State :=
  let (sp, o) := spaceOf addr.toNat
  if sp.inSram then
    let s1 := s.dropReservation k
    { s1 with sramReserved := s1.sramReserved.put 0 k.val (o / 256 + 1) }.ctrlLoad k addr size
  else s.preciseError k addr

/-- A conditional store of the control space: the core's reservation is looked at and clears (08 R272, R274). A store to the measurement
log, held or not, is answered with an error (12 R374). -/
def State.sramConditional (s : State) (k : LogicalCore) (addr : Word) (size : Nat) (data : Native) : State :=
  let (sp, o) := spaceOf addr.toNat
  if !sp.inSram ∨ s.storeRefused sp then { s with sramReserved := s.sramReserved.put 0 k.val 0 }.impreciseError k addr
  else
    let ok := s.sramReserved.look 0 k.val == o / 256 + 1
    let s1 := { s with sramReserved := s.sramReserved.put 0 k.val 0 }
    let s2 := if ok then (s1.ctrlWrite sp o (leBytes size data.toNat)).count 78 4 else s1.count 78 5
    s2.emit (.iaCond k ok)

/-- The next access of a core, issued if it may be; none where it has to wait. -/
def State.play (s : State) (k : LogicalCore) (i : Instr) : Option State :=
  let c := s.core k
  let drained := c.loads.isEmpty && c.stores.isEmpty
  let line (a : Word) : Nat := a.toNat / 64
  match i with
  | .iaRd _ addr len =>
    if isControl addr then some ((pieces addr (inLine addr len)).foldl (fun s e => s.ctrlLoad k e.1 e.2) s)
    else match c.forward addr.toNat (inLine addr len) with
      | none => none
      | some (some bs) => some (s.emit (.coreData k addr (BitVec.ofNat 128 (leAt bs 0 bs.length))))
      | some none => some (s.coreLoad k (s.streamOf k (line addr)) (line addr) (accessMask addr (inLine addr len)) false)
  | .iaWr _ addr data be =>
    if isControl addr then
      let base := addr.toNat / 64 * 64
      some ((byteRuns data be).foldl (fun s r => s.ctrlStore k (BitVec.ofNat 64 (base + r.1)) r.2) s)
    else some (s.coreStore k (s.streamOf k (line addr)) (line addr) data be false)
  | .acquireLoad _ addr size =>
    if !aligned addr size then some (s.alignFault k)
    else if !c.releases.isEmpty then none
    else if isControl addr then some (s.ctrlLoad k addr size)
    else if c.stores.any fun h => h.overlaps addr.toNat size then none
    else some (s.coreLoad k (s.streamOf k (line addr)) (line addr) (accessMask addr size) true)
  | .releaseStore _ addr size data =>
    if !aligned addr size then some (s.alignFault k)
    else if !drained then none
    else if isControl addr then some (s.ctrlStore k addr (leBytes size data.toNat))
    else some (s.coreStore k (s.streamOf k (line addr)) (line addr) (placed addr size data) (accessMask addr size) true)
  | .reservedLoad _ addr size acq =>
    if !aligned addr size then some (s.alignFault k)
    else if acq && !c.releases.isEmpty then none
    else if isControl addr then some ((s.count 78 3).sramReserve k addr size)
    else if c.stores.any fun h => h.overlaps addr.toNat size then none
    else some ((s.count 78 3).reservedLoad k addr size acq)
  | .conditionalStore _ addr size data rel =>
    if !aligned addr size then some (s.alignFault k)
    else if rel && !drained then none
    else if isControl addr then some (s.sramConditional k addr size data)
    else
      let id := s.nextId
      let s1 := s.modCore k fun c => { c with stores := c.stores ++ [⟨id, id, addr.toNat, []⟩],
                                              releases := if rel then c.releases ++ [id] else c.releases }
      some (s1.iaIssue .condStore (s.streamOf k (line addr)) (line addr) (placed addr size data) (accessMask addr size) (some k))
  | .completionBarrier _ => if drained then some s else none
  | _ => some s

/-- A core's accesses go on in program order, up to one that waits or an acquire load whose data is out. -/
def State.playAll (k : LogicalCore) : Nat → State → State
  | 0, s => s
  | n + 1, s =>
    match (s.core k).queue with
    | [] => s
    | i :: rest =>
      if (s.core k).acquire.isSome then s
      else match (s.modCore k fun c => { c with queue := rest }).play k i with
        | none => s
        | some s1 => State.playAll k n s1

/-- Every core's accesses go on. -/
def State.coresGo (s : State) : State :=
  (List.finRange 4).foldl (fun s k => State.playAll k (s.core k).queue.length s) s

/-- A core comes to an access; a core that is halted executes none. -/
def State.coreAccess (s : State) (k : LogicalCore) (i : Instr) : State :=
  if s.mode = 0 ∨ (s.core k).halted ∨ (s.core k).husked then s
  else ((s.takeImprecise k).modCore k fun c => { c with queue := c.queue ++ [i] }).coresGo

/-! ### The commands -/

/-- The logical core of a stream from 16 on (08 Table 8.3). -/
def coreOf (stream : BitVec 6) : LogicalCore := Fin.ofNat 4 ((stream.toNat - 16) / 12)

/-- Whether logical core streams use a stream: 16 + 12k + 9 to 16 + 12k + 11 are not used (08 Table 8.3). -/
def streamUsed (stream : BitVec 6) : Bool := decide ((stream.toNat - 16) % 12 < 9)

/-- A plain access on a core's stream. The stream names the core; its ring transactions travel on the stream that 08 Table 8.3 gives the
access, and a stream that is not used carries none (DEDUCED, log 118). -/
def State.plainAccess (s : State) (stream : BitVec 6) (i : Instr) : State :=
  if streamUsed stream then s.coreAccess (coreOf stream) i else s

/-- A request of a DMA stream at the IA stop: to device memory alone. -/
def State.dmaRequest (s : State) (cls : ReqClass) (stream : BitVec 6) (addr : Word) (data : LineData) (be : ByteMask) : State :=
  if s.mode = 0 then s
  else if isControl addr then s.emit (.iaError stream.toNat (addr.toNat / 64) false)
  else s.iaIssue cls stream.toNat (addr.toNat / 64) data be none

/-- IA_RD (03 R103, 08 R265): a plain load on a core's stream, or a read of a DMA channel. -/
def execIaRd (stream : BitVec 6) (addr : Word) (len : Nat) (s : State) : Outcome State Fault Refusal :=
  if 16 ≤ stream.toNat then .next (s.plainAccess stream (.iaRd stream addr len))
  else .next (s.dmaRequest .iaRd stream addr 0#512 (accessMask addr (inLine addr len)))

/-- IA_WR (03 R103, 08 R265): a plain store on a core's stream, or a write of a DMA channel. -/
def execIaWr (stream : BitVec 6) (addr : Word) (data : LineData) (be : ByteMask) (s : State) : Outcome State Fault Refusal :=
  if 16 ≤ stream.toNat then .next (s.plainAccess stream (.iaWr stream addr data be))
  else .next (s.dmaRequest .iaWr stream addr data be)

/-- ACQUIRE_LOAD (08 R265, R271). -/
def execAcquireLoad (k : LogicalCore) (addr : Word) (size : Nat) (s : State) : Outcome State Fault Refusal :=
  .next (s.coreAccess k (.acquireLoad k addr size))

/-- RELEASE_STORE (08 R265, R271). -/
def execReleaseStore (k : LogicalCore) (addr : Word) (size : Nat) (data : Native) (s : State) : Outcome State Fault Refusal :=
  .next (s.coreAccess k (.releaseStore k addr size data))

/-- RESERVED_LOAD (08 R271 to R273). -/
def execReservedLoad (k : LogicalCore) (addr : Word) (size : Nat) (acq : Bool) (s : State) : Outcome State Fault Refusal :=
  .next (s.coreAccess k (.reservedLoad k addr size acq))

/-- CONDITIONAL_STORE (08 R271, R275). -/
def execConditionalStore (k : LogicalCore) (addr : Word) (size : Nat) (data : Native) (rel : Bool) (s : State) :
    Outcome State Fault Refusal :=
  .next (s.coreAccess k (.conditionalStore k addr size data rel))

/-- COMPLETION_BARRIER (08 R276). -/
def execCompletionBarrier (k : LogicalCore) (s : State) : Outcome State Fault Refusal :=
  .next (s.coreAccess k (.completionBarrier k))

/-- Whether a request was issued 10 us ago to a unit that does not answer: a slice that keeps it in its ingress crossing. One that the IA
stop itself holds, in REPAIR or while its logical slice is held, has not been sent, and is served later (09 R304, R305, 07 R251). -/
def State.unanswered (s : State) (id : Nat) : Bool :=
  allSlices.any fun p => (s.sl p).ingress.any fun r => r.id == id && decide (r.born + 10 ≤ s.now)

/-- A request is discarded where it stands. -/
def State.discard (s : State) (id : Nat) : State :=
  allSlices.foldl (fun s p => if (s.sl p).ingress.any (·.id == id) then
    s.modSl p fun x => { x with ingress := x.ingress.filter fun r => r.id != id } else s) s

/-- FABRIC_TIMEOUT (08 R277): a store to a unit that does not answer is answered with an error 10 us after its issue and discarded; it
counts as acknowledged. A store to device memory is the core's held store of that address. -/
def execFabricTimeout (k : LogicalCore) (addr : Word) (s : State) : Outcome State Fault Refusal :=
  if s.mode = 0 then .next s
  else if isControl addr then .next (s.impreciseError k addr).coresGo
  else match (s.core k).stores.find? fun h => h.addr == addr.toNat && s.unanswered h.id with
    | some h => .next (((s.discard h.id).count 78 6).iaFail h.id (lineOf addr)).coresGo
    | none => .next s

end Sys2Proof.Machine
end

