-- ==== Sys2Proof/Machine/Dispatch.lean ====
section
/-! DEFINITION. The effect of every command: one arm per constructor of Instr, each a direct call of its meaning. -/

namespace Sys2Proof.Machine

/-- The effect of a command on everything but the queue. -/
def exec (i : Instr) (s : State) : Host.Outcome State Fault Refusal :=
  match i with
  | .rdShared h addr tag => Sys2Proof.Machine.execRdShared h addr tag s
  | .rdOwn h addr tag => Sys2Proof.Machine.execRdOwn h addr tag s
  | .rdCur h addr tag => Sys2Proof.Machine.execRdCur h addr tag s
  | .invOwn h addr tag => Sys2Proof.Machine.execInvOwn h addr tag s
  | .invFlush h addr tag => Sys2Proof.Machine.execInvFlush h addr tag s
  | .wrFull h addr tag data poison shared => Sys2Proof.Machine.execWrFull h addr tag data poison shared s
  | .wrPtl h addr tag data be poison shared => Sys2Proof.Machine.execWrPtl h addr tag data be poison shared s
  | .clnEvct h addr tag => Sys2Proof.Machine.execClnEvct h addr tag s
  | .spec h addr => Sys2Proof.Machine.execSpec h addr s
  | .unsupportedRequest h rwd opcode addr tag => Sys2Proof.Machine.execUnsupportedRequest h rwd opcode addr tag s
  | .birsp h bitag rsp blk addr => Sys2Proof.Machine.execBirsp h bitag rsp blk addr s
  | .biconflict h addr => Sys2Proof.Machine.execBiconflict h addr s
  | .biWarnExpiry h bitag => Sys2Proof.Machine.execBiWarnExpiry h bitag s
  | .biFenceExpiry h bitag => Sys2Proof.Machine.execBiFenceExpiry h bitag s
  | .snoopReoffer h => Sys2Proof.Machine.execSnoopReoffer h s
  | .linkUp h => Sys2Proof.Machine.execLinkUp h s
  | .linkDown h => Sys2Proof.Machine.execLinkDown h s
  | .hotReset h => Sys2Proof.Machine.execHotReset h s
  | .biEnableChange h en => Sys2Proof.Machine.execBiEnableChange h en s
  | .widthReport h w hostInitiated => Sys2Proof.Machine.execWidthReport h w hostInitiated s
  | .l0pRefused h => Sys2Proof.Machine.execL0pRefused h s
  | .gpfPhase1 h => Sys2Proof.Machine.execGpfPhase1 h s
  | .gpfPhase2 h => Sys2Proof.Machine.execGpfPhase2 h s
  | .gpfPhase2Ack h => Sys2Proof.Machine.execGpfPhase2Ack h s
  | .hpHuskWrite h => Sys2Proof.Machine.execHpHuskWrite h s
  | .hpEnableClear h => Sys2Proof.Machine.execHpEnableClear h s
  | .huskClear h => Sys2Proof.Machine.execHuskClear h s
  | .forgetHostWalkStep p => Sys2Proof.Machine.execForgetHostWalkStep p s
  | .urgentPassLineVisit p => Sys2Proof.Machine.execUrgentPassLineVisit p s
  | .trackerFree p trk => Sys2Proof.Machine.execTrackerFree p trk s
  | .filterWayRetry p trk => Sys2Proof.Machine.execFilterWayRetry p trk s
  | .hcWayRetry p trk => Sys2Proof.Machine.execHcWayRetry p trk s
  | .budgetWaitProceed p => Sys2Proof.Machine.execBudgetWaitProceed p s
  | .requestAged p req => Sys2Proof.Machine.execRequestAged p req s
  | .spillMapSet msg => Sys2Proof.Machine.execSpillMapSet msg s
  | .spillMapSetAck msg => Sys2Proof.Machine.execSpillMapSetAck msg s
  | .spillMapQuery msg => Sys2Proof.Machine.execSpillMapQuery msg s
  | .spillTokenTick => Sys2Proof.Machine.execSpillTokenTick s
  | .iaRd stream addr len => Sys2Proof.Machine.execIaRd stream addr len s
  | .iaWr stream addr data be => Sys2Proof.Machine.execIaWr stream addr data be s
  | .acquireLoad k addr size => Sys2Proof.Machine.execAcquireLoad k addr size s
  | .releaseStore k addr size data => Sys2Proof.Machine.execReleaseStore k addr size data s
  | .reservedLoad k addr size acq => Sys2Proof.Machine.execReservedLoad k addr size acq s
  | .conditionalStore k addr size data rel => Sys2Proof.Machine.execConditionalStore k addr size data rel s
  | .completionBarrier k => Sys2Proof.Machine.execCompletionBarrier k s
  | .fabricTimeout k addr => Sys2Proof.Machine.execFabricTimeout k addr s
  | .mediaReadRequest op => Sys2Proof.Machine.execMediaReadRequest op s
  | .mediaLineWrite op => Sys2Proof.Machine.execMediaLineWrite op s
  | .metadataOnlyWrite op => Sys2Proof.Machine.execMetadataOnlyWrite op s
  | .coalesceWindowExpiry g stripe => Sys2Proof.Machine.execCoalesceWindowExpiry g stripe s
  | .dispatchPlaceFree c => Sys2Proof.Machine.execDispatchPlaceFree c s
  | .mediaReadStatus op st => Sys2Proof.Machine.execMediaReadStatus op st s
  | .busyMigratingReissue op => Sys2Proof.Machine.execBusyMigratingReissue op s
  | .hedgeDeadline op => Sys2Proof.Machine.execHedgeDeadline op s
  | .mediaWriteStatus op ok => Sys2Proof.Machine.execMediaWriteStatus op ok s
  | .writeRetry op => Sys2Proof.Machine.execWriteRetry op s
  | .hedgeTraining => Sys2Proof.Machine.execHedgeTraining s
  | .channelLightSleep c => Sys2Proof.Machine.execChannelLightSleep c s
  | .minorCounterExhausted op => Sys2Proof.Machine.execMinorCounterExhausted op s
  | .rekeyStep => Sys2Proof.Machine.execRekeyStep s
  | .macFailure op => Sys2Proof.Machine.execMacFailure op s
  | .counterUnreadable base limit => Sys2Proof.Machine.execCounterUnreadable base limit s
  | .channelRetire c => Sys2Proof.Machine.execChannelRetire c s
  | .mfGroupMapWrite g v => Sys2Proof.Machine.execMfGroupMapWrite g v s
  | .rebuildResume v => Sys2Proof.Machine.execRebuildResume v s
  | .apertureRead addr len c => Sys2Proof.Machine.execApertureRead addr len c s
  | .apertureWrite addr len c data md => Sys2Proof.Machine.execApertureWrite addr len c data md s
  | .resyncStart => Sys2Proof.Machine.execResyncStart s
  | .resyncStripeCheck => Sys2Proof.Machine.execResyncStripeCheck s
  | .mfHedgeTableLatch v => Sys2Proof.Machine.execMfHedgeTableLatch v s
  | .mediaDataReturn op => Sys2Proof.Machine.execMediaDataReturn op s
  | .mediaWriteAck op => Sys2Proof.Machine.execMediaWriteAck op s
  | .cleanerStep p => Sys2Proof.Machine.execCleanerStep p s
  | .dirtyBudgetWrite v => Sys2Proof.Machine.execDirtyBudgetWrite v s
  | .persistModeWrite v => Sys2Proof.Machine.execPersistModeWrite v s
  | .rangeClean force discard => Sys2Proof.Machine.execRangeClean force discard s
  | .rangeInvalidate force discard => Sys2Proof.Machine.execRangeInvalidate force discard s
  | .rangeCleanInvalidate force discard => Sys2Proof.Machine.execRangeCleanInvalidate force discard s
  | .rangeLock force discard => Sys2Proof.Machine.execRangeLock force discard s
  | .rangeUnlock force discard => Sys2Proof.Machine.execRangeUnlock force discard s
  | .rangeAgentLine p => Sys2Proof.Machine.execRangeAgentLine p s
  | .pfwNAssert => Sys2Proof.Machine.execPfwNAssert s
  | .drainHostPhaseEnd => Sys2Proof.Machine.execDrainHostPhaseEnd s
  | .drainSnoopTimeout h bitag => Sys2Proof.Machine.execDrainSnoopTimeout h bitag s
  | .cipherFlushDone => Sys2Proof.Machine.execCipherFlushDone s
  | .recordCloseAck => Sys2Proof.Machine.execRecordCloseAck s
  | .automaticRestart => Sys2Proof.Machine.execAutomaticRestart s
  | .blockResetAssert => Sys2Proof.Machine.execBlockResetAssert s
  | .blockResetRelease railsReady => Sys2Proof.Machine.execBlockResetRelease railsReady s
  | .modeReqServe => Sys2Proof.Machine.execModeReqServe s
  | .modeReqDormant => Sys2Proof.Machine.execModeReqDormant s
  | .modeReqRepair => Sys2Proof.Machine.execModeReqRepair s
  | .modeReqHold => Sys2Proof.Machine.execModeReqHold s
  | .dormantIdleDwell => Sys2Proof.Machine.execDormantIdleDwell s
  | .dormantEntryStepEnd => Sys2Proof.Machine.execDormantEntryStepEnd s
  | .dormantEntryTimeout => Sys2Proof.Machine.execDormantEntryTimeout s
  | .dormantExitCount => Sys2Proof.Machine.execDormantExitCount s
  | .dormantExitStepEnd => Sys2Proof.Machine.execDormantExitStepEnd s
  | .controlComplexLoss => Sys2Proof.Machine.execControlComplexLoss s
  | .repairCauseRelease => Sys2Proof.Machine.execRepairCauseRelease s
  | .repairTimeout => Sys2Proof.Machine.execRepairTimeout s
  | .resetInvalidationDone => Sys2Proof.Machine.execResetInvalidationDone s
  | .acornRomSequence r => Sys2Proof.Machine.execAcornRomSequence r s
  | .ringEnumeration answers => Sys2Proof.Machine.execRingEnumeration answers s
  | .measuredLoadBlock readOk => Sys2Proof.Machine.execMeasuredLoadBlock readOk s
  | .oppTargetWrite p opp => Sys2Proof.Machine.execOppTargetWrite p opp s
  | .regulatorSettled p => Sys2Proof.Machine.execRegulatorSettled p s
  | .regulatorTimeout p => Sys2Proof.Machine.execRegulatorTimeout p s
  | .thermalReading tj => Sys2Proof.Machine.execThermalReading tj s
  | .clockMonitorCheck outOfTolerance => Sys2Proof.Machine.execClockMonitorCheck outOfTolerance s
  | .minorEvent src info => Sys2Proof.Machine.execMinorEvent src info s
  | .majorEvent src info => Sys2Proof.Machine.execMajorEvent src info s
  | .fatalDeclaration src info => Sys2Proof.Machine.execFatalDeclaration src info s
  | .wiringFault src onMajor => Sys2Proof.Machine.execWiringFault src onMajor s
  | .windowRestart src counterB => Sys2Proof.Machine.execWindowRestart src counterB s
  | .handlingClose => Sys2Proof.Machine.execHandlingClose s
  | .permClear src => Sys2Proof.Machine.execPermClear src s
  | .watchdogFeed => Sys2Proof.Machine.execWatchdogFeed s
  | .watchdogExpiry => Sys2Proof.Machine.execWatchdogExpiry s
  | .pipToggle => Sys2Proof.Machine.execPipToggle s
  | .hcMove p way => Sys2Proof.Machine.execHcMove p way s
  | .sfMove p way => Sys2Proof.Machine.execSfMove p way s
  | .moveSetStep p => Sys2Proof.Machine.execMoveSetStep p s
  | .sfDrain p => Sys2Proof.Machine.execSfDrain p s
  | .sfDrainStep p => Sys2Proof.Machine.execSfDrainStep p s
  | .sliceHuskWrite p => Sys2Proof.Machine.execSliceHuskWrite p s
  | .sliceRetirement p => Sys2Proof.Machine.execSliceRetirement p s
  | .wayRetirement p => Sys2Proof.Machine.execWayRetirement p s
  | .channelRetirement c => Sys2Proof.Machine.execChannelRetirement c s
  | .controlCoreRetirement c => Sys2Proof.Machine.execControlCoreRetirement c s
  | .wordRemap u macroId word cause => Sys2Proof.Machine.execWordRemap u macroId word cause s
  | .remapReadEntry u macroId entry => Sys2Proof.Machine.execRemapReadEntry u macroId entry s
  | .installWithCopy u macroId entry word => Sys2Proof.Machine.execInstallWithCopy u macroId entry word s
  | .remapCopyExecute u => Sys2Proof.Machine.execRemapCopyExecute u s
  | .installZeroed u macroId entry word => Sys2Proof.Machine.execInstallZeroed u macroId entry word s
  | .eccTestUnlockKey p key => Sys2Proof.Machine.execEccTestUnlockKey p key s
  | .eccUnlockExpiry p => Sys2Proof.Machine.execEccUnlockExpiry p s
  | .eccTestArm p v => Sys2Proof.Machine.execEccTestArm p v s
  | .scrubStartPass v => Sys2Proof.Machine.execScrubStartPass v s
  | .scrubStop => Sys2Proof.Machine.execScrubStop s
  | .scrubVisit part a index found => Sys2Proof.Machine.execScrubVisit part a index found s
  | .scrubMediaStripeVisit found => Sys2Proof.Machine.execScrubMediaStripeVisit found s
  | .scrubRevisit p found => Sys2Proof.Machine.execScrubRevisit p found s
  | .patrolPeriod => Sys2Proof.Machine.execPatrolPeriod s
  | .sweeperChunkVisit => Sys2Proof.Machine.execSweeperChunkVisit s
  | .sweeperLine p => Sys2Proof.Machine.execSweeperLine p s
  | .sweeperChunkVisitEnd => Sys2Proof.Machine.execSweeperChunkVisitEnd s
  | .progressCommit => Sys2Proof.Machine.execProgressCommit s
  | .regionPortRead index => Sys2Proof.Machine.execRegionPortRead index s
  | .regionPortWrite index entry => Sys2Proof.Machine.execRegionPortWrite index entry s
  | .sliceMapWrite high v => Sys2Proof.Machine.execSliceMapWrite high v s
  | .hashCtrlWrite v => Sys2Proof.Machine.execHashCtrlWrite v s
  | .slLogicalIdWrite p v => Sys2Proof.Machine.execSlLogicalIdWrite p v s
  | .bootCoreMapWrite v => Sys2Proof.Machine.execBootCoreMapWrite v s
  | .pqDataRead q size => Sys2Proof.Machine.execPqDataRead q size s
  | .pqFillWrite v => Sys2Proof.Machine.execPqFillWrite v s
  | .pqReset q => Sys2Proof.Machine.execPqReset q s
  | .pointerMismatchReset q => Sys2Proof.Machine.execPointerMismatchReset q s
  | .crossingReplay q => Sys2Proof.Machine.execCrossingReplay q s
  | .mailboxDoorbell mb opcode input => Sys2Proof.Machine.execMailboxDoorbell mb opcode input s
  | .pComplete => Sys2Proof.Machine.execPComplete s
  | .sComplete => Sys2Proof.Machine.execSComplete s
  | .pBgDone => Sys2Proof.Machine.execPBgDone s
  | .sBgDone => Sys2Proof.Machine.execSBgDone s
  | .getHomeStatus mb => Sys2Proof.Machine.execGetHomeStatus mb s
  | .setDirtyBudget mb => Sys2Proof.Machine.execSetDirtyBudget mb s
  | .setPersistenceMode mb => Sys2Proof.Machine.execSetPersistenceMode mb s
  | .requestMode mb => Sys2Proof.Machine.execRequestMode mb s
  | .startRangeOperation mb => Sys2Proof.Machine.execStartRangeOperation mb s
  | .getRangeSummary mb => Sys2Proof.Machine.execGetRangeSummary mb s
  | .startScrubPass mb => Sys2Proof.Machine.execStartScrubPass mb s
  | .getScrubSummary mb => Sys2Proof.Machine.execGetScrubSummary mb s
  | .getFaultHistory mb => Sys2Proof.Machine.execGetFaultHistory mb s
  | .setFaultPolicy mb => Sys2Proof.Machine.execSetFaultPolicy mb s
  | .getSpareInventory mb => Sys2Proof.Machine.execGetSpareInventory mb s
  | .retireUnit mb => Sys2Proof.Machine.execRetireUnit mb s
  | .setOwnerLossPolicy mb => Sys2Proof.Machine.execSetOwnerLossPolicy mb s
  | .getOwnerLossList mb => Sys2Proof.Machine.execGetOwnerLossList mb s
  | .setHedgePolicy mb => Sys2Proof.Machine.execSetHedgePolicy mb s
  | .readCounterSnapshot mb => Sys2Proof.Machine.execReadCounterSnapshot mb s
  | .configureSampling mb => Sys2Proof.Machine.execConfigureSampling mb s
  | .readSampleBuffer mb => Sys2Proof.Machine.execReadSampleBuffer mb s
  | .getOwnerSetting mb => Sys2Proof.Machine.execGetOwnerSetting mb s
  | .setOwnerSetting mb => Sys2Proof.Machine.execSetOwnerSetting mb s
  | .resealRegion mb => Sys2Proof.Machine.execResealRegion mb s
  | .setRegionEntry mb => Sys2Proof.Machine.execSetRegionEntry mb s
  | .getRegionEntry mb => Sys2Proof.Machine.execGetRegionEntry mb s
  | .getFwInfo mb => Sys2Proof.Machine.execGetFwInfo mb s
  | .transferFw mb slot image => Sys2Proof.Machine.execTransferFw mb slot image s
  | .activateFwOffline mb slot => Sys2Proof.Machine.execActivateFwOffline mb slot s
  | .activateFwOnline mb slot => Sys2Proof.Machine.execActivateFwOnline mb slot s
  | .getEventRecords mb log => Sys2Proof.Machine.execGetEventRecords mb log s
  | .clearEventRecords mb log count => Sys2Proof.Machine.execClearEventRecords mb log count s
  | .spdmGetVersion via => Sys2Proof.Machine.execSpdmGetVersion via s
  | .spdmGetCapabilities via => Sys2Proof.Machine.execSpdmGetCapabilities via s
  | .spdmNegotiateAlgorithms via => Sys2Proof.Machine.execSpdmNegotiateAlgorithms via s
  | .spdmGetDigests via => Sys2Proof.Machine.execSpdmGetDigests via s
  | .spdmGetCertificate via slot offset len => Sys2Proof.Machine.execSpdmGetCertificate via slot offset len s
  | .spdmChallenge via slot nonce => Sys2Proof.Machine.execSpdmChallenge via slot nonce s
  | .spdmGetMeasurements via index signed nonce => Sys2Proof.Machine.execSpdmGetMeasurements via index signed nonce s
  | .bootLoad slot => Sys2Proof.Machine.execBootLoad slot s
  | .bootSwitch => Sys2Proof.Machine.execBootSwitch s
  | .bootConfirm => Sys2Proof.Machine.execBootConfirm s
  | .trialExpiry => Sys2Proof.Machine.execTrialExpiry s
  | .configProgramAck => Sys2Proof.Machine.execConfigProgramAck s
  | .dmaGo c => Sys2Proof.Machine.execDmaGo c s
  | .dmaPause c => Sys2Proof.Machine.execDmaPause c s
  | .dmaResume c => Sys2Proof.Machine.execDmaResume c s
  | .dmaDisable c => Sys2Proof.Machine.execDmaDisable c s
  | .dmaDrainDone c => Sys2Proof.Machine.execDmaDrainDone c s
  | .dmaChannelStart engine => Sys2Proof.Machine.execDmaChannelStart engine s
  | .descriptorFetch c bytes => Sys2Proof.Machine.execDescriptorFetch c bytes s
  | .dmaReadResponse c data poison => Sys2Proof.Machine.execDmaReadResponse c data poison s
  | .descriptorComplete c => Sys2Proof.Machine.execDescriptorComplete c s
  | .dmaBusError c addr lastWrite => Sys2Proof.Machine.execDmaBusError c addr lastWrite s
  | .pmuSnap => Sys2Proof.Machine.execPmuSnap s
  | .peakClr p => Sys2Proof.Machine.execPeakClr p s
  | .sampleCtrlWrite v => Sys2Proof.Machine.execSampleCtrlWrite v s
  | .sampleSeedWrite v => Sys2Proof.Machine.execSampleSeedWrite v s
  | .sampleClear => Sys2Proof.Machine.execSampleClear s
  | .sampleDataRead => Sys2Proof.Machine.execSampleDataRead s
  | .registerWrite off v => Sys2Proof.Machine.execRegisterWrite off v s
  | .hostCreditAdvertised h cls n => Sys2Proof.Machine.execHostCreditAdvertised h cls n s
  | .powerLoss => Sys2Proof.Machine.execPowerLoss s
  | .powerOnReset => Sys2Proof.Machine.execPowerOnReset s
  | .pfwNDeassert => Sys2Proof.Machine.execPfwNDeassert s
  | .standardMemoryDeviceCommand mb opcode => Sys2Proof.Machine.execStandardMemoryDeviceCommand mb opcode s

end Sys2Proof.Machine
end

