-- ==== Sys2Proof/Machine/Slots.lean ====
section
/-! DEFINITION. What the performance monitor counts by the cycle (15 R456 to R461): the cycles of each island that one µs holds, the
slots of a slice's cycles, and the causes that hold its items. A step takes no time; a µs is counted as it ends, by the conditions
that then hold, and the passes of its steps take their cycles first (DESIGN CHOICE, log 128). -/

namespace Sys2Proof.Machine

/-- The cycles that a slice's clock makes in a µs, at its operating point (09 Table 9.9). -/
def State.sliceCycles (s : State) (p : PhysSlice) : Nat := 250 * (s.rd (SL_DVFS.OPP_NOW p.val) + 1)

/-- Whether a waiting request is held by its host's TRK_MAX (15 R461). -/
def State.heldByHost (s : State) (p : PhysSlice) (w : Waiting) : Bool := w.req.host.isSome && !s.classLimit p w.req

/-- Whether a waiting request is held by the tracker pool or the limit of its class (15 R461). -/
def State.heldBySlice (s : State) (p : PhysSlice) (w : Waiting) : Bool :=
  !s.poolLimit p w.req w.aged || (w.req.host.isNone && !s.classLimit p w.req)

/-- Whether a tracker's media request waits to enter its media stop, at which operations wait for a place (06 R510). -/
def State.heldByMedia (s : State) (t : Tracker) : Bool :=
  s.mf.ops.any fun e => match e.2 with
    | some o => (t.mediaRead == some e.1 || t.wtOp == some e.1 || t.writeOps.contains e.1 || t.poisonOps.contains e.1) && o.state == .wire
        && s.chopCount (s.chanOf (groupOf o.line) (slotOf o.line)) (fun c => !c.queued) != 0
    | none => false

/-- Whether a snoop of a slice's waits for a place in its port's table (02 R61). -/
def State.heldBySnoop (s : State) (p : PhysSlice) : Bool := allHosts.any fun h => (s.port h).offered.any fun r => r.owner.slice == p

/-- The conditions of a slice that 15 R461 counts, each with its event: the tracker pool, the media stop, a snoop table, a way, the
dirty budget, TRK_MAX. -/
def State.heldCauses (s : State) (p : PhysSlice) : List (Nat × Bool) :=
  let x := s.sl p
  let offered := s.ready p
  [(5, offered.any (s.heldBySlice p)), (6, x.trackers.any s.heldByMedia), (7, s.heldBySnoop p),
   (8, x.trackers.any fun t => t.phase == .hcWay || s.waitsFilterWay p t), (9, !x.budgetQ.isEmpty), (28, offered.any (s.heldByHost p))]

/-- The slot of a slice's cycles that hold no pass (15 R460): held by the slice, held by a host's limit, or idle. -/
def slotEvent (causes : List (Nat × Bool)) : Nat :=
  if causes.any fun c => c.2 && (c.1 == 5 || c.1 == 6 || c.1 == 8 || c.1 == 9) then 4
  else if causes.any (·.2) then 27
  else 3

/-- A slice's µs: its cycles, the causes that hold, and its slots. -/
def State.sliceUs (s : State) (p : PhysSlice) : State :=
  let n := s.sliceCycles p
  let u := 16 + p.val
  let used := min n (s.sl p).passes
  let causes := s.heldCauses p
  let s1 := (s.count u 0 n).count u (slotEvent causes) (n - used)
  causes.foldl (fun s c => if c.2 then s.count u c.1 n else s) (s1.modSl p fun x => { x with passes := x.passes - used })

/-- A port's µs at 1.0 GHz (15 Table 15.2). -/
def State.portUs (s : State) (h : HostId) : State :=
  let x := s.port h
  let occ := x.table.countP fun e => e.2.isSome
  ((s.count h.val 0 1000).count h.val 15 (1000 * occ)).count h.val 16 (if x.egress.isEmpty then 0 else 1000)

/-- A parity group's µs at 1.5 GHz (15 Table 15.4). -/
def State.groupUs (s : State) (g : Nat) : State :=
  (s.count (72 + g) 0 1500).count (72 + g) 13 (if s.rd (MF_GROUP_MAP.GSTATE g) = 0 then 0 else 1500)

/-- A DMA engine's µs at 1.2 GHz: with a channel running, and at its share (15 Table 15.5). -/
def State.engineUs (s : State) (e : Nat) : State :=
  let (_, n, w) := iaShare (8 * e)
  let full := decide (n ≤ s.iaUnanswered fun q => q.ofShare e) || decide (w ≤ s.iaUnanswered fun q => q.ofShare e && q.cls.write)
  (s.count (76 + e) 0 (if (s.engine e).running.isSome then 1200 else 0)).count (76 + e) 5 (if full then 1200 else 0)

/-- The events that are counted once a cycle, over one µs in any mode but HOLD (15 R457, R458). A retired slice's counters hold their
values. -/
def State.countUs (s : State) : State :=
  if s.mode = 0 then s
  else
    let s1 := allHosts.foldl (fun s h => s.portUs h) s
    let s2 := (allSlices.filter fun p => !s1.slHusked p).foldl (fun s p => s.sliceUs p) s1
    let s3 := (List.range 38).foldl (fun s c => s.count (34 + c) 10 (1500 * s.chanDepth c)) s2
    let s4 := (List.range 4).foldl (fun s g => s.groupUs g) s3
    (s4.engineUs 0).engineUs 1

end Sys2Proof.Machine
end

