-- ==== Sys2Proof/Machine/Tick.lean ====
section
/-! DEFINITION. What one µs tick of the always-on timestamp does (00 Table 0.4; log 2): the effects that the spec ties to time and
for which the table has no row (log 13). -/

namespace Sys2Proof.Machine

/-- The ten-bucket window of a group moves by one bucket (06 R199). -/
def limiterShift (l : List (Nat × Nat)) : List (Nat × Nat) := ((0, 0) :: l).take 10

/-- Every group's window moves. -/
def State.limiterTick (s : State) : State :=
  s.modMf fun m => { m with limiter := m.limiter.map fun e => (e.1, limiterShift e.2) }

/-- At each whole ms, an interval with fewer than ENTRY_RATE × 1000 allocations is idle, and the run of idle intervals grows; any other
ends it (09 R300). -/
def State.idleTick (s : State) : State :=
  if s.now % 1000 = 0 then s.modAon fun a =>
    { a with idleMs := if a.allocsMs < s.rd PWR_DORM.ENTRY_RATE * 1000 then a.idleMs + 1 else 0, allocsMs := 0 }
  else s

/-- The allocations that a window of 10 µs no longer covers are forgotten (09 R301). -/
def State.exitCountTick (s : State) : State :=
  s.modAon fun a => { a with allocs10 := a.allocs10.filter fun e => decide (a.time < e.1 + 10) }

/-- The timestamp advances by one µs. -/
def State.microsecond (s : State) : State := s.modAon fun a => { a with time := a.time + 1 }

/-- The sweeper's time runs in SERVE while PAUSE is 0 (04 R134). -/
def State.sweepTick (s : State) : State :=
  if s.mode = 2 ∧ !s.on GLB_PASS_EPOCH.PAUSE then { s with sweepUs := s.sweepUs.map (· + 1) } else s

/-- Firmware sees how the parity groups stand, and its budget follows (08 R289; DESIGN CHOICE: at the next tick, log 120). -/
def State.budgetTick (s : State) : State := if 2 ≤ s.mode ∧ s.mode ≠ 4 then s.budgetFollow else s

/-- The always-on island runs once it has left its own reset (17 R499). Then one µs passes: DIRTY_LINES is sampled (05 Table 5.2), the
hedge windows move (06 R199), the cycles of the µs are counted (15 R458), the sweeper's time runs (04 R134), the idle and exit counts
move (09 R300, R301), DRAIN step 4 ends where it can (08 R283), the dirty budget follows the groups (08 R289), and the stops, the
control cores and the DMA engines go on (logs 25, 27). -/
def State.tick (s : State) : State :=
  if s.aon.power && s.aon.porDone then
    let s1 := s.countUs.microsecond
    let s2 := (s1.wr GLB_DIRTY_BUDGET.DIRTY_LINES s1.dirtyLines).limiterTick
    s2.sweepTick.idleTick.exitCountTick.drainStep.budgetTick.pump.coresGo.dmaAll
  else s

end Sys2Proof.Machine
end

