-- ==== Sys2Proof/Safety.lean ====
section
/-! DEFINITION. What claims about runs speak of: the canonical form of every table of State, the frame of a command, and what the
messages of the host ports stand for. -/

namespace Sys2Proof.Machine

open Host (Outcome)

/-- Every table of the state is in canonical form: keys strictly rising, and no entry equal to what an unlisted key reads as. Equal
contents are then equal data. -/
structure State.Canonical (s : State) : Prop where
  regs : Tbl.wf regReset s.regs = true
  ports : Tbl.wf (fun _ => Port.empty) s.ports = true
  slices : Tbl.wf (fun _ => Slice.empty) s.slices = true
  fabric : Tbl.wf (fun _ => none) s.fabric = true
  media : Tbl.wf (fun _ => none) s.media = true
  counters : Tbl.wf (fun _ => (⟨0, 0⟩ : LineCounter)) s.counters = true
  history : Tbl.wf (fun _ => 0#128) s.history = true
  minors : Tbl.wf (fun _ => 0) s.minors = true
  queues : Tbl.wf (fun _ => PodQueue.empty) s.queues = true
  cores : Tbl.wf (fun _ => Core.idle) s.cores = true
  sram : Memory.wf s.sram = true
  sramReserved : Tbl.wf (fun _ => 0) s.sramReserved = true
  valid : Tbl.wf (fun _ => 0#2048) s.valid = true
  devErrors : Tbl.wf (fun _ => WordError.none) s.devErrors = true
  devRemap : Tbl.wf (fun _ => RemapEntry.none) s.devRemap = true
  dma : Tbl.wf (fun _ => DmaState.idle) s.dma = true
  engines : Tbl.wf (fun _ => Engine.idle) s.engines = true
  pmu : Tbl.wf (fun _ => 0) s.pmu = true
  snap : Tbl.wf (fun _ => 0) s.snap = true

/-- `t` differs from `s` in registers only, and there only at the offsets of `l`. -/
def State.OnlyRegs (s t : State) (l : List Nat) : Prop :=
  t = { s with regs := t.regs } ∧ ∀ o, o ∉ l → t.reg o = s.reg o

/-- The request that a host's message stands for where it enters its port in a state (02 Table 2.6, R53, R56; 03 R97 to R102): its
number, class, host, line, tag, data, byte enables, poison, shared state and the host's incarnation. -/
def hostRequestOf (s : State) : Instr → Option (HostId × Request)
  | .rdShared h a tag =>
    some (h, ⟨s.nextId, .rdShared, .host h, lineOf a, tag, 0#512, BitVec.allOnes 64, false, false, none, s.now, s.inc12 h⟩)
  | .rdOwn h a tag => some (h, ⟨s.nextId, .rdOwn, .host h, lineOf a, tag, 0#512, BitVec.allOnes 64, false, false, none, s.now, s.inc12 h⟩)
  | .rdCur h a tag => some (h, ⟨s.nextId, .rdCur, .host h, lineOf a, tag, 0#512, BitVec.allOnes 64, false, false, none, s.now, s.inc12 h⟩)
  | .invOwn h a tag => some (h, ⟨s.nextId, .invOwn, .host h, lineOf a, tag, 0#512, 0#64, false, false, none, s.now, s.inc12 h⟩)
  | .invFlush h a tag => some (h, ⟨s.nextId, .invFlush, .host h, lineOf a, tag, 0#512, 0#64, false, false, none, s.now, s.inc12 h⟩)
  | .wrFull h a tag d po sh =>
    some (h, ⟨s.nextId, .wrFull, .host h, lineOf a, tag, d, BitVec.allOnes 64, po, sh, none, s.now, s.inc12 h⟩)
  | .wrPtl h a tag d be po sh =>
    some (h, ⟨s.nextId, if be = BitVec.allOnes 64 then .wrFull else .wrPtl, .host h, lineOf a, tag, d,
      be, po, sh, none, s.now, s.inc12 h⟩)
  | .clnEvct h a tag => some (h, ⟨s.nextId, .clnEvct, .host h, lineOf a, tag, 0#512, 0#64, false, false, none, s.now, s.inc12 h⟩)
  | .spec h a => some (h, ⟨s.nextId, .spec, .host h, lineOf a, 0#16, 0#512, BitVec.allOnes 64, false, false, none, s.now, s.inc12 h⟩)
  | _ => none

/-- The address a host's request carries. -/
def hostAddress : Instr → Word
  | .rdShared _ a _ | .rdOwn _ a _ | .rdCur _ a _ | .invOwn _ a _ | .invFlush _ a _ | .clnEvct _ a _ | .spec _ a
  | .wrFull _ a _ _ _ _ | .wrPtl _ a _ _ _ _ _ => a
  | _ => 0#64

/-- What a departure of a host leaves at its port (02 R72): husked, its sweep begun, one incarnation and one departure more, and no
message held, in the ingress crossing or waiting to leave. -/
def State.Departed (s t : State) (h : HostId) : Prop :=
  t.on (HP_CTRL.HUSK h.val) = true ∧ t.on (HP_STATUS.HUSKED h.val) = true ∧ t.on (HP_STATUS.SWEEP h.val) = true ∧
  t.rd (GLB_HOST_INCARN.INCARN h.val) = (s.rd (GLB_HOST_INCARN.INCARN h.val) + 1) % 4096 ∧
  t.rd (HP_OWNER_LOSS.DEPARTURES h.val) = min (s.rd (HP_OWNER_LOSS.DEPARTURES h.val) + 1) 65535 ∧
  (t.port h).held = [] ∧ (t.port h).ingress = [] ∧ (t.port h).egress = []

/-- A host that can depart with nothing outstanding: its port is not husked, the mode is SPROUT, SERVE, DORMANT or REPAIR, no snoop is
outstanding or offered there, no request parked, and its new incarnation does not call for an urgent pass (04 R140). -/
def State.mayDepart (s : State) (h : HostId) : Prop :=
  s.on (HP_CTRL.HUSK h.val) = false ∧ (s.mode = 1 ∨ s.mode = 2 ∨ s.mode = 3 ∨ s.mode = 5) ∧ (s.port h).table = [] ∧
  (s.port h).offered = [] ∧ (s.port h).park = [] ∧
  BitVec.ofNat 12 (s.rd (GLB_HOST_INCARN.INCARN h.val) + 1) - (s.port h).baseInc ≠ 4095#12

/-- The way from a stop to the home of a request's line is open: nothing is before the request in the stop's ingress crossing and the
stop drains it, its logical slice is not held, no earlier transaction holds it back, and the slice the map names is not husked, has
nothing before it and takes it (01 R21, R22, R29, R30; 07 R225, R226; 12 R393; 14 R432). -/
structure State.openWay (s : State) (r : Request) : Prop where
  crossing : s.crossing r.agent = []
  drains : s.stopFull r = false
  hold : s.on (mapHold (s.lsOf r.line)) = false
  order : s.idHeld (s.homeOf r.line) r = false
  husk : s.slHusked (s.homeOf r.line) = false
  front : (s.sl (s.homeOf r.line)).ingress = []
  takes : s.sliceTakes (s.homeOf r.line) r = true

/-- A control core that comes to an access with nothing before it: the tables are canonical, the mode is not HOLD, the core is neither
halted nor husked, no core holds an access back, and no acquire load of this one is out nor an imprecise bus error pending (08 R265,
R271, R277). -/
structure State.CoreReady (s : State) (k : LogicalCore) : Prop where
  canonical : s.Canonical
  mode : s.mode ≠ 0
  halted : (s.core k).halted = false
  husked : (s.core k).husked = false
  queues : ∀ j : LogicalCore, (s.core j).queue = []
  acquire : (s.core k).acquire = none
  error : (s.core k).busErrAddr = none

/-- The cores after one in order go on, as they do at the end of every command of a core (log 27). -/
def State.laterCores (s : State) (k : LogicalCore) : State :=
  ((List.finRange 4).filter fun j => decide (k < j)).foldl (fun s j => State.playAll j (s.core j).queue.length s) s

/-- The access a command of a control core is, and the core; a plain access on a stream of a core that 08 Table 8.3 leaves unused is none
(log 118). -/
def coreAccessOf : Instr → Option LogicalCore
  | .iaRd stream _ _ => if 16 ≤ stream.toNat ∧ streamUsed stream = true then some (coreOf stream) else none
  | .iaWr stream _ _ _ => if 16 ≤ stream.toNat ∧ streamUsed stream = true then some (coreOf stream) else none
  | .acquireLoad k _ _ => some k
  | .releaseStore k _ _ _ => some k
  | .reservedLoad k _ _ _ => some k
  | .conditionalStore k _ _ _ _ => some k
  | .completionBarrier k => some k
  | _ => none

/-- Bytes of the data SRAM whose valid bits have three copies alike and whose written code words hold no error that a read would find
(10 R315, R317, R318, R324). -/
def State.dataGood (s : State) (o n : Nat) : Prop :=
  ∀ j ∈ halvesOf o n, ∀ m w up, codeWordOf .data (8 * j) = some (m, w, up) →
    s.readValid m w = (s, s.wordValid m w) ∧ (s.wordValid m w = true → s.devStored m w up = .good)

/-- Bytes of the data SRAM as a read gives them: a macro word not yet written reads as zero (10 R318). -/
def State.dataBytes (s : State) (o n : Nat) : List Byte := (List.range n).map fun i => s.ctrlData .data (o + i)

/-- Nothing stands between the stops and the slices: every park buffer and every ingress crossing is empty (01 R19, R30). -/
def State.StopsEmpty (s : State) : Prop :=
  s.iaPark = [] ∧ s.iaIngress = [] ∧ (∀ h : HostId, (s.port h).park = [] ∧ (s.port h).ingress = []) ∧
    ∀ p : PhysSlice, (s.sl p).ingress = []

/-- What a channel's answer to a read is counted and reported as (06 R193, Table 6.4). -/
def State.readEvent (s : State) (o : ChanOp) (st : ReadStatus) : State :=
  match st with
  | .ok => s
  | .corrected => (s.count (34 + o.chan.val) 4).minor (0x22 + o.chan.val) (channelInfo o.index 1)
  | .uncorrectable => (s.count (34 + o.chan.val) 5).major (0x22 + o.chan.val) (channelInfo o.index 3)
  | .unwritten => s.count (34 + o.chan.val) 6
  | .busyMigrating => s.count (34 + o.chan.val) 7

/-- A state of HOLD that another one entered: everything volatile is at reset, PIP is low; what waits and the message log
stay, and the cipher unit's counters are those of the forms on media (06 R207; 09 R290, R291; 17 R503). -/
def State.Held (s t : State) : Prop :=
  t.mode = 0 ∧ t.aon.pip = false ∧ s.out <+: t.out ∧ t.store.programs = [] ∧
    t = { State.reset with
      pending := s.pending, counters := t.counters, aon := t.aon, media := t.media, store := t.store, out := t.out, nextId := t.nextId,
      freeTick := t.freeTick }

/-- The media writes issued to a channel and not answered (08 R280). -/
def State.issuedWrites (s : State) : List ChanOp :=
  s.mf.chops.filterMap fun e => e.2.bind fun o => if o.write && o.issued && !o.failed then some o else none

/-- Nothing is held back for the end of REPAIR or for SERVE: no request at a port or at the IA stop (09 R305). -/
def State.NothingHeld (s : State) : Prop := s.iaHeld = [] ∧ ∀ h : HostId, (s.port h).held = []

/-- The mailbox, opcode and input length, where the length is fixed, of a mailbox command that names its opcode (13 Table 13.14). -/
def mailboxForm : Instr → Option (Mailbox × Nat × Option Nat)
  | .getHomeStatus mb => some (mb, 0xC100, some 0)
  | .setDirtyBudget mb => some (mb, 0xC101, some 1)
  | .setPersistenceMode mb => some (mb, 0xC102, some 1)
  | .requestMode mb => some (mb, 0xC103, some 1)
  | .startRangeOperation mb => some (mb, 0xC110, some 24)
  | .getRangeSummary mb => some (mb, 0xC111, some 0)
  | .startScrubPass mb => some (mb, 0xC120, some 24)
  | .getScrubSummary mb => some (mb, 0xC121, some 0)
  | .getFaultHistory mb => some (mb, 0xC130, some 0)
  | .setFaultPolicy mb => some (mb, 0xC131, some 16)
  | .getSpareInventory mb => some (mb, 0xC140, some 0)
  | .retireUnit mb => some (mb, 0xC141, some 8)
  | .setOwnerLossPolicy mb => some (mb, 0xC150, some 3)
  | .getOwnerLossList mb => some (mb, 0xC151, some 8)
  | .setHedgePolicy mb => some (mb, 0xC160, some 16)
  | .readCounterSnapshot mb => some (mb, 0xC170, some 4)
  | .configureSampling mb => some (mb, 0xC171, some 16)
  | .readSampleBuffer mb => some (mb, 0xC172, some 4)
  | .getOwnerSetting mb => some (mb, 0xC180, some 2)
  | .setOwnerSetting mb => some (mb, 0xC181, some 16)
  | .resealRegion mb => some (mb, 0xC190, some 8)
  | .setRegionEntry mb => some (mb, 0xC1A0, some 8)
  | .getRegionEntry mb => some (mb, 0xC1A1, some 2)
  | .getFwInfo mb => some (mb, 0x0200, some 0)
  | .transferFw mb _ _ => some (mb, 0x0201, none)
  | .activateFwOffline mb _ => some (mb, 0x0202, none)
  | .activateFwOnline mb _ => some (mb, 0x0202, none)
  | .getEventRecords mb _ => some (mb, 0x0100, none)
  | .clearEventRecords mb _ _ => some (mb, 0x0101, none)
  | _ => none

/-- The command by which firmware completes a mailbox's command, and the one by which it ends its background command (13 R423,
R424). -/
def completeOf : Mailbox → Instr
  | .primary => .pComplete
  | .secondary => .sComplete
/-- See `completeOf`. -/
def bgDoneOf : Mailbox → Instr
  | .primary => .pBgDone
  | .secondary => .sBgDone

/-- A mailbox holds a command that firmware takes now, its opcode and its input, whose payload memory reads without an error (13 R423,
R425, R426; 10 R318). -/
structure State.Holds (s : State) (mb : Mailbox) (opcode : Nat) (input : List Byte) : Prop where
  may : s.mayAnswer mb = true
  opcode : (s.mbx mb).opcode.toNat = opcode
  notClosing : s.drainClosing = false
  length : (s.mbx mb).len = input.length
  small : input.length ≤ 4096
  read : s.ctrlRead (.payload mb) 0 input.length = (s, input, false)

/-- A measured load in progress, with its slot's image whole and the SHA-384 of each of its blocks as the header has it (12 R384,
R385). -/
def State.loading (s : State) (l : Load) : Prop :=
  s.boot.load = some l ∧ (s.store.image l.slot).valid = true ∧ (s.store.image l.slot).blocks ≠ 0 ∧
    ∀ k < (s.store.image l.slot).blocks, blockGood (s.store.image l.slot) k = true

end Sys2Proof.Machine
end

