-- ==== Sys2Proof/Certificates/Slice0/Obligations.lean ====
section
/-! DEFINITION. The statements for the provers. -/

open Sys2Proof Sys2Proof.Machine
open Host (Outcome)

/-- A step takes the command at the front of the queue and runs it with the rest of the queue. -/
def Obligations.StepRunsFrontCommand : Prop :=
  ∀ (s : State) (c : Instr) (q : List Instr), step (s.withPending (c :: q)) = exec c (s.withPending q)

/-- With no command waiting a step is the tick of one microsecond, the model's choice (log 2); before the always-on island has
left its own reset, or without power, nothing changes. -/
def Obligations.IdleStepLetsOneMicrosecondPass : Prop :=
  ∀ s : State, s.pending = [] → step s = .next s.tick ∧ ((s.aon.power && s.aon.porDone) = false → step s = .next s)

/-- After reset the mode is HOLD and PIP is low; no command waits, no message has crossed the boundary, and the control SRAM, the
pod queues, the sample buffer, the history and the counters are empty. That the block reset is asserted is the model's choice
(log 4). -/
def Obligations.ResetIsHold : Prop :=
  State.reset.mode = 0 ∧ State.reset.aon.pip = false ∧ State.reset.aon.blockReset = true ∧ State.reset.pending = [] ∧
  State.reset.out = [] ∧ (∀ a, Sram.look a State.reset.sram = 0#8) ∧ (∀ q, State.reset.pq q = PodQueue.empty) ∧
  State.reset.samples = [] ∧ (∀ i, State.reset.record i = 0#128) ∧ (∀ u e, State.reset.cnt u e = 0)

/-- Every table of the state after reset is in canonical form. -/
def Obligations.ResetIsCanonical : Prop :=
  State.reset.Canonical

/-- From every state whose tables are canonical, every step that answers a next state answers one whose tables are canonical:
registers, ports, slices, fabric, media, counters, history, queues, cores, control SRAM, code words, remap entries, DMA and
performance counters. -/
def Obligations.StepKeepsCanonical : Prop :=
  ∀ s t : State, s.Canonical → step s = .next t → t.Canonical

/-- Whatever a step does, the commands that wait afterwards are those that waited before without the front one: no command adds,
drops or reorders what waits behind it. -/
def Obligations.CommandLeavesTheQueue : Prop :=
  ∀ s t : State, step s = .next t → t.pending = s.pending.tail

/-- Every message that has crossed the boundary stays in the log in its place, whatever a step does; and no step takes back the
numbers that operations and free values were given. -/
def Obligations.MessagesAreNeverRetracted : Prop :=
  ∀ s t : State, step s = .next t → s.out <+: t.out ∧ s.nextId ≤ t.nextId ∧ s.freeTick ≤ t.freeTick

/-- No step whatever (a command, a mode change, HOLD, a loss of power) takes the major counter of any line of the cipher unit
back. -/
def Obligations.WriteCounterNeverGoesBack : Prop :=
  ∀ (s t : State) (line : Nat), step s = .next t → (s.counter line).major ≤ (t.counter line).major

/-- Every command answers a next state from every state, with one exception: a block reset released before the rails have been in
tolerance for 100 us, for which the spec defines no state. No command is refused. -/
def Obligations.OnlyAnEarlyReleaseStops : Prop :=
  ∀ (s : State) (c : Instr), (∃ t, exec c s = .next t) ∨
    (c = .blockResetRelease false ∧ s.aon.blockReset = true ∧ s.aon.power = true ∧ s.aon.porDone = true ∧
      exec c s = .fault .stateUndefined)

/-- In SERVE, a request of a live port whose address fits and whose way to its home is open and free for it is numbered, counted at its
port, and takes a tracker there; its link credit, of the data class exactly for a write, is given back. Covers RD_SHARED, RD_OWN, RD_CUR,
INV_OWN, INV_FLUSH, WR_FULL, WR_PTL, CLN_EVCT and SPEC, each with the request its row stands for. The numbering is the model's (log 9). -/
def Obligations.HostRequestTakesATracker : Prop :=
  ∀ (s : State) (c : Instr) (h : HostId) (r : Request), hostRequestOf s c = some (h, r) →
    s.mode = 2 → s.portLive h = true → addrFits (hostAddress c) = true → s.openWay r →
    let s1 := (if r.cls = .wrFull ∨ r.cls = .wrPtl then s.bump.count h.val 5 else s.bump).countHost h r.cls
    let p := s.homeOf r.line
    (r.cls = .spec → (s1.sl p).trkUsed ≤ 384 ∧ rgMode (s1.region p r.line) ≠ 3) →
    s1.bypass p r = none → s1.eccIdle p = true → s1.mayAllocate p r = true →
    ∃ t, exec c s = .next t ∧ t = s1.startTracker p r false ∧
      Out.creditReturn h (r.cls == .wrFull || r.cls == .wrPtl) ∈ t.out

/-- At a port that is not live a request, a response or a conflict message has no effect but that a request's link credit, of the data
class exactly for one with data, is returned where the port is husked and the mode takes messages; at a disabled or merged port nothing
changes at all. In HOLD and SPROUT every one of them is discarded, but for the number the model gives a discarded request (log 9). -/
def Obligations.ClosedPortTakesNoMessage : Prop :=
  ∀ (s : State) (h : HostId) (tag : BitVec 16) (a : Word) (op : BitVec 4) (rwd blk : Bool) (b : BitVec 8) (x : SnoopRsp),
    let husk : Prop := s.on (HP_CTRL.HUSK h.val) = true ∧ 2 ≤ s.mode
    (s.portLive h = false →
      (∀ c r, hostRequestOf s c = some (h, r) →
        (husk → exec c s = .next (s.emit (.creditReturn h (r.cls == .wrFull || r.cls == .wrPtl)))) ∧
        (¬husk → exec c s = .next s)) ∧
      (husk → exec (.unsupportedRequest h rwd op a tag) s = .next (s.emit (.creditReturn h rwd))) ∧
      (¬husk → exec (.unsupportedRequest h rwd op a tag) s = .next s) ∧
      exec (.birsp h b x blk a) s = .next s ∧ exec (.biconflict h a) s = .next s) ∧
    (s.mode < 2 → (∀ c r, hostRequestOf s c = some (h, r) → exec c s = .next s ∨ exec c s = .next s.bump) ∧
      exec (.unsupportedRequest h rwd op a tag) s = .next s ∧ exec (.birsp h b x blk a) s = .next s ∧
      exec (.biconflict h a) s = .next s)

/-- Outside HOLD: LINK_UP sets LINK; BI_ENABLE_CHANGE that takes no enable away sets BI_EN to the value reported; WIDTH_REPORT that does
not raise the link from partial width at its host's wish sets WIDTH; each changes nothing but HP_STATUS of its port. L0P_REFUSED sets
L0P_REFUSED and forgets that the port was narrowed. A write of 0 to HUSK clears HUSK and HUSKED exactly when SWEEP is 0, LINK is 1 and a
link-down or hot reset was reported since the husk was set, and else has no effect. -/
def Obligations.LinkReportsAndHusks : Prop :=
  (
    ∀ (s : State) (h : HostId) (en hostInitiated : Bool) (w : LinkWidth), s.mode ≠ 0 →
      (∃ t, exec (.linkUp h) s = .next t ∧ t.on (HP_STATUS.LINK h.val) = true ∧ s.OnlyRegs t [HP_STATUS.reg h.val]) ∧
      (¬(s.on (HP_STATUS.BI_EN h.val) = true ∧ en = false) → ∃ t, exec (.biEnableChange h en) s = .next t ∧
        t.on (HP_STATUS.BI_EN h.val) = en ∧ s.OnlyRegs t [HP_STATUS.reg h.val]) ∧
      (¬(hostInitiated = true ∧ s.rd (HP_STATUS.WIDTH h.val) = 2 ∧ widthCode w < 2) →
        ∃ t, exec (.widthReport h w hostInitiated) s = .next t ∧ t.rd (HP_STATUS.WIDTH h.val) = widthCode w ∧
          s.OnlyRegs t [HP_STATUS.reg h.val]) ∧
      (∃ t, exec (.l0pRefused h) s = .next t ∧ t.on (HP_STATUS.L0P_REFUSED h.val) = true ∧
        (t.port h).narrowed = false ∧ (∀ g, g ≠ h → t.port g = s.port g) ∧
        (∀ o, o ≠ HP_STATUS.reg h.val → t.reg o = s.reg o) ∧ t = { s with regs := t.regs, ports := t.ports })) ∧
  (
    ∀ (s : State) (h : HostId), s.on (HP_CTRL.HUSK h.val) = true →
      if s.on (HP_STATUS.SWEEP h.val) = false ∧ s.on (HP_STATUS.LINK h.val) = true ∧ (s.port h).linkReset = true then
        ∃ t, exec (.huskClear h) s = .next t ∧ t.on (HP_CTRL.HUSK h.val) = false ∧ t.on (HP_STATUS.HUSKED h.val) = false ∧
          (∀ o, o ≠ HP_CTRL.reg h.val → o ≠ HP_STATUS.reg h.val → t.reg o = s.reg o) ∧
          t = { s with regs := t.regs, ports := t.ports }
      else exec (.huskClear h) s = .next s)

/-- Of a host whose port is not husked, in SPROUT, SERVE, DORMANT or REPAIR, with no snoop outstanding and nothing parked: LINK_DOWN,
HOT_RESET, BI_ENABLE_CHANGE from 1 to 0, HP_HUSK_WRITE without an escalation of the port, HP_ENABLE_CLEAR and BI_FENCE_EXPIRY are
departures. Each also has the effect of its own: LINK 0, BI_EN 0, ENABLE 0 or BI_FENCE 1. -/
def Obligations.DepartureHusksThePort : Prop :=
  ∀ (s : State) (h : HostId) (b : BitVec 8) (e : SnoopEntry),
    (s.mayDepart h →
      (∃ t, exec (.linkDown h) s = .next t ∧ s.Departed t h ∧ t.on (HP_STATUS.LINK h.val) = false) ∧
      (∃ t, exec (.hotReset h) s = .next t ∧ s.Departed t h) ∧
      (s.on (HP_STATUS.BI_EN h.val) = true →
        ∃ t, exec (.biEnableChange h false) s = .next t ∧ s.Departed t h ∧ t.on (HP_STATUS.BI_EN h.val) = false) ∧
      (s.on (FLT_SRC_COUNT.PERM h.val) = false → ∃ t, exec (.hpHuskWrite h) s = .next t ∧ s.Departed t h) ∧
      (∃ t, exec (.hpEnableClear h) s = .next t ∧ s.Departed t h ∧ t.on (HP_CTRL.ENABLE h.val) = false)) ∧
    ((s.port h).table.look none b.toNat = some e → e.since + s.fenceUs h ≤ s.now →
      exec (.biFenceExpiry h b) s = .next (
        let t := (s.wr (HP_STATUS.BI_FENCE h.val) 1).depart h 3
        t.notice 2 0x11 3 h.val ((t.inc12 h).toNat + b.toNat * 2 ^ 12) (dpaOf e.req.line)))

/-- GPF_PHASE1 changes nothing. GPF_PHASE2 at a port with GPF_DRAIN 1 outside DRAIN enters DRAIN with that cause and port; with GPF_DRAIN
0 it is noted and Cesal stays in its mode. GPF_PHASE2_ACK sends the acknowledgement once no write of the port that holds a tracker is
without its Cmp, with Cesal in DRAIN where GPF_DRAIN is 1. BICONFLICT at a live port is answered at once with BIConflictAck for its line,
with the DevLoad of the line's home, LD-ID 0 and MetaField No-Op, where an NDR credit is held and nothing of that class waits, spending
the credit. HOST_CREDIT_ADVERTISED adds its credits to those of its class; with nothing waiting to leave nothing else changes. -/
def Obligations.GpfPhasesAndCredits : Prop :=
  (
    ∀ (s : State) (h : HostId),
      exec (.gpfPhase1 h) s = .next s ∧
      (2 ≤ s.mode → s.mergedAway h = false →
        let noted := s.modPort h fun x => { x with gpf2 := true, gpfAcked := false }
        (s.on (HP_CTRL.GPF_DRAIN h.val) = true → s.mode ≠ 4 → exec (.gpfPhase2 h) s = .next (noted.enterDrain 4 h.val)) ∧
        (s.on (HP_CTRL.GPF_DRAIN h.val) = false → exec (.gpfPhase2 h) s = .next noted)) ∧
      ((s.port h).gpf2 = true → s.portWrites h = false → (s.on (HP_CTRL.GPF_DRAIN h.val) = true → s.mode = 4) →
        ∃ t, exec (.gpfPhase2Ack h) s = .next t ∧ t.out = s.out ++ [.gpfAck h] ∧ (t.port h).gpf2 = false ∧
          (t.port h).gpfAcked = true ∧ t = { s with ports := t.ports, out := t.out })) ∧
  (
    ∀ (s : State) (h : HostId) (a : Word) (c : S2mClass) (n : Nat),
      (s.portLive h = true → 2 ≤ s.mode → 0 < (s.port h).ndr → (s.port h).egress = [] →
        let ack : S2m := .biConflictAck (lineOf a) (s.devLoad (s.homeOf (lineOf a)))
        ∃ t, exec (.biconflict h a) s = .next t ∧ t.out = s.out ++ [.s2m h ack 0#4 .noOp] ∧
          t.port h = { s.port h with ndr := (s.port h).ndr - 1 } ∧
          t = { s with out := t.out, ports := t.ports, pmu := t.pmu }) ∧
      (s.mode ≠ 0 → (s.port h).egress = [] →
        ∃ t, exec (.hostCreditAdvertised h c n) s = .next t ∧ (t.port h).credits c = (s.port h).credits c + n ∧
          (∀ d, d ≠ c → (t.port h).credits d = (s.port h).credits d) ∧ t = { s with ports := t.ports }))

/-- BIRSP: a response with no entry of its BITag that DRAIN did not resolve sets PROTO_ERR; an answer I of a one-line snoop frees its
entry, records the answer with the holder of the snoop, in whose slice it is a pass, and what waited on it moves on. BI_WARN_EXPIRY, once
due, sets BI_WARN and marks the entry. SNOOP_REOFFER gives the freed entry to the first snoop offered, which is sent at once where a BISnp
credit is held and nothing waits to leave. UNSUPPORTED_REQUEST of a port that takes messages sets PROTO_ERR. -/
def Obligations.SnoopsAreAnsweredAndTimed : Prop :=
  ∀ (s : State) (h : HostId) (b : BitVec 8) (a : Word) (x : SnoopRsp) (blk rwd : Bool) (e : SnoopEntry) (r : SnoopReq)
      (rest : List SnoopReq) (op : BitVec 4) (tag : BitVec 16) (i : Nat),
    (s.portLive h = true → 2 ≤ s.mode → (s.port h).table.look none b.toNat = none →
      (s.port h).drained.contains b.toNat = false →
      ∃ t, exec (.birsp h b x blk a) s = .next t ∧ t.on (HP_STATUS.PROTO_ERR h.val) = true ∧
        t = { s with regs := t.regs, ports := t.ports, queues := t.queues, out := t.out, pmu := t.pmu }) ∧
    (s.portLive h = true → 2 ≤ s.mode → (s.port h).table.look none b.toNat = some e → e.req.lines = 1 → e.answered = [] →
      exec (.birsp h b .i false a) s =
        .next (((((s.count h.val 9).freeSnoop h b.toNat).passDone e.req.owner.slice).setAnswer e.req.owner h e.req.line .i).moveOwner
          e.req.owner)) ∧
    ((s.port h).table.look none b.toNat = some e → s.rd (HP_BI_TIMERS.WARN_US h.val) ≠ 0 →
      s.rd (HP_BI_TIMERS.WARN_US h.val) < s.fenceUs h → e.warned = false →
      e.since + s.rd (HP_BI_TIMERS.WARN_US h.val) ≤ s.now →
      ∃ t, exec (.biWarnExpiry h b) s = .next t ∧ t.on (HP_STATUS.BI_WARN h.val) = true ∧
        (t.port h).table.look none b.toNat = some { e with warned := true } ∧
        t = { s with regs := t.regs, ports := t.ports, queues := t.queues, out := t.out }) ∧
    ((s.port h).offered = r :: rest → s.freeBiTag h = some i → 0 < (s.port h).bisnp → (s.port h).egress = [] →
      ∃ t, exec (.snoopReoffer h) s = .next t ∧ (t.port h).offered = rest ∧
        (t.port h).table.look none i = some ⟨r, s.now, false, []⟩ ∧
        t.out = s.out ++ [.s2m h (.biSnp i r.kind r.line r.lines) 0#4 .noOp] ∧
        t = { s with ports := t.ports, out := t.out, pmu := t.pmu }) ∧
    (s.portLive h = true → s.mode = 2 ∨ s.mode = 3 ∨ s.mode = 5 →
      ∃ t, exec (.unsupportedRequest h rwd op a tag) s = .next t ∧ t.on (HP_STATUS.PROTO_ERR h.val) = true ∧
        Out.creditReturn h rwd ∈ t.out ∧
        t = { s with regs := t.regs, ports := t.ports, queues := t.queues, out := t.out, pmu := t.pmu })

/-- TRACKER_FREE: a complete tracker of a request leaves its slice, its pass counted as one of SLOT_DONE where it was not replayed, and
with nothing waiting at the slice or at any stop nothing else changes; where the oldest request for the line may allocate it takes the
tracker, and the stops go on. FILTER_WAY_RETRY and HC_WAY_RETRY let a request without its way try again, in a replay; BUDGET_WAIT_PROCEED
lets the first request that waits for the dirty budget proceed, to its media read or its merge, once the dirty count is below the quota,
and none before. REQUEST_AGED of a request that waits alone behind its line's tracker: once it has waited AGE_US, which is not 0, it
becomes aged and AGED_COUNT rises, up to its largest value; before that, or with AGE_US 0, nothing changes. Counting a replay as it begins
is the model's (log 128). -/
def Obligations.TrackersEndRetryAndAge : Prop :=
  (
    ∀ (s : State) (p : PhysSlice) (n : Nat) (t : Tracker) (w : Waiting), s.trk p n = some t →
      t.complete = true → t.req.cls ≠ .sweep → t.req.cls ≠ .urgent →
      let gone := (if t.classed then s else s.count (16 + p.val) 1).modSl p fun x =>
        { x with trackers := x.trackers.filter fun u => u.id != n }
      (s.StopsEmpty → (s.sl p).waitq = [] → exec (.trackerFree p n) s = .next gone) ∧
      (((s.sl p).waitq.find? fun v => v.req.line == t.req.line) = some w →
        gone.lineFree p t.req.line = true → gone.classLimit p w.req = true →
        exec (.trackerFree p n) s = .next (
          (((gone.modSl p fun x => { x with waitq := x.waitq.erase w }).startTracker p w.req true).drainWait p).drainIngress p).pump)) ∧
  (
    ∀ (s : State) (p : PhysSlice) (n : Nat) (t : Tracker), s.trk p n = some t →
      (t.toRecord = true → exec (.filterWayRetry p n) s = .next ((s.replay p n).advance p n)) ∧
      (t.toRecord = false → exec (.filterWayRetry p n) s = .next s) ∧
      (t.phase = .hcWay → exec (.hcWayRetry p n) s =
        .next (((s.replay p n).modTrk p n fun t => { t with phase := .data }).advance p n)) ∧
      (t.phase ≠ .hcWay → exec (.hcWayRetry p n) s = .next s)) ∧
  (
    ∀ (s : State) (p : PhysSlice) (m : Nat) (rest : List Nat), (s.sl p).budgetQ = m :: rest →
      (s.atQuota p = true → exec (.budgetWaitProceed p) s = .next s) ∧
      (s.atQuota p = false → exec (.budgetWaitProceed p) s = .next (
        let u := ((s.replay p m).modSl p fun x => { x with budgetQ := rest }).modTrk p m fun t =>
          { t with budget := true, phase := if t.phase = .budget then .data else t.phase }
        (u.earlyRead p m).advance p m))) ∧
  (
    ∀ (s : State) (p : PhysSlice) (w : Waiting), (s.sl p).waitq = [w] → (s.sl p).held w.req.line = true → w.aged = false →
      let us := s.rd (SL_WAITQ_AGING.AGE_US p.val)
      (us ≠ 0 → w.since + us ≤ s.now →
        ∃ t, exec (.requestAged p w.req.id) s = .next t ∧ (t.sl p) = { s.sl p with waitq := [{ w with aged := true }] } ∧
          t.rd (SL_WAITQ_AGING.AGED_COUNT p.val) =
            min (s.rd (SL_WAITQ_AGING.AGED_COUNT p.val) + 1) (2 ^ (SL_WAITQ_AGING.AGED_COUNT 0).w - 1) ∧
          (∀ q, q ≠ p → t.sl q = s.sl q) ∧ t = { s with regs := t.regs, slices := t.slices, pmu := t.pmu }) ∧
      (us = 0 ∨ s.now < w.since + us → exec (.requestAged p w.req.id) s = .next s))

/-- SPILL_MAP_SET: the holder of the chunk sets its bit and the message is marked acknowledged. SPILL_MAP_SET_ACK: the message ends and
the tracker or victim that waits has its acknowledgement. SPILL_MAP_QUERY of a tracker whose derivation needs the map: the message ends,
and the derivation goes on with the holder's bit. A message that has reached a husked slice is answered with an error, and its home sends
it again to the slice that holds the chunk by the map in force. Outside HOLD, SPILL_TOKEN_TICK adds SPILL_RATE to the TOKENS of every
slice, up to SPILL_BURST, which acts as 1 where it is 0; that a count above it stays is the model's (log 104). Nothing else changes: of
each slice's SL_SF_CTRL the other fields keep their values. -/
def Obligations.SpillMapAndSpillTokens : Prop :=
  (
    ∀ (s : State) (n id : Nat) (m : SpillMsg) (p : PhysSlice) (t : Tracker), s.fabric.look none n = some m →
      (s.slHusked m.holder = false → m.set = true → m.acked = false →
        ∃ u, exec (.spillMapSet n) s = .next u ∧ u.fabric.look none n = some { m with acked := true } ∧
          (u.sl m.holder).spillBit m.chunk = true) ∧
      (m.acked = true → m.owner = .tracker p id →
        exec (.spillMapSetAck n) s = .next ((s.setMsg n none).modTrk p id fun t => { t with setAcks := t.setAcks - 1 })) ∧
      (m.acked = true → m.owner = .victim p id →
        exec (.spillMapSetAck n) s =
          .next (((s.setMsg n none).modVictim p id fun v => { v with setAck := false }).finishVictim p id)) ∧
      (s.slHusked m.holder = false → m.set = false → m.owner = .tracker p id → s.trk p id = some t → t.phase = .query →
        s.derive p (rgMask t.region) t.req.line = .needMap →
        exec (.spillMapQuery n) s = .next (
          let u := (s.setMsg n none).checkSpill m.holder m.chunk
          (u.mapKnown p t ((u.sl m.holder).spillBit m.chunk)).advance p id)) ∧
      (s.slHusked m.holder = true → m.acked = false →
        ∃ u, exec (if m.set then .spillMapSet n else .spillMapQuery n) s = .next u ∧
          u.fabric.look none n = some { m with holder := s.holderOf m.chunk } ∧
          u.out = s.out ++ [.ringError (sliceStop m.owner.slice.val) (sliceStop m.holder.val) (m.chunk * 2 ^ 20)] ∧
          u = { s with fabric := u.fabric, out := u.out })) ∧
  (
    ∀ s : State, s.mode ≠ 0 →
      ∃ t, exec .spillTokenTick s = .next t ∧ s.OnlyRegs t (allSlices.map fun p => SL_SF_CTRL.reg p.val) ∧
        ∀ p : PhysSlice, t.rd (SL_SF_CTRL.SPILL_RATE p.val) = s.rd (SL_SF_CTRL.SPILL_RATE p.val) ∧
          t.rd (SL_SF_CTRL.SPILL_BURST p.val) = s.rd (SL_SF_CTRL.SPILL_BURST p.val) ∧
          t.rd (SL_SF_CTRL.FORGET p.val) = s.rd (SL_SF_CTRL.FORGET p.val) ∧
          t.rd (SL_SF_CTRL.TOKENS p.val) = max (s.rd (SL_SF_CTRL.TOKENS p.val))
            (min (max 1 (s.rd (SL_SF_CTRL.SPILL_BURST p.val)))
              (s.rd (SL_SF_CTRL.TOKENS p.val) + s.rd (SL_SF_CTRL.SPILL_RATE p.val))))

/-- A core with nothing held back and no bus error pending comes to an access (IA_RD or IA_WR on a stream of its own, ACQUIRE_LOAD,
RELEASE_STORE, RESERVED_LOAD, CONDITIONAL_STORE, COMPLETION_BARRIER): where the ordering rules let it issue, it is issued, and the cores
after it go on; where they do not, it is held back in the core's queue and nothing else changes (when held accesses go on is the model's
choice, log 27). -/
def Obligations.CoreIssuesItsAccess : Prop :=
  ∀ (s : State) (c : Instr) (k : LogicalCore), coreAccessOf c = some k → s.CoreReady k →
    (∀ u, s.play k c = some u → exec c s = .next (u.laterCores k)) ∧
    (s.play k c = none → exec c s = .next (s.modCore k fun x => { x with queue := [c] }))

/-- Of a core with nothing held back: a COMPLETION_BARRIER, and an aligned RELEASE_STORE or releasing CONDITIONAL_STORE, is held back
while a load or store of the core is outstanding; the barrier completes at once, changing nothing, when none is. An aligned ACQUIRE_LOAD
or acquiring RESERVED_LOAD is held back while a release store of the core is not acknowledged. A halted or husked core executes nothing.
With an imprecise bus error pending, a core takes the exception before the access (when it takes it is the model's choice, log 119): the
error is no longer pending, its address and its count of further stores are reported, and the core's reservations end. -/
def Obligations.OrderedAccessesWaitForOlderOnes : Prop :=
  ∀ (s : State) (k : LogicalCore) (a : Word) (n : Nat) (d : Native),
    let held (c : Instr) : State := s.modCore k fun x => { x with queue := [c] }
    (s.CoreReady k →
      ((s.core k).loads ≠ [] ∨ (s.core k).stores ≠ [] →
        exec (.completionBarrier k) s = .next (held (.completionBarrier k)) ∧
        (aligned a n = true → exec (.releaseStore k a n d) s = .next (held (.releaseStore k a n d)) ∧
          exec (.conditionalStore k a n d true) s = .next (held (.conditionalStore k a n d true)))) ∧
      ((s.core k).loads = [] → (s.core k).stores = [] → exec (.completionBarrier k) s = .next s) ∧
      ((s.core k).releases ≠ [] → aligned a n = true →
        exec (.acquireLoad k a n) s = .next (held (.acquireLoad k a n)) ∧
        exec (.reservedLoad k a n true) s = .next (held (.reservedLoad k a n true)))) ∧
    (∀ c, coreAccessOf c = some k → (s.core k).halted = true ∨ (s.core k).husked = true → exec c s = .next s) ∧
    (∀ e, (s.core k).busErrAddr = some e → s.mode ≠ 0 → (s.core k).halted = false → (s.core k).husked = false →
      let u := s.takeImprecise k
      (u.core k).busErrAddr = none ∧ (u.core k).busErrCount = 0 ∧ (u.core k).imprecise = (s.core k).imprecise + 1 ∧
        (u.core k).impreciseAddr = e ∧ (u.core k).impreciseStores = (s.core k).busErrCount ∧
        u.sramReserved.look 0 k.val = 0 ∧ (∀ p, (u.sl p).reserved.look 0 k.val = 0) ∧
        ∀ c, coreAccessOf c = some k → exec c s = exec c u)

/-- An ACQUIRE_LOAD, RELEASE_STORE, RESERVED_LOAD or CONDITIONAL_STORE that is not of 4, 8 or 16 bytes aligned to its size is an alignment
fault of its core and sends no request; the core's reservations end, as at every exception of the core (08 R274), and the rest of the
state stays as it was. -/
def Obligations.MisalignedAccessesFault : Prop :=
  ∀ (s : State) (k : LogicalCore) (a : Word) (n : Nat) (d : Native) (b : Bool) (c : Instr),
    s.CoreReady k → n ≠ 4 ∧ n ≠ 8 ∧ n ≠ 16 ∨ a.toNat % n ≠ 0 →
    c = .acquireLoad k a n ∨ c = .releaseStore k a n d ∨ c = .reservedLoad k a n b ∨ c = .conditionalStore k a n d b →
    ∃ t, exec c s = .next t ∧ t.core k = { s.core k with alignFaults := (s.core k).alignFaults + 1 } ∧
      (∀ j, j ≠ k → t.core j = s.core j) ∧ t.sramReserved.look 0 k.val = 0 ∧ (∀ p, (t.sl p).reserved.look 0 k.val = 0) ∧
      t = { s with cores := t.cores, slices := t.slices, sramReserved := t.sramReserved }

/-- An aligned ACQUIRE_LOAD of sound words of the data SRAM, with no release unacknowledged, gives its core the bytes there, least
significant first, those of a macro word not yet written as zero, and changes nothing else. A RESERVED_LOAD gives them too, and reserves
the 256-byte granule for the core, whose older reservation ends; it is counted. -/
def Obligations.DataSramIsReadAndReserved : Prop :=
  ∀ (s : State) (k : LogicalCore) (a : Word) (n o : Nat) (acq : Bool), s.CoreReady k → aligned a n = true →
    isControl a = true → spaceOf a.toNat = (.data, o) → s.dataGood o n → (s.core k).releases = [] →
    let got : Out := .coreData k a (BitVec.ofNat 128 (leAt (s.dataBytes o n) 0 n))
    exec (.acquireLoad k a n) s = .next (s.emit got) ∧
    ∃ t, exec (.reservedLoad k a n acq) s = .next t ∧ t.out = s.out ++ [got] ∧ t.sramReserved.look 0 k.val = o / 256 + 1 ∧
      (∀ j, j ≠ k.val → t.sramReserved.look 0 j = s.sramReserved.look 0 j) ∧ (∀ p, (t.sl p).reserved.look 0 k.val = 0) ∧
      t.cnt 78 3 = (s.cnt 78 3 + 1) % 2 ^ 48 ∧
      t = { s with out := t.out, sramReserved := t.sramReserved, slices := t.slices, pmu := t.pmu }

/-- An aligned RELEASE_STORE to sound words of the data SRAM, with nothing of the core outstanding, writes its bytes, least significant
first, and every other byte of the data SRAM reads as before; every reservation on the granule ends. A CONDITIONAL_STORE does so, and
answers success, exactly where the core's reservation names the granule; else no byte changes and it answers failure. Either way that
reservation ends. -/
def Obligations.DataSramStoresWriteTheirBytes : Prop :=
  ∀ (s : State) (k : LogicalCore) (a : Word) (n o : Nat) (d : Native) (rel : Bool), s.CoreReady k → aligned a n = true →
    isControl a = true → spaceOf a.toNat = (.data, o) → s.dataGood o n → (s.core k).loads = [] → (s.core k).stores = [] →
    let stored (t : State) : Prop :=
      (∀ b, b < 0x7C000 → t.ctrlData .data b = if o ≤ b ∧ b < o + n then d.extractLsb' (8 * (b - o)) 8 else s.ctrlData .data b) ∧
      ∀ b, 0x7C000 ≤ b → Sram.look b t.sram = Sram.look b s.sram
    (∃ t, exec (.releaseStore k a n d) s = .next t ∧ stored t ∧ (∀ j, t.sramReserved.look 0 j ≠ o / 256 + 1) ∧
      t = { s with sram := t.sram, sramReserved := t.sramReserved, devErrors := t.devErrors, valid := t.valid }) ∧
    ∃ t, exec (.conditionalStore k a n d rel) s = .next t ∧ t.sramReserved.look 0 k.val = 0 ∧
      (if s.sramReserved.look 0 k.val = o / 256 + 1 then
        stored t ∧ t.out = s.out ++ [.iaCond k true] ∧ (∀ j, t.sramReserved.look 0 j ≠ o / 256 + 1) ∧
          t = { s with sram := t.sram, sramReserved := t.sramReserved, devErrors := t.devErrors, valid := t.valid, out := t.out,
                       pmu := t.pmu }
      else t.out = s.out ++ [.iaCond k false] ∧ t = { s with sramReserved := t.sramReserved, out := t.out, pmu := t.pmu })

/-- IA_RD and IA_WR on a DMA stream: a request to device memory, numbered (log 9), counted and routed to its home, or held until SERVE in
SPROUT and REPAIR; an error in the control space. A core's IA_RD of bytes its write buffer holds is answered from it; an access on a
stream that no core uses is none (log 118). FABRIC_TIMEOUT of a held store that no unit has answered for 10 us discards it: it ends with
an error. -/
def Obligations.AgentRequestsReachTheStop : Prop :=
  ∀ (s : State) (st : BitVec 6) (a : Word) (n : Nat) (d : LineData) (be : ByteMask) (bs : List Byte) (k : LogicalCore) (x : HeldStore),
    let rd : Request :=
      ⟨s.nextId, .iaRd, .ia st.toNat, a.toNat / 64, 0#16, 0#512, accessMask a (inLine a n), false, false, none, s.now, 0#12⟩
    let wr : Request := ⟨s.nextId, .iaWr, .ia st.toNat, a.toNat / 64, 0#16, d, be, false, false, none, s.now, 0#12⟩
    (st.toNat < 16 → s.mode ≠ 0 → isControl a = false →
      (s.mode ≠ 1 → s.mode ≠ 5 →
        exec (.iaRd st a n) s = .next ((s.bump.count 78 0).route rd) ∧ exec (.iaWr st a d be) s = .next ((s.bump.count 78 1).route wr)) ∧
      (s.mode = 1 ∨ s.mode = 5 →
        exec (.iaRd st a n) s = .next { s.bump.count 78 0 with iaHeld := s.iaHeld ++ [rd] } ∧
        exec (.iaWr st a d be) s = .next { s.bump.count 78 1 with iaHeld := s.iaHeld ++ [wr] })) ∧
    (st.toNat < 16 → s.mode ≠ 0 → isControl a = true →
      exec (.iaRd st a n) s = .next (s.emit (.iaError st.toNat (a.toNat / 64) false)) ∧
      exec (.iaWr st a d be) s = .next (s.emit (.iaError st.toNat (a.toNat / 64) false))) ∧
    (16 ≤ st.toNat → streamUsed st = true → s.CoreReady (coreOf st) → isControl a = false →
      (s.core (coreOf st)).forward a.toNat (inLine a n) = some (some bs) →
      exec (.iaRd st a n) s = .next (s.emit (.coreData (coreOf st) a (BitVec.ofNat 128 (leAt bs 0 bs.length))))) ∧
    (16 ≤ st.toNat → streamUsed st = false → exec (.iaRd st a n) s = .next s ∧ exec (.iaWr st a d be) s = .next s) ∧
    (s.mode ≠ 0 → isControl a = false →
      (s.core k).stores.find? (fun h => h.addr == a.toNat && s.unanswered h.id) = some x →
      exec (.fabricTimeout k a) s = .next (((s.discard x.id).count 78 6).iaFail x.id (lineOf a)).coresGo) ∧
    (s.mode ≠ 0 → isControl a = true → exec (.fabricTimeout k a) s = .next (s.impreciseError k a).coresGo)

/-- MEDIA_READ_REQUEST of a read on its way: uncorrectable in an integrity-unknown range; or answered at once with the data of the latest
queued write of its line; or issued to the channel of its slot; or rebuilt where its slot alone is lost; or uncorrectable where a second
slot is lost too. BUSY_MIGRATING_REISSUE issues a migrating primary read again where no hedge of it runs, sending it to its channel.
HEDGE_DEADLINE of a read still out hedges it. DISPATCH_PLACE_FREE gives a place to the first operation that waits at a channel's stop.
What is in a dispatch queue is issued (how many issue slots there are is the model's choice, log 113). -/
def Obligations.MediaReadsGoToTheirChannels : Prop :=
  (
    ∀ (s : State) (n : Nat) (o x : MediaOp), s.op n = some o → o.state = .wire → o.isWrite = false →
      let g := groupOf o.line
      let st := stripeOf o.line
      let lost := s.lostSlots g st
      (s.unknownFor o = true →
        exec (.mediaReadRequest n) s = .next (s.finish n .uncorrectable 0#512 0#32).settleMedia) ∧
      (s.unknownFor o = false →
        (((s.queuedWrites o.line n).filter fun y => y.kind == .writeLine).getLast? = some x →
          exec (.mediaReadRequest n) s = .next (s.finish n .ok x.data x.dir).settleMedia) ∧
        (s.queuedWrites o.line n = [] →
          (lost.contains (slotOf o.line) = false → exec (.mediaReadRequest n) s =
            .next ((s.setOp n (some { o with state := .reading })).addChop (s.chanOf g (slotOf o.line)) st false (o.kind == .readMeta)
              Stored.zero (.primary n) o.cls).settleMedia) ∧
          (lost = [slotOf o.line] →
            exec (.mediaReadRequest n) s = .next (s.startRecon n .lostSlot g st (slotOf o.line) 1).settleMedia) ∧
          (2 ≤ lost.length → lost.contains (slotOf o.line) = true →
            exec (.mediaReadRequest n) s = .next (s.finish n .uncorrectable 0#512 0#32).settleMedia)))) ∧
  (
    ∀ (s : State) (n : Nat) (o : ChanOp) (id : Nat) (m : MediaOp) (c : Channel) (e : Bool),
      (s.chop n = some o → o.migrating = true → o.use = .primary id → s.op id = some m → m.state = .reading → m.recon = none →
        ∃ t, exec (.busyMigratingReissue n) s = .next t ∧ t.chop n = some { o with migrating := false } ∧
          t.out = s.out ++ [.chanRead n o.chan o.index o.metaOnly] ∧ (∀ k, k ≠ n → t.chop k = s.chop k) ∧
          t = { s with mf := { s.mf with chops := t.mf.chops }, out := t.out }) ∧
      ((n, some o) ∈ s.mf.chops → o.queued = true → o.use = .primary id →
        exec (.hedgeDeadline id) s = .next (s.tryHedge id).issueAll) ∧
      (s.mf.chops = [(n, some o)] → o.chan = c → o.queued = false → s.room c o.cls = some e →
        exec (.dispatchPlaceFree c) s = .next (s.placeChop n o e).issueAll))

/-- MEDIA_READ_STATUS: an issued read is counted by its status and its answer reaches what it serves; a primary sealed read is answered
with the unsealed line on media, its latency noted unless a hedge of it ran; an uncorrectable one is rebuilt from the other slots, its
latency noted too; one that is busy-migrating waits, and is hedged where it may be. MEDIA_DATA_RETURN delivers an answer to its slice, a
free poisoned line for an uncorrectable one (log 17). -/
def Obligations.ChannelAnswersReads : Prop :=
  ∀ (s : State) (n : Nat) (o : ChanOp) (st : ReadStatus) (id : Nat) (m : MediaOp) (f : Stored),
    (s.chop n = some o → o.write = false → o.issued = true → o.migrating = false → st ≠ .busyMigrating →
      exec (.mediaReadStatus n st) s = .next (((s.readEvent o st).setChop n none).readAnswer o st).settleMedia) ∧
    (s.chop n = some o → o.write = false → o.issued = true → o.migrating = false → o.use = .primary id → s.op id = some m →
      m.state = .reading → m.kind = .readSealed →
      (m.recon = none → s.mediaAt o.chan o.index = some f →
        (m.hedged = true →
          exec (.mediaReadStatus n .ok) s = .next ((s.setChop n none).finish id .ok (s.unseal m.line f) f.dir).settleMedia) ∧
        (m.hedged = false → exec (.mediaReadStatus n .ok) s =
          .next (((s.setChop n none).latency o.chan.val m.band).finish id .ok (s.unseal m.line f) f.dir).settleMedia)) ∧
      (m.recon = none → m.hedged = false → exec (.mediaReadStatus n .uncorrectable) s =
        .next (((((s.readEvent o .uncorrectable).setChop n none).latency o.chan.val m.band).count (72 + groupOf m.line) 4).startRecon id
          .uncorrectable (groupOf m.line) (stripeOf m.line) (slotOf m.line) 1).settleMedia) ∧
      (exec (.mediaReadStatus n .busyMigrating) s =
        .next (((s.readEvent o .busyMigrating).setChop n (some { o with migrating := true })).tryHedge id).issueAll)) ∧
    (s.op id = some m →
      (m.state = .answered .uncorrectable → exec (.mediaDataReturn id) s =
        .next ((s.setOp id none).draw.deliverRead id m (Config.freeLine s.freeTick) none)) ∧
      (m.state = .answered .ok ∨ m.state = .answered .unwritten →
        exec (.mediaDataReturn id) s = .next ((s.setOp id none).deliverRead id m m.data (some m.dir))))

/-- MEDIA_LINE_WRITE behind no earlier write of its line that is on its way, with the coalescer off, nothing held and its slot sound,
waits for its stripe; with it on, a window, a class below DRAIN's and room it is held. METADATA_ONLY_WRITE waits as its own batch.
COALESCE_WINDOW_EXPIRY releases a stripe's held writes. MEDIA_WRITE_ACK delivers an acknowledgement, also of a dropped write, to its
slice. MEDIA_WRITE_STATUS: an acknowledged write leaves its form on media at its place, of a metadata-only one the old data with the new
metadata, and the line's counters are then those it was sealed under; a batch whose last write is acknowledged closes. A failed write is
due again; WRITE_RETRY issues it once more; its third repeat failing husks the channel and escalates its source as permanent, and on a
channel that is lost already the write is gone. -/
def Obligations.MediaWritesAreHeldReleasedAndStored : Prop :=
  (
    ∀ (s : State) (n : Nat) (o : MediaOp) (g : Group) (st : Nat) (b : Bool),
      (s.op n = some o → o.state = .wire → o.kind = .writeLine → s.behindOnRing o.line n = false → s.arriveDropped n o = none →
        (∀ e ∈ s.mf.ops, ∀ x, e.2 = some x → x.state ≠ .held) →
        let into (w : OpState) : State :=
          ((s.writeMfBuffer 10 n).setOp n (some { o with state := w, placedAt := s.nextId, heldAt := s.now })).bump
        (s.on MF_CTRL.COALESCE_EN = false → exec (.mediaLineWrite n) s = .next (into .waiting).settleMedia) ∧
        (s.on MF_CTRL.COALESCE_EN = true → s.rd MF_CTRL.COALESCE_WIN ≠ 0 → o.cls ≠ 3 → s.mode ≠ 4 →
          exec (.mediaLineWrite n) s = .next (into .held).settleMedia)) ∧
      (s.op n = some o → o.state = .wire → o.kind = .writeMeta → s.behindOnRing o.line n = false → s.arriveDropped n o = none →
        (s.heldLines (groupOf o.line) (stripeOf o.line)).contains o.line = false → exec (.metadataOnlyWrite n) s =
          .next ((s.setOp n (some { o with state := .waiting, placedAt := s.nextId })).bump).settleMedia) ∧
      (exec (.coalesceWindowExpiry g st) s = .next (s.releaseHeld g.val st).settleMedia) ∧
      (s.op n = some o → o.state = .acked b → exec (.mediaWriteAck n) s = .next ((s.setOp n none).deliverAck n o))) ∧
  (
    ∀ (s : State) (n : Nat) (o : ChanOp) (bid slot : Nat) (b : Batch), s.chop n = some o → o.write = true → o.issued = true →
      let form : Stored := if o.metaOnly then ⟨((s.mediaAt o.chan o.index).getD Stored.zero).data, o.form.md⟩ else o.form
      let kept := (s.setMedia o.chan o.index (some form)).setChop n none
      let failed := s.major (0x22 + o.chan.val) (channelInfo o.index 5)
      (o.failed = false →
        (o.use = .batchWrite bid slot → s.batch bid = some b → exec (.mediaWriteStatus n true) s =
          .next (let u := (kept.landed b slot).setBatch bid (some { b with writes := b.writes.erase slot })
                 if (b.writes.erase slot).isEmpty then u.closeBatch bid else u).settleMedia) ∧
        (o.use = .repair → exec (.mediaWriteStatus n true) s = .next kept) ∧
        (o.use = .aperture → exec (.mediaWriteStatus n true) s = .next ((kept.iaEnd (apertureId o.index)).rebuiltLine o.index)) ∧
        (s.chState o.chan ≠ 3 → o.tries < 3 →
          exec (.mediaWriteStatus n false) s = .next (failed.setChop n (some { o with failed := true }))) ∧
        (s.chState o.chan ≠ 3 → o.tries = 3 → exec (.mediaWriteStatus n false) s =
          .next (((failed.setChop n (some o)).huskChannel o.chan).escalate (0x22 + o.chan.val) false
            (channelInfo o.index 5)).settleMedia) ∧
        (s.chState o.chan = 3 → exec (.mediaWriteStatus n false) s = .next ((failed.setChop n none).writeGone o).settleMedia)) ∧
      (o.failed = true → ∃ t, exec (.writeRetry n) s = .next t ∧ t.out = s.out ++ [.chanWrite n o.chan o.index o.metaOnly] ∧
        t.chop n = some { o with failed := false, tries := o.tries + 1 } ∧
        t = { s with mf := { s.mf with chops := t.mf.chops }, out := t.out }))

/-- HEDGE_TRAINING at a whole second clears every histogram and count of hedges, keeps the count of the second that ends, and retrains
exactly the bands with enough reads: a deadline of at most DL_MAX, and of at most 900 ns; every such band is trained then.
CHANNEL_LIGHT_SLEEP: in DORMANT an awake channel with no operation for 200 us returns to light sleep and says so. MF_HEDGE_TABLE_LATCH
with LATCH loads the trained flag, deadline and hedges of the band it names. -/
def Obligations.HedgeTrainingAndSleep : Prop :=
  ∀ (s : State) (c : Channel) (v : Word),
    let need := max 1 (s.rd MF_HEDGE_CTRL.MIN_SAMPLES) * 256
    (s.now % 1000000 = 0 → ∃ t, exec .hedgeTraining s = .next t ∧ (∀ e ∈ t.mf.bands, e.2.hist = [] ∧ e.2.hedges = 0 ∧
        ∃ b, (e.1, b) ∈ s.mf.bands ∧ e.2.hedgesLast = b.hedges ∧
          if need ≤ b.hist.length then
            e.2.trained = true ∧ e.2.deadline ≤ min 900 (s.rd MF_HEDGE_CTRL.DL_MAX)
          else e.2.trained = b.trained ∧ e.2.deadline = b.deadline) ∧
      (∀ e ∈ s.mf.bands, need ≤ e.2.hist.length → ∃ b, (e.1, b) ∈ t.mf.bands ∧ b.trained = true ∧ b.hedgesLast = e.2.hedges) ∧
      t = { s with mf := { s.mf with bands := t.mf.bands } }) ∧
    (s.mode = 3 → s.mf.sleeping.contains c.val = false → s.chopCount c (fun _ => true) = 0 →
      s.mf.lastOp.look 0 c.val + 200 ≤ s.now →
      exec (.channelLightSleep c) s = .next ((s.modMf fun m => { m with sleeping := m.sleeping ++ [c.val] }).emit (.lightSleep c))) ∧
    (s.mode ≠ 0 → getBits v 8 1 = 1 →
      let b := s.mf.bands.look BandTable.untrained (getBits v 0 6 * 4 + getBits v 6 2)
      ∃ t, exec (.mfHedgeTableLatch v) s = .next t ∧ t.on MF_HEDGE_TABLE.TRAINED = b.trained ∧
        t.rd MF_HEDGE_TABLE.CH = getBits v 0 6 ∧ t.rd MF_HEDGE_TABLE.BND = getBits v 6 2 ∧
        t.rd MF_HEDGE_TABLE.HEDGES = b.hedgesLast % 2 ^ MF_HEDGE_TABLE.HEDGES.w ∧
        s.OnlyRegs t [MF_HEDGE_TABLE.reg])

/-- MINOR_COUNTER_EXHAUSTED of a write that waits outside a batch holds it refused and queues its page. REKEY_STEP with no page in work
takes the next page of the queue and tells the cipher unit; with a page in work and a tracker free for its next line it starts that line
by a read under the old counter where the media front holds no write of it; in REPAIR, or with nothing to re-key, it does nothing.
MAC_FAILURE of a primary read that no reconstruction serves is a severe event of source 0x49 and counted, and the line is rebuilt from the
other slots; a hedged one is uncorrectable at once. COUNTER_UNREADABLE enters the range while fewer than 64 stand, with the event and a
notice. -/
def Obligations.RekeyAndIntegrity : Prop :=
  (
    ∀ (s : State) (n : Nat) (o : MediaOp) (pg : Nat) (l : List Nat),
      (s.op n = some o → o.kind = .writeLine → o.state = .waiting →
        (s.mf.batches.findSome? fun e => e.2.bind fun b => if b.ops.contains n then some (e.1, b) else none) = none →
        exec (.minorCounterExhausted n) s = .next ((s.setOp n (some { o with state := .refused })).queuePages).settleMedia) ∧
      (s.mode ≠ 5 → s.mf.rekey.page = some pg → s.rekeyHeld = none → s.mf.rekey.next < 64 → s.rekeySteps < 8 →
        let line := pg * 64 + s.mf.rekey.next
        let p := s.homeOf line
        let r := agentReq s.nextId .rekey line s.now
        s.eccIdle p = true → s.mayAllocate p r = true → s.mf.ops = [] →
        let u := (s.bump.startTracker p r false).modMf fun m => { m with rekey := { m.rekey with next := m.rekey.next + 1 } }
        exec .rekeyStep s = .next ((u.modTrk p r.id fun t => { t with phase := .ack, writeOps := [u.nextId] }).issue
          .readSealed line .rekey 5 0#512 0#32)) ∧
      (s.mode ≠ 5 → s.mf.rekey.page = none → s.mf.rekey.queue = pg :: l →
        ∃ t, exec .rekeyStep s = .next t ∧ Out.cipherRekey pg ∈ t.out) ∧
      (s.mf.rekey.page = none → s.mf.rekey.queue = [] → s.rekeyHeld = none → exec .rekeyStep s = .next s) ∧
      (s.mode = 5 → exec .rekeyStep s = .next s)) ∧
  (
    ∀ (s : State) (n id : Nat) (o : ChanOp) (m : MediaOp) (lo hi : Word),
      (s.op n = some m → m.state = .reading → m.kind = .readSealed → m.recon = none →
        s.mf.chops = [(id, some o)] → o.issued = true → o.migrating = false → o.use = .primary n →
        let u := ((s.setChop id none).major 0x49 (BitVec.ofNat 40 (sectorOf m.line))).count (72 + groupOf m.line) 4
        exec (.macFailure n) s = .next (if m.hedged then (u.integrity m.line false).finish n .uncorrectable 0#512 0#32
          else u.startRecon n .mac (groupOf m.line) (stripeOf m.line) (slotOf m.line) 1).settleMedia) ∧
      (s.mf.unknown.length < 64 →
        ∃ t, exec (.counterUnreadable lo hi) s = .next t ∧ t.mf.unknown = s.mf.unknown ++ [(lineOf lo, lineOf hi)] ∧
          (∀ l, lineOf lo ≤ l → l ≤ lineOf hi → t.lineUnknown l = true) ∧ t.mf = { s.mf with unknown := t.mf.unknown } ∧
          t.counters = s.counters ∧ t.media = s.media))

/-- CHANNEL_RETIRE husks the channel. MF_GROUP_MAP_WRITE in SPROUT of channels 0 to 37 sets the map; outside it a spare into the lost slot
of a degraded group starts its rebuild, and any other write sets MAP_ERR and changes nothing else. REBUILD_RESUME in SPROUT writes the
fields, and in other modes only clears DONE where bit 52 is 1. RESYNC_START in SPROUT sets RESYNC and arms the resync. APERTURE_READ of a
whole line by a data channel while a rebuild runs, outside REPAIR, starts its reconstruction from the other slots. APERTURE_WRITE at LINE,
with the stripe untouched since the aperture read, its form readable and no write on its way, writes the form to the spare. With no
rebuild, of another length or by a utility channel either is a bus error and nothing else; in REPAIR, where the rebuild pauses, the model
lets both do nothing (log 117). -/
def Obligations.ChannelsGroupsAndRebuild : Prop :=
  (
    ∀ (s : State) (c : Channel) (g : Group) (v : Word),
      (s.mode ≠ 0 → exec (.channelRetire c) s = .next (s.huskChannel c).settleMedia) ∧
      (s.mode = 1 → (∀ k < 9, getBits v (6 * k) 6 ≤ 37) →
        ∃ t, exec (.mfGroupMapWrite g v) s = .next t ∧ (∀ k < 9, t.rd (slotFld g.val k) = getBits v (6 * k) 6) ∧
          (∀ f : Group, f ≠ g → ∀ k < 9, t.rd (slotFld f.val k) = s.rd (slotFld f.val k)) ∧ t = { s with regs := t.regs }) ∧
      (s.mode ≠ 0 → s.mode ≠ 1 →
        let lost := s.rd (MF_GROUP_MAP.LOST_SLOT g.val)
        let spare := getBits v (6 * lost) 6
        if ((List.range 9).filter fun k => getBits v (6 * k) 6 ≠ s.rd (slotFld g.val k)) = [lost] ∧
            s.rd (MF_GROUP_MAP.GSTATE g.val) = 1 ∧ spare ≤ 37 ∧ s.rd (MF_CH_STATE.STATE spare) = 0 then
          ∃ t, exec (.mfGroupMapWrite g v) s = .next t ∧ t.rd (slotFld g.val lost) = spare ∧ t.rd (MF_CH_STATE.STATE spare) = 2 ∧
            t.rd (MF_GROUP_MAP.GSTATE g.val) = 2 ∧ t.on MF_REBUILD_STATUS.ACTIVE = true ∧ t.rd MF_REBUILD_STATUS.GROUP = g.val ∧
            t.rd MF_REBUILD_STATUS.SLOT = lost ∧ t.rd MF_REBUILD_STATUS.TARGET = spare ∧ t.rd MF_REBUILD_STATUS.LINE = 0
        else exec (.mfGroupMapWrite g v) s = .next (s.wr MF_CTRL.MAP_ERR 1)) ∧
      (s.mode = 1 → ∃ t, exec (.rebuildResume v) s = .next t ∧ t.rd MF_REBUILD_STATUS.ACTIVE = getBits v 0 1 ∧
        t.rd MF_REBUILD_STATUS.GROUP = getBits v 1 2 ∧ t.rd MF_REBUILD_STATUS.SLOT = getBits v 3 4 ∧
        t.rd MF_REBUILD_STATUS.TARGET = getBits v 7 6 ∧ t.rd MF_REBUILD_STATUS.LINE = getBits v 14 38 ∧
        t.rd MF_REBUILD_STATUS.DONE = (if getBits v 52 1 = 1 then 0 else s.rd MF_REBUILD_STATUS.DONE) ∧
        t.mf.resumeArmed = (getBits v 0 1 == 1) ∧ (∀ o, o ≠ MF_REBUILD_STATUS.reg → t.reg o = s.reg o) ∧
        t = { s with regs := t.regs, mf := { s.mf with resumeArmed := t.mf.resumeArmed } }) ∧
      (s.mode ≠ 0 → s.mode ≠ 1 → exec (.rebuildResume v) s =
        .next (if getBits v 52 1 = 1 then s.wr MF_REBUILD_STATUS.DONE 0 else s)) ∧
      (s.mode = 1 → ∃ t, exec .resyncStart s = .next t ∧ t.on MF_CTRL.RESYNC = true ∧ t.mf.resyncArmed = true ∧
        (∀ o, o ≠ MF_CTRL.reg → t.reg o = s.reg o) ∧ t = { s with regs := t.regs, mf := { s.mf with resyncArmed := true } })) ∧
  (
    ∀ (s : State) (a : Word) (n i : Nat) (c : DmaChannel) (d : LineData) (md : LineMeta),
      (s.mode ≠ 5 → s.apertureIndex a n c = some i →
        let g := s.rd MF_REBUILD_STATUS.GROUP
        let slot := s.rd MF_REBUILD_STATUS.SLOT
        exec (.apertureRead a n c) s = .next (s.startRecon s.nextId (.aperture c) g i slot 5).settleMedia ∧
        (i = s.rd MF_REBUILD_STATUS.LINE → s.apertureBusy = false → s.mf.window.contains (i, false) = true →
          s.readMfBuffer 11 i = (s, false) → s.openBatch g i = none → exec (.apertureWrite a n c d md) s =
            .next (s.addChop (s.chanOf g slot) i true false ⟨d, md⟩ .aperture 5).settleMedia) ∧
        (i ≠ s.rd MF_REBUILD_STATUS.LINE → exec (.apertureWrite a n c d md) s = .next (s.emit .apertureError))) ∧
      (s.mode ≠ 5 → s.on MF_REBUILD_STATUS.ACTIVE = false ∨ n ≠ 64 ∨ 8 ≤ c.val →
        exec (.apertureRead a n c) s = .next (s.emit .apertureError) ∧
        exec (.apertureWrite a n c d md) s = .next (s.emit .apertureError)) ∧
      (s.mode = 5 → exec (.apertureRead a n c) s = .next s ∧ exec (.apertureWrite a n c d md) s = .next s))

/-- RESYNC_STRIPE_CHECK in SERVE of a stripe with every slot served and no open batch: the data slots keep their forms, and the nine forms
of the stripe then XOR to zero, where the slots are of nine different channels (and the installed regions at most 16,384, 01 Table 1.9's
range); the resync goes on at the next stripe while there is one, also past a stripe that has lost a slot. -/
def Obligations.ResyncMakesTheParityMatch : Prop :=
  ∀ (s : State) (k : Nat), s.mf.resyncAt = some k →
    let n := max 1 s.channelLines
    let g := k / n
    let st := k % n
    s.mode = 2 → k + 1 < 4 * n → s.openBatch g st = none →
    (s.rd GLB_CAPS.DPA_REGIONS ≤ 16384 → s.lostSlots g st = [] → (∀ i < 9, ∀ j < 9, s.chanOf g i = s.chanOf g j → i = j) →
      ∃ t, exec .resyncStripeCheck s = .next t ∧ xorAll (t.stripeForms g st) = Stored.zero ∧
        (∀ i < 9, i ≠ paritySlot st → t.mediaAt (s.chanOf g i) st = s.mediaAt (s.chanOf g i) st) ∧
        t.mf.resyncAt = some (k + 1)) ∧
    (s.lostSlots g st ≠ [] → ∃ t, exec .resyncStripeCheck s = .next t ∧ t.media = s.media ∧ t.mf.resyncAt = some (k + 1))

/-- RANGE_CLEAN, RANGE_INVALIDATE, RANGE_CLEAN_INVALIDATE, RANGE_LOCK and RANGE_UNLOCK outside HOLD with none running: with error code 0
BUSY is set, every active slice begins at its first set and the summary counts are cleared; with another code ERR and the code are set,
and no slice begins. With one running nothing changes. Which code is recorded where several apply is the model's choice (log 106). -/
def Obligations.RangeOperationsStart : Prop :=
  ∀ (s : State) (force discard : Bool) (c : Instr) (op : Nat),
    (c, op) = (.rangeClean force discard, 1) ∨ (c, op) = (.rangeInvalidate force discard, 2) ∨
      (c, op) = (.rangeCleanInvalidate force discard, 3) ∨ (c, op) = (.rangeLock force discard, 4) ∨
      (c, op) = (.rangeUnlock force discard, 5) → s.mode ≠ 0 →
    (s.on HC_RANGE_STATUS.BUSY = true → exec c s = .next s) ∧
    (s.on HC_RANGE_STATUS.BUSY = false →
      ∃ t, exec c s = .next t ∧ t.rd HC_RANGE_STATUS.ERR_CODE = s.rangeError op force discard ∧ t.rd HC_RANGE_OP.OP = op ∧
        (∀ k < 4, t.reg (HC_RANGE_SUMMARY.reg k) = 0#64) ∧ t.on HC_RANGE_STATUS.ABORTED = false ∧
        (s.rangeError op force discard ≠ 0 → t.on HC_RANGE_STATUS.ERR = true ∧ t.on HC_RANGE_STATUS.BUSY = false ∧
          t = { s with regs := t.regs }) ∧
        (s.rangeError op force discard = 0 → s.activeSlices ≠ [] → t.on HC_RANGE_STATUS.ERR = false ∧
          t.on HC_RANGE_STATUS.BUSY = true ∧ (∀ p ∈ s.activeSlices, (t.sl p).range = some ⟨0, none, false, [], []⟩) ∧
          t = { s with regs := t.regs, slices := t.slices }))

/-- DIRTY_BUDGET_WRITE of at most 128 MiB outside HOLD sets BUDGET_MIB; of more it changes nothing. PERSIST_MODE_WRITE sets WT; as WT
becomes 1 every slice notes the lines that are Dirty then, and no slice's notes change otherwise. CLEANER_STEP of a slice whose cleaner is
active, with fewer than 64 cleans out, cleans the ways in service of the set at its pointer and moves the pointer on once no line there is
left to clean; inactive it only records that. RANGE_AGENT_LINE asks for the tracker of the next line that it finds in the range; with none
left in the ways it notes the lines of the eviction buffer and takes those in turn, each once, and then ends its walk; a LOCK takes the
next line homed in the slice. -/
def Obligations.CacheSettingsCleanerAndRangeAgent : Prop :=
  (
    ∀ (s : State) (v : Word), s.mode ≠ 0 →
      (getBits v 0 8 ≤ 128 → ∃ t, exec (.dirtyBudgetWrite v) s = .next t ∧ t.rd GLB_DIRTY_BUDGET.BUDGET_MIB = getBits v 0 8 ∧
        (s.mode = 2 → s.aon.entryStep = 0 → s.OnlyRegs t [GLB_DIRTY_BUDGET.reg])) ∧
      (128 < getBits v 0 8 → exec (.dirtyBudgetWrite v) s = .next s) ∧
      ∃ t, exec (.persistModeWrite v) s = .next t ∧ t.on GLB_PERSIST_CTRL.WT = (getBits v 0 1 == 1) ∧
        (∀ o, o ≠ GLB_PERSIST_CTRL.reg → t.reg o = s.reg o) ∧ t = { s with regs := t.regs, slices := t.slices } ∧
        (getBits v 0 1 = 1 → s.on GLB_PERSIST_CTRL.WT = false → ∀ p, (t.sl p).dirtyWhenWt =
          ((s.sl p).cache.filter fun e => e.2.tagA.valid && e.2.tagA.dirty).map fun e => e.2.tagA.tag * 8192 + e.1 / 17) ∧
        (getBits v 0 1 = 0 → t.slices = s.slices)) ∧
  (
    ∀ (s : State) (p : PhysSlice),
      (s.cleanerActive p = true → s.cleansOut p < 64 → exec (.cleanerStep p) s = .next (
        let set := (s.sl p).cleanSet
        let ways := waysInService (s.hcSpare p set)
        let u := ways.foldl (fun s n => s.cleanWay p set n.2) (s.wb (SL_HC_CTRL.CLEANER p.val) true)
        if ways.any fun n => u.cleanable p set n.2 then u else u.modSl p fun x => { x with cleanSet := (set + 1) % 8192 })) ∧
      (s.cleanerActive p = false → s.aon.entryStep ≠ 1 →
        exec (.cleanerStep p) s = .next (s.wb (SL_HC_CTRL.CLEANER p.val) false))) ∧
  (
    ∀ (s : State) (p : PhysSlice) (r : RangePart) (e : Nat × CacheWay) (l : Nat) (ls : List Nat),
      (s.sl p).range = some r → s.mode ≠ 5 → s.on HC_RANGE_STATUS.BUSY = true → r.ebDone = false → s.agentRoom p .range = true →
      (s.rd HC_RANGE_OP.OP ≠ 4 →
        (r.buffer = none →
          let lineAt (e : Nat × CacheWay) : Nat := e.2.tagA.tag * 8192 + e.1 / 17
          let found := (s.sl p).cache.find? fun e => decide (r.pos ≤ e.1) && e.2.tagA.valid &&
            ((waysInService (s.hcSpare p (e.1 / 17))).map (·.2)).contains (e.1 % 17) && s.inRange p (lineAt e)
          (found = some e → exec (.rangeAgentLine p) s =
            .next ((s.modRange p fun r => { r with pos := e.1 + 1 }).rangeSend p (lineAt e))) ∧
          (found = none → exec (.rangeAgentLine p) s = .next (s.modRange p fun r =>
            { r with buffer := some (((s.sl p).evict.map (·.line)).filter (s.inRange p)).eraseDups }))) ∧
        (r.buffer = some [] →
          exec (.rangeAgentLine p) s = .next ((s.modRange p fun r => { r with ebDone := true }).rangeCheck p)) ∧
        (r.buffer = some (l :: ls) →
          exec (.rangeAgentLine p) s = .next ((s.modRange p fun r => { r with buffer := some ls }).rangeSend p l))) ∧
      (s.rd HC_RANGE_OP.OP = 4 → s.nextHomed p (s.rd HC_RANGE_BASE.LINE + r.pos) (s.rd HC_RANGE_LIMIT.LINE + 1) = some l →
        rgMode (s.region p l) ≠ 0 → exec (.rangeAgentLine p) s =
          .next ((s.modRange p fun r => { r with pos := l + 1 - s.rd HC_RANGE_BASE.LINE }).rangeSend p l)) ∧
      (s.rd HC_RANGE_OP.OP = 4 → s.nextHomed p (s.rd HC_RANGE_BASE.LINE + r.pos) (s.rd HC_RANGE_LIMIT.LINE + 1) = none →
        exec (.rangeAgentLine p) s = .next ((s.modRange p fun r => { r with ebDone := true }).rangeCheck p)))

/-- PFW_N_ASSERT in SPROUT, RECORD_CLOSE_ACK at the end of DRAIN, BLOCK_RESET_ASSERT outside HOLD and POWER_LOSS enter HOLD: everything
volatile is at reset and PIP low; the cipher counters stay with the forms on media, and media keeps what it holds, but for the lines with
an issued write at a stop that is not ordered. In HOLD a block reset changes only its level. -/
def Obligations.HoldClearsWhatIsVolatile : Prop :=
  ∀ s : State,
    (s.aon.porDone = true → s.mode = 1 → ∃ t, exec .pfwNAssert s = .next t ∧ s.Held t ∧ t.media = s.media ∧
      t.counters = s.counters ∧ t.aon.mayRestart = true ∧ t.aon.pfwLow = true) ∧
    (s.mode = 4 → s.aon.drain = some .record → ∃ t, exec .recordCloseAck s = .next t ∧ s.Held t ∧ t.media = s.media ∧
      t.counters = s.counters ∧ t.store = { s.store.flush with stopped := false } ∧
      t.aon.mayRestart = (s.rd GLB_MODE.CAUSE == 3)) ∧
    (s.mode ≠ 0 → ∃ t, exec .blockResetAssert s = .next t ∧ s.Held t ∧ t.aon.blockReset = true ∧
      (s.issuedWrites = [] → t.media = s.media ∧ t.counters = s.counters) ∧
      (s.store.programs = [] → t.store = { s.store with stopped := false })) ∧
    (s.mode = 0 → exec .blockResetAssert s = .next (s.modAon fun a => { a with blockReset := true, releaseWaits := false })) ∧
    (s.mode ≠ 0 → ∃ t, exec .powerLoss s = .next t ∧ s.Held t ∧ t.aon.power = false ∧ t.aon.porDone = false ∧
      (s.issuedWrites = [] → t.media = s.media ∧ t.counters = s.counters))

/-- BLOCK_RESET_RELEASE with the rails ready and PFW_N deasserted enters SPROUT, with PFW_N asserted it waits for it;
AUTOMATIC_RESTART enters SPROUT once PFW_N has been deasserted for 10 ms after a HOLD that PFW_N caused. POWER_ON_RESET starts
the always-on island, PFW_N_DEASSERT its count of deasserted samples. A release with the rails not ready is not defined by the
spec. -/
def Obligations.SproutBegins : Prop :=
  ∀ s : State,
    (s.aon.blockReset = true → s.aon.power = true → s.aon.porDone = true →
      (s.aon.pfwLow = false → ∃ t, exec (.blockResetRelease true) s = .next t ∧ t.mode = 1 ∧ t.rd GLB_MODE.PREV = s.mode ∧
        t.rd GLB_MODE.CAUSE = 0 ∧ t.aon.blockReset = false ∧ (∀ p : PhysSlice, t.rd (SL_DVFS.OPP_NOW p.val) = 3)) ∧
      (s.aon.pfwLow = true → exec (.blockResetRelease true) s =
        .next (s.modAon fun a => { a with blockReset := false, releaseWaits := true })) ∧
      exec (.blockResetRelease false) s = .fault .stateUndefined) ∧
    (∀ u, s.mode = 0 → s.aon.pfwLow = false → s.aon.highSince = some u → u + 10000 ≤ s.now → s.aon.blockReset = false →
      s.aon.porDone = true → s.aon.mayRestart = true → ∃ t, exec .automaticRestart s = .next t ∧ t.mode = 1 ∧
        t.rd GLB_MODE.CAUSE = 9 ∧ t.aon.mayRestart = false ∧ (∀ p : PhysSlice, t.rd (SL_DVFS.OPP_NOW p.val) = 3)) ∧
    (s.aon.porDone = false →
      exec .powerOnReset s = .next (s.modAon fun a => { a with power := true, porDone := true, blockReset := true })) ∧
    (s.aon.porDone = true →
      exec .pfwNDeassert s = .next (s.modAon fun a => { a with pfwLow := false, highSince := some a.time }))

/-- MODE_REQ_SERVE, MODE_REQ_DORMANT, MODE_REQ_REPAIR and MODE_REQ_HOLD outside HOLD: with CHANGING 1 the code is 9; from a mode that does
not lead to the target 1; SERVE from SPROUT the first failed condition, DORMANT barred 7, REPAIR within 1 ms of the last 8. ERR is set and
nothing but GLB_MODE_REQ changes. SERVE from SPROUT with every condition met, or from REPAIR, with nothing held back: MODE 2 with its PREV
and CAUSE. SERVE from DORMANT begins the exit. DORMANT from SERVE begins the entry. REPAIR from SERVE: MODE 5, its entry counted, every
reservation that a home holds cleared and none of the data SRAM. HOLD in DRAIN closes intake and halts every running or ready DMA channel
with code SHUTDOWN. -/
def Obligations.ModeRequests : Prop :=
  (
    ∀ (s : State) (code target : Nat) (c : Instr), s.mode ≠ 0 →
      (c, target) = (.modeReqServe, 2) ∧ (s.on GLB_MODE.CHANGING = true ∧ code = 9 ∨ s.on GLB_MODE.CHANGING = false ∧
          ((s.mode = 2 ∨ s.mode = 4) ∧ code = 1 ∨ s.mode = 1 ∧ s.serveCode ≠ 0 ∧ code = s.serveCode)) ∨
      (c, target) = (.modeReqDormant, 3) ∧ (s.on GLB_MODE.CHANGING = true ∧ code = 9 ∨ s.on GLB_MODE.CHANGING = false ∧
          (s.mode ≠ 2 ∧ code = 1 ∨ s.mode = 2 ∧ s.dormBlocked = true ∧ code = 7)) ∨
      (c, target) = (.modeReqRepair, 5) ∧ (s.on GLB_MODE.CHANGING = true ∧ code = 9 ∨ s.on GLB_MODE.CHANGING = false ∧
          (s.mode ≠ 2 ∧ code = 1 ∨ s.mode = 2 ∧ s.repairTooSoon = true ∧ code = 8)) ∨
      (c, target) = (.modeReqHold, 0) ∧ (s.on GLB_MODE.CHANGING = true ∧ code = 9 ∨ s.on GLB_MODE.CHANGING = false ∧
          s.mode ≠ 4 ∧ code = 1) →
      ∃ t, exec c s = .next t ∧ t.on GLB_MODE_REQ.ERR = true ∧ t.rd GLB_MODE_REQ.ERR_CODE = code ∧
        t.rd GLB_MODE_REQ.TARGET = target ∧ s.OnlyRegs t [GLB_MODE_REQ.reg]) ∧
  (
    ∀ s : State, s.on GLB_MODE.CHANGING = false →
      (s.NothingHeld → s.mode = 1 ∧ s.serveCode = 0 ∨ s.mode = 5 → ∃ t, exec .modeReqServe s = .next t ∧ t.mode = 2 ∧
        t.rd GLB_MODE.PREV = s.mode ∧ t.rd GLB_MODE.CAUSE = 1 ∧ t.rd GLB_MODE_REQ.ERR_CODE = 0) ∧
      (s.mode = 3 → s.aon.exitStep = 0 → ∃ t, exec .modeReqServe s = .next t ∧ t.on GLB_MODE.CHANGING = true ∧ t.mode = 3 ∧
        t.aon = { s.aon with exitStep := 1, seqCause := 1, seqHp := 0 } ∧ t = { s with regs := t.regs, aon := t.aon }) ∧
      (s.mode = 2 → s.dormBlocked = false → ∃ t, exec .modeReqDormant s = .next t ∧ t.on GLB_MODE.CHANGING = true ∧ t.mode = 2 ∧
        t.aon.entryStep = 1 ∧ t.aon.entryAt = s.now ∧ (∀ p, t.sl p = { s.sl p with dormantWays := true }) ∧
        t = { s with regs := t.regs, aon := t.aon, slices := t.slices }) ∧
      (s.mode = 2 → s.repairTooSoon = false → ∃ t, exec .modeReqRepair s = .next t ∧ t.mode = 5 ∧ t.rd GLB_MODE.PREV = 2 ∧
        t.rd GLB_MODE.CAUSE = 1 ∧
        t.rd GLB_MODE.REPAIR_ENTRIES = min (s.rd GLB_MODE.REPAIR_ENTRIES + 1) (2 ^ GLB_MODE.REPAIR_ENTRIES.w - 1) ∧
        t.sramReserved = s.sramReserved ∧ (∀ p, (t.sl p).reserved = []) ∧ t.aon.repairAt = s.now) ∧
      (s.mode = 4 → s.aon.drain = some .flush → ∃ t, exec .modeReqHold s = .next t ∧
        (t.aon.drain = some .close ∨ t.aon.drain = some .cipher) ∧ t.aon.closeAt = s.now ∧ t.mode = 4 ∧
        ∀ c : DmaChannel, if s.rd (DC_STATUS.STATE c.val) = 1 ∨ s.rd (DC_STATUS.STATE c.val) = 2 then
            t.rd (DC_STATUS.STATE c.val) = 4 ∧ t.rd (DC_STATUS.CODE c.val) = 5
          else t.rd (DC_STATUS.STATE c.val) = s.rd (DC_STATUS.STATE c.val)))

/-- PFW_N_ASSERT in SERVE, DORMANT or REPAIR enters DRAIN with cause 3. DRAIN_HOST_PHASE_END closes intake once the host phase is
over. DRAIN_SNOOP_TIMEOUT resolves a snoop 20 us after that as at a departure. CIPHER_FLUSH_DONE in step 4 programs the
closing entry. -/
def Obligations.DrainRunsItsSteps : Prop :=
  ∀ (s : State) (h : HostId) (b : BitVec 8) (e : SnoopEntry),
    (s.aon.porDone = true → s.mode = 2 ∨ s.mode = 3 ∨ s.mode = 5 →
      exec .pfwNAssert s = .next ((s.modAon fun a => { a with pfwLow := true, highSince := none }).enterDrain 3 0)) ∧
    (s.mode = 4 → s.aon.drain = some .flush → s.hostPhaseOver = true →
      exec .drainHostPhaseEnd s = .next ((s.acceptMode 0).closeHosts).drainStep) ∧
    (s.mode = 4 → s.aon.drain ≠ some .flush → s.aon.closeAt + 20 ≤ s.now → (s.port h).table.look none b.toNat = some e →
      exec (.drainSnoopTimeout h b) s = .next
        (((e.open_.foldl (fun s l => s.resolveSnoop e.req.owner h l) ((s.freeSnoop h b.toNat).modPort h fun x =>
          { x with drained := x.drained ++ [b.toNat] })).moveOwner e.req.owner).drainStep)) ∧
    (s.mode = 4 → s.aon.drain = some .cipher → ∃ t, exec .cipherFlushDone s = .next t ∧ t.aon.drain = some .record ∧
      t.store.programs = s.store.programs ++ [StoreWrite.repair .close] ∧ t.out = s.out ++ [.storeProgram] ∧
      t = { s with aon := t.aon, store := t.store, out := t.out })

/-- DORMANT_IDLE_DWELL begins an entry after the dwell with AUTO 1. DORMANT_ENTRY_STEP_END: step 1 ends with ways 4 to 15 clean, and their
tag words clear (at once, the model's choice, log 108); step 3 ends with every slice at OPP 0 and sends every channel that is not lost
into light sleep; the last makes MODE 3 and counts the entry. DORMANT_ENTRY_TIMEOUT aborts step 1 after 1 ms. DORMANT_EXIT_COUNT begins
the exit; DORMANT_EXIT_STEP_END runs it to its last step. -/
def Obligations.DormantRunsItsSteps : Prop :=
  ∀ s : State,
    (s.mode = 2 → s.on GLB_MODE.CHANGING = false → s.on PWR_DORM.AUTO = true → max 1 (s.rd PWR_DORM.ENTRY_MS) ≤ s.aon.idleMs →
      s.dormBlocked = false → ∃ t, exec .dormantIdleDwell s = .next t ∧ t.on GLB_MODE.CHANGING = true ∧ t.aon.entryStep = 1 ∧
        t.aon.seqCause = 5 ∧ (∀ p, (t.sl p).dormantWays = true) ∧ t = { s with regs := t.regs, aon := t.aon, slices := t.slices }) ∧
    (s.mode = 2 → s.aon.entryStep = 1 → (∀ p, s.highWaysClean p = true) → ∃ t, exec .dormantEntryStepEnd s = .next t ∧
      t.aon = { s.aon with entryStep := 2 } ∧
      (∀ p, (t.sl p) = { s.sl p with cache := (s.sl p).cache.filter fun e => !s.highWay p e.1 }) ∧
      t = { s with aon := t.aon, slices := t.slices }) ∧
    (s.mode = 2 → s.aon.entryStep = 3 → (∀ p : PhysSlice, s.rd (SL_DVFS.OPP_NOW p.val) = 0 ∧ (s.sl p).ramp = none) →
      ∃ t, exec .dormantEntryStepEnd s = .next t ∧ t.aon.entryStep = 4 ∧ t.mf.sleeping = List.range 38 ∧
        ∀ c, s.chState c ≠ 3 → Out.lightSleep c ∈ t.out) ∧
    (s.mode = 2 → s.aon.entryStep = 4 → s.aon.exitCause = none → ∃ t, exec .dormantEntryStepEnd s = .next t ∧ t.mode = 3 ∧
      t.aon.entryStep = 0 ∧ t.rd GLB_MODE.PREV = 2 ∧ t.rd GLB_MODE.CAUSE = s.aon.seqCause % 2 ^ GLB_MODE.CAUSE.w ∧
      t.rd GLB_MODE.DORMANT_ENTRIES = min (s.rd GLB_MODE.DORMANT_ENTRIES + 1) (2 ^ GLB_MODE.DORMANT_ENTRIES.w - 1)) ∧
    (s.mode = 2 → s.aon.entryStep = 1 → s.aon.entryAt + 1000 ≤ s.now → ∃ t, exec .dormantEntryTimeout s = .next t ∧
      t.on GLB_MODE.CHANGING = false ∧ t.aon.entryStep = 0 ∧ t.mode = 2 ∧ ∀ p, (t.sl p).dormantWays = false) ∧
    (s.mode = 3 → s.aon.exitStep = 0 →
      s.exitCount ≤ ((s.aon.allocs10.filter fun e => decide (s.now < e.1 + 10)).map (·.2)).sum →
      exec .dormantExitCount s =
        .next ((s.wr GLB_MODE.CHANGING 1).modAon fun a => { a with exitStep := 1, seqCause := 5, seqHp := 0 })) ∧
    (s.mode = 3 → s.aon.exitStep = 2 → (∀ p, (s.sl p).ramp = none) →
      exec .dormantExitStepEnd s = .next (s.modAon fun a => { a with exitStep := 3 })) ∧
    (s.mode = 3 → s.aon.exitStep = 3 → s.aon.repairAfterExit = false → ∃ t, exec .dormantExitStepEnd s = .next t ∧ t.mode = 2 ∧
      t.rd GLB_MODE.PREV = 3 ∧ t.aon.exitStep = 0 ∧ t.aon.dormantEnd = some s.now)

/-- CONTROL_COMPLEX_LOSS in SERVE with no entry to DORMANT running enters REPAIR with cause 7, or is held within 1 ms of the last exit;
REPAIR_CAUSE_RELEASE then acts on it. In DORMANT it begins the exit and REPAIR follows. REPAIR_TIMEOUT ends REPAIR 5 ms after its entry
with a severe event whose information is a free value (log 1). -/
def Obligations.RepairBeginsAndEnds : Prop :=
  ∀ s : State,
    (s.mode = 2 → s.aon.entryStep = 0 →
      (s.repairTooSoon = false → ∃ t, exec .controlComplexLoss s = .next t ∧ t.mode = 5 ∧ t.rd GLB_MODE.PREV = 2 ∧
        t.rd GLB_MODE.CAUSE = 7 ∧ t.aon.repairAt = s.now ∧ (∀ p, (t.sl p).reserved = []) ∧ t.sramReserved = s.sramReserved ∧
        (s.aon.heldCause = true → exec .repairCauseRelease s = .next t)) ∧
      (s.repairTooSoon = true → exec .controlComplexLoss s = .next (s.modAon fun a => { a with heldCause := true }))) ∧
    (s.mode = 3 → s.aon.exitStep = 0 → exec .controlComplexLoss s = .next ((s.wr GLB_MODE.CHANGING 1).modAon fun a =>
      { a with exitStep := 1, seqCause := 7, seqHp := 0, repairAfterExit := true })) ∧
    (s.mode = 5 → s.aon.repairAt + 5000 ≤ s.now → exec .repairTimeout s =
      .next ((s.draw.exitRepair 8).major 0x58 ((Config.freeWord s.freeTick).extractLsb' 0 40))) ∧
    (s.mode = 5 → s.now < s.aon.repairAt + 5000 → exec .repairTimeout s = .next s)

/-- RESET_INVALIDATION_DONE in SPROUT, once: every slice has no tracker, waiting request, filter entry, victim, spill map bit or region
entry, no valid tag, and CLEARED 1; the data of the cache stays, and the media, cipher counters and control SRAM are untouched. -/
def Obligations.ResetInvalidationClearsTheSlices : Prop :=
  ∀ s : State, s.mode = 1 →
    (s.boot.invalidated = true → exec .resetInvalidationDone s = .next s) ∧
    (s.boot.invalidated = false → ∃ t, exec .resetInvalidationDone s = .next t ∧ t.boot.invalidated = true ∧
      (∀ p, (t.sl p).trackers = [] ∧ (t.sl p).waitq = [] ∧ (t.sl p).ingress = [] ∧ (t.sl p).filter = [] ∧ (t.sl p).victims = [] ∧
        (t.sl p).evict = [] ∧ (t.sl p).regions = [] ∧ (∀ c, (t.sl p).spillBit c = false) ∧ t.on (SL_STATUS.CLEARED p.val) = true ∧
        ∀ set w, (t.way p set w).tagA = TagWord.empty ∧ (t.way p set w).tagB = TagWord.empty ∧
          (Tbl.sorted (s.sl p).cache = true → (t.way p set w).data = (s.way p set w).data)) ∧
      t.media = s.media ∧ t.counters = s.counters ∧ t.sram = s.sram ∧
      t = { s with regs := t.regs, slices := t.slices, ports := t.ports, iaPark := [], boot := t.boot })

/-- SWEEPER_CHUNK_VISIT in SERVE, not paused, with the share of the chunk before over and none running begins the visit of NEXT_CHUNK in
every active slice; before its share is over it does nothing. SWEEPER_LINE takes a slice's next line of it. SWEEPER_CHUNK_VISIT_END with
every part ended moves NEXT_CHUNK on, and the holder clears the chunk's spill map bit exactly where every part was clean and no set
message came. PROGRESS_COMMIT commits the progress. FORGET_HOST_WALK_STEP processes the next set for the host that still has sets to
cover, and waits at the set while the slice's directory write queue is full; a host whose sets are all covered, with none to be revisited,
leaves the walk and FORGET, and SWEEP of each host clears when every slice has covered it. URGENT_PASS_LINE_VISIT in SERVE goes on from
the slice's position, then to its retries, then ends. -/
def Obligations.SweeperPassesWalksAndUrgentPasses : Prop :=
  (
    ∀ (s : State) (p : PhysSlice) (v : SweepPart) (l : Nat),
      let c := s.rd GLB_PASS_EPOCH.NEXT_CHUNK
      (s.mode ≠ 2 ∨ s.on GLB_PASS_EPOCH.PAUSE = true ∨ s.shareOver = false → exec .sweeperChunkVisit s = .next s) ∧
      (s.mode = 2 → s.on GLB_PASS_EPOCH.PAUSE = false → s.shareOver = true →
        (s.sweepActive = true → exec .sweeperChunkVisit s = .next { s with sweepDue := true }) ∧
        (s.sweepActive = false → ∃ t, exec .sweeperChunkVisit s = .next t ∧ t.sweepActive = true ∧ t.sweepDue = false ∧
          t.sweepUs = some 0 ∧ (∀ q ∈ s.activeSlices, (t.sl q).sweep = some ⟨c, 0, true, []⟩) ∧
          (t.sl (s.holderOf c)).setInVisit = false ∧ (c = 0 → t.rd GLB_PASS_EPOCH.START_EPOCH = s.rd GLB_EPOCH.EPOCH) ∧
          (c ≠ 0 → t.regs = s.regs))) ∧
      (s.mode = 2 → s.on GLB_PASS_EPOCH.PAUSE = false → (s.sl p).sweep = some v →
        s.opsOf (fun o => match o with | .sweeper q _ => q == p | _ => false) < 32 →
        s.nextHomed p (v.chunk * 2 ^ 20 + v.pos) ((v.chunk + 1) * 2 ^ 20) = some l →
        exec (.sweeperLine p) s =
          .next ((s.modSl p fun x => { x with sweep := some { v with pos := l + 1 - v.chunk * 2 ^ 20 } }).sweepLine p l)) ∧
      (s.sweepActive = true → (∀ q ∈ s.activeSlices, s.sweepEnded q = true) → c + 1 < s.chunks → s.sweepDue = false →
        ∃ t, exec .sweeperChunkVisitEnd s = .next t ∧ t.sweepActive = false ∧ (∀ q, (t.sl q).sweep = none) ∧
          t.rd GLB_PASS_EPOCH.NEXT_CHUNK = (c + 1) % 2 ^ GLB_PASS_EPOCH.NEXT_CHUNK.w ∧
          ((t.sl (s.holderOf c)).spillBit c = false ∨
            ¬((∀ q ∈ s.activeSlices, ∀ v, (s.sl q).sweep = some v → v.clean = true) ∧ (s.sl (s.holderOf c)).setInVisit = false)) ∧
          (((∃ q ∈ s.activeSlices, ∃ v, (s.sl q).sweep = some v ∧ v.clean = false) ∨ (s.sl (s.holderOf c)).setInVisit = true) →
            ∀ q d, (t.sl q).spillBit d = (s.sl q).spillBit d)) ∧
      (s.mode = 2 → s.store.stopped = false → s.on MF_REBUILD_STATUS.ACTIVE = false → ∃ t, exec .progressCommit s = .next t ∧
        t.store.programs = s.store.programs ++ [.repair s.passEntry] ∧ t.out = s.out ++ [.storeProgram] ∧
        t = { s with store := t.store, out := t.out })) ∧
  (
    ∀ (s : State) (p : PhysSlice) (w : Walk) (h : HostId) (n l : Nat) (r : List Nat),
      ((s.sl p).walk = some w → s.mode ≠ 4 → w.hosts = [(h, n + 1)] →
        let u := s.walkSet p w.pos h
        let again := if u.2.2 && !w.revisit.contains (w.pos, h) then w.revisit ++ [(w.pos, h)] else w.revisit
        let next := if u.2.1 then w else ⟨(w.pos + 1) % 32768, [(h, n)], again⟩
        exec (.forgetHostWalkStep p) s = .next ((u.1.modSl p fun x => { x with walk := some next }).walkCovered p)) ∧
      ((s.sl p).walk = some ⟨n, [(h, 0)], []⟩ → s.walkCovered p = ((s.modSl p fun x => { x with walk := none }).wr
        (SL_SF_CTRL.FORGET p.val) (s.rd (SL_SF_CTRL.FORGET p.val) &&& (0xFFFF - 2 ^ h.val))).sweepDone h) ∧
      ((s.sl p).walk = none → exec (.forgetHostWalkStep p) s = .next s) ∧
      (s.mode = 2 → s.on GLB_PASS_EPOCH.URGENT = true →
        (s.urgentLine (s.sl p).urgentPos = some l →
          exec (.urgentPassLineVisit p) s = .next (s.urgentNext p (s.sl p).urgentPos l)) ∧
        (s.urgentLine (s.sl p).urgentPos = none → (s.sl p).urgentRetry = l :: r → exec (.urgentPassLineVisit p) s =
          .next (((s.modSl p fun x => { x with urgentRetry := r }).urgentVisit p l).urgentEnd)) ∧
        (s.urgentLine (s.sl p).urgentPos = none → (s.sl p).urgentRetry = [] →
          exec (.urgentPassLineVisit p) s = .next s.urgentEnd)) ∧
      (s.mode ≠ 2 ∨ s.on GLB_PASS_EPOCH.URGENT = false → exec (.urgentPassLineVisit p) s = .next s))

/-- OPP_TARGET_WRITE in SERVE of a live slice with no change running: upwards the rail is asked for first, downwards the clock
switches first, bounded by the ceiling. REGULATOR_SETTLED ends the change; REGULATOR_TIMEOUT is a severe event with free
information (log 1), as one of CLOCK_MONITOR_CHECK names its island. THERMAL_READING records TJ and moves the ceiling. -/
def Obligations.OperatingPointsAndTemperature : Prop :=
  ∀ (s : State) (p : PhysSlice) (opp : BitVec 3) (r : Ramp) (tj : BitVec 8) (l : List Nat),
    (s.mode = 2 → s.aon.entryStep = 0 → s.slHusked p = false → (s.sl p).ramp = none →
      let goal := min opp.toNat (s.rd PWR_STATUS.CEIL)
      let now := s.rd (SL_DVFS.OPP_NOW p.val)
      ∃ t, exec (.oppTargetWrite p opp) s = .next t ∧ t.rd (SL_DVFS.OPP_TARGET p.val) = opp.toNat ∧
        (∀ o, o ≠ SL_DVFS.reg p.val → t.reg o = s.reg o) ∧ (∀ q, q ≠ p → t.sl q = s.sl q) ∧
        (if goal = now then t.rd (SL_DVFS.OPP_NOW p.val) = now ∧ t.out = s.out ∧ t.sl p = s.sl p
         else t.on (SL_DVFS.BUSY p.val) = true ∧ t.out = s.out ++ [.voltage p goal] ∧
          t.rd (SL_DVFS.OPP_NOW p.val) = (if now < goal then now else goal) ∧
          t.sl p = { s.sl p with ramp := some ⟨goal, decide (now < goal)⟩ })) ∧
    ((s.sl p).ramp = some r → exec (.regulatorSettled p) s =
      .next ((((if r.up then (s.wr (SL_DVFS.OPP_NOW p.val) r.target).inc (SL_DVFS.SWITCHES p.val) else s).modSl p fun x =>
        { x with ramp := none }).wr (SL_DVFS.BUSY p.val) 0).retarget p)) ∧
    ((s.sl p).ramp = some r → exec (.regulatorTimeout p) s =
      .next (s.draw.major 0x58 ((Config.freeWord s.freeTick).extractLsb' 0 40))) ∧
    (s.mode ≠ 0 → exec (.clockMonitorCheck l) s = .next (l.foldl (fun s i => s.major 0x59 (BitVec.ofNat 40 (i % 16))) s)) ∧
    (s.mode ≠ 0 →
      let t := tj.toNat
      let hot := min 108 (s.rd PWR_THERM.HOT_C) + 40
      let ceil := s.rd PWR_STATUS.CEIL
      ∃ u, exec (.thermalReading tj) s = .next u ∧ u.rd PWR_STATUS.TJ = t ∧ u.rd PWR_STATUS.CEIL =
        (if 150 ≤ t ∧ s.aon.hotSeen = false then 3 else if hot ≤ t then max 3 (ceil - 1)
         else if t < hot - max 1 (s.rd PWR_THERM.HYST_C) then min 7 (ceil + 1) else ceil) ∧
        u.aon.hotSeen = decide (150 ≤ t))

/-- MINOR_EVENT of a source taken and not ignored is totalled, and counted in both windows when it is the 2^CE_SHIFT-th, unless
masked or permanent. MAJOR_EVENT below the threshold with no record open is totalled, counted in both and opens a record at
NEXT; masked it is only totalled. FATAL_DECLARATION sets FATAL, opens a fatal record, freezes the history and stops PIP. -/
def Obligations.FaultEventsAreCountedAndRecorded : Prop :=
  ∀ (s : State) (src : SourceId) (info : BitVec 40), s.takesEvents src = true → s.srcIgnored src.val = false →
    let k := src.val
    let n := s.minors.look 0 k + 1
    let a := s.rd (FLT_SRC_COUNT.CNT_A k)
    let b := s.rd (FLT_SRC_COUNT.CNT_B k)
    let i := s.rd FLT_HANDLING.NEXT
    let plus := if s.on (FLT_SRC_CFG.MASK k) = true ∨ s.on (FLT_SRC_COUNT.PERM k) = true ∨ s.rd (FLT_SRC_CFG.CE_SHIFT k) = 15 ∨
      n % 2 ^ s.rd (FLT_SRC_CFG.CE_SHIFT k) ≠ 0 then 0 else 1
    let counted (x : Nat) : Prop := x = min (s.rd (FLT_SRC_COUNT.UE_TOTAL k) + 1) 4095
    (a + 1 < faultThreshold s k → b + 1 < faultThreshold s k → ∃ t, exec (.minorEvent src info) s = .next t ∧
      t.rd (FLT_SRC_COUNT.CE_TOTAL k) = min (s.rd (FLT_SRC_COUNT.CE_TOTAL k) + 1) (2 ^ 20 - 1) ∧ t.minors.look 0 k = n ∧
      t.rd (FLT_SRC_COUNT.CNT_A k) = a + plus ∧ t.rd (FLT_SRC_COUNT.CNT_B k) = b + plus ∧
      (∀ o, o ≠ FLT_SRC_COUNT.reg k → t.reg o = s.reg o) ∧ t = { s with regs := t.regs, minors := t.minors }) ∧
    (s.on (FLT_SRC_CFG.MASK k) = true → ∃ t, exec (.majorEvent src info) s = .next t ∧
      counted (t.rd (FLT_SRC_COUNT.UE_TOTAL k)) ∧ (∀ o, o ≠ FLT_SRC_COUNT.reg k → t.reg o = s.reg o) ∧
      t = { s with regs := t.regs, fw := t.fw }) ∧
    (s.on (FLT_SRC_CFG.MASK k) = false → s.on (FLT_SRC_COUNT.PERM k) = false → a + 1 < faultThreshold s k →
      b + 1 < faultThreshold s k → s.on FLT_HANDLING.FROZEN = false → s.on FLT_HANDLING.HANDLING = false →
      ∃ t, exec (.majorEvent src info) s = .next t ∧ counted (t.rd (FLT_SRC_COUNT.UE_TOTAL k)) ∧
        t.rd (FLT_SRC_COUNT.CNT_A k) = a + 1 ∧ t.rd (FLT_SRC_COUNT.CNT_B k) = b + 1 ∧
        t.on FLT_HANDLING.HANDLING = true ∧ t.rd FLT_HANDLING.RECORD = i ∧ t.rd FLT_HANDLING.NEXT = (i + 1) % 16 ∧
        t.record i = BitVec.ofNat 128 (s.now + k * 2 ^ 64 + 2 * 2 ^ 72 + info.toNat * 2 ^ 88) ∧
        (∀ j, j ≠ i → t.record j = s.record j)) ∧
    (s.on (FLT_SRC_COUNT.FATAL k) = false → s.on FLT_HANDLING.FROZEN = false → s.on FLT_HANDLING.HANDLING = false →
      ∃ t, exec (.fatalDeclaration src info) s = .next t ∧ counted (t.rd (FLT_SRC_COUNT.UE_TOTAL k)) ∧
        t.on (FLT_SRC_COUNT.FATAL k) = true ∧ t.on FLT_HANDLING.FROZEN = true ∧ t.on FLT_PIP_CTRL.RUNNING = false ∧
        t.record i = BitVec.ofNat 128 (s.now + k * 2 ^ 64 + 4 * 2 ^ 72 + info.toNat * 2 ^ 88))

/-- WIRING_FAULT of a source that is taken sets WIRED and PERM, and later minor and major events of the source change nothing.
WINDOW_RESTART at its tick clears the window's counter. HANDLING_CLOSE clears HANDLING and PERM_CLEAR clears PERM. -/
def Obligations.SourcesRestartClearAndFail : Prop :=
  ∀ (s : State) (src : SourceId) (b : Bool) (info : BitVec 40),
    (s.takesEvents src = true → s.srcIgnored src.val = false → ∃ t, exec (.wiringFault src b) s = .next t ∧
      t.on (FLT_SRC_COUNT.WIRED src.val) = true ∧ t.on (FLT_SRC_COUNT.PERM src.val) = true ∧
      exec (.minorEvent src info) t = .next t ∧ exec (.majorEvent src info) t = .next t) ∧
    (s.now % max 1 (s.rd (FLT_SRC_CFG.W_US src.val)) = max 1 (s.rd (FLT_SRC_CFG.W_US src.val)) / 2 →
      exec (.windowRestart src true) s = .next (s.wr (FLT_SRC_COUNT.CNT_B src.val) 0)) ∧
    (s.now % max 1 (s.rd (FLT_SRC_CFG.W_US src.val)) = 0 →
      exec (.windowRestart src false) s = .next (s.wr (FLT_SRC_COUNT.CNT_A src.val) 0)) ∧
    (s.mode ≠ 0 → exec .handlingClose s = .next (s.wr FLT_HANDLING.HANDLING 0) ∧
      exec (.permClear src) s = .next (s.wr (FLT_SRC_COUNT.PERM src.val) 0))

/-- WATCHDOG_FEED outside HOLD reloads the watchdog; where PIP has not run and nothing has stopped it, PIP starts with an edge to
1. PIP_TOGGLE, after PERIOD x 100 us, sends the other level. WATCHDOG_EXPIRY, at 0, stops PIP at its level and freezes the
history with the fatal event of the core that LC_0 names. -/
def Obligations.PipAndItsWatchdog : Prop :=
  ∀ s : State, s.mode ≠ 0 →
    (s.on FLT_PIP_CTRL.RUNNING = true → exec .watchdogFeed s = .next (s.modAon fun a => { a with wdStart := a.time / 1000, fed := true })) ∧
    (s.on FLT_PIP_CTRL.RUNNING = false → s.rd FLT_PIP_CTRL.STOP_CAUSE = 0 → s.on FLT_HANDLING.FROZEN = false →
      ∃ t, exec .watchdogFeed s = .next t ∧ t.on FLT_PIP_CTRL.RUNNING = true ∧ t.on FLT_PIP_CTRL.LEVEL = true ∧ t.aon.pip = true ∧
        t.aon.wdStart = s.now / 1000 ∧ t.aon.lastEdge = s.now ∧ t.out = s.out ++ [.pipEdge true] ∧
        (∀ o, o ≠ FLT_PIP_CTRL.reg → t.reg o = s.reg o) ∧ t = { s with regs := t.regs, aon := t.aon, out := t.out }) ∧
    (s.on FLT_PIP_CTRL.RUNNING = true → s.aon.lastEdge + s.pipPeriod ≤ s.now → ∃ t, exec .pipToggle s = .next t ∧
      t.aon.pip = (!s.aon.pip) ∧ t.on FLT_PIP_CTRL.LEVEL = (!s.aon.pip) ∧ t.out = s.out ++ [.pipEdge (!s.aon.pip)] ∧
      t.aon.lastEdge = s.now ∧ (∀ o, o ≠ FLT_PIP_CTRL.reg → t.reg o = s.reg o) ∧
      t = { s with regs := t.regs, aon := t.aon, out := t.out }) ∧
    (s.aon.fed = true → s.aon.wdStart + s.wdTime ≤ s.now / 1000 → s.rd FLT_PIP_CTRL.STOP_CAUSE = 0 →
      s.on FLT_PIP_CTRL.RUNNING = true → s.on FLT_HANDLING.FROZEN = false → ∃ t, exec .watchdogExpiry s = .next t ∧
        t.on FLT_PIP_CTRL.RUNNING = false ∧ t.rd FLT_PIP_CTRL.STOP_CAUSE = 2 ∧ t.aon.pip = s.aon.pip ∧
        t.on FLT_HANDLING.FROZEN = true)

/-- HC_MOVE and SF_MOVE start a move where none runs and the spare way is free, and else change nothing. MOVE_SET_STEP of a home- cache
move copies the way of the set into way 16 and empties it, every other way staying, with no stored error in the slice. SF_DRAIN starts the
drain at set 0; SF_DRAIN_STEP goes on past a set with no valid entry. SLICE_HUSK_WRITE husks the slice and takes its logical number. -/
def Obligations.WaysMoveAndFiltersDrain : Prop :=
  ∀ (s : State) (p : PhysSlice) (w : Fin 16) (m : WayMove) (k : Nat), s.mode ≠ 0 →
    (s.on (SL_CTRL.MOVE_BUSY p.val) = true → exec (.hcMove p w) s = .next s ∧ exec (.sfMove p w) s = .next s) ∧
    (s.on (SL_CTRL.MOVE_BUSY p.val) = false → ∀ filter : Bool,
      16 ≤ (if filter then s.rd (SL_CTRL.SF_SPARE_FOR p.val) else s.rd (SL_HC_CTRL.SPARE_FOR p.val)) →
      ∃ t, exec (if filter then .sfMove p w else .hcMove p w) s = .next t ∧ t.on (SL_CTRL.MOVE_BUSY p.val) = true ∧
        t.rd (SL_CTRL.MOVE_WAY p.val) = w.val ∧ t.rd (SL_CTRL.MOVE_SET p.val) = 0 ∧ (t.sl p).move = some ⟨filter, w.val, 0⟩ ∧
        t = { s with regs := t.regs, slices := t.slices }) ∧
    ((s.sl p).move = some m → s.mode ≠ 4 → m.filter = false → m.way < 16 → m.set + 1 < 8192 → s.hcBusy p m.set m.way = false →
      s.eccIdle p = true → (s.sl p).tagLost = [] → ∃ t, exec (.moveSetStep p) s = .next t ∧
        t.way p m.set 16 = s.way p m.set m.way ∧ t.way p m.set m.way = CacheWay.empty ∧
        (∀ set v, v < 17 → (set, v) ≠ (m.set, 16) → (set, v) ≠ (m.set, m.way) → t.way p set v = s.way p set v) ∧
        (t.sl p).move = some { m with set := m.set + 1 } ∧ t.rd (SL_CTRL.MOVE_SET p.val) = (m.set + 1) % 2 ^ (SL_CTRL.MOVE_SET 0).w ∧
        (∀ q, q ≠ p → t.sl q = s.sl q) ∧ t = { s with regs := t.regs, slices := t.slices }) ∧
    (s.on (SL_CTRL.SF_DRAIN p.val) = false → ∃ t, exec (.sfDrain p) s = .next t ∧ t.on (SL_CTRL.SF_DRAIN p.val) = true ∧
      t.sl p = { s.sl p with drainSet := some 0 } ∧ t = { s with regs := t.regs, slices := t.slices }) ∧
    ((s.sl p).drainSet = some k → s.on (SL_CTRL.SF_DRAIN p.val) = true →
      (∀ v ∈ waysInService (s.sfSpare p k), (s.sfWay p k v.2).entry.valid = false) →
      exec (.sfDrainStep p) s = .next (s.modSl p fun x => { x with drainSet := if k + 1 = 32768 then none else some (k + 1) })) ∧
    (∃ t, exec (.sliceHuskWrite p) s = .next t ∧ t.on (SL_CTRL.HUSK p.val) = true ∧ t.on (SL_LOGICAL_ID.VALID p.val) = false ∧
      s.OnlyRegs t [SL_CTRL.reg p.val, SL_LOGICAL_ID.reg p.val])

/-- SLICE_RETIREMENT of an active slice with a permanent escalation begins, or takes its next step. WAY_RETIREMENT starts the move of the
one faulty way, and records the spare way when the move has ended. CHANNEL_RETIREMENT of a husked channel begins and takes its first step.
CONTROL_CORE_RETIREMENT with a spare core gives the failing core's logical number to it and restarts that core. -/
def Obligations.RetirementsGoStepByStep : Prop :=
  ∀ (s : State) (p : PhysSlice) (c : Channel) (d : CoreId) (k : LogicalCore) (r : Retire) (w n : Nat) (filter : Bool), s.mode = 2 →
    (s.retire 0 p.val = some r → exec (.sliceRetirement p) s = .next (s.sliceStep p r)) ∧
    (s.retire 0 p.val = none → s.active p = true → s.slHusked p = false → s.retireAsked (0x10 + p.val) = true →
      exec (.sliceRetirement p) s = .next (s.beginSliceRetirement p)) ∧
    ((s.fw.retiring.find? fun x => (x.unit == 3 || x.unit == 4) && x.number == p.val) = some r → r.step ≠ 0 →
      s.on (SL_CTRL.MOVE_BUSY p.val) = false → exec (.wayRetirement p) s = .next ((s.commit (.spareWay p.val (r.unit == 4)
        (if r.unit == 4 then s.rd (SL_CTRL.SF_SPARE_FOR p.val) else s.rd (SL_HC_CTRL.SPARE_FOR p.val)))).endRetire r)) ∧
    ((s.fw.retiring.find? fun x => (x.unit == 3 || x.unit == 4) && x.number == p.val) = none →
      s.retireAsked (0x10 + p.val) = true → s.active p = true → s.slHusked p = false → s.retire 0 p.val = none →
      s.faultyWay p = some (filter, w) → w < 16 → s.on (SL_CTRL.MOVE_BUSY p.val) = false →
      16 ≤ (if filter then s.rd (SL_CTRL.SF_SPARE_FOR p.val) else s.rd (SL_HC_CTRL.SPARE_FOR p.val)) →
      ∃ t, exec (.wayRetirement p) s = .next t ∧ (t.sl p).move = some ⟨filter, w, 0⟩ ∧
        t.fw.retiring = s.fw.retiring ++ [⟨if filter then 4 else 3, p.val, 1, w⟩]) ∧
    (s.retire 1 c.val = some r → exec (.channelRetirement c) s = .next (s.channelStep c r)) ∧
    (s.retire 1 c.val = none → s.chState c = 3 → s.on (FLT_SRC_COUNT.RETIRED (0x22 + c.val)) = false →
      exec (.channelRetirement c) s = .next (let u := s.addRetire ⟨1, c.val, 1, 0⟩
        match u.retire 1 c.val with | some r => u.channelStep c r | none => u)) ∧
    (s.retire 2 d.val = none → s.retireAsked (0x4A + d.val) = true →
      ((List.finRange 4).find? fun j => s.physCore j.val == d.val) = some k → s.spareCore = some n →
      ∃ t, exec (.controlCoreRetirement d) s = .next t ∧ t.physCore k.val = n ∧
        (∀ j : LogicalCore, j ≠ k → t.physCore j.val = s.physCore j.val) ∧
        t.core k = { (s.core k).restarted with startAt := some (entryAddr (s.on BOOT_ACT.ACTIVE) s.boot.running) } ∧
        (∀ j, j ≠ k → t.core j = s.core j) ∧ t.on (FLT_SRC_COUNT.RETIRED (0x4A + d.val)) = true)

/-- INSTALL_WITH_COPY names the entry copying, or sets ERR where it is refused; REMAP_COPY_EXECUTE makes it active and clears BUSY.
INSTALL_ZEROED in SPROUT makes it active at once, and a word of a control memory then reads as unwritten. REMAP_READ_ENTRY shows an entry.
WORD_REMAP of a confirmed uncorrectable finding installs into the lowest free entry of its macro. -/
def Obligations.WordsAreRemapped : Prop :=
  ∀ (s : State) (u : RemapUnit) (mac : BitVec 10) (e : Fin 8) (word : BitVec 11), s.remapOpen u = true →
    let m := mac.toNat
    let w := word.toNat
    let key := m * 8 + e.val
    (if s.installRefused u m e.val w false = true then
      ∃ t, exec (.installWithCopy u mac e word) s = .next t ∧ t.on (remapFld u 16 1) = true ∧ t.remapTable u = s.remapTable u ∧
        s.OnlyRegs t [(remapFld u 0 1).off]
    else ∃ t, exec (.installWithCopy u mac e word) s = .next t ∧ t.on (remapFld u 15 1) = true ∧
        (t.remapTable u).look RemapEntry.none key = ⟨.copying, w⟩ ∧ t.copying u = some (m, e.val, w) ∧
        (∀ k, k ≠ key → (t.remapTable u).look RemapEntry.none k = (s.remapTable u).look RemapEntry.none k)) ∧
    (∀ i j l, s.copying u = some (i, j, l) → ∃ t, exec (.remapCopyExecute u) s = .next t ∧ t.copying u = none ∧
      t.on (remapFld u 15 1) = false ∧ ∃ a, (a = .active ∨ a = .activeChaff) ∧
      (t.remapTable u).look RemapEntry.none (i * 8 + j) = ⟨a, l⟩) ∧
    (s.mode = 1 → s.installRefused u m e.val w true = false → ∃ t, exec (.installZeroed u mac e word) s = .next t ∧
      (t.remapTable u).look RemapEntry.none key = ⟨.active, w⟩ ∧
      (u = .device → m < 33 → t.wordValid m w = false)) ∧
    (macroWords u m ≠ 0 → ∃ t, exec (.remapReadEntry u mac e) s = .next t ∧
      t.rd (remapFld u 28 2) = ((s.remapTable u).look RemapEntry.none key).state.code ∧
      t.rd (remapFld u 30 4) = (s.freeEntries u m).length ∧ t.remapTable u = s.remapTable u ∧
      s.OnlyRegs t [(remapFld u 0 1).off]) ∧
    (2 ≤ s.mode → w < macroWords u m →
      exec (.wordRemap u mac word .confirmedUncorrectable) s = .next (s.remapWord u m w false))

/-- ECC_TEST_UNLOCK_KEY outside HOLD: 0x5EED arms; 0xC0DE within 1 us of it sets UNLOCKED, for 1 ms; any other key, or one too
late, clears it. ECC_UNLOCK_EXPIRY clears it when the time is over. ECC_TEST_ARM is taken while UNLOCKED is 1, and an arming
write is ignored while it is 0. -/
def Obligations.CheckerTestModeUnlocksAndLocks : Prop :=
  ∀ (s : State) (p : PhysSlice) (key : BitVec 16) (v : Word), s.mode ≠ 0 →
    (∃ t, exec (.eccTestUnlockKey p 0x5EED#16) s = .next t ∧ (t.sl p).ecc = some s.now ∧ t = { s with slices := t.slices }) ∧
    (key ≠ 0x5EED#16 → ∃ t, exec (.eccTestUnlockKey p key) s = .next t ∧ (t.sl p).ecc = none ∧
      (t.on (SL_ECC_TEST_UNLOCK.UNLOCKED p.val) = true ↔
        key = 0xC0DE#16 ∧ ∃ a, (s.sl p).ecc = some a ∧ s.now ≤ a + 1) ∧
      (t.on (SL_ECC_TEST_UNLOCK.UNLOCKED p.val) = true → (t.sl p).eccUntil = some (s.now + 1000)) ∧
      (∀ o, o ≠ SL_ECC_TEST_UNLOCK.reg p.val → t.reg o = s.reg o) ∧ t = { s with regs := t.regs, slices := t.slices }) ∧
    (∀ a, (s.sl p).eccUntil = some a → a ≤ s.now → ∃ t, exec (.eccUnlockExpiry p) s = .next t ∧
      t.on (SL_ECC_TEST_UNLOCK.UNLOCKED p.val) = false ∧ (t.sl p).eccUntil = none) ∧
    (getBits v 29 1 = 1 → s.on (SL_ECC_TEST_UNLOCK.UNLOCKED p.val) = false → exec (.eccTestArm p v) s = .next s) ∧
    (s.on (SL_ECC_TEST_UNLOCK.UNLOCKED p.val) = true → exec (.eccTestArm p v) s =
      .next (s.setReg (SL_ECC_TEST.reg p.val) ((access (SL_ECC_TEST.reg p.val)).apply (s.reg (SL_ECC_TEST.reg p.val)) v)))

/-- SCRUB_START_PASS in SERVE with none running leaves the error code; with one, ERR and no pass; without, BUSY where media is a target.
SCRUB_STOP ends a pass as aborted. SCRUB_VISIT of the next location of a sound slice counts its code words and moves on; of an unwritten
control word it counts a skip. A stripe of a group that is not normal is skipped; past the pace of its second a stripe waits.
SCRUB_REVISIT acts under the tracker that the agent holds, and drops a deferred finding whose line is gone. PATROL_PERIOD starts a
patrol. -/
def Obligations.ScrubPassesRun : Prop :=
  ∀ (s : State) (v : Word) (p : PhysSlice) (a : ScrubArray) (k : Nat) (l : List Found) (h : Tracker), s.mode = 2 →
    (s.on SCRUB_STATUS.BUSY = false → ∃ t, exec (.scrubStartPass v) s = .next t ∧ t.rd SCRUB_STATUS.ERR_CODE = s.scrubError ∧
      t.rd SCRUB_START.PACE = getBits v 16 16 ∧ (∀ j < 6, t.reg (SCRUB_SUMMARY.reg j) = 0#64) ∧
      (s.scrubError ≠ 0 → t.on SCRUB_STATUS.ERR = true ∧ t.on SCRUB_STATUS.BUSY = false ∧ t = { s with regs := t.regs }) ∧
      (s.scrubError = 0 → s.on SCRUB_TARGET.MEDIA = true → t.on SCRUB_STATUS.ERR = false ∧ t.on SCRUB_STATUS.BUSY = true ∧
        t.on SCRUB_STATUS.MEDIA_PENDING = true ∧ t.scrubStripe = 0)) ∧
    (s.on SCRUB_STATUS.BUSY = true →
      (exec (.scrubStartPass v) s = .next s) ∧
      (∃ t, exec .scrubStop s = .next t ∧ t.on SCRUB_STATUS.BUSY = false ∧ t.on SCRUB_STATUS.ABORTED = true) ∧
      (s.scrubbing p = true → s.nextPlace p = some (rankOf a, k) → s.eccIdle p = true →
        exec (.scrubVisit (.slice p) a k .good) s = .next (((s.scrubCount (SCRUB_SUMMARY.LO 0)
          ((placeWords (rankOf a) k).1.length + (placeWords (rankOf a) k).2.length)).modSl p fun x =>
            { x with scrubPos := rankOf a * 2 ^ 20 + k + 1 }).scrubSliceEnd p)) ∧
      (s.on SCRUB_STATUS.CTRL_PENDING = true → k = s.scrubWord → k + 1 < controlWords →
        (∀ j < 3, (s.validCopy (k / 2048) j).getLsbD (k % 2048) = false) →
        exec (.scrubVisit .control .sram k .good) s = .next ({ s with scrubWord := k + 1 }.scrubCount (SCRUB_SUMMARY.HI 5))) ∧
      (s.scrubPaced = false → exec (.scrubMediaStripeVisit l) s = .next s) ∧
      (s.on SCRUB_STATUS.MEDIA_PENDING = true → s.scrubPaced = true →
        let base := s.rd SCRUB_RANGE.BASE_CHUNK
        s.openBatch (s.scrubStripe % 4) (base * 2 ^ 15 + s.scrubStripe / 4) = none → s.abnormal (s.scrubStripe % 4) = true →
        s.scrubStripe + 1 < (s.rd SCRUB_RANGE.LIMIT_CHUNK + 1 - base) * 2 ^ 17 →
        ∃ t, exec (.scrubMediaStripeVisit l) s = .next t ∧ t.scrubStripe = s.scrubStripe + 1 ∧
          t.rd (SCRUB_SUMMARY.HI 5) = min (s.rd (SCRUB_SUMMARY.HI 5) + 1) (2 ^ (SCRUB_SUMMARY.HI 5).w - 1) ∧ t.media = s.media) ∧
      (s.scrubHeld p = some h → (s.sl p).deferred = [(.hcData, k)] → s.placeLine p 0 k = h.req.line →
        (s.way p (k / 17) (k % 17)).tagA.valid = false → exec (.scrubRevisit p .good) s =
          .next (((s.modSl p fun x => { x with deferred := [] }).scrubFreed p h.id).scrubSliceEnd p)) ∧
      (s.scrubHeld p = none → (s.sl p).deferred = [] → exec (.scrubRevisit p .good) s = .next s)) ∧
    (s.on SCRUB_STATUS.BUSY = false → s.settingNat 0x0058 ≠ 0 →
      exec .patrolPeriod s = .next (s.startPatrol (s.settingNat 0x0058) (s.settingNat 0x0059))) ∧
    (s.on SCRUB_STATUS.BUSY = true ∨ s.settingNat 0x0058 = 0 → exec .patrolPeriod s = .next s)

/-- REGION_PORT_READ shows an entry. REGION_PORT_WRITE of an accepted entry shows it in the port, reaches every slice that is not husked
and no other entry, and begins the program of its owner record; a refused one sets ERR and no copy. SLICE_MAP_WRITE in SPROUT of existing
unhusked slices, or of HOLD bits alone, sets its bytes; of others MAP_ERR alone. HASH_CTRL_WRITE, SL_LOGICAL_ID_WRITE and
BOOT_CORE_MAP_WRITE write what their registers admit and ignore the rest. -/
def Obligations.RegionsAndMapsAreWritten : Prop :=
  ∀ (s : State) (i : BitVec 14) (e : BitVec 32) (hi : Bool) (v : Word) (p : PhysSlice), s.mode ≠ 0 →
    (∃ t, exec (.regionPortRead i) s = .next t ∧ t.rd GLB_REGION_PORT.INDEX = i.toNat ∧
      t.rd GLB_REGION_PORT.ENTRY = (s.regionEntry i.toNat).toNat ∧ s.OnlyRegs t [GLB_REGION_PORT.reg]) ∧
    (if s.regionRefused i.toNat e = true then
      ∃ t, exec (.regionPortWrite i e) s = .next t ∧ t.on GLB_REGION_PORT.ERR = true ∧ s.OnlyRegs t [GLB_REGION_PORT.reg]
    else ∃ t, exec (.regionPortWrite i e) s = .next t ∧ (∀ q, if s.slHusked q = true then t.sl q = s.sl q
        else (t.sl q).regions.look 0#32 i.toNat = e ∧
          ∀ j, j ≠ i.toNat → (t.sl q).regions.look 0#32 j = (s.sl q).regions.look 0#32 j) ∧
      t.rd GLB_REGION_PORT.INDEX = i.toNat ∧ t.rd GLB_REGION_PORT.ENTRY = e.toNat ∧ (∀ o, o ≠ GLB_REGION_PORT.reg → t.reg o = s.reg o) ∧
      (s.store.stopped = false → ∃ area c, t.store.programs = s.store.programs ++ [.owner area c] ∧
        findRecord c.records (0x4000 + i.toNat) = if e = 0#32 then none else some (e.setWidth 64))) ∧
    (s.mode = 1 → (∀ j < 16, s.on (mapHold j) = false) →
      let base := if hi then 8 else 0
      let good (j : Nat) : Bool := decide (getBits v (8 * j) 5 ≤ 17) && !s.on (SL_CTRL.HUSK (getBits v (8 * j) 5))
      let same (j : Nat) : Bool := getBits v (8 * j) 5 == s.rd (mapPs (base + j))
      if (List.range 8).all good = true ∨ (List.range 8).all same = true then
        ∃ t, exec (.sliceMapWrite hi v) s = .next t ∧ (∀ j < 8, t.rd (mapPs (base + j)) = getBits v (8 * j) 5 ∧
            t.on (mapHold (base + j)) = (getBits v (8 * j + 7) 1 == 1)) ∧
          s.OnlyRegs t [if hi then GLB_SLICE_MAP1.reg else GLB_SLICE_MAP0.reg]
      else exec (.sliceMapWrite hi v) s = .next (s.wr GLB_HASH_CTRL.MAP_ERR 1)) ∧
    (∃ t, exec (.hashCtrlWrite v) s = .next t ∧ s.OnlyRegs t [GLB_HASH_CTRL.reg] ∧
      (s.on GLB_HASH_CTRL.LOCK = true → t.on GLB_HASH_CTRL.LOCK = true ∧ t.rd GLB_HASH_CTRL.MODE = s.rd GLB_HASH_CTRL.MODE) ∧
      (s.on GLB_HASH_CTRL.LOCK = false → t.rd GLB_HASH_CTRL.LOCK = getBits v 1 1 ∧
        t.rd GLB_HASH_CTRL.MODE = if s.mode = 1 then getBits v 0 1 else s.rd GLB_HASH_CTRL.MODE)) ∧
    (s.slHusked p = true ∨ s.mode ≠ 1 ∧ s.active p = true ∨ getBits v 4 1 = 1 ∧ s.rd (SL_LOGICAL_ID.HEALTH p.val) ≠ 0 →
      exec (.slLogicalIdWrite p v) s = .next s) ∧
    (s.slHusked p = false → s.mode = 1 → s.rd (SL_LOGICAL_ID.HEALTH p.val) = 0 → (s.sl p).ingress = [] →
      ∃ t, exec (.slLogicalIdWrite p v) s = .next t ∧ t.rd (SL_LOGICAL_ID.LS p.val) = getBits v 0 4 ∧
        t.rd (SL_LOGICAL_ID.VALID p.val) = getBits v 4 1 ∧ (∀ q, t.sl q = s.sl q) ∧
        (∀ o, o ≠ SL_LOGICAL_ID.reg p.val → t.reg o = s.reg o)) ∧
    (let cores : List Nat := (List.range 4).map fun k => getBits v (3 * k) 3
      if cores.Nodup ∧ ∀ c ∈ cores, s.rd BOOT_CORE_MAP.HEALTHY / 2 ^ c % 2 = 1 then
        exec (.bootCoreMapWrite v) s = .next (s.wr BOOT_CORE_MAP.CORES (getBits v 0 12))
      else exec (.bootCoreMapWrite v) s = .next s)

/-- A read of a queue whose drain bank is empty, and whose fill bank holds no committed item, by a 16-byte load or by the 8-byte
load that reads an item, returns the native word of all zeros and changes nothing. -/
def Obligations.IdleItemChangesNothing : Prop :=
  ∀ (s : State) (q : QueueId), 70 ≤ q.val → s.mode ≠ 0 → (s.pq q.val).drain = [] → (s.pq q.val).fill = [] →
    exec (.pqDataRead q .full) s = .next (s.emit (.pqItem q 0#128)) ∧
    exec (.pqDataRead q .low) s = .next (s.emit (.pqItem q 0#128)) ∧ (0#128).extractLsb' 0 8 = 0x00#8

/-- PQ_DATA_READ of the capture queue in arrival order returns and removes the oldest item of the drain bank, with its valid bytes
and end of packet; the upper half of an 8-byte read is returned from the latch, and a narrow load is an error. PQ_FILL_WRITE
appends bytes or rewinds the open word. PQ_RESET empties a queue; POINTER_MISMATCH_RESET also counts and reports it;
CROSSING_REPLAY is reported. -/
def Obligations.QueuesAreReadFilledAndReset : Prop :=
  ∀ (s : State) (q : QueueId) (i : PqItem) (rest : List PqItem) (v : Word), s.mode ≠ 0 →
    ((s.pq 75).drain = i :: rest → s.on (PQ_CTRL.ORDER 75) = false → i.vbc ≤ 16 →
      ∃ t, exec (.pqDataRead 75 .full) s = .next t ∧ t.out = s.out ++ [.pqItem 75 i.word] ∧ (t.pq 75).drain = rest ∧
        (t.pq 75).fill = (s.pq 75).fill ∧ t.rd (PQ_STATUS.POP_VBC 75) = i.vbc ∧ t.on (PQ_STATUS.POP_EOP 75) = i.eop ∧
        (∀ k, k ≠ 75 → t.pq k = s.pq k) ∧ t = { s with regs := t.regs, queues := t.queues, out := t.out }) ∧
    (70 ≤ q.val → exec (.pqDataRead q .high) s = .next (s.emit (.pqItem q ((s.pq q.val).latched.setWidth 128)))) ∧
    (q.val < 70 → exec (.pqDataRead q .full) s = .next (s.emit (.pqItem q 0#128))) ∧
    (exec (.pqDataRead q .narrow) s = .next (s.preciseError (queueCore q.val) (regAddress (PQ_CTRL.reg q.val + 0x40)))) ∧
    (s.captureOpen = true → getBits v 35 1 = 1 →
      exec (.pqFillWrite v) s = .next (s.modPq 75 fun y => { y with openBytes := [] })) ∧
    (s.captureOpen = true → getBits v 35 1 = 0 → getBits v 34 1 = 0 →
      (s.pq 75).openBytes.length + getBits v 32 2 + 1 < 16 → exec (.pqFillWrite v) s = .next (s.modPq 75 fun y =>
        { y with openBytes := (s.pq 75).openBytes ++ leBytes (getBits v 32 2 + 1) (getBits v 0 32) })) ∧
    (s.captureOpen = false → exec (.pqFillWrite v) s = .next s) ∧
    (70 ≤ q.val → q.val ≠ 74 → ∃ t, exec (.pqReset q) s = .next t ∧ (t.pq q.val).fill = [] ∧ (t.pq q.val).drain = [] ∧
      (t.pq q.val).openBytes = [] ∧ t.on (PQ_STATUS.FILL_BANK q.val) = false ∧ (∀ k, k ≠ q.val → t.pq k = s.pq k) ∧
      (∀ o, o ≠ PQ_STATUS.reg q.val → t.reg o = s.reg o) ∧ t = { s with regs := t.regs, queues := t.queues }) ∧
    (q.val < 70 → exec (.pqReset q) s = .next s) ∧
    (exec (.pointerMismatchReset q) s =
      .next (((((s.emptyQueue q.val).wr (PQ_STATUS.RESET_SEEN q.val) 1).inc (PQ_STATUS.RESET_COUNT q.val)).queueInterrupt
        q.val).major (queueSource q.val) (queueEvent q.val 0))) ∧
    (q.val < 70 → s.on (PQ_STATUS.RESET_SEEN q.val) = true →
      exec (.crossingReplay q) s = .next (s.minor (queueSource q.val) (queueEvent q.val 1)))

/-- MAILBOX_DOORBELL on an unreachable or ringing mailbox changes nothing, on a closed one completes with Busy, and else writes opcode,
input and length and rings. P_COMPLETE and S_COMPLETE clear a ringing doorbell with an interrupt where enabled. P_BG_DONE and S_BG_DONE
end a background command of the mailbox only when its work has ended; before, they change nothing, but go on with a region's recall. Every
mailbox command of another opcode than the one held changes nothing, one past step 3 of DRAIN is Busy, one of another length Invalid
Payload Length, one whose input cannot be read Internal Error (codes: log 18). -/
def Obligations.MailboxDoorbellsAndRefusals : Prop :=
  ∀ (s : State) (mb : Mailbox) (op : BitVec 16) (input : List Byte) (g : Background),
    (s.mbxReachable mb = false ∨ s.on (bellFld mb) = true → exec (.mailboxDoorbell mb op input) s = .next s) ∧
    (s.mbxReachable mb = true → s.on (bellFld mb) = false → s.on (closedFld mb) = true →
      ∃ t, exec (.mailboxDoorbell mb op input) s = .next t ∧ t.on (bellFld mb) = false ∧ (t.mbx mb).rc = 6#16 ∧
        t.out.getLast? = some (.mbxDone mb (s.mbx mb).intEnable) ∧ t.mbx (otherMbx mb) = s.mbx (otherMbx mb)) ∧
    (s.mbxReachable mb = true → s.on (bellFld mb) = false → s.on (closedFld mb) = false →
      ∃ t, exec (.mailboxDoorbell mb op input) s = .next t ∧ t.on (bellFld mb) = true ∧ (t.mbx mb).opcode = op ∧
        (t.mbx mb).len = input.length ∧ (t.mbx mb).answered = false ∧ t.mbx (otherMbx mb) = s.mbx (otherMbx mb) ∧
        t.sram = (s.ctrlWrite (.payload mb) 0 (input.take 4096)).sram) ∧
    (s.mode = 0 ∨ s.on (bellFld mb) = false → exec (completeOf mb) s = .next s) ∧
    (s.mode ≠ 0 → s.on (bellFld mb) = true →
      ∃ t, exec (completeOf mb) s = .next t ∧ t.on (bellFld mb) = false ∧ t.on (bellFld (otherMbx mb)) = s.on (bellFld (otherMbx mb)) ∧
        t.mbx mb = { s.mbx mb with answered := false } ∧ t.mbx (otherMbx mb) = s.mbx (otherMbx mb) ∧
        t.out = s.out ++ [.mbxDone mb (s.mbx mb).intEnable] ∧ (∀ o, o ≠ MBX_CTRL.reg → t.reg o = s.reg o)) ∧
    (s.mode ≠ 0 → (∀ b, s.fw.bg = some b → b.mb ≠ mb) →
      exec (bgDoneOf mb) s = .next (s.emit (.mbxBgDone mb (s.mbx mb).bgIntEnable))) ∧
    (s.mode ≠ 0 → s.fw.bg = some g → g.mb = mb → s.bgEnded g = none → exec (bgDoneOf mb) s = .next (s.bgGoOn g) ∧
      (g.opcode ≠ 0xC1A0#16 ∨ s.recalling g.arg = true → exec (bgDoneOf mb) s = .next s)) ∧
    (∀ rc, s.mode ≠ 0 → s.fw.bg = some g → g.mb = mb → s.bgEnded g = some rc →
      ∃ t irq, exec (bgDoneOf mb) s = .next t ∧ (t.mbx mb).bgPercent = 100 ∧ (t.mbx mb).bgRc = BitVec.ofNat 16 rc ∧
        t.out.getLast? = some (.mbxBgDone mb irq)) ∧
    (∀ (i : Instr) (code : Nat) (n : Option Nat), mailboxForm i = some (mb, code, n) →
      let answer (u : State) (rc : BitVec 16) : State := u.modMbx mb fun x => { x with rc := rc, len := 0, answered := true }
      (s.mayAnswer mb = false ∨ (s.mbx mb).opcode.toNat ≠ code → exec i s = .next s) ∧
      (s.mayAnswer mb = true → (s.mbx mb).opcode.toNat = code →
        (s.drainClosing = true → exec i s = .next (answer s 6#16)) ∧
        (s.drainClosing = false → ∀ u b bad, s.ctrlRead (.payload mb) 0 (min 4096 (s.mbx mb).len) = (u, b, bad) →
          (bad = true → exec i s = .next (answer u 4#16)) ∧
          (bad = false → ∀ k, n = some k → k ≠ (s.mbx mb).len → exec i s = .next (answer u 0x16#16)))))

/-- Each reading mailbox command whose input is well formed completes with Success and its output: Get Home Status, Get Range Summary, Get
Scrub Summary, Get Fault History, Get Spare Inventory, Get FW Info, Get Event Records and Identify change nothing else; Read Counter
Snapshot takes a snapshot where asked, Read Sample Buffer removes what it returns, and Get Owner-Loss List removes what it consumes (with
nothing consumed the entries left are the whole list, log 105). An opcode of no command is Unsupported. Opcodes and layouts that are CXL's
are log 18. -/
def Obligations.ReadingCommandsAnswer : Prop :=
  ∀ (s : State) (mb : Mailbox) (b : List Byte) (log : Fin 4) (op : BitVec 16) (k i : Nat),
    (s.Holds mb 0xC100 [] → exec (.getHomeStatus mb) s = .next (s.reply mb 0 s.homeStatus) ∧
      s.homeStatus.take 2 = leBytes 2 (s.view GLB_MODE.reg).toNat) ∧
    (s.Holds mb 0xC111 [] → exec (.getRangeSummary mb) s = .next (s.reply mb 0
      (s.regBytes [HC_RANGE_SUMMARY.reg 0, HC_RANGE_SUMMARY.reg 1, HC_RANGE_SUMMARY.reg 2, HC_RANGE_SUMMARY.reg 3]
        ++ leBytes 4 (getBits (s.reg HC_RANGE_STATUS.reg) 0 8)))) ∧
    (s.Holds mb 0xC121 [] → exec (.getScrubSummary mb) s = .next (s.reply mb 0
      (s.regBytes ((List.range 6).map SCRUB_SUMMARY.reg ++ [SCRUB_STATUS.reg])))) ∧
    (s.Holds mb 0xC130 [] → ∃ head : List Byte, head.length = 16 ∧ head.head? = some (BitVec.ofNat 8 s.validRecords.length) ∧
      exec (.getFaultHistory mb) s = .next (s.reply mb 0 (head ++ s.validRecords.flatMap fun r => leBytes 16 r.toNat))) ∧
    (s.Holds mb 0xC140 [] → exec (.getSpareInventory mb) s = .next (s.reply mb 0 s.spareInventory) ∧
      s.spareInventory.length = 16) ∧
    (s.Holds mb 0x0200 [] → exec (.getFwInfo mb) s = .next (s.reply mb 0 s.fwInfo)) ∧
    (∀ first n snap, s.Holds mb 0xC170 [BitVec.ofNat 8 (snap % 2), BitVec.ofNat 8 first, BitVec.ofNat 8 n, 0#8] →
      first < 256 → n < 256 →
      let u := if snap % 2 = 1 then s.takeSnap else s
      if 1 ≤ n ∧ n ≤ 15 ∧ first + n ≤ 79 then exec (.readCounterSnapshot mb) s = .next (u.reply mb 0
        (leBytes 8 (u.rd PMU_SNAP_TIME.TIME) ++ ((List.range (32 * n)).map (32 * first + ·)).flatMap fun k => leBytes 8 (u.snap.look 0 k)))
      else exec (.readCounterSnapshot mb) s = .next (s.reply mb 2)) ∧
    (s.Holds mb 0xC172 (leBytes 4 k) → k ≤ 127 →
      let n := min s.samples.length (if k = 0 then 127 else k)
      ∃ t out, exec (.readSampleBuffer mb) s = .next t ∧ t = { s with samples := s.samples.drop n }.reply mb 0 out ∧
        out.take 2 = leBytes 2 n ∧ out.drop 8 = (s.samples.take n).flatMap fun (r : BitVec 256) => leBytes 32 r.toNat) ∧
    (s.Holds mb 0xC172 (leBytes 4 k) → 127 < k → k < 65536 → exec (.readSampleBuffer mb) s = .next (s.reply mb 2)) ∧
    (s.Holds mb 0xC180 (leBytes 2 k) → k < 65536 → ∃ out, exec (.getOwnerSetting mb) s = .next (s.reply mb 0 out) ∧
      out.length = 17 ∧ out.take 8 = leBytes 8 (s.inForce k)) ∧
    (s.Holds mb 0xC1A1 (leBytes 2 i) → i < 16384 → ∃ out, exec (.getRegionEntry mb) s = .next (s.reply mb 0 out) ∧
      out.length = 12 ∧ out.take 4 = leBytes 4 (s.regionEntry i).toNat) ∧
    (s.Holds mb 0xC151 (leBytes 2 k ++ 1#8 :: List.replicate 5 0#8) → k < 65536 →
      let n := min s.ownerLoss.length (min 511 (if k = 0 then 511 else k))
      (∀ j < n, s.lossBad j = false) → (s.ctrlRead .loss 0 (8 * n)).1 = s → (s.ctrlRead .loss 0 (8 * n)).2.2 = false →
      (s.dropLosses n).ownerLoss = s.ownerLoss.drop n ∧
      ∃ head : List Byte, head.length = 8 ∧ head.take 4 = leBytes 2 n ++ leBytes 2 (s.ownerLoss.length - n) ∧
        exec (.getOwnerLossList mb) s = .next ((s.dropLosses n).reply mb 0
          (head ++ (s.ownerLoss.take n).flatMap fun (w : Word) => leBytes 8 w.toNat))) ∧
    (s.Holds mb 0xC151 (leBytes 2 k ++ List.replicate 6 0#8) → k < 65536 →
      let n := min s.ownerLoss.length (min 511 (if k = 0 then 511 else k))
      (∀ j < n, s.lossBad j = false) → (s.ctrlRead .loss 0 (8 * n)).1 = s → (s.ctrlRead .loss 0 (8 * n)).2.2 = false →
      ∃ head : List Byte, head.length = 8 ∧ head.take 4 = leBytes 2 n ++ leBytes 2 s.ownerLoss.length ∧
        exec (.getOwnerLossList mb) s = .next (s.reply mb 0
          (head ++ (s.ownerLoss.take n).flatMap fun (w : Word) => leBytes 8 w.toNat))) ∧
    (s.Holds mb 0x0100 b → ∃ out, exec (.getEventRecords mb log) s = .next (s.reply mb 0 out) ∧
      (out.drop 20).take 12 = leBytes 12 (min 31 (s.fw.logs.look [] log.val).length)) ∧
    (s.Holds mb 0x4000 b → exec (.standardMemoryDeviceCommand mb 0x4000#16) s = .next (s.reply mb 0 s.identify)) ∧
    (s.Holds mb op.toNat b → op ≠ 0x4000#16 → op ≠ 0x4400#16 → (∀ c m n, mailboxForm c ≠ some (m, op.toNat, n)) →
      exec (.standardMemoryDeviceCommand mb op) s = .next (s.reply mb 3))

/-- Each writing mailbox command whose input is well formed has its effect and completes: at once with Success, or as a background command
with Background Command Started and one command under way. The clauses give Set Dirty Budget, Set Persistence Mode, Request Mode, Start
Range Operation, Start Scrub Pass, Set Fault Policy, Retire Unit, Set Owner-Loss Policy, Set Hedge Policy, Configure Sampling, Set Owner
Setting, Re-seal Region, Set Region Entry, Transfer FW, Activate FW and Clear Event Records. What is CXL's is log 18; the streams and
repeats of a region's recall are log 111. -/
def Obligations.WritingCommandsAct : Prop :=
  ∀ (s : State) (mb : Mailbox) (b : List Byte) (n k i j : Nat) (v seed : Word) (e : BitVec 32) (slot : BitVec 2) (image : FwImage)
    (log : Fin 4),
    (s.Holds mb 0xC101 (leBytes 1 n) → 1 ≤ n → n ≤ 128 →
      let old := s.rd GLB_DIRTY_BUDGET.BUDGET_MIB
      let u := ((s.wr GLB_DIRTY_BUDGET.BUDGET_MIB n).setOwner 0x0020 (some (BitVec.ofNat 64 n))).quotaCheck
      (old ≤ n → exec (.setDirtyBudget mb) s = .next (u.reply mb 0 (leBytes 1 old))) ∧
      (n < old → s.fw.bg = none → exec (.setDirtyBudget mb) s = .next (u.startBg mb 0xC101 0 0 (leBytes 1 old)))) ∧
    (s.Holds mb 0xC101 (leBytes 1 n) → n = 0 ∨ 128 < n ∧ n < 256 → exec (.setDirtyBudget mb) s = .next (s.reply mb 2)) ∧
    (s.Holds mb 0xC102 [0#8] → exec (.setPersistenceMode mb) s = .next (((s.setWt false).setOwner 0x0021 (some 0#64)).reply mb 0)) ∧
    (s.Holds mb 0xC102 [1#8] → s.fw.bg = none →
      exec (.setPersistenceMode mb) s = .next (((s.setWt true).setOwner 0x0021 (some 1#64)).startBg mb 0xC102 0 0)) ∧
    (s.Holds mb 0xC103 [4#8] → s.mode = 2 ∨ s.mode = 3 → s.on GLB_MODE.CHANGING = false →
      ∃ t, exec (.requestMode mb) s = .next t ∧ t.mode = 4 ∧ t.rd GLB_MODE.CAUSE = 2 ∧ t.on MBX_CTRL.P_CLOSED = true ∧
        t.on MBX_CTRL.S_CLOSED = true ∧ (t.mbx mb).rc = 0#16 ∧ (t.mbx mb).len = 8) ∧
    (s.Holds mb 0xC103 [3#8] → s.mode = 2 → s.on GLB_MODE.CHANGING = false → s.fw.bg = none → s.dormBlocked = false →
      exec (.requestMode mb) s = .next ((s.startDormant 2).startBg mb 0xC103 50 0)) ∧
    (s.Holds mb 0xC103 (leBytes 1 n) → n < 2 ∨ 4 < n ∧ n < 256 → exec (.requestMode mb) s = .next (s.reply mb 2)) ∧
    (s.Holds mb 0xC110 (leBytes 8 (64 * i) ++ leBytes 8 (64 * k) ++ leBytes 8 n) → i < 2 ^ 42 → k < 2 ^ 42 → n < 256 →
      s.on HC_RANGE_STATUS.BUSY = false → s.fw.bg = none →
      let u := (s.wr HC_RANGE_BASE.LINE i).wr HC_RANGE_LIMIT.LINE k
      if u.rangeError n false false = 0 then exec (.startRangeOperation mb) s = .next ((u.startRange n false false).startBg mb 0xC110 0 0)
      else exec (.startRangeOperation mb) s = .next (s.reply mb 2)) ∧
    (s.Holds mb 0xC120 (leBytes 8 n ++ leBytes 4 i ++ leBytes 4 j ++ leBytes 8 k) → n < 2 ^ 26 → n % 256 < 128 → i < 2 ^ 22 →
      j < 2 ^ 22 → k < 2 ^ 28 → s.mode = 2 → s.on SCRUB_STATUS.BUSY = false → s.fw.bg = none →
      let u := (s.plain SCRUB_TARGET.reg (BitVec.ofNat 64 n)).plain SCRUB_RANGE.reg (BitVec.ofNat 64 (i + j * 2 ^ 32))
      let w := (u.wr SCRUB_START.PACE (k % 2 ^ 16)).wr SCRUB_START.MEDIA_KSTRIPES (k / 2 ^ 16)
      if w.scrubError = 0 then exec (.startScrubPass mb) s = .next (w.startScrub.startBg mb 0xC120 0 0)
      else exec (.startScrubPass mb) s = .next (s.reply mb 2)) ∧
    (s.Holds mb 0xC131 (leBytes 8 n ++ leBytes 8 v.toNat) → n < 0x5B ∨ n = 0x5C → v &&& 0xFFFF8000#64 = 0#64 →
      exec (.setFaultPolicy mb) s = .next (((s.plain (FLT_SRC_CFG.reg n) v).setOwner (0x0100 + n) (some v)).reply mb 0
        (leBytes 8 (s.reg (FLT_SRC_CFG.reg n)).toNat))) ∧
    (s.Holds mb 0xC141 [1#8, BitVec.ofNat 8 k, 0#8, 1#8, 0#8, 0#8, 0#8, 0#8] → k < 38 →
      s.rd (MF_CH_STATE.STATE k) = 1 ∨ s.rd (MF_CH_STATE.STATE k) = 2 → s.spareChannel.isSome = true → s.fw.bg = none →
      s.fw.retiring = [] → exec (.retireUnit mb) s = .next ((s.addRetire ⟨1, k, 1, 0⟩).startBg mb 0xC141 1 k)) ∧
    (s.Holds mb 0xC150 (leBytes 2 i ++ leBytes 1 n) → i < 16384 → n ≤ 1 → rgTracked (s.regionEntry i) = true →
      let e1 := (s.regionEntry i &&& ~~~8#32) ||| BitVec.ofNat 32 (n * 8)
      exec (.setOwnerLossPolicy mb) s =
        .next ((s.regionDone i e1).reply mb 0)) ∧
    (s.Holds mb 0xC160 (1#8 :: List.replicate 15 0#8) → exec (.setHedgePolicy mb) s =
      .next (((s.plain MF_HEDGE_CTRL.reg 1#64).setOwner 0x0030 (some 1#64)).reply mb 0 (leBytes 8 (s.reg MF_HEDGE_CTRL.reg).toNat))) ∧
    (s.Holds mb 0xC171 (leBytes 8 v.toNat ++ leBytes 8 seed.toNat) → v &&& 0xFFFFFE00#64 = 0#64 → seed &&& 0xFFFE000000000000#64 = 0#64 →
      if sampleRefused v = true then exec (.configureSampling mb) s = .next (s.reply mb 2)
      else exec (.configureSampling mb) s =
        .next (((s.writeSampleSeed seed).writeSampleCtrl v).reply mb 0 (leBytes 8 (s.reg PMU_SAMPLE_CTRL.reg).toNat))) ∧
    (s.Holds mb 0xC181 (leBytes 8 k ++ leBytes 8 v.toNat) → k < 65536 → s.fw.bg = none →
      if ownerKey k = true then ∃ out, exec (.setOwnerSetting mb) s = .next ((s.setOwner k (some v)).startBg mb 0xC181 k 0 out) ∧
        out.take 8 = leBytes 8 (s.inForce k)
      else exec (.setOwnerSetting mb) s = .next (s.reply mb 2)) ∧
    (s.Holds mb 0xC190 (leBytes 2 i ++ 1#8 :: List.replicate 5 0#8) → i < 16384 → i ∈ s.mf.unknownRegions → s.fw.bg = none →
      let u := (s.resealLines i).foldl (fun s l => s.issue .writeLine l .reseal (s.writeClass false) 0#512 (deNone s.epoch true))
        (s.emit (.cipherRebuild i))
      exec (.resealRegion mb) s = .next (u.startBg mb 0xC190 i (s.resealLines i).length)) ∧
    (s.Holds mb 0xC1A0 (leBytes 4 i ++ leBytes 4 e.toNat) → i < 16384 → s.regionRefused i e = false → s.fw.bg = none →
      let old := s.regionEntry i
      let u := if needsRecall old e = true then (s.writeRegion i (interimEntry old e)).recallRegion i (BitVec.allOnes 16) else s
      exec (.setRegionEntry mb) s = .next (u.startBg mb 0xC1A0 i (e.toNat + old.toNat * 2 ^ 32))) ∧
    (s.Holds mb 0x0201 b → slot = 1#2 ∨ slot = 2#2 → slot.toNat ≠ s.boot.slot → s.store.stopped = false →
      exec (.transferFw mb slot image) s = .next (({ s with store := { s.store with
        programs := s.store.programs ++ [StoreWrite.image slot.toNat image] } }.emit .storeProgram).reply mb 0)) ∧
    (s.Holds mb 0x0201 b → slot = 0#2 ∨ slot = 3#2 ∨ slot.toNat = s.boot.slot →
      exec (.transferFw mb slot image) s = .next (s.reply mb 0xB)) ∧
    (s.Holds mb 0x0202 b → (s.store.image slot.toNat).valid = true →
      exec (.activateFwOffline mb slot) s = .next ((s.commit (.activeSlot slot.toNat)).reply mb 0)) ∧
    (s.Holds mb 0x0202 b → s.mode = 2 ∨ s.mode = 3 → s.on BOOT_ACT.TRIAL = false → s.fw.retiring = [] → s.fw.bg = none →
      (s.store.image slot.toNat).valid = true → (s.store.image slot.toNat).oldestLayout ≤ s.boot.running.train →
      exec (.activateFwOnline mb slot) s =
        .next (((s.wr BOOT_ACT.LOAD_ERR 0).loadStandby slot.toNat).startBg mb 0x0202 slot.toNat (s.rd BOOT_ACT.ACT_COUNT))) ∧
    (s.Holds mb 0x0101 b → n ≤ (s.fw.logs.look [] log.val).length →
      exec (.clearEventRecords mb log n) s = .next ({ s with fw := { s.fw with
        logs := s.fw.logs.put [] log.val ((s.fw.logs.look [] log.val).drop n),
        overflow := s.fw.overflow.put 0 log.val 0 } }.reply mb 0)) ∧
    (
      let u := s.startBg mb k n i
      u.fw.bg = some ⟨mb, BitVec.ofNat 16 k, n, i⟩ ∧ (u.mbx mb).rc = 1#16 ∧ (u.mbx mb).answered = true ∧ (u.mbx mb).bgPercent = 0 ∧
      u.out = s.out)

/-- With firmware running, Get Version, Get Capabilities, Negotiate Algorithms and Get Digests are answered; slot 0 alone has a
chain, whose part is answered; a challenge of slot 0 and signed measurements carry a signature with a nonce of the responder
(free, log 1), and an error while MISMATCH is 1. Measurements 1 to 5 exist. Without firmware nothing is answered. The message
codes are log 26. -/
def Obligations.SpdmIsAnsweredAndSigned : Prop :=
  ∀ (s : State) (via : SpdmBus) (slot index : BitVec 8) (offset len : Nat) (sg : Bool) (nonce : BitVec 256) (c : Instr),
    c = .spdmGetVersion via ∨ c = .spdmGetCapabilities via ∨ c = .spdmNegotiateAlgorithms via ∨ c = .spdmGetDigests via ∨
      c = .spdmGetCertificate via slot offset len ∨ c = .spdmChallenge via slot nonce ∨
      c = .spdmGetMeasurements via index sg nonce →
    let signed (request body : List Nat) (code : Nat) : State :=
      let all := body ++ ((List.range 4).map fun i => (Config.freeWord (s.freeTick + i)).toNat)
      { s with freeTick := s.freeTick + 4, out := s.out ++ [.spdm via code all
        (some (Config.sign (Config.sha384 (8 * transcript (request ++ all) + 6))))] }
    let error : Out := .spdm via 0x7F [] none
    (s.mode = 0 ∨ s.on BOOT_STATUS.ROM_DONE = false → exec c s = .next s) ∧
    (s.mode ≠ 0 → s.on BOOT_STATUS.ROM_DONE = true →
      (c = .spdmGetVersion via → exec c s = .next (s.emit (.spdm via 0x04 [0x12] none))) ∧
      (c = .spdmGetCapabilities via → exec c s = .next (s.emit (.spdm via 0x61 [0x12, 0x16] none))) ∧
      (c = .spdmNegotiateAlgorithms via → exec c s = .next (s.emit (.spdm via 0x63 [0x80, 0x02] none))) ∧
      (c = .spdmGetDigests via → exec c s = .next (s.emit (.spdm via 0x01 [0x01, (Config.sha384 5).toNat] none))) ∧
      (c = .spdmGetCertificate via slot offset len →
        let part := (Config.certChain.drop offset).take len
        exec c s = .next (s.emit (if slot = 0#8 then
          .spdm via 0x02 (part.length :: (Config.certChain.length - offset - part.length) :: part.map (·.toNat)) none else error))) ∧
      (c = .spdmChallenge via slot nonce → slot = 0#8 → s.on BOOT_STATUS.MISMATCH = false →
        exec c s = .next (signed [0x83, 0, nonce.toNat] [0x01, (Config.sha384 5).toNat] 0x03)) ∧
      (c = .spdmChallenge via slot nonce → slot ≠ 0#8 → exec c s = .next (s.emit error)) ∧
      (c = .spdmGetMeasurements via index sg nonce → 5 < index.toNat → index.toNat < 255 → exec c s = .next (s.emit error)) ∧
      (c = .spdmGetMeasurements via index sg nonce → 1 ≤ index.toNat → index.toNat ≤ 4 →
        let body := [1, index.toNat, measType index.toNat, (s.meas index.toNat).toNat]
        (sg = false → exec c s = .next (s.emit (.spdm via 0x60 body none))) ∧
        (sg = true → s.on BOOT_STATUS.MISMATCH = false → exec c s = .next (signed [0xE0, index.toNat, nonce.toNat] body 0x60)) ∧
        (sg = true → s.on BOOT_STATUS.MISMATCH = true →
          exec c s = .next { s with freeTick := s.freeTick + 4, out := s.out ++ [error] })) ∧
      (c = .spdmGetMeasurements via index sg nonce → index = 0#8 → sg = false →
        exec c s = .next (s.emit (.spdm via 0x60 [5] none))))

/-- In SPROUT, with the sequence not halted and no load running, ACORN_ROM_SEQUENCE takes the step after the one ended: self-test and
index 1, core map, measured load of the slot in force, factory signature and index 3, owner copy, enforcement, release and log, and then,
with no MISMATCH and the invalidation ended, the configuration with the sequence's last step. RING_ENUMERATION records every slice's
answer. MEASURED_LOAD_BLOCK counts blocks and failures; the last block of a boot load sets SLOT and the running image; a failed boot load
tries the other slot, then stops. -/
def Obligations.BootGoesStepByStep : Prop :=
  ∀ (s : State) (r : AcornInput) (answers : List Nat) (l : Load),
    (s.mode = 1 → s.boot.halted = false → s.boot.load = none →
      let go (t : State) : Prop := exec (.acornRomSequence r) s = .next t
      (s.boot.step = 0 → r.healthy = 0#5 → ∃ t, go t ∧ t.boot.halted = true ∧ t.boot.step = 0) ∧
      (s.boot.step = 0 → r.healthy ≠ 0#5 → ∃ t, go t ∧ t.boot = { s.boot with step := 1 } ∧
        t.rd BOOT_CORE_MAP.HEALTHY = r.healthy.toNat ∧ ∀ w < 6, t.reg (BOOT_MEAS.reg (1, w)) = romDigest.extractLsb' (64 * w) 64) ∧
      (s.boot.step = 2 → go (s.loadCoreMap.bootStep 3)) ∧
      (s.boot.step = 3 → ∃ t, go t ∧ t.boot.load = some ⟨s.store.activeSlot, false, 0, 0, true⟩ ∧ t.boot.bankA = none ∧
        t = { s with boot := t.boot }) ∧
      (s.boot.step = 4 → r.signatureOk = true → ∃ t, go t ∧ t.on BOOT_STATUS.FACT_OK = true ∧ t.boot = { s.boot with step := 5 } ∧
        ∀ w < 6, t.reg (BOOT_MEAS.reg (3, w)) = (factoryDigest s.store).extractLsb' (64 * w) 64) ∧
      (s.boot.step = 4 → r.signatureOk = false → ∃ t, go t ∧ t.boot.halted = true ∧ t = { s with boot := t.boot }) ∧
      (s.boot.step = 5 → go (s.readOwner.bootStep 6)) ∧
      (s.boot.step = 6 → ((s.store.setting 0x0070).getD 0#64).getLsbD 0 = false → go (s.bootStep 7)) ∧
      (s.boot.step = 6 → ((s.store.setting 0x0070).getD 0#64).getLsbD 0 = true →
        s.on BOOT_STATUS.MISMATCH = false → ∀ c, s.store.owner = some c →
        ∃ t, go t ∧ t.on BOOT_STATUS.ENFORCE = true ∧ t.boot = { s.boot with step := 7 } ∧
          (t.on BOOT_STATUS.MISMATCH = false ↔ ∃ k < 4, listedDigest c k = some (s.meas 2))) ∧
      (s.boot.step = 7 → s.rd BOOT_LOG.NEXT = s.boot.log.length → s.boot.log.length < 251 → ∃ t, go t ∧
        t.on BOOT_STATUS.ROM_DONE = true ∧ t.boot.step = 8 ∧ (∀ k : LogicalCore, (t.core k).halted = false) ∧
        t.boot.log.length = s.boot.log.length + 4 ∧ t.boot.log.take s.boot.log.length = s.boot.log) ∧
      (s.boot.step = 8 → s.on BOOT_STATUS.MISMATCH = false → s.boot.invalidated = true → go s.loadConfig ∧
        s.loadConfig.boot.step = 9 ∧ s.loadConfig.ownerLoss = s.store.savedLosses) ∧
      (s.boot.step = 8 → s.on BOOT_STATUS.MISMATCH = true ∨ s.boot.invalidated = false → go s)) ∧
    (s.mode = 1 → s.boot.halted = false → s.boot.step = 1 →
      let health (p : PhysSlice) : Nat := match answers[p.val]? with | some a => min a 3 | none => 3
      ∃ t, exec (.ringEnumeration answers) s = .next t ∧ t.boot = { s.boot with step := 2 } ∧
        (∀ p : PhysSlice, t.rd (SL_LOGICAL_ID.HEALTH p.val) = health p) ∧
        (∀ p : PhysSlice, t.rd BOOT_ENUM.PRESENT / 2 ^ p.val % 2 = (if health p < 3 then 1 else 0) ∧
          t.rd BOOT_ENUM.HEALTHY / 2 ^ p.val % 2 = (if health p = 0 then 1 else 0)) ∧
        t = { s with regs := t.regs, boot := t.boot }) ∧
    (s.boot.load = none → ∀ b, exec (.measuredLoadBlock b) s = .next s) ∧
    (s.loading l → l.block + 1 < (s.store.image l.slot).blocks →
      let u := s.loadBlock l.bankB (s.store.image l.slot) l.block
      exec (.measuredLoadBlock true) s =
        .next { u with boot := { u.boot with load := some { l with block := l.block + 1, failures := 0 } } }) ∧
    (s.loading l → l.boot = true → (s.store.image l.slot).blocks ≤ l.block + 1 → ∃ t, exec (.measuredLoadBlock true) s = .next t ∧
      t.rd BOOT_STATUS.SLOT = l.slot % 4 ∧ t.boot.load = none ∧ t.boot.step = 4 ∧ t.boot.running = s.store.image l.slot ∧
      t.boot.bankA = some (s.store.image l.slot) ∧ t.boot.slot = l.slot) ∧
    (s.loading l → l.boot = false → (s.store.image l.slot).blocks ≤ l.block + 1 → ∃ t, exec (.measuredLoadBlock true) s = .next t ∧
      t.on BOOT_ACT.STANDBY_VALID = true ∧ t.rd BOOT_ACT.STANDBY_SLOT = l.slot % 4 ∧ t.on BOOT_ACT.BUSY = false ∧ t.boot.load = none) ∧
    (s.boot.load = some l → l.failures < 3 → exec (.measuredLoadBlock false) s =
      .next { s with boot := { s.boot with load := some { l with failures := l.failures + 1 } } }) ∧
    (s.boot.load = some l → 3 ≤ l.failures → l.boot = true → s.boot.triedOther = true → ∃ t, exec (.measuredLoadBlock false) s = .next t ∧
      t.boot.halted = true ∧ t.boot.load = none) ∧
    (s.boot.load = some l → 3 ≤ l.failures → l.boot = true → s.boot.triedOther = false → ∃ t, exec (.measuredLoadBlock false) s = .next t ∧
      t.on BOOT_STATUS.FALLBACK = true ∧ t.boot.load = some ⟨if l.slot = 1 then 2 else 1, false, 0, 0, true⟩)

/-- BOOT_LOAD of a slot that the standby bank does not hold sets BUSY and begins its load; of one it holds, only LOAD_SLOT.
BOOT_SWITCH outside HOLD and DRAIN exchanges the banks, counts the activation and begins a trial. BOOT_CONFIRM ends it and
commits the slot. TRIAL_EXPIRY once its time has passed exchanges the banks again. CONFIG_PROGRAM_ACK completes the oldest
program of the store. -/
def Obligations.LiveActivationSwitchesAndRollsBack : Prop :=
  ∀ (s : State) (slot : BitVec 2) (w : StoreWrite) (rest : List StoreWrite) (u : Nat),
    let count := (s.rd BOOT_ACT.ACT_COUNT + 1) % 2 ^ 32
    let exchanged (t : State) : Prop := t.rd BOOT_ACT.ACTIVE = 1 - s.rd BOOT_ACT.ACTIVE ∧ t.rd BOOT_ACT.ACT_COUNT = count ∧
      t.rd BOOT_ACT.STANDBY_SLOT = s.boot.slot % 4 ∧ t.boot.slot = s.rd BOOT_ACT.STANDBY_SLOT ∧
      t.boot.running = s.bank s.standbyIsB ∧ t.boot.bankA = s.boot.bankA ∧ t.boot.bankB = s.boot.bankB ∧
      (∀ k : LogicalCore, (t.sramReserved.look 0 k.val) = 0)
    (s.mode ≠ 0 → s.on BOOT_ACT.BUSY = true → exec (.bootLoad slot) s = .next s) ∧
    (s.mode ≠ 0 → s.on BOOT_ACT.BUSY = false → s.on BOOT_ACT.STANDBY_VALID = true → s.rd BOOT_ACT.STANDBY_SLOT = slot.toNat →
      exec (.bootLoad slot) s = .next (s.wr BOOT_ACT.LOAD_SLOT slot.toNat)) ∧
    (s.mode ≠ 0 → s.on BOOT_ACT.BUSY = false → s.on BOOT_ACT.STANDBY_VALID = false ∨ s.rd BOOT_ACT.STANDBY_SLOT ≠ slot.toNat →
      ∃ t, exec (.bootLoad slot) s = .next t ∧ t.on BOOT_ACT.BUSY = true ∧ t.on BOOT_ACT.STANDBY_VALID = false ∧
        t.rd BOOT_ACT.LOAD_SLOT = slot.toNat ∧ t.boot.load = some ⟨slot.toNat, !s.on BOOT_ACT.ACTIVE, 0, 0, false⟩ ∧
        s.OnlyRegs { t with boot := s.boot } [BOOT_ACT.reg]) ∧
    (s.mode ≠ 0 → s.mode ≠ 4 → s.on BOOT_STATUS.ROM_DONE = true → s.Canonical → ∃ t, exec .bootSwitch s = .next t ∧ exchanged t ∧
      t.on BOOT_ACT.TRIAL = true ∧ t.on BOOT_ACT.LIVE = true ∧
      t.boot.trialUntil = some (s.now + max 1 (s.rd BOOT_ACT.TRIAL_MS) * 1000)) ∧
    (s.mode = 4 → exec .bootSwitch s = .next s) ∧
    (s.mode ≠ 0 → s.on BOOT_ACT.TRIAL = true → s.store.stopped = false → ∃ t, exec .bootConfirm s = .next t ∧
      t.on BOOT_ACT.TRIAL = false ∧ t.boot = { s.boot with trialUntil := none } ∧
      t.store.programs = s.store.programs ++ [.repair (.activeSlot s.boot.slot)] ∧ s.OnlyRegs { t with
        boot := s.boot, store := s.store, fw := s.fw, out := s.out } [BOOT_ACT.reg]) ∧
    (s.mode ≠ 0 → s.on BOOT_ACT.TRIAL = false → exec .bootConfirm s = .next s) ∧
    (s.boot.trialUntil = some u → u ≤ s.now → s.mode ≠ 0 → s.Canonical → ∃ t, exec .trialExpiry s = .next t ∧ exchanged t ∧
      t.on BOOT_ACT.TRIAL = false ∧ t.on BOOT_ACT.ROLLED_BACK = true ∧ t.boot.trialUntil = none) ∧
    (s.boot.trialUntil = none ∨ s.boot.trialUntil = some u ∧ s.now < u → exec .trialExpiry s = .next s) ∧
    (s.store.programs = w :: rest → ∃ t, exec .configProgramAck s = .next t ∧ t.store.programs = rest ∧
      t.store = { s.store.apply w with programs := rest } ∧ t = { s with store := t.store }) ∧
    (s.store.programs = [] → exec .configProgramAck s = .next s)

/-- DMA_GO to an idle or halted channel clears its status and makes it ready, or paused where PAUSE is 1; to another it is
ignored. DMA_PAUSE takes a ready channel out of the ready set, DMA_RESUME puts a paused one back, DMA_DISABLE drains a utility
channel and DMA_DRAIN_DONE ends that. DMA_CHANNEL_START runs the next ready channel. DESCRIPTOR_FETCH takes a good descriptor
and halts on a bad one, DMA_READ_RESPONSE gives source bytes, DESCRIPTOR_COMPLETE ends a list, and DMA_BUS_ERROR halts the
engine's channels. Requests are issued one at a time (log 25). -/
def Obligations.DmaChannelsRunTheirLists : Prop :=
  ∀ (s : State) (c : DmaChannel) (b : BitVec 1024) (d : Descriptor) (line : LineData) (a : Word) (e : Fin 2), s.mode ≠ 0 →
    let x := s.chan c
    let n := c.val
    let dropped : DmaState := { DmaState.idle with reading := x.reading, writesOut := x.writesOut }
    (s.dcState c = 0 ∨ s.dcState c = 4 → n < 8 ∨ s.on (DC_CTRL.DISABLE n) = false → ∃ t, exec (.dmaGo c) s = .next t ∧
      t.dcState c = (if n < 8 ∧ s.on (DC_CTRL.PAUSE n) = true then 3 else 1) ∧ t.on (DC_STATUS.DONE n) = false ∧
      t.on (DC_STATUS.ERR n) = false ∧ t.rd (DC_STATUS.CODE n) = 0 ∧ t.rd (DC_STATUS.DESCS n) = 0 ∧ t.chan c = dropped ∧
      (t.engine (engineOf c)).stopped = false ∧ ∀ o, o ≠ DC_STATUS.reg n → t.reg o = s.reg o) ∧
    (s.dcState c ≠ 0 → s.dcState c ≠ 4 → exec (.dmaGo c) s = .next s) ∧
    (n < 8 → s.dcState c = 1 → ∃ t, exec (.dmaPause c) s = .next t ∧ t.on (DC_CTRL.PAUSE n) = true ∧ t.dcState c = 3 ∧
      s.OnlyRegs t [DC_CTRL.reg n, DC_STATUS.reg n]) ∧
    (n < 8 → s.dcState c = 2 → s.dmaClosed = false → x.desc = none → x.reading = none → ∃ t, exec (.dmaPause c) s = .next t ∧
      t.on (DC_CTRL.PAUSE n) = true ∧ t.dcState c = 3 ∧ (t.engine (engineOf c)).running ≠ some c) ∧
    (n < 8 → s.dcState c = 3 → ∃ t, exec (.dmaResume c) s = .next t ∧ t.on (DC_CTRL.PAUSE n) = false ∧ t.dcState c = 1 ∧
      s.OnlyRegs t [DC_CTRL.reg n, DC_STATUS.reg n]) ∧
    (8 ≤ n → s.dcState c ≠ 0 → s.dcState c ≠ 5 → ∃ t, exec (.dmaDisable c) s = .next t ∧ t.on (DC_CTRL.DISABLE n) = true ∧
      t.dcState c = 5 ∧ t.chan c = dropped ∧ (t.engine (engineOf c)).running ≠ some c ∧ t.out = s.out ∧
      ∀ o, o ∉ [DC_CTRL.reg n, DC_STATUS.reg n, DC_DESC_PTR.reg n, DC_COUNT.reg n] → t.reg o = s.reg o) ∧
    (s.dcState c = 5 → x.reading = none → x.writesOut = [] → ∃ t, exec (.dmaDrainDone c) s = .next t ∧ t.dcState c = 0 ∧
      s.OnlyRegs t [DC_STATUS.reg n]) ∧
    (s.dmaClosed = false → (s.engine e.val).running = none → (s.engine e.val).stopped = false → s.engineBusy e.val = false →
      s.nextReady e.val = some c → x.desc = none → x.halting = none → s.on (DC_CTRL.PAUSE n) = false →
      2 ^ 63 ≤ s.descAddr c → s.descPlace (s.descAddr c) = true → ∃ t, exec (.dmaChannelStart e) s = .next t ∧ t.dcState c = 2 ∧
        (t.engine e.val).running = some c ∧ (t.engine e.val).lastRun = n ∧ (t.chan c).reading = some .descriptor ∧
        s.OnlyRegs { t with engines := s.engines, dma := s.dma } [DC_STATUS.reg n]) ∧
    (x.reading = some .descriptor → s.dcState c = 2 → s.descAddr c < 2 ^ 63 →
      (s.descBad (s.descAddr c) b = true → ∃ t, exec (.descriptorFetch c b) s = .next t ∧ t.dcState c = 4 ∧
        t.on (DC_STATUS.ERR n) = true ∧ t.rd (DC_STATUS.CODE n) = 3 ∧ t.reg (DC_ERR.reg n) = BitVec.ofNat 64 (s.descAddr c) ∧
        t.rd (DC_COUNT.COUNT n) = (descOf b).length % 2 ^ 40) ∧
      (s.descBad (s.descAddr c) b = false → s.rangeFault c (descOf b) = none → exec (.descriptorFetch c b) s =
        .next ((((s.modChan c fun y => { y with reading := none }).setCount c (descOf b) 0).modChan c fun y => { y with
          desc := some (descOf b), wr := 0, held := [], heldDst := [], heldMd := [], mismatches := 0, firstMismatch := none,
          resultOut := false, halting := none }).dmaGoOn c))) ∧
    (x.reading = none → ∀ p, exec (.dmaReadResponse c line p) s = .next s) ∧
    (x.reading = some .source → s.dcState c = 2 → x.desc = some d →
      let at_ := d.srcAt (x.wr + x.held.length)
      at_.1 < 2 ^ 63 → exec (.dmaReadResponse c line false) s =
        .next ((((s.modChan c fun y => { y with reading := none }).count (76 + engineOf c) 1 at_.2).modChan c fun y => { y with
          held := y.held ++ bytesOfLine line (at_.1 % 64) at_.2 }).dmaGoOn c)) ∧
    (x.desc = some d → s.dcState c = 2 → d.length ≤ x.wr → x.reading = none → x.writesOut = [] → x.halting = none →
      d.op ≠ 2#2 ∨ x.resultOut = true → d.last = true → ∃ t, exec (.descriptorComplete c) s = .next t ∧ t.dcState c = 0 ∧
        t.on (DC_STATUS.DONE n) = true ∧ t.rd (DC_STATUS.DESCS n) = min (s.rd (DC_STATUS.DESCS n) + 1) (2 ^ 32 - 1) ∧
        t.chan c = DmaState.idle ∧ (t.engine (engineOf c)).running ≠ some c ∧
        (d.irqEnd = false → ∀ o, o ≠ DC_STATUS.reg n → t.reg o = s.reg o)) ∧
    (x.reading = none → x.writesOut = [] → ∀ l, exec (.dmaBusError c a l) s = .next s) ∧
    (x.reading = none → x.writesOut ≠ [] → s.dcState c = 2 → ∀ l, ∃ t, exec (.dmaBusError c a l) s = .next t ∧
      (t.engine (engineOf c)).stopped = true ∧ (t.engine (engineOf c)).running = none ∧
      (∀ k : DmaChannel, engineOf k = engineOf c → s.dcState k = 1 ∨ s.dcState k = 2 → t.dcState k = 4 ∧
        t.rd (DC_STATUS.CODE k.val) = 2 ∧ t.reg (DC_ERR.reg k.val) = a) ∧ (l = true → t.rd (DC_COUNT.COUNT n) = 0))

/-- PMU_SNAP copies every counter with its time. PEAK_CLR sets TRK_PEAK to the trackers used. SAMPLE_CTRL_WRITE of a jitter not
below the interval sets ERR alone; enabling loads every slice's LFSR and countdown. SAMPLE_SEED_WRITE loads the LFSRs.
SAMPLE_CLEAR empties the buffer; SAMPLE_DATA_READ returns word 3 of the oldest record and removes it. REGISTER_WRITE in HOLD
has no effect, misaligned or at a husked slice is an error, at a register of plain fields follows their access codes, and at
one that commands acts as the command. -/
def Obligations.CountersAndSamplesAreRead : Prop :=
  ∀ (s : State) (p : PhysSlice) (v : Word) (r : BitVec 256) (rest : List (BitVec 256)) (off : Nat),
    let loaded (seed : Nat) : BitVec 32 :=
      let x := BitVec.ofNat 32 seed ^^^ BitVec.ofNat 32 (0x00010001 * (p.val + 1))
      if x = 0#32 then 1#32 else x
    (s.mode = 0 → exec (.registerWrite off v) s = .next s) ∧
    (s.mode ≠ 0 →
      (∃ t, exec .pmuSnap s = .next t ∧ t.snap = s.pmu ∧ t.rd PMU_SNAP_TIME.TIME = s.now % 2 ^ 64 ∧
        t.rd PMU_CTRL.SNAP_SEQ = (s.rd PMU_CTRL.SNAP_SEQ + 1) % 2 ^ 32 ∧ t.pmu = s.pmu ∧
        s.OnlyRegs { t with snap := s.snap } [PMU_SNAP_TIME.reg, PMU_CTRL.reg]) ∧
      (s.slHusked p = false → ∃ t, exec (.peakClr p) s = .next t ∧ t.rd (SL_TOR_STATUS.TRK_PEAK p.val) = (s.sl p).trkUsed % 1024 ∧
        s.OnlyRegs t [SL_TOR_STATUS.reg p.val]) ∧
      (sampleRefused v = true → ∃ t, exec (.sampleCtrlWrite v) s = .next t ∧ t.on PMU_SAMPLE_CTRL.ERR = true ∧
        t.rd PMU_SAMPLE_CTRL.EN = s.rd PMU_SAMPLE_CTRL.EN ∧ t.rd PMU_SAMPLE_CTRL.N = s.rd PMU_SAMPLE_CTRL.N ∧
        s.OnlyRegs t [PMU_SAMPLE_CTRL.reg]) ∧
      (sampleRefused v = false → s.on PMU_SAMPLE_CTRL.EN = false → getBits v 0 1 = 1 → getBits v 2 1 = 0 → getBits v 4 5 = 0 →
        ∃ t, exec (.sampleCtrlWrite v) s = .next t ∧ t.on PMU_SAMPLE_CTRL.EN = true ∧ t.rd PMU_SAMPLE_CTRL.N = getBits v 32 32 ∧
          (t.sl p).countdown = max 1 (getBits v 32 32) ∧ (t.sl p).lfsr = lfsrStep (loaded (s.rd PMU_SAMPLE_SEED.SEED)) ∧
          s.OnlyRegs { t with slices := s.slices } [PMU_SAMPLE_CTRL.reg]) ∧
      (∃ t, exec (.sampleSeedWrite v) s = .next t ∧ t.rd PMU_SAMPLE_SEED.SEED = getBits v 0 32 ∧
        t.sl p = { s.sl p with lfsr := loaded (getBits v 0 32) } ∧ s.OnlyRegs { t with slices := s.slices } [PMU_SAMPLE_SEED.reg]) ∧
      (∃ t, exec .sampleClear s = .next t ∧ t.samples = [] ∧ t.rd PMU_SAMPLE_STATUS.LOST = 0 ∧
        t.rd PMU_SAMPLE_STATUS.DISCARDED = 0 ∧ t.rd PMU_SAMPLE_STATUS.ABANDONED = 0 ∧
        s.OnlyRegs { t with samples := s.samples } [PMU_SAMPLE_STATUS.reg]) ∧
      (s.samples = r :: rest → exec .sampleDataRead s = .next ({ s with samples := rest }.emit (.sampleWord (r.extractLsb' 192 64)))) ∧
      (s.samples = [] → exec .sampleDataRead s = .next (s.emit (.sampleWord 0#64))) ∧
      (off % 8 ≠ 0 → exec (.registerWrite off v) s = .next (s.count 78 6)) ∧
      (off % 8 = 0 → off < 0x1000 → 0x10 < off → s.slHusked p = true →
        exec (.registerWrite (0x20000 + 0x1000 * p.val + off) v) s = .next (s.count 78 6)) ∧
      (s.Canonical → off % 8 = 0 → 0x14000 ≤ off → off < 0x20000 → exec (.registerWrite off v) s = .next s) ∧
      (off = PWR_DORM.reg ∨ off = PWR_THERM.reg ∨ off = FLT_SRC_CFG.reg p.val → exec (.registerWrite off v) s =
        .next (s.setReg off ((access off).apply (s.reg off) v))) ∧
      (s.on HC_RANGE_STATUS.BUSY = true → exec (.registerWrite HC_RANGE_BASE.reg v) s = .next s) ∧
      exec (.registerWrite GLB_DIRTY_BUDGET.reg v) s = exec (.dirtyBudgetWrite v) s ∧
      exec (.registerWrite PMU_SAMPLE_CTRL.reg v) s = exec (.sampleCtrlWrite v) s ∧
      (getBits v 0 1 = 1 → exec (.registerWrite PMU_CTRL.reg v) s = exec .pmuSnap s))
end

