-- ==== Sys2Proof/Laws/Control.lean ====
section
/-! SUPPORT. What a read of a control memory does where every code word it touches is sound. -/

namespace Sys2Proof.Machine

/-- A read of sound code words changes nothing, gives the bytes there, and meets no error (10 R315, R317, R318). -/
theorem State.ctrlRead_sound (s : State) (sp : Space) (o n : Nat)
    (h : ∀ k ∈ halvesOf o n, ∀ m w up, codeWordOf sp (8 * k) = some (m, w, up) →
      s.readValid m w = (s, s.wordValid m w) ∧ (s.wordValid m w = true → s.devStored m w up = .good)) :
    s.ctrlRead sp o n = (s, (List.range n).map fun i => s.ctrlData sp (o + i), false) := by
  have still : ∀ l : List Nat, (∀ k ∈ l, k ∈ halvesOf o n) →
      l.foldl (fun (acc : State × Bool) k =>
        match codeWordOf sp (8 * k) with
        | none => acc
        | some (m, w, up) =>
          let (s1, valid) := acc.1.readValid m w
          if valid then
            let f := s1.devStored m w up
            (s1.devFinding m w up f, acc.2 || f == .uncorrectable)
          else (s1, acc.2)) (s, false) = (s, false) := by
    intro l hl
    induction l with
    | nil => rfl
    | cons k l ih =>
      have rest := ih fun j hj => hl j (List.mem_cons_of_mem _ hj)
      rw [List.foldl_cons]
      cases hc : codeWordOf sp (8 * k) with
      | none => exact rest
      | some c =>
        obtain ⟨m, w, up⟩ := c
        obtain ⟨same, good⟩ := h k (hl k List.mem_cons_self) m w up hc
        simp only [same]
        cases hv : s.wordValid m w with
        | false => exact rest
        | true =>
          simp only [good hv, State.devFinding, if_true]
          exact rest
  exact congrArg (fun r : State × Bool => (r.1, (List.range n).map fun i => s.ctrlData sp (o + i), r.2)) (still _ fun _ hk => hk)

/-- A mailbox's payload with no error in it is read so: it has no valid bits (10 Table 10.1). -/
theorem State.ctrlRead_payload (s : State) (mb : Mailbox) (o n : Nat) (h : s.devErrors = []) :
    s.ctrlRead (.payload mb) o n = (s, (List.range n).map fun i => s.ctrlData (.payload mb) (o + i), false) := by
  refine s.ctrlRead_sound _ _ _ fun k _ m w up hc => ?_
  have hm : 33 ≤ m := by
    cases mb <;> simp only [codeWordOf, Option.some.injEq, Prod.mk.injEq] at hc <;> omega
  refine ⟨by simp [State.readValid, hm], fun _ => ?_⟩
  simp [State.devStored, State.devFound, h, Tbl.look, foundOf, WordError.none]

end Sys2Proof.Machine
end

