-- ==== Sys2Proof/Laws/Table.lean ====
section
/-! SUPPORT. The laws of the sparse tables: reading after a write, and that every table operation keeps the canonical form. -/

set_option Elab.async false

namespace Sys2Proof.Machine

/-- What holds of both branches holds of the choice between them. -/
theorem holds_of_ite {α : Type} {P : α → Prop} {c : Prop} [Decidable c] {a b : α} (h : P a) (k : P b) : P (if c then a else b) :=
  if d : c then by rwa [if_pos d] else by rwa [if_neg d]

/-- What each item of a list keeps, the whole list keeps. -/
theorem holds_of_foldl {α β : Type} {P : β → Prop} {f : β → α → β} (k : ∀ u x, P u → P (f u x)) :
    ∀ (l : List α) (t : β), P t → P (l.foldl f t)
  | [], _, h => h
  | x :: l, t, h => holds_of_foldl k l _ (k t x h)

/-- A read after an insertion: the value at its key, and what was there at another. -/
theorem Tbl.look_ins {α : Type} (d : α) (k j : Nat) (v : α) :
    ∀ t : Tbl α, Tbl.look d j (Tbl.ins k v t) = if j = k then v else Tbl.look d j t
  | [] => by simp [Tbl.ins, Tbl.look, eq_comm]
  | (i, w) :: r => by
    have rest := look_ins d k j v r
    grind [Tbl.ins, Tbl.look]

/-- A read after a key is dropped: the default there, and what was there at another. -/
theorem Tbl.look_drop {α : Type} (d : α) (k j : Nat) :
    ∀ t : Tbl α, Tbl.look d j (t.filter fun e => e.1 ≠ k) = if j = k then d else Tbl.look d j t
  | [] => by simp [Tbl.look]
  | (i, w) :: r => by
    have rest := look_drop d k j r
    grind [Tbl.look]

/-- A read after a write of the same key gives the value written. -/
@[simp] theorem Tbl.look_put_same {α : Type} [DecidableEq α] (d : α) (k : Nat) (v : α) (t : Tbl α) :
    Tbl.look d k (Tbl.put d k v t) = v := by
  unfold Tbl.put
  split
  · rw [look_drop, if_pos rfl, ‹v = d›]
  · rw [look_ins, if_pos rfl]

/-- A write leaves every other key alone. -/
@[simp] theorem Tbl.look_put_ne {α : Type} [DecidableEq α] (d d' : α) {k j : Nat} (v : α) (t : Tbl α) (h : j ≠ k) :
    Tbl.look d' j (Tbl.put d k v t) = Tbl.look d' j t := by
  unfold Tbl.put
  split
  · rw [look_drop, if_neg h]
  · rw [look_ins, if_neg h]

/-- The keys of a table that rises strictly, as Mathlib says it. -/
theorem Tbl.sorted_iff {α : Type} : ∀ t : Tbl α, Tbl.sorted t = true ↔ t.Pairwise (fun a b => a.1 < b.1)
  | [] => by simp [Tbl.sorted]
  | [_] => by simp [Tbl.sorted]
  | (j, w) :: (k, x) :: r => by
    rw [Tbl.sorted, Bool.and_eq_true, decide_eq_true_eq, sorted_iff ((k, x) :: r), List.pairwise_cons (a := (j, w))]
    refine and_congr_left fun p => ⟨fun lt e m => ?_, fun all => all (k, x) List.mem_cons_self⟩
    exact (List.mem_cons.mp m).elim (fun first => first ▸ lt) fun later => Nat.lt_trans lt (List.rel_of_pairwise_cons p later)

/-- The canonical form said of the entries. -/
theorem Tbl.wf_iff {α : Type} [DecidableEq α] (d : Nat → α) (t : Tbl α) :
    Tbl.wf d t = true ↔ t.Pairwise (fun a b => a.1 < b.1) ∧ ∀ e ∈ t, e.2 ≠ d e.1 := by
  simp only [Tbl.wf, Bool.and_eq_true, Tbl.sorted_iff, List.all_eq_true, decide_eq_true_eq]

/-- What a table lists after an insertion: the new entry and what it listed. -/
theorem Tbl.mem_ins {α : Type} {k : Nat} {v : α} {e : Nat × α} : ∀ {t : Tbl α}, e ∈ Tbl.ins k v t → e = (k, v) ∨ e ∈ t
  | [], h => by simpa [Tbl.ins] using h
  | (j, w) :: r, h => by
    have rest := @mem_ins α k v e r
    grind [Tbl.ins]

/-- An insertion keeps the keys rising. -/
theorem Tbl.pairwise_ins {α : Type} {k : Nat} {v : α} :
    ∀ {t : Tbl α}, t.Pairwise (fun a b => a.1 < b.1) → (Tbl.ins k v t).Pairwise (fun a b => a.1 < b.1)
  | [], _ => by simp [Tbl.ins]
  | (j, w) :: r, h => by
    have rest := pairwise_ins (k := k) (v := v) h.of_cons
    have listed := fun e => @mem_ins α k v e r
    grind [Tbl.ins, List.pairwise_cons]

/-- Writing one key keeps the canonical form. -/
theorem Tbl.wf_put {α : Type} [DecidableEq α] (d : Nat → α) (k : Nat) (v : α) {t : Tbl α} (h : Tbl.wf d t = true) :
    Tbl.wf d (Tbl.put (d k) k v t) = true := by
  rw [wf_iff] at h ⊢
  unfold Tbl.put
  split
  · exact ⟨h.1.filter _, fun e he => h.2 e (List.mem_filter.1 he).1⟩
  · rename_i hv
    refine ⟨pairwise_ins h.1, fun e he => ?_⟩
    rcases mem_ins he with q | q
    · subst q; exact hv
    · exact h.2 e q

/-- A key below every listed one reads as the default. -/
theorem Tbl.look_below {α : Type} (d : α) (k : Nat) : ∀ {t : Tbl α}, (∀ e ∈ t, k < e.1) → Tbl.look d k t = d
  | [], _ => rfl
  | (j, v) :: r, h => by
    have rest := look_below d k fun e m => h e (List.mem_cons_of_mem _ m)
    have first : k < j := h (j, v) List.mem_cons_self
    rw [Tbl.look, if_neg (Nat.ne_of_gt first), rest]

/-- The first key of a canonical table is no key of one that lists only keys above it, so the two do not read the same. -/
theorem Tbl.first_tells {α : Type} [DecidableEq α] (d : Nat → α) {j : Nat} {v : α} {r u : Tbl α} (ht : Tbl.wf d ((j, v) :: r) = true)
    (h : ∀ e ∈ u, j < e.1) : Tbl.look (d j) j ((j, v) :: r) ≠ Tbl.look (d j) j u := by
  rw [look_below _ _ h, Tbl.look, if_pos rfl]
  exact ((wf_iff d _).1 ht).2 (j, v) List.mem_cons_self

/-- Tables in canonical form that read the same are the same. -/
theorem Tbl.ext {α : Type} [DecidableEq α] (d : Nat → α) : ∀ {t u : Tbl α}, Tbl.wf d t = true → Tbl.wf d u = true →
    (∀ k, Tbl.look (d k) k t = Tbl.look (d k) k u) → t = u
  | [], [], _, _, _ => rfl
  | [], (i, _) :: _, _, hu, h => absurd (h i).symm (first_tells d hu (by simp))
  | (j, _) :: _, [], ht, _, h => absurd (h j) (first_tells d ht (by simp))
  | (j, v) :: r, (i, w) :: q, ht, hu, h => by
    have pt := (wf_iff d _).1 ht
    have pu := (wf_iff d _).1 hu
    have above_t := fun e (m : e ∈ r) => List.rel_of_pairwise_cons pt.1 m
    have above_u := fun e (m : e ∈ q) => List.rel_of_pairwise_cons pu.1 m
    have hji : ¬ j < i := fun lt => first_tells d ht (by grind) (h j)
    have hij : ¬ i < j := fun lt => first_tells d hu (by grind) (h i).symm
    obtain rfl : j = i := by omega
    have head := h j
    rw [Tbl.look, Tbl.look, if_pos rfl, if_pos rfl] at head
    have tails : r = q := ext d ((wf_iff d _).2 ⟨pt.1.of_cons, fun e m => pt.2 e (List.mem_cons_of_mem _ m)⟩)
      ((wf_iff d _).2 ⟨pu.1.of_cons, fun e m => pu.2 e (List.mem_cons_of_mem _ m)⟩) fun k => by
        by_cases same : j = k
        · subst same; rw [look_below _ _ above_t, look_below _ _ above_u]
        · simpa only [Tbl.look, same, if_false] using h k
    rw [head, tails]

/-- Writing back what a key reads as changes nothing. -/
theorem Tbl.put_look {α : Type} [DecidableEq α] (d : Nat → α) (k : Nat) {t : Tbl α} (h : Tbl.wf d t = true) :
    Tbl.put (d k) k (Tbl.look (d k) k t) t = t := by
  refine Tbl.ext d (Tbl.wf_put d k _ h) h fun j => ?_
  by_cases e : j = k
  · subst e; exact Tbl.look_put_same ..
  · exact Tbl.look_put_ne _ _ _ _ e

/-- The later of two writes of a key is the one that stays. -/
theorem Tbl.put_put {α : Type} [DecidableEq α] (d : Nat → α) (k : Nat) (v w : α) {t : Tbl α} (h : Tbl.wf d t = true) :
    Tbl.put (d k) k w (Tbl.put (d k) k v t) = Tbl.put (d k) k w t := by
  refine Tbl.ext d (Tbl.wf_put d k _ (Tbl.wf_put d k _ h)) (Tbl.wf_put d k _ h) fun j => ?_
  by_cases e : j = k
  · subst e; rw [Tbl.look_put_same, Tbl.look_put_same]
  · rw [Tbl.look_put_ne _ _ _ _ e, Tbl.look_put_ne _ _ _ _ e, Tbl.look_put_ne _ _ _ _ e]

/-- Dropping entries keeps the canonical form. -/
theorem Tbl.wf_filter {α : Type} [DecidableEq α] (d : Nat → α) (p : Nat × α → Bool) {t : Tbl α} (h : Tbl.wf d t = true) :
    Tbl.wf d (t.filter p) = true := by
  rw [wf_iff] at h ⊢
  exact ⟨h.1.filter _, fun e he => h.2 e (List.mem_filter.1 he).1⟩

/-- Changing every listed value keeps the canonical form. -/
theorem Tbl.wf_mapVals {α : Type} [DecidableEq α] (d : α) (f : α → α) {t : Tbl α} (h : Tbl.wf (fun _ => d) t = true) :
    Tbl.wf (fun _ => d) (Tbl.mapVals d f t) = true := by
  rw [wf_iff] at h ⊢
  refine ⟨List.Pairwise.filter _ (h.1.map _ fun a b q => q), fun e he => ?_⟩
  simpa using (List.mem_filter.1 he).2

/-- Operations each of which keeps the canonical form keep it in a row. -/
theorem Tbl.wf_foldl {α β : Type} [DecidableEq α] (d : Nat → α) (f : Tbl α → β → Tbl α) (l : List β) {t : Tbl α}
    (hf : ∀ t b, Tbl.wf d t = true → Tbl.wf d (f t b) = true) (h : Tbl.wf d t = true) : Tbl.wf d (l.foldl f t) = true :=
  holds_of_foldl (P := fun t => Tbl.wf d t = true) hf l t h

@[simp] theorem Tbl.wf_nil {α : Type} [DecidableEq α] (d : Nat → α) : Tbl.wf d ([] : Tbl α) = true := rfl

/-- A read of the control SRAM after a write of the same byte. -/
theorem Sram.look_eq (a : Nat) : ∀ m : List Host.Cell, Sram.look a m = Tbl.look 0#8 a m
  | [] => rfl
  | (j, w) :: r => by rw [Sram.look, Tbl.look, look_eq a r]

@[simp] theorem Sram.look_put_same (a : Nat) (v : Byte) (m : List Host.Cell) : Sram.look a (Sram.put a v m) = v := by
  rw [Sram.look_eq]; exact Tbl.look_put_same ..

@[simp] theorem Sram.look_put_ne {a b : Nat} (v : Byte) (m : List Host.Cell) (h : b ≠ a) :
    Sram.look b (Sram.put a v m) = Sram.look b m := by
  rw [Sram.look_eq, Sram.look_eq]; exact Tbl.look_put_ne _ _ _ _ h

/-- A byte written into the control SRAM keeps its canonical form. -/
theorem Memory.wf_put (a : Nat) (v : Byte) {m : List Host.Cell} (h : Memory.wf m = true) : Memory.wf (Sram.put a v m) = true :=
  Tbl.wf_put (fun _ => 0#8) a v h

/-- Many bytes written into the control SRAM keep its canonical form. -/
theorem Memory.wf_foldl {α : Type} (f : α → Nat) (g : α → Byte) (l : List α) {m : List Host.Cell} (h : Memory.wf m = true) :
    Memory.wf (l.foldl (fun m b => Sram.put (f b) (g b) m) m) = true :=
  holds_of_foldl (P := fun m => Memory.wf m = true) (fun _ b => Memory.wf_put (f b) (g b)) l m h

end Sys2Proof.Machine
end

