-- ==== Sys2Proof/Laws/Evolves.lean ====
section
/-! SUPPORT. What any command may do to the whole machine, said once: `Evolves s t`. It keeps every table canonical and the queue
of waiting commands as it is, retracts no message that has crossed the boundary, reuses no operation number and no free value,
and takes no line's major write counter back. The rules here compose it; the files beside this one show it of every operation. -/

set_option Elab.async false

namespace Sys2Proof.Machine

open Host (Outcome)

/-- What holds between a state and any state a command makes of it. -/
structure Evolves (s t : State) : Prop where
  pending : t.pending = s.pending
  out : s.out <+: t.out
  ids : s.nextId ≤ t.nextId
  free : s.freeTick ≤ t.freeTick
  major : ∀ line, (s.counters.look ⟨0, 0⟩ line).major ≤ (t.counters.look ⟨0, 0⟩ line).major
  canonical : s.Canonical → t.Canonical

/-- The same of a result that carries a state beside something else. -/
def EvolvesFst {α : Type} (s : State) (p : State × α) : Prop := Evolves s p.1

/-- The same of a result that may carry a state. -/
def EvolvesOpt (s : State) (o : Option State) : Prop := ∀ t, o = some t → Evolves s t

/-- The same of an outcome, where it is a next state. -/
def EvolvesOut (s : State) (o : Outcome State Fault Refusal) : Prop := ∀ t, o = .next t → Evolves s t

theorem Evolves.refl (s : State) : Evolves s s :=
  ⟨rfl, List.prefix_rfl, Nat.le_refl _, Nat.le_refl _, fun _ => Nat.le_refl _, fun h => h⟩

theorem Evolves.trans {s t u : State} (h : Evolves s t) (k : Evolves t u) : Evolves s u :=
  ⟨k.pending.trans h.pending, h.out.trans k.out, Nat.le_trans h.ids k.ids, Nat.le_trans h.free k.free,
    fun l => Nat.le_trans (h.major l) (k.major l), fun c => k.canonical (h.canonical c)⟩

theorem Evolves.cut (s : State) {x v : State} {G : Prop} (e : x = v) (h : Evolves s v) (k : Evolves s x → G) : G := k (e ▸ h)

theorem EvolvesFst.cut {α : Type} (s : State) {x v : State × α} {G : Prop} (e : x = v) (h : EvolvesFst s v)
    (k : EvolvesFst s x → G) : G := k (e ▸ h)

theorem Evolves.major_put {t : State} {k : Nat} {c : LineCounter} (h : (t.counters.look ⟨0, 0⟩ k).major ≤ c.major) (l : Nat) :
    (t.counters.look ⟨0, 0⟩ l).major ≤ ((t.counters.put ⟨0, 0⟩ k c).look ⟨0, 0⟩ l).major := by
  by_cases e : l = k
  · subst e; rwa [Tbl.look_put_same]
  · exact Nat.le_of_eq (by rw [Tbl.look_put_ne _ _ _ _ e])

theorem Evolves.local_fun {α β : Type} (_ : α → β) {G : Prop} (h : G) : G := h

theorem Evolves.of_pair {α : Type} {s a : State} {b : α} {p : State × α} (e : p = (a, b)) (h : EvolvesFst s p) : Evolves s a := by
  subst e; exact h

theorem Evolves.of_some {s a : State} {o : Option State} (e : o = some a) (h : EvolvesOpt s o) : Evolves s a := h a e

theorem EvolvesFst.pair {α : Type} {s a : State} {b : α} (h : Evolves s a) : EvolvesFst s (a, b) := h

theorem EvolvesFst.fst {α : Type} {s : State} {p : State × α} (h : EvolvesFst s p) : Evolves s p.1 := h

theorem EvolvesOpt.none {s : State} : EvolvesOpt s none := fun _ h => by cases h

theorem EvolvesOpt.some {s t : State} (h : Evolves s t) : EvolvesOpt s (some t) := fun _ e => by cases e; exact h

theorem EvolvesOpt.getD {s t : State} {o : Option State} (h : EvolvesOpt s o) (k : Evolves s t) : Evolves s (o.getD t) := by
  cases o with
  | none => exact k
  | some u => exact h u rfl

theorem EvolvesOpt.map {α : Type} {s : State} {f : α → State} {o : Option α} (k : ∀ x, Evolves s (f x)) : EvolvesOpt s (o.map f) := by
  cases o with
  | none => exact EvolvesOpt.none
  | some x => exact EvolvesOpt.some (k x)

theorem EvolvesOpt.bind {α : Type} {s : State} {f : α → Option State} {o : Option α} (k : ∀ x, EvolvesOpt s (f x)) :
    EvolvesOpt s (o.bind f) := by
  cases o with
  | none => exact EvolvesOpt.none
  | some x => exact k x

theorem EvolvesOut.next {s t : State} (h : Evolves s t) : EvolvesOut s (.next t) := fun _ e => by cases e; exact h

theorem EvolvesOut.fault {s : State} {r : Fault} : EvolvesOut s (.fault r) := fun _ e => by cases e

theorem Evolves.ite {s : State} {c : Prop} [Decidable c] {a b : State} (h : Evolves s a) (k : Evolves s b) :
    Evolves s (if c then a else b) := holds_of_ite h k

theorem EvolvesOpt.ite {s : State} {c : Prop} [Decidable c] {a b : Option State} (h : EvolvesOpt s a) (k : EvolvesOpt s b) :
    EvolvesOpt s (if c then a else b) := holds_of_ite h k

theorem EvolvesOut.ite {s : State} {c : Prop} [Decidable c] {a b : Outcome State Fault Refusal} (h : EvolvesOut s a)
    (k : EvolvesOut s b) : EvolvesOut s (if c then a else b) := holds_of_ite h k

theorem EvolvesFst.ite {α : Type} {s : State} {c : Prop} [Decidable c] {a b : State × α} (h : EvolvesFst s a) (k : EvolvesFst s b) :
    EvolvesFst s (if c then a else b) := holds_of_ite (P := fun x => EvolvesFst s x) h k

theorem Evolves.foldl {α : Type} {s t : State} {f : State → α → State} {l : List α}
    (k : ∀ u x, Evolves s u → Evolves s (f u x)) (h : Evolves s t) : Evolves s (l.foldl f t) := holds_of_foldl k l t h

theorem EvolvesFst.foldl {α β : Type} {s : State} {t : State × β} {f : State × β → α → State × β} {l : List α}
    (k : ∀ u x, EvolvesFst s u → EvolvesFst s (f u x)) (h : EvolvesFst s t) : EvolvesFst s (l.foldl f t) :=
  holds_of_foldl (P := fun x => EvolvesFst s x) k l t h

/-- Fields that no table of the canonical form and no clause of `Evolves` speaks of may change. -/
theorem Evolves.other {s t : State} {iaPark' : List Request} {iaIngress' : List Request} {iaHeld' : List Request} {iaLastViolation' :
      Option Nat} {mf' : MediaFront} {mbxP' : MbxState} {mbxS' : MbxState} {devCopying' : Option (Nat × Nat × Nat)} {ownerLoss' : List
      Word} {samples' : List (BitVec 256)} {store' : Store} {boot' : Boot} {fw' : Firmware} {aon' : AlwaysOn} {sweepActive' : Bool}
      {sweepDue' : Bool} {sweepUs' : Option Nat} {urgentSet' : List Nat} {scrubStripe' : Nat} {scrubSecond' : Nat} {scrubVisits' : Nat}
      {scrubWord' : Nat} (h : Evolves s t) :
    Evolves s ⟨t.pending, t.regs, t.ports, t.slices, t.fabric, iaPark', iaIngress', iaHeld', iaLastViolation', mf', t.media, t.counters,
      t.history, t.minors, t.queues, mbxP', mbxS', t.cores, t.sram, t.sramReserved, t.valid, t.devErrors, t.devRemap, devCopying',
      ownerLoss', t.dma, t.engines, t.pmu, t.snap, samples', store', boot', fw', aon', sweepActive', sweepDue', sweepUs', urgentSet',
      scrubStripe', scrubSecond', scrubVisits', scrubWord', t.out, t.nextId, t.freeTick⟩ :=
  { h with canonical := fun c =>
      let k := h.canonical c
      { regs := k.regs, ports := k.ports, slices := k.slices, fabric := k.fabric, media := k.media, counters := k.counters, history :=
        k.history, minors := k.minors, queues := k.queues, cores := k.cores, sram := k.sram, sramReserved := k.sramReserved, valid :=
        k.valid, devErrors := k.devErrors, devRemap := k.devRemap, dma := k.dma, engines := k.engines, pmu := k.pmu, snap := k.snap } }

/-- What a change from `t` to `u` has to keep for `Evolves`, one clause a field. -/
structure Grows (s t u : State) : Prop where
  out : t.out <+: u.out
  ids : t.nextId ≤ u.nextId
  free : t.freeTick ≤ u.freeTick
  major : ∀ line, (t.counters.look ⟨0, 0⟩ line).major ≤ (u.counters.look ⟨0, 0⟩ line).major
  regs : s.Canonical → Tbl.wf regReset t.regs = true → Tbl.wf regReset u.regs = true
  ports : s.Canonical → Tbl.wf (fun _ => Port.empty) t.ports = true → Tbl.wf (fun _ => Port.empty) u.ports = true
  slices : s.Canonical → Tbl.wf (fun _ => Slice.empty) t.slices = true → Tbl.wf (fun _ => Slice.empty) u.slices = true
  fabric : s.Canonical → Tbl.wf (fun _ => none) t.fabric = true → Tbl.wf (fun _ => none) u.fabric = true
  media : s.Canonical → Tbl.wf (fun _ => none) t.media = true → Tbl.wf (fun _ => none) u.media = true
  counters : s.Canonical → Tbl.wf (fun _ => (⟨0, 0⟩ : LineCounter)) t.counters = true → Tbl.wf (fun _ => (⟨0, 0⟩ : LineCounter))
    u.counters = true
  history : s.Canonical → Tbl.wf (fun _ => 0#128) t.history = true → Tbl.wf (fun _ => 0#128) u.history = true
  minors : s.Canonical → Tbl.wf (fun _ => 0) t.minors = true → Tbl.wf (fun _ => 0) u.minors = true
  queues : s.Canonical → Tbl.wf (fun _ => PodQueue.empty) t.queues = true → Tbl.wf (fun _ => PodQueue.empty) u.queues = true
  cores : s.Canonical → Tbl.wf (fun _ => Core.idle) t.cores = true → Tbl.wf (fun _ => Core.idle) u.cores = true
  sram : s.Canonical → Memory.wf t.sram = true → Memory.wf u.sram = true
  sramReserved : s.Canonical → Tbl.wf (fun _ => 0) t.sramReserved = true → Tbl.wf (fun _ => 0) u.sramReserved = true
  valid : s.Canonical → Tbl.wf (fun _ => 0#2048) t.valid = true → Tbl.wf (fun _ => 0#2048) u.valid = true
  devErrors : s.Canonical → Tbl.wf (fun _ => WordError.none) t.devErrors = true → Tbl.wf (fun _ => WordError.none) u.devErrors = true
  devRemap : s.Canonical → Tbl.wf (fun _ => RemapEntry.none) t.devRemap = true → Tbl.wf (fun _ => RemapEntry.none) u.devRemap = true
  dma : s.Canonical → Tbl.wf (fun _ => DmaState.idle) t.dma = true → Tbl.wf (fun _ => DmaState.idle) u.dma = true
  engines : s.Canonical → Tbl.wf (fun _ => Engine.idle) t.engines = true → Tbl.wf (fun _ => Engine.idle) u.engines = true
  pmu : s.Canonical → Tbl.wf (fun _ => 0) t.pmu = true → Tbl.wf (fun _ => 0) u.pmu = true
  snap : s.Canonical → Tbl.wf (fun _ => 0) t.snap = true → Tbl.wf (fun _ => 0) u.snap = true

/-- A change of any fields, each table kept canonical. -/
theorem Evolves.fields {s t : State} {regs' : Tbl Word} {ports' : Tbl Port} {slices' : Tbl Slice} {fabric' : Tbl (Option SpillMsg)}
      {iaPark' : List Request} {iaIngress' : List Request} {iaHeld' : List Request} {iaLastViolation' : Option Nat} {mf' : MediaFront}
      {media' : Tbl (Option Stored)} {counters' : Tbl LineCounter} {history' : Tbl Native} {minors' : Tbl Nat} {queues' : Tbl PodQueue}
      {mbxP' : MbxState} {mbxS' : MbxState} {cores' : Tbl Core} {sram' : List Host.Cell} {sramReserved' : Tbl Nat} {valid' : Tbl (BitVec
      2048)} {devErrors' : Tbl WordError} {devRemap' : Tbl RemapEntry} {devCopying' : Option (Nat × Nat × Nat)} {ownerLoss' : List Word}
      {dma' : Tbl DmaState} {engines' : Tbl Engine} {pmu' : Tbl Nat} {snap' : Tbl Nat} {samples' : List (BitVec 256)} {store' : Store}
      {boot' : Boot} {fw' : Firmware} {aon' : AlwaysOn} {sweepActive' : Bool} {sweepDue' : Bool} {sweepUs' : Option Nat} {urgentSet' :
      List Nat} {scrubStripe' : Nat} {scrubSecond' : Nat} {scrubVisits' : Nat} {scrubWord' : Nat} {out' : List Out} {nextId' : Nat}
      {freeTick' : Nat} (h : Evolves s t)
    (k : Grows s t ⟨t.pending, regs', ports', slices', fabric', iaPark', iaIngress', iaHeld', iaLastViolation', mf', media', counters',
      history', minors', queues', mbxP', mbxS', cores', sram', sramReserved', valid', devErrors', devRemap', devCopying', ownerLoss',
      dma', engines', pmu', snap', samples', store', boot', fw', aon', sweepActive', sweepDue', sweepUs', urgentSet', scrubStripe',
      scrubSecond', scrubVisits', scrubWord', out', nextId', freeTick'⟩ := by
      constructor <;> dsimp only <;> first
        | with_reducible exact fun _ k => k
        | with_reducible exact List.prefix_rfl
        | with_reducible exact List.prefix_append _ _
        | with_reducible exact Nat.le_refl _
        | with_reducible exact Nat.le_add_right _ _
        | with_reducible exact fun _ => Nat.le_refl _
        | with_reducible exact fun _ k => Tbl.wf_put (fun _ => _) _ _ k
        | with_reducible exact fun _ k => Tbl.wf_put _ _ _ k
        | with_reducible exact fun _ k => Tbl.wf_put (fun _ => _) _ _ (Tbl.wf_put (fun _ => _) _ _ k)
        | with_reducible exact fun _ k => Tbl.wf_filter _ _ k
        | with_reducible exact fun _ k => Tbl.wf_mapVals _ _ k
        | with_reducible exact fun _ _ => Tbl.wf_nil _
        | with_reducible exact fun _ k => Tbl.wf_foldl _ _ _ (fun _ _ j => Tbl.wf_put (fun _ => _) _ _ j) k
        | with_reducible exact fun _ k => Memory.wf_put _ _ k
        | with_reducible exact fun _ k => Memory.wf_foldl _ _ _ k
        | with_reducible exact fun c _ => (Evolves.canonical (by with_reducible assumption) c).cores
        | with_reducible exact fun c _ => (Evolves.canonical (by with_reducible assumption) c).dma
        | with_reducible exact fun c _ => (Evolves.canonical (by with_reducible assumption) c).pmu
        | (with_reducible refine Evolves.major_put ?_; simp_all [State.counter])) :
    Evolves s ⟨t.pending, regs', ports', slices', fabric', iaPark', iaIngress', iaHeld', iaLastViolation', mf', media', counters',
      history', minors', queues', mbxP', mbxS', cores', sram', sramReserved', valid', devErrors', devRemap', devCopying', ownerLoss',
      dma', engines', pmu', snap', samples', store', boot', fw', aon', sweepActive', sweepDue', sweepUs', urgentSet', scrubStripe',
      scrubSecond', scrubVisits', scrubWord', out', nextId', freeTick'⟩ :=
  ⟨h.pending, h.out.trans k.out, Nat.le_trans h.ids k.ids, Nat.le_trans h.free k.free,
    fun l => Nat.le_trans (h.major l) (k.major l), fun c =>
      let j := h.canonical c
      { regs := k.regs c j.regs, ports := k.ports c j.ports, slices := k.slices c j.slices, fabric := k.fabric c j.fabric, media :=
        k.media c j.media, counters := k.counters c j.counters, history := k.history c j.history, minors := k.minors c j.minors, queues :=
        k.queues c j.queues, cores := k.cores c j.cores, sram := k.sram c j.sram, sramReserved := k.sramReserved c j.sramReserved, valid
        := k.valid c j.valid, devErrors := k.devErrors c j.devErrors, devRemap := k.devRemap c j.devRemap, dma := k.dma c j.dma, engines
        := k.engines c j.engines, pmu := k.pmu c j.pmu, snap := k.snap c j.snap }⟩

end Sys2Proof.Machine
end

