-- ==== Sys2Proof/Laws/EvOps.lean ====
section
/-! SUPPORT. What each operation of Sys2Proof/Machine/Ops.lean does to the whole machine: one `Evolves` lemma an operation. -/

set_option linter.all false
set_option Elab.async false

namespace Sys2Proof.Machine

open Host (Outcome)

theorem State.setReg_evolves {s t : State} {a1 : Nat} {a2 : Word} (h : Evolves s t) :
    Evolves s (State.setReg t a1 a2) := by
  unfold State.setReg
  repeat' first
    | with_reducible assumption
    | (extract_lets +onlyGivenNames x; clear_value (hx : x = _); with_reducible refine Evolves.cut s hx ?_ (fun _ => ?_))
    | (extract_lets +onlyGivenNames x; clear_value (hx : x = _); with_reducible refine EvolvesFst.cut s hx ?_ (fun _ => ?_))
    | (extract_lets +onlyGivenNames x; with_reducible refine Evolves.local_fun x ?_; subst x; beta_reduce)
    | (extract_lets +onlyGivenNames x; clear_value (hx : x = _))
    | extract_lets +onlyGivenNames x
    | with_reducible refine Evolves.ite ?_ ?_
    | refine Evolves.of_pair (by with_reducible assumption) ?_
    | refine Evolves.of_some (by with_reducible assumption) ?_
    | fail_if_no_progress with_reducible refine Evolves.other ?_
    | with_reducible refine Evolves.fields (by with_reducible assumption)
    | refine Evolves.fields (h := ?_)
    | fail

theorem State.wr_evolves {s t : State} {a1 : Fld} {a2 : Nat} (h : Evolves s t) :
    Evolves s (State.wr t a1 a2) := by
  unfold State.wr
  repeat' first
    | with_reducible assumption
    | with_reducible refine State.setReg_evolves ?_
    | (extract_lets +onlyGivenNames x; clear_value (hx : x = _); with_reducible refine Evolves.cut s hx ?_ (fun _ => ?_))
    | (extract_lets +onlyGivenNames x; clear_value (hx : x = _); with_reducible refine EvolvesFst.cut s hx ?_ (fun _ => ?_))
    | (extract_lets +onlyGivenNames x; with_reducible refine Evolves.local_fun x ?_; subst x; beta_reduce)
    | (extract_lets +onlyGivenNames x; clear_value (hx : x = _))
    | extract_lets +onlyGivenNames x
    | with_reducible refine Evolves.ite ?_ ?_
    | refine Evolves.of_pair (by with_reducible assumption) ?_
    | refine Evolves.of_some (by with_reducible assumption) ?_
    | fail

theorem State.wb_evolves {s t : State} {a1 : Fld} {a2 : Bool} (h : Evolves s t) :
    Evolves s (State.wb t a1 a2) := by
  unfold State.wb
  repeat' first
    | with_reducible assumption
    | with_reducible refine State.wr_evolves ?_
    | (extract_lets +onlyGivenNames x; clear_value (hx : x = _); with_reducible refine Evolves.cut s hx ?_ (fun _ => ?_))
    | (extract_lets +onlyGivenNames x; with_reducible refine Evolves.local_fun x ?_; subst x; beta_reduce)
    | (extract_lets +onlyGivenNames x; clear_value (hx : x = _))
    | extract_lets +onlyGivenNames x
    | with_reducible refine Evolves.ite ?_ ?_
    | refine Evolves.of_pair (by with_reducible assumption) ?_
    | refine Evolves.of_some (by with_reducible assumption) ?_
    | fail

theorem State.inc_evolves {s t : State} {a1 : Fld} {a2 : Nat} (h : Evolves s t) :
    Evolves s (State.inc t a1 a2) := by
  unfold State.inc
  repeat' first
    | with_reducible assumption
    | with_reducible refine State.wr_evolves ?_
    | (extract_lets +onlyGivenNames x; clear_value (hx : x = _); with_reducible refine Evolves.cut s hx ?_ (fun _ => ?_))
    | (extract_lets +onlyGivenNames x; clear_value (hx : x = _); with_reducible refine EvolvesFst.cut s hx ?_ (fun _ => ?_))
    | (extract_lets +onlyGivenNames x; with_reducible refine Evolves.local_fun x ?_; subst x; beta_reduce)
    | (extract_lets +onlyGivenNames x; clear_value (hx : x = _))
    | extract_lets +onlyGivenNames x
    | with_reducible refine Evolves.ite ?_ ?_
    | refine Evolves.of_pair (by with_reducible assumption) ?_
    | refine Evolves.of_some (by with_reducible assumption) ?_
    | fail

theorem State.draw_evolves {s t : State} (h : Evolves s t) :
    Evolves s (State.draw t) := by
  unfold State.draw
  repeat' first
    | with_reducible assumption
    | (extract_lets +onlyGivenNames x; clear_value (hx : x = _); with_reducible refine Evolves.cut s hx ?_ (fun _ => ?_))
    | (extract_lets +onlyGivenNames x; with_reducible refine Evolves.local_fun x ?_; subst x; beta_reduce)
    | (extract_lets +onlyGivenNames x; clear_value (hx : x = _))
    | extract_lets +onlyGivenNames x
    | with_reducible refine Evolves.ite ?_ ?_
    | refine Evolves.of_pair (by with_reducible assumption) ?_
    | refine Evolves.of_some (by with_reducible assumption) ?_
    | fail_if_no_progress with_reducible refine Evolves.other ?_
    | with_reducible refine Evolves.fields (by with_reducible assumption)
    | refine Evolves.fields (h := ?_)
    | fail

theorem State.emit_evolves {s t : State} {a1 : Out} (h : Evolves s t) :
    Evolves s (State.emit t a1) := by
  unfold State.emit
  repeat' first
    | with_reducible assumption
    | (extract_lets +onlyGivenNames x; clear_value (hx : x = _); with_reducible refine Evolves.cut s hx ?_ (fun _ => ?_))
    | (extract_lets +onlyGivenNames x; with_reducible refine Evolves.local_fun x ?_; subst x; beta_reduce)
    | (extract_lets +onlyGivenNames x; clear_value (hx : x = _))
    | extract_lets +onlyGivenNames x
    | with_reducible refine Evolves.ite ?_ ?_
    | refine Evolves.of_pair (by with_reducible assumption) ?_
    | refine Evolves.of_some (by with_reducible assumption) ?_
    | fail_if_no_progress with_reducible refine Evolves.other ?_
    | with_reducible refine Evolves.fields (by with_reducible assumption)
    | refine Evolves.fields (h := ?_)
    | fail

theorem State.count_evolves {s t : State} {a1 : Nat} {a2 : Nat} {a3 : Nat} (h : Evolves s t) :
    Evolves s (State.count t a1 a2 a3) := by
  unfold State.count
  repeat' first
    | with_reducible assumption
    | (extract_lets +onlyGivenNames x; clear_value (hx : x = _); with_reducible refine Evolves.cut s hx ?_ (fun _ => ?_))
    | (extract_lets +onlyGivenNames x; clear_value (hx : x = _); with_reducible refine EvolvesFst.cut s hx ?_ (fun _ => ?_))
    | (extract_lets +onlyGivenNames x; with_reducible refine Evolves.local_fun x ?_; subst x; beta_reduce)
    | (extract_lets +onlyGivenNames x; clear_value (hx : x = _))
    | extract_lets +onlyGivenNames x
    | with_reducible refine Evolves.ite ?_ ?_
    | refine Evolves.of_pair (by with_reducible assumption) ?_
    | refine Evolves.of_some (by with_reducible assumption) ?_
    | fail_if_no_progress with_reducible refine Evolves.other ?_
    | with_reducible refine Evolves.fields (by with_reducible assumption)
    | refine Evolves.fields (h := ?_)
    | fail

theorem State.bump_evolves {s t : State} (h : Evolves s t) :
    Evolves s (State.bump t) := by
  unfold State.bump
  repeat' first
    | with_reducible assumption
    | (extract_lets +onlyGivenNames x; clear_value (hx : x = _); with_reducible refine Evolves.cut s hx ?_ (fun _ => ?_))
    | (extract_lets +onlyGivenNames x; with_reducible refine Evolves.local_fun x ?_; subst x; beta_reduce)
    | (extract_lets +onlyGivenNames x; clear_value (hx : x = _))
    | extract_lets +onlyGivenNames x
    | with_reducible refine Evolves.ite ?_ ?_
    | refine Evolves.of_pair (by with_reducible assumption) ?_
    | refine Evolves.of_some (by with_reducible assumption) ?_
    | fail_if_no_progress with_reducible refine Evolves.other ?_
    | with_reducible refine Evolves.fields (by with_reducible assumption)
    | refine Evolves.fields (h := ?_)
    | fail

theorem State.setSl_evolves {s t : State} {a1 : PhysSlice} {a2 : Slice} (h : Evolves s t) :
    Evolves s (State.setSl t a1 a2) := by
  unfold State.setSl
  repeat' first
    | with_reducible assumption
    | (extract_lets +onlyGivenNames x; clear_value (hx : x = _); with_reducible refine Evolves.cut s hx ?_ (fun _ => ?_))
    | (extract_lets +onlyGivenNames x; with_reducible refine Evolves.local_fun x ?_; subst x; beta_reduce)
    | (extract_lets +onlyGivenNames x; clear_value (hx : x = _))
    | extract_lets +onlyGivenNames x
    | with_reducible refine Evolves.ite ?_ ?_
    | refine Evolves.of_pair (by with_reducible assumption) ?_
    | refine Evolves.of_some (by with_reducible assumption) ?_
    | fail_if_no_progress with_reducible refine Evolves.other ?_
    | with_reducible refine Evolves.fields (by with_reducible assumption)
    | refine Evolves.fields (h := ?_)
    | fail

theorem State.modSl_evolves {s t : State} {a1 : PhysSlice} {a2 : Slice → Slice} (h : Evolves s t) :
    Evolves s (State.modSl t a1 a2) := by
  unfold State.modSl
  repeat' first
    | with_reducible assumption
    | with_reducible refine State.setSl_evolves ?_
    | (extract_lets +onlyGivenNames x; clear_value (hx : x = _); with_reducible refine Evolves.cut s hx ?_ (fun _ => ?_))
    | (extract_lets +onlyGivenNames x; clear_value (hx : x = _); with_reducible refine EvolvesFst.cut s hx ?_ (fun _ => ?_))
    | (extract_lets +onlyGivenNames x; with_reducible refine Evolves.local_fun x ?_; subst x; beta_reduce)
    | (extract_lets +onlyGivenNames x; clear_value (hx : x = _))
    | extract_lets +onlyGivenNames x
    | with_reducible refine Evolves.ite ?_ ?_
    | refine Evolves.of_pair (by with_reducible assumption) ?_
    | refine Evolves.of_some (by with_reducible assumption) ?_
    | fail

theorem State.modPort_evolves {s t : State} {a1 : HostId} {a2 : Port → Port} (h : Evolves s t) :
    Evolves s (State.modPort t a1 a2) := by
  unfold State.modPort
  repeat' first
    | with_reducible assumption
    | (extract_lets +onlyGivenNames x; clear_value (hx : x = _); with_reducible refine Evolves.cut s hx ?_ (fun _ => ?_))
    | (extract_lets +onlyGivenNames x; clear_value (hx : x = _); with_reducible refine EvolvesFst.cut s hx ?_ (fun _ => ?_))
    | (extract_lets +onlyGivenNames x; with_reducible refine Evolves.local_fun x ?_; subst x; beta_reduce)
    | (extract_lets +onlyGivenNames x; clear_value (hx : x = _))
    | extract_lets +onlyGivenNames x
    | with_reducible refine Evolves.ite ?_ ?_
    | refine Evolves.of_pair (by with_reducible assumption) ?_
    | refine Evolves.of_some (by with_reducible assumption) ?_
    | fail_if_no_progress with_reducible refine Evolves.other ?_
    | with_reducible refine Evolves.fields (by with_reducible assumption)
    | refine Evolves.fields (h := ?_)
    | fail

theorem State.modMf_evolves {s t : State} {a1 : MediaFront → MediaFront} (h : Evolves s t) :
    Evolves s (State.modMf t a1) := by
  unfold State.modMf
  repeat' first
    | with_reducible assumption
    | (extract_lets +onlyGivenNames x; clear_value (hx : x = _); with_reducible refine Evolves.cut s hx ?_ (fun _ => ?_))
    | (extract_lets +onlyGivenNames x; with_reducible refine Evolves.local_fun x ?_; subst x; beta_reduce)
    | (extract_lets +onlyGivenNames x; clear_value (hx : x = _))
    | extract_lets +onlyGivenNames x
    | with_reducible refine Evolves.ite ?_ ?_
    | refine Evolves.of_pair (by with_reducible assumption) ?_
    | refine Evolves.of_some (by with_reducible assumption) ?_
    | fail_if_no_progress with_reducible refine Evolves.other ?_
    | with_reducible refine Evolves.fields (by with_reducible assumption)
    | refine Evolves.fields (h := ?_)
    | fail

theorem State.modAon_evolves {s t : State} {a1 : AlwaysOn → AlwaysOn} (h : Evolves s t) :
    Evolves s (State.modAon t a1) := by
  unfold State.modAon
  repeat' first
    | with_reducible assumption
    | (extract_lets +onlyGivenNames x; clear_value (hx : x = _); with_reducible refine Evolves.cut s hx ?_ (fun _ => ?_))
    | (extract_lets +onlyGivenNames x; with_reducible refine Evolves.local_fun x ?_; subst x; beta_reduce)
    | (extract_lets +onlyGivenNames x; clear_value (hx : x = _))
    | extract_lets +onlyGivenNames x
    | with_reducible refine Evolves.ite ?_ ?_
    | refine Evolves.of_pair (by with_reducible assumption) ?_
    | refine Evolves.of_some (by with_reducible assumption) ?_
    | fail_if_no_progress with_reducible refine Evolves.other ?_
    | with_reducible refine Evolves.fields (by with_reducible assumption)
    | refine Evolves.fields (h := ?_)
    | fail

theorem State.modPq_evolves {s t : State} {a1 : Nat} {a2 : PodQueue → PodQueue} (h : Evolves s t) :
    Evolves s (State.modPq t a1 a2) := by
  unfold State.modPq
  repeat' first
    | with_reducible assumption
    | (extract_lets +onlyGivenNames x; clear_value (hx : x = _); with_reducible refine Evolves.cut s hx ?_ (fun _ => ?_))
    | (extract_lets +onlyGivenNames x; clear_value (hx : x = _); with_reducible refine EvolvesFst.cut s hx ?_ (fun _ => ?_))
    | (extract_lets +onlyGivenNames x; with_reducible refine Evolves.local_fun x ?_; subst x; beta_reduce)
    | (extract_lets +onlyGivenNames x; clear_value (hx : x = _))
    | extract_lets +onlyGivenNames x
    | with_reducible refine Evolves.ite ?_ ?_
    | refine Evolves.of_pair (by with_reducible assumption) ?_
    | refine Evolves.of_some (by with_reducible assumption) ?_
    | fail_if_no_progress with_reducible refine Evolves.other ?_
    | with_reducible refine Evolves.fields (by with_reducible assumption)
    | refine Evolves.fields (h := ?_)
    | fail

theorem State.pqInterrupt_evolves {s t : State} {a1 : Nat} (h : Evolves s t) :
    Evolves s (State.pqInterrupt t a1) := by
  unfold State.pqInterrupt
  repeat' first
    | with_reducible assumption
    | with_reducible refine State.emit_evolves ?_
    | (extract_lets +onlyGivenNames x; clear_value (hx : x = _); with_reducible refine Evolves.cut s hx ?_ (fun _ => ?_))
    | (extract_lets +onlyGivenNames x; clear_value (hx : x = _); with_reducible refine EvolvesFst.cut s hx ?_ (fun _ => ?_))
    | (extract_lets +onlyGivenNames x; with_reducible refine Evolves.local_fun x ?_; subst x; beta_reduce)
    | (extract_lets +onlyGivenNames x; clear_value (hx : x = _))
    | extract_lets +onlyGivenNames x
    | with_reducible refine Evolves.ite ?_ ?_
    | split
    | refine Evolves.of_pair (by with_reducible assumption) ?_
    | refine Evolves.of_some (by with_reducible assumption) ?_
    | fail

theorem State.pqLevel_evolves {s t : State} {a1 : Nat} {a2 : Nat} (h : Evolves s t) :
    Evolves s (State.pqLevel t a1 a2) := by
  unfold State.pqLevel
  repeat' first
    | with_reducible assumption
    | with_reducible refine State.wr_evolves ?_
    | with_reducible refine State.pqInterrupt_evolves ?_
    | (extract_lets +onlyGivenNames x; clear_value (hx : x = _); with_reducible refine Evolves.cut s hx ?_ (fun _ => ?_))
    | (extract_lets +onlyGivenNames x; clear_value (hx : x = _); with_reducible refine EvolvesFst.cut s hx ?_ (fun _ => ?_))
    | (extract_lets +onlyGivenNames x; with_reducible refine Evolves.local_fun x ?_; subst x; beta_reduce)
    | (extract_lets +onlyGivenNames x; clear_value (hx : x = _))
    | extract_lets +onlyGivenNames x
    | with_reducible refine Evolves.ite ?_ ?_
    | split
    | refine Evolves.of_pair (by with_reducible assumption) ?_
    | refine Evolves.of_some (by with_reducible assumption) ?_
    | fail

theorem State.pqSwap_evolves {s t : State} {a1 : Nat} (h : Evolves s t) :
    Evolves s (State.pqSwap t a1) := by
  unfold State.pqSwap
  repeat' first
    | with_reducible assumption
    | with_reducible refine State.modPq_evolves ?_
    | with_reducible refine State.wr_evolves ?_
    | (extract_lets +onlyGivenNames x; clear_value (hx : x = _); with_reducible refine Evolves.cut s hx ?_ (fun _ => ?_))
    | (extract_lets +onlyGivenNames x; clear_value (hx : x = _); with_reducible refine EvolvesFst.cut s hx ?_ (fun _ => ?_))
    | (extract_lets +onlyGivenNames x; with_reducible refine Evolves.local_fun x ?_; subst x; beta_reduce)
    | (extract_lets +onlyGivenNames x; clear_value (hx : x = _))
    | extract_lets +onlyGivenNames x
    | with_reducible refine Evolves.ite ?_ ?_
    | split
    | refine Evolves.of_pair (by with_reducible assumption) ?_
    | refine Evolves.of_some (by with_reducible assumption) ?_
    | fail_if_no_progress with_reducible refine Evolves.other ?_
    | with_reducible refine Evolves.fields (by with_reducible assumption)
    | refine Evolves.fields (h := ?_)
    | fail

theorem State.pqWrite_evolves {s t : State} {a1 : Nat} {a2 : List PqItem} (h : Evolves s t) :
    Evolves s (State.pqWrite t a1 a2) := by
  unfold State.pqWrite
  repeat' first
    | with_reducible assumption
    | with_reducible refine State.pqSwap_evolves ?_
    | with_reducible refine State.wr_evolves ?_
    | with_reducible refine State.inc_evolves ?_
    | with_reducible refine State.pqInterrupt_evolves ?_
    | with_reducible refine State.modPq_evolves ?_
    | with_reducible refine State.pqLevel_evolves ?_
    | (extract_lets +onlyGivenNames x; clear_value (hx : x = _); with_reducible refine Evolves.cut s hx ?_ (fun _ => ?_))
    | (extract_lets +onlyGivenNames x; clear_value (hx : x = _); with_reducible refine EvolvesFst.cut s hx ?_ (fun _ => ?_))
    | (extract_lets +onlyGivenNames x; with_reducible refine Evolves.local_fun x ?_; subst x; beta_reduce)
    | (extract_lets +onlyGivenNames x; clear_value (hx : x = _))
    | extract_lets +onlyGivenNames x
    | with_reducible refine Evolves.ite ?_ ?_
    | split
    | refine Evolves.of_pair (by with_reducible assumption) ?_
    | refine Evolves.of_some (by with_reducible assumption) ?_
    | fail_if_no_progress with_reducible refine Evolves.other ?_
    | with_reducible refine Evolves.fields (by with_reducible assumption)
    | refine Evolves.fields (h := ?_)
    | fail

theorem State.notice_evolves {s t : State} {a1 : Nat} {a2 : Nat} {a3 : Nat} {a4 : Nat} {a5 : Nat} {a6 : Nat} {a7 : List Native} (h : Evolves s t) :
    Evolves s (State.notice t a1 a2 a3 a4 a5 a6 a7) := by
  unfold State.notice
  repeat' first
    | with_reducible assumption
    | with_reducible refine State.pqWrite_evolves ?_
    | (extract_lets +onlyGivenNames x; clear_value (hx : x = _); with_reducible refine Evolves.cut s hx ?_ (fun _ => ?_))
    | (extract_lets +onlyGivenNames x; clear_value (hx : x = _); with_reducible refine EvolvesFst.cut s hx ?_ (fun _ => ?_))
    | (extract_lets +onlyGivenNames x; with_reducible refine Evolves.local_fun x ?_; subst x; beta_reduce)
    | (extract_lets +onlyGivenNames x; clear_value (hx : x = _))
    | extract_lets +onlyGivenNames x
    | with_reducible refine Evolves.ite ?_ ?_
    | refine Evolves.of_pair (by with_reducible assumption) ?_
    | refine Evolves.of_some (by with_reducible assumption) ?_
    | fail_if_no_progress with_reducible refine Evolves.other ?_
    | with_reducible refine Evolves.fields (by with_reducible assumption)
    | refine Evolves.fields (h := ?_)
    | fail

theorem State.dormTrigger_evolves {s t : State} {a1 : Nat} {a2 : Nat} (h : Evolves s t) :
    Evolves s (State.dormTrigger t a1 a2) := by
  unfold State.dormTrigger
  repeat' first
    | with_reducible assumption
    | with_reducible refine State.wr_evolves ?_
    | with_reducible refine State.modAon_evolves ?_
    | with_reducible refine State.modSl_evolves ?_
    | (extract_lets +onlyGivenNames x; clear_value (hx : x = _); with_reducible refine Evolves.cut s hx ?_ (fun _ => ?_))
    | (extract_lets +onlyGivenNames x; clear_value (hx : x = _); with_reducible refine EvolvesFst.cut s hx ?_ (fun _ => ?_))
    | (extract_lets +onlyGivenNames x; with_reducible refine Evolves.local_fun x ?_; subst x; beta_reduce)
    | (extract_lets +onlyGivenNames x; clear_value (hx : x = _))
    | extract_lets +onlyGivenNames x
    | with_reducible refine Evolves.ite ?_ ?_
    | with_reducible refine Evolves.foldl (fun _ _ _ => ?_) ?_
    | with_reducible refine EvolvesFst.foldl (fun _ _ _ => ?_) ?_
    | split
    | refine Evolves.of_pair (by with_reducible assumption) ?_
    | refine Evolves.of_some (by with_reducible assumption) ?_
    | fail_if_no_progress with_reducible refine Evolves.other ?_
    | with_reducible refine Evolves.fields (by with_reducible assumption)
    | refine Evolves.fields (h := ?_)
    | fail

theorem State.stopPip_evolves {s t : State} {a1 : Nat} (h : Evolves s t) :
    Evolves s (State.stopPip t a1) := by
  unfold State.stopPip
  repeat' first
    | with_reducible assumption
    | with_reducible refine State.wr_evolves ?_
    | (extract_lets +onlyGivenNames x; clear_value (hx : x = _); with_reducible refine Evolves.cut s hx ?_ (fun _ => ?_))
    | (extract_lets +onlyGivenNames x; clear_value (hx : x = _); with_reducible refine EvolvesFst.cut s hx ?_ (fun _ => ?_))
    | (extract_lets +onlyGivenNames x; with_reducible refine Evolves.local_fun x ?_; subst x; beta_reduce)
    | (extract_lets +onlyGivenNames x; clear_value (hx : x = _))
    | extract_lets +onlyGivenNames x
    | with_reducible refine Evolves.ite ?_ ?_
    | split
    | refine Evolves.of_pair (by with_reducible assumption) ?_
    | refine Evolves.of_some (by with_reducible assumption) ?_
    | fail

theorem State.faultNotice_evolves {s t : State} {a1 : Nat} (h : Evolves s t) :
    Evolves s (State.faultNotice t a1) := by
  unfold State.faultNotice
  repeat' first
    | with_reducible assumption
    | with_reducible refine State.notice_evolves ?_
    | (extract_lets +onlyGivenNames x; clear_value (hx : x = _); with_reducible refine Evolves.cut s hx ?_ (fun _ => ?_))
    | (extract_lets +onlyGivenNames x; clear_value (hx : x = _); with_reducible refine EvolvesFst.cut s hx ?_ (fun _ => ?_))
    | (extract_lets +onlyGivenNames x; with_reducible refine Evolves.local_fun x ?_; subst x; beta_reduce)
    | (extract_lets +onlyGivenNames x; clear_value (hx : x = _))
    | extract_lets +onlyGivenNames x
    | with_reducible refine Evolves.ite ?_ ?_
    | split
    | refine Evolves.of_pair (by with_reducible assumption) ?_
    | refine Evolves.of_some (by with_reducible assumption) ?_
    | fail

theorem State.setMerged_evolves {s t : State} {a1 : Nat} (h : Evolves s t) :
    Evolves s (State.setMerged t a1) := by
  unfold State.setMerged
  repeat' first
    | with_reducible assumption
    | with_reducible refine State.setReg_evolves ?_
    | (extract_lets +onlyGivenNames x; clear_value (hx : x = _); with_reducible refine Evolves.cut s hx ?_ (fun _ => ?_))
    | (extract_lets +onlyGivenNames x; clear_value (hx : x = _); with_reducible refine EvolvesFst.cut s hx ?_ (fun _ => ?_))
    | (extract_lets +onlyGivenNames x; with_reducible refine Evolves.local_fun x ?_; subst x; beta_reduce)
    | (extract_lets +onlyGivenNames x; clear_value (hx : x = _))
    | extract_lets +onlyGivenNames x
    | with_reducible refine Evolves.ite ?_ ?_
    | split
    | refine Evolves.of_pair (by with_reducible assumption) ?_
    | refine Evolves.of_some (by with_reducible assumption) ?_
    | fail

theorem State.openRecord_evolves {s t : State} {a1 : Nat} {a2 : Nat} {a3 : Bool} {a4 : BitVec 40} (h : Evolves s t) :
    Evolves s (State.openRecord t a1 a2 a3 a4) := by
  unfold State.openRecord
  repeat' first
    | with_reducible assumption
    | with_reducible refine State.setMerged_evolves ?_
    | with_reducible refine State.faultNotice_evolves ?_
    | with_reducible refine State.wr_evolves ?_
    | with_reducible refine State.setReg_evolves ?_
    | with_reducible refine State.dormTrigger_evolves ?_
    | with_reducible refine State.stopPip_evolves ?_
    | (extract_lets +onlyGivenNames x; clear_value (hx : x = _); with_reducible refine Evolves.cut s hx ?_ (fun _ => ?_))
    | (extract_lets +onlyGivenNames x; clear_value (hx : x = _); with_reducible refine EvolvesFst.cut s hx ?_ (fun _ => ?_))
    | (extract_lets +onlyGivenNames x; with_reducible refine Evolves.local_fun x ?_; subst x; beta_reduce)
    | (extract_lets +onlyGivenNames x; clear_value (hx : x = _))
    | extract_lets +onlyGivenNames x
    | with_reducible refine Evolves.ite ?_ ?_
    | split
    | refine Evolves.of_pair (by with_reducible assumption) ?_
    | refine Evolves.of_some (by with_reducible assumption) ?_
    | fail_if_no_progress with_reducible refine Evolves.other ?_
    | with_reducible refine Evolves.fields (by with_reducible assumption)
    | refine Evolves.fields (h := ?_)
    | fail

theorem State.escalate_evolves {s t : State} {a1 : Nat} {a2 : Bool} {a3 : BitVec 40} (h : Evolves s t) :
    Evolves s (State.escalate t a1 a2 a3) := by
  unfold State.escalate
  repeat' first
    | with_reducible assumption
    | with_reducible refine State.wr_evolves ?_
    | with_reducible refine State.openRecord_evolves ?_
    | (extract_lets +onlyGivenNames x; clear_value (hx : x = _); with_reducible refine Evolves.cut s hx ?_ (fun _ => ?_))
    | (extract_lets +onlyGivenNames x; clear_value (hx : x = _); with_reducible refine EvolvesFst.cut s hx ?_ (fun _ => ?_))
    | (extract_lets +onlyGivenNames x; with_reducible refine Evolves.local_fun x ?_; subst x; beta_reduce)
    | (extract_lets +onlyGivenNames x; clear_value (hx : x = _))
    | extract_lets +onlyGivenNames x
    | with_reducible refine Evolves.ite ?_ ?_
    | split
    | refine Evolves.of_pair (by with_reducible assumption) ?_
    | refine Evolves.of_some (by with_reducible assumption) ?_
    | fail

theorem State.windowCount_evolves {s t : State} {a1 : Nat} (h : Evolves s t) :
    Evolves s (State.windowCount t a1) := by
  unfold State.windowCount
  repeat' first
    | with_reducible assumption
    | with_reducible refine State.inc_evolves ?_
    | (extract_lets +onlyGivenNames x; clear_value (hx : x = _); with_reducible refine Evolves.cut s hx ?_ (fun _ => ?_))
    | (extract_lets +onlyGivenNames x; clear_value (hx : x = _); with_reducible refine EvolvesFst.cut s hx ?_ (fun _ => ?_))
    | (extract_lets +onlyGivenNames x; with_reducible refine Evolves.local_fun x ?_; subst x; beta_reduce)
    | (extract_lets +onlyGivenNames x; clear_value (hx : x = _))
    | extract_lets +onlyGivenNames x
    | with_reducible refine Evolves.ite ?_ ?_
    | refine Evolves.of_pair (by with_reducible assumption) ?_
    | refine Evolves.of_some (by with_reducible assumption) ?_
    | fail

theorem State.noteArray_evolves {s t : State} {a1 : Nat} {a2 : BitVec 40} (h : Evolves s t) :
    Evolves s (State.noteArray t a1 a2) := by
  unfold State.noteArray
  repeat' first
    | with_reducible assumption
    | (extract_lets +onlyGivenNames x; clear_value (hx : x = _); with_reducible refine Evolves.cut s hx ?_ (fun _ => ?_))
    | (extract_lets +onlyGivenNames x; clear_value (hx : x = _); with_reducible refine EvolvesFst.cut s hx ?_ (fun _ => ?_))
    | (extract_lets +onlyGivenNames x; with_reducible refine Evolves.local_fun x ?_; subst x; beta_reduce)
    | (extract_lets +onlyGivenNames x; clear_value (hx : x = _))
    | extract_lets +onlyGivenNames x
    | with_reducible refine Evolves.ite ?_ ?_
    | split
    | refine Evolves.of_pair (by with_reducible assumption) ?_
    | refine Evolves.of_some (by with_reducible assumption) ?_
    | fail_if_no_progress with_reducible refine Evolves.other ?_
    | with_reducible refine Evolves.fields (by with_reducible assumption)
    | refine Evolves.fields (h := ?_)
    | fail

theorem State.major_evolves {s t : State} {a1 : Nat} {a2 : BitVec 40} (h : Evolves s t) :
    Evolves s (State.major t a1 a2) := by
  unfold State.major
  repeat' first
    | with_reducible assumption
    | with_reducible refine State.noteArray_evolves ?_
    | with_reducible refine State.inc_evolves ?_
    | with_reducible refine State.openRecord_evolves ?_
    | with_reducible refine State.windowCount_evolves ?_
    | with_reducible refine State.escalate_evolves ?_
    | (extract_lets +onlyGivenNames x; clear_value (hx : x = _); with_reducible refine Evolves.cut s hx ?_ (fun _ => ?_))
    | (extract_lets +onlyGivenNames x; clear_value (hx : x = _); with_reducible refine EvolvesFst.cut s hx ?_ (fun _ => ?_))
    | (extract_lets +onlyGivenNames x; with_reducible refine Evolves.local_fun x ?_; subst x; beta_reduce)
    | (extract_lets +onlyGivenNames x; clear_value (hx : x = _))
    | extract_lets +onlyGivenNames x
    | with_reducible refine Evolves.ite ?_ ?_
    | split
    | refine Evolves.of_pair (by with_reducible assumption) ?_
    | refine Evolves.of_some (by with_reducible assumption) ?_
    | fail

theorem State.minor_evolves {s t : State} {a1 : Nat} {a2 : BitVec 40} (h : Evolves s t) :
    Evolves s (State.minor t a1 a2) := by
  unfold State.minor
  repeat' first
    | with_reducible assumption
    | with_reducible refine State.inc_evolves ?_
    | with_reducible refine State.windowCount_evolves ?_
    | with_reducible refine State.escalate_evolves ?_
    | (extract_lets +onlyGivenNames x; clear_value (hx : x = _); with_reducible refine Evolves.cut s hx ?_ (fun _ => ?_))
    | (extract_lets +onlyGivenNames x; clear_value (hx : x = _); with_reducible refine EvolvesFst.cut s hx ?_ (fun _ => ?_))
    | (extract_lets +onlyGivenNames x; with_reducible refine Evolves.local_fun x ?_; subst x; beta_reduce)
    | (extract_lets +onlyGivenNames x; clear_value (hx : x = _))
    | extract_lets +onlyGivenNames x
    | with_reducible refine Evolves.ite ?_ ?_
    | split
    | refine Evolves.of_pair (by with_reducible assumption) ?_
    | refine Evolves.of_some (by with_reducible assumption) ?_
    | fail_if_no_progress with_reducible refine Evolves.other ?_
    | with_reducible refine Evolves.fields (by with_reducible assumption)
    | refine Evolves.fields (h := ?_)
    | fail

theorem State.fatal_evolves {s t : State} {a1 : Nat} {a2 : BitVec 40} (h : Evolves s t) :
    Evolves s (State.fatal t a1 a2) := by
  unfold State.fatal
  repeat' first
    | with_reducible assumption
    | with_reducible refine State.inc_evolves ?_
    | with_reducible refine State.wr_evolves ?_
    | with_reducible refine State.openRecord_evolves ?_
    | (extract_lets +onlyGivenNames x; clear_value (hx : x = _); with_reducible refine Evolves.cut s hx ?_ (fun _ => ?_))
    | (extract_lets +onlyGivenNames x; clear_value (hx : x = _); with_reducible refine EvolvesFst.cut s hx ?_ (fun _ => ?_))
    | (extract_lets +onlyGivenNames x; with_reducible refine Evolves.local_fun x ?_; subst x; beta_reduce)
    | (extract_lets +onlyGivenNames x; clear_value (hx : x = _))
    | extract_lets +onlyGivenNames x
    | with_reducible refine Evolves.ite ?_ ?_
    | split
    | refine Evolves.of_pair (by with_reducible assumption) ?_
    | refine Evolves.of_some (by with_reducible assumption) ?_
    | fail

theorem State.sramWrite_evolves {s t : State} {a1 : Nat} {a2 : List Byte} (h : Evolves s t) :
    Evolves s (State.sramWrite t a1 a2) := by
  unfold State.sramWrite
  repeat' first
    | with_reducible assumption
    | (extract_lets +onlyGivenNames x; clear_value (hx : x = _); with_reducible refine Evolves.cut s hx ?_ (fun _ => ?_))
    | (extract_lets +onlyGivenNames x; clear_value (hx : x = _); with_reducible refine EvolvesFst.cut s hx ?_ (fun _ => ?_))
    | (extract_lets +onlyGivenNames x; with_reducible refine Evolves.local_fun x ?_; subst x; beta_reduce)
    | (extract_lets +onlyGivenNames x; clear_value (hx : x = _))
    | extract_lets +onlyGivenNames x
    | with_reducible refine Evolves.ite ?_ ?_
    | with_reducible refine Evolves.foldl (fun _ _ _ => ?_) ?_
    | with_reducible refine EvolvesFst.foldl (fun _ _ _ => ?_) ?_
    | refine Evolves.of_pair (by with_reducible assumption) ?_
    | refine Evolves.of_some (by with_reducible assumption) ?_
    | fail_if_no_progress with_reducible refine Evolves.other ?_
    | with_reducible refine Evolves.fields (by with_reducible assumption)
    | refine Evolves.fields (h := ?_)
    | fail

end Sys2Proof.Machine
end

