-- ==== Sys2Proof/Laws/EvFlags.lean ====
section
/-! SUPPORT. What each operation of Sys2Proof/Machine/Flags.lean does to the whole machine: one `Evolves` lemma an operation. -/

set_option linter.all false
set_option Elab.async false

namespace Sys2Proof.Machine

open Host (Outcome)

theorem State.queueInterrupt_evolves {s t : State} {a1 : Nat} (h : Evolves s t) :
    Evolves s (State.queueInterrupt t a1) := by
  unfold State.queueInterrupt
  repeat' first
    | with_reducible assumption
    | with_reducible refine State.pqInterrupt_evolves ?_
    | with_reducible refine State.notice_evolves ?_
    | (extract_lets +onlyGivenNames x; clear_value (hx : x = _); with_reducible refine Evolves.cut s hx ?_ (fun _ => ?_))
    | (extract_lets +onlyGivenNames x; clear_value (hx : x = _); with_reducible refine EvolvesFst.cut s hx ?_ (fun _ => ?_))
    | (extract_lets +onlyGivenNames x; with_reducible refine Evolves.local_fun x ?_; subst x; beta_reduce)
    | (extract_lets +onlyGivenNames x; clear_value (hx : x = _))
    | extract_lets +onlyGivenNames x
    | with_reducible refine Evolves.ite ?_ ?_
    | split
    | refine Evolves.of_pair (by with_reducible assumption) ?_
    | refine Evolves.of_some (by with_reducible assumption) ?_
    | fail

theorem State.crossRise_evolves {s t : State} {a1 : Nat} {a2 : Nat} (h : Evolves s t) :
    Evolves s (State.crossRise t a1 a2) := by
  unfold State.crossRise
  repeat' first
    | with_reducible assumption
    | with_reducible refine State.wr_evolves ?_
    | with_reducible refine State.queueInterrupt_evolves ?_
    | (extract_lets +onlyGivenNames x; clear_value (hx : x = _); with_reducible refine Evolves.cut s hx ?_ (fun _ => ?_))
    | (extract_lets +onlyGivenNames x; clear_value (hx : x = _); with_reducible refine EvolvesFst.cut s hx ?_ (fun _ => ?_))
    | (extract_lets +onlyGivenNames x; with_reducible refine Evolves.local_fun x ?_; subst x; beta_reduce)
    | (extract_lets +onlyGivenNames x; clear_value (hx : x = _))
    | extract_lets +onlyGivenNames x
    | with_reducible refine Evolves.ite ?_ ?_
    | split
    | refine Evolves.of_pair (by with_reducible assumption) ?_
    | refine Evolves.of_some (by with_reducible assumption) ?_
    | fail

end Sys2Proof.Machine
end

