-- ==== Sys2Proof/Laws/EvEcc.lean ====
section
/-! SUPPORT. What each operation of Sys2Proof/Machine/Ecc.lean does to the whole machine: one `Evolves` lemma an operation. -/

set_option linter.all false
set_option Elab.async false

namespace Sys2Proof.Machine

open Host (Outcome)

theorem State.injected_evolves {s t : State} {a1 : PhysSlice} (h : Evolves s t) :
    Evolves s (State.injected t a1) := by
  unfold State.injected
  repeat' first
    | with_reducible assumption
    | with_reducible refine State.wr_evolves ?_
    | with_reducible refine State.modSl_evolves ?_
    | (extract_lets +onlyGivenNames x; clear_value (hx : x = _); with_reducible refine Evolves.cut s hx ?_ (fun _ => ?_))
    | (extract_lets +onlyGivenNames x; clear_value (hx : x = _); with_reducible refine EvolvesFst.cut s hx ?_ (fun _ => ?_))
    | (extract_lets +onlyGivenNames x; with_reducible refine Evolves.local_fun x ?_; subst x; beta_reduce)
    | (extract_lets +onlyGivenNames x; clear_value (hx : x = _))
    | extract_lets +onlyGivenNames x
    | with_reducible refine Evolves.ite ?_ ?_
    | refine Evolves.of_pair (by with_reducible assumption) ?_
    | refine Evolves.of_some (by with_reducible assumption) ?_
    | fail_if_no_progress with_reducible refine Evolves.other ?_
    | with_reducible refine Evolves.fields (by with_reducible assumption)
    | refine Evolves.fields (h := ?_)
    | fail

theorem State.finding_evolves {s t : State} {a1 : PhysSlice} {a2 : CodeWord} {a3 : Found} {a4 : Bool} {a5 : Bool} (h : Evolves s t) :
    Evolves s (State.finding t a1 a2 a3 a4 a5) := by
  unfold State.finding
  repeat' first
    | with_reducible assumption
    | with_reducible refine State.inc_evolves ?_
    | with_reducible refine State.minor_evolves ?_
    | with_reducible refine State.openRecord_evolves ?_
    | with_reducible refine State.major_evolves ?_
    | (extract_lets +onlyGivenNames x; clear_value (hx : x = _); with_reducible refine Evolves.cut s hx ?_ (fun _ => ?_))
    | (extract_lets +onlyGivenNames x; clear_value (hx : x = _); with_reducible refine EvolvesFst.cut s hx ?_ (fun _ => ?_))
    | (extract_lets +onlyGivenNames x; with_reducible refine Evolves.local_fun x ?_; subst x; beta_reduce)
    | (extract_lets +onlyGivenNames x; clear_value (hx : x = _))
    | extract_lets +onlyGivenNames x
    | with_reducible refine Evolves.ite ?_ ?_
    | split
    | refine Evolves.of_pair (by with_reducible assumption) ?_
    | refine Evolves.of_some (by with_reducible assumption) ?_
    | fail

theorem State.readKey_evolves {s t : State} {a1 : PhysSlice} {a2 : CodeWord} {a3 : Nat} {a4 : Bool} (h : Evolves s t) :
    EvolvesFst s (State.readKey t a1 a2 a3 a4) := by
  unfold State.readKey
  repeat' first
    | with_reducible assumption
    | with_reducible refine State.injected_evolves ?_
    | with_reducible refine State.finding_evolves ?_
    | (extract_lets +onlyGivenNames x; clear_value (hx : x = _); with_reducible refine Evolves.cut s hx ?_ (fun _ => ?_))
    | (extract_lets +onlyGivenNames x; clear_value (hx : x = _); with_reducible refine EvolvesFst.cut s hx ?_ (fun _ => ?_))
    | (extract_lets +onlyGivenNames x; with_reducible refine Evolves.local_fun x ?_; subst x; beta_reduce)
    | (extract_lets +onlyGivenNames x; clear_value (hx : x = _))
    | extract_lets +onlyGivenNames x
    | with_reducible refine Evolves.ite ?_ ?_
    | with_reducible refine EvolvesFst.ite ?_ ?_
    | split
    | with_reducible refine EvolvesFst.pair ?_
    | with_reducible refine EvolvesFst.fst ?_
    | refine Evolves.of_pair (by with_reducible assumption) ?_
    | refine Evolves.of_some (by with_reducible assumption) ?_
    | fail

theorem State.writeKey_evolves {s t : State} {a1 : PhysSlice} {a2 : CodeWord} {a3 : Nat} {a4 : Bool} (h : Evolves s t) :
    Evolves s (State.writeKey t a1 a2 a3 a4) := by
  unfold State.writeKey
  repeat' first
    | with_reducible assumption
    | with_reducible refine State.injected_evolves ?_
    | with_reducible refine State.modSl_evolves ?_
    | (extract_lets +onlyGivenNames x; clear_value (hx : x = _); with_reducible refine Evolves.cut s hx ?_ (fun _ => ?_))
    | (extract_lets +onlyGivenNames x; clear_value (hx : x = _); with_reducible refine EvolvesFst.cut s hx ?_ (fun _ => ?_))
    | (extract_lets +onlyGivenNames x; with_reducible refine Evolves.local_fun x ?_; subst x; beta_reduce)
    | (extract_lets +onlyGivenNames x; clear_value (hx : x = _))
    | extract_lets +onlyGivenNames x
    | with_reducible refine Evolves.ite ?_ ?_
    | split
    | refine Evolves.of_pair (by with_reducible assumption) ?_
    | refine Evolves.of_some (by with_reducible assumption) ?_
    | fail_if_no_progress with_reducible refine Evolves.other ?_
    | with_reducible refine Evolves.fields (by with_reducible assumption)
    | refine Evolves.fields (h := ?_)
    | fail

theorem State.readWords_evolves {s t : State} {a1 : PhysSlice} {a2 : List CodeWord} (h : Evolves s t) :
    EvolvesFst s (State.readWords t a1 a2) := by
  unfold State.readWords
  repeat' first
    | with_reducible assumption
    | with_reducible refine State.readKey_evolves ?_
    | (extract_lets +onlyGivenNames x; clear_value (hx : x = _); with_reducible refine Evolves.cut s hx ?_ (fun _ => ?_))
    | (extract_lets +onlyGivenNames x; clear_value (hx : x = _); with_reducible refine EvolvesFst.cut s hx ?_ (fun _ => ?_))
    | (extract_lets +onlyGivenNames x; with_reducible refine Evolves.local_fun x ?_; subst x; beta_reduce)
    | (extract_lets +onlyGivenNames x; clear_value (hx : x = _))
    | extract_lets +onlyGivenNames x
    | with_reducible refine Evolves.ite ?_ ?_
    | with_reducible refine EvolvesFst.ite ?_ ?_
    | with_reducible refine Evolves.foldl (fun _ _ _ => ?_) ?_
    | with_reducible refine EvolvesFst.foldl (fun _ _ _ => ?_) ?_
    | split
    | with_reducible refine EvolvesFst.pair ?_
    | with_reducible refine EvolvesFst.fst ?_
    | refine Evolves.of_pair (by with_reducible assumption) ?_
    | refine Evolves.of_some (by with_reducible assumption) ?_
    | fail

theorem State.writeWords_evolves {s t : State} {a1 : PhysSlice} {a2 : List CodeWord} (h : Evolves s t) :
    Evolves s (State.writeWords t a1 a2) := by
  unfold State.writeWords
  repeat' first
    | with_reducible assumption
    | with_reducible refine State.writeKey_evolves ?_
    | (extract_lets +onlyGivenNames x; clear_value (hx : x = _); with_reducible refine Evolves.cut s hx ?_ (fun _ => ?_))
    | (extract_lets +onlyGivenNames x; clear_value (hx : x = _); with_reducible refine EvolvesFst.cut s hx ?_ (fun _ => ?_))
    | (extract_lets +onlyGivenNames x; with_reducible refine Evolves.local_fun x ?_; subst x; beta_reduce)
    | (extract_lets +onlyGivenNames x; clear_value (hx : x = _))
    | extract_lets +onlyGivenNames x
    | with_reducible refine Evolves.ite ?_ ?_
    | with_reducible refine Evolves.foldl (fun _ _ _ => ?_) ?_
    | with_reducible refine EvolvesFst.foldl (fun _ _ _ => ?_) ?_
    | split
    | refine Evolves.of_pair (by with_reducible assumption) ?_
    | refine Evolves.of_some (by with_reducible assumption) ?_
    | fail

theorem State.patchWords_evolves {s t : State} {a1 : PhysSlice} {a2 : List CodeWord} (h : Evolves s t) :
    Evolves s (State.patchWords t a1 a2) := by
  unfold State.patchWords
  repeat' first
    | with_reducible assumption
    | with_reducible refine State.readKey_evolves ?_
    | with_reducible refine State.writeKey_evolves ?_
    | with_reducible refine State.modSl_evolves ?_
    | (extract_lets +onlyGivenNames x; clear_value (hx : x = _); with_reducible refine Evolves.cut s hx ?_ (fun _ => ?_))
    | (extract_lets +onlyGivenNames x; clear_value (hx : x = _); with_reducible refine EvolvesFst.cut s hx ?_ (fun _ => ?_))
    | (extract_lets +onlyGivenNames x; with_reducible refine Evolves.local_fun x ?_; subst x; beta_reduce)
    | (extract_lets +onlyGivenNames x; clear_value (hx : x = _))
    | extract_lets +onlyGivenNames x
    | with_reducible refine Evolves.ite ?_ ?_
    | with_reducible refine EvolvesFst.ite ?_ ?_
    | with_reducible refine Evolves.foldl (fun _ _ _ => ?_) ?_
    | with_reducible refine EvolvesFst.foldl (fun _ _ _ => ?_) ?_
    | split
    | with_reducible refine EvolvesFst.pair ?_
    | with_reducible refine EvolvesFst.fst ?_
    | refine Evolves.of_pair (by with_reducible assumption) ?_
    | refine Evolves.of_some (by with_reducible assumption) ?_
    | fail_if_no_progress with_reducible refine Evolves.other ?_
    | with_reducible refine Evolves.fields (by with_reducible assumption)
    | refine Evolves.fields (h := ?_)
    | fail

theorem State.bufferMatch_evolves {s t : State} {a1 : PhysSlice} {a2 : Nat} (h : Evolves s t) :
    EvolvesFst s (State.bufferMatch t a1 a2) := by
  unfold State.bufferMatch
  repeat' first
    | with_reducible assumption
    | with_reducible refine State.draw_evolves ?_
    | (extract_lets +onlyGivenNames x; clear_value (hx : x = _); with_reducible refine Evolves.cut s hx ?_ (fun _ => ?_))
    | (extract_lets +onlyGivenNames x; clear_value (hx : x = _); with_reducible refine EvolvesFst.cut s hx ?_ (fun _ => ?_))
    | (extract_lets +onlyGivenNames x; with_reducible refine Evolves.local_fun x ?_; subst x; beta_reduce)
    | (extract_lets +onlyGivenNames x; clear_value (hx : x = _))
    | extract_lets +onlyGivenNames x
    | with_reducible refine Evolves.ite ?_ ?_
    | with_reducible refine EvolvesFst.ite ?_ ?_
    | split
    | with_reducible refine EvolvesFst.pair ?_
    | with_reducible refine EvolvesFst.fst ?_
    | refine Evolves.of_pair (by with_reducible assumption) ?_
    | refine Evolves.of_some (by with_reducible assumption) ?_
    | fail_if_no_progress with_reducible refine Evolves.other ?_
    | with_reducible refine Evolves.fields (by with_reducible assumption)
    | refine Evolves.fields (h := ?_)
    | fail

theorem State.readBuffer_evolves {s t : State} {a1 : PhysSlice} {a2 : Nat} {a3 : Nat} (h : Evolves s t) :
    EvolvesFst s (State.readBuffer t a1 a2 a3) := by
  unfold State.readBuffer
  repeat' first
    | with_reducible assumption
    | with_reducible refine State.bufferMatch_evolves ?_
    | with_reducible refine State.readKey_evolves ?_
    | (extract_lets +onlyGivenNames x; clear_value (hx : x = _); with_reducible refine Evolves.cut s hx ?_ (fun _ => ?_))
    | (extract_lets +onlyGivenNames x; clear_value (hx : x = _); with_reducible refine EvolvesFst.cut s hx ?_ (fun _ => ?_))
    | (extract_lets +onlyGivenNames x; with_reducible refine Evolves.local_fun x ?_; subst x; beta_reduce)
    | (extract_lets +onlyGivenNames x; clear_value (hx : x = _))
    | extract_lets +onlyGivenNames x
    | with_reducible refine Evolves.ite ?_ ?_
    | with_reducible refine EvolvesFst.ite ?_ ?_
    | split
    | with_reducible refine EvolvesFst.pair ?_
    | with_reducible refine EvolvesFst.fst ?_
    | refine Evolves.of_pair (by with_reducible assumption) ?_
    | refine Evolves.of_some (by with_reducible assumption) ?_
    | fail

theorem State.writeBuffer_evolves {s t : State} {a1 : PhysSlice} {a2 : Nat} {a3 : Nat} (h : Evolves s t) :
    Evolves s (State.writeBuffer t a1 a2 a3) := by
  unfold State.writeBuffer
  repeat' first
    | with_reducible assumption
    | with_reducible refine State.bufferMatch_evolves ?_
    | with_reducible refine State.writeKey_evolves ?_
    | (extract_lets +onlyGivenNames x; clear_value (hx : x = _); with_reducible refine Evolves.cut s hx ?_ (fun _ => ?_))
    | (extract_lets +onlyGivenNames x; clear_value (hx : x = _); with_reducible refine EvolvesFst.cut s hx ?_ (fun _ => ?_))
    | (extract_lets +onlyGivenNames x; with_reducible refine Evolves.local_fun x ?_; subst x; beta_reduce)
    | (extract_lets +onlyGivenNames x; clear_value (hx : x = _))
    | extract_lets +onlyGivenNames x
    | with_reducible refine Evolves.ite ?_ ?_
    | with_reducible refine EvolvesFst.ite ?_ ?_
    | split
    | with_reducible refine EvolvesFst.pair ?_
    | with_reducible refine EvolvesFst.fst ?_
    | refine Evolves.of_pair (by with_reducible assumption) ?_
    | refine Evolves.of_some (by with_reducible assumption) ?_
    | fail

theorem State.setValid_evolves {s t : State} {a1 : Nat} {a2 : Nat} {a3 : Nat} {a4 : Bool} (h : Evolves s t) :
    Evolves s (State.setValid t a1 a2 a3 a4) := by
  unfold State.setValid
  repeat' first
    | with_reducible assumption
    | (extract_lets +onlyGivenNames x; clear_value (hx : x = _); with_reducible refine Evolves.cut s hx ?_ (fun _ => ?_))
    | (extract_lets +onlyGivenNames x; clear_value (hx : x = _); with_reducible refine EvolvesFst.cut s hx ?_ (fun _ => ?_))
    | (extract_lets +onlyGivenNames x; with_reducible refine Evolves.local_fun x ?_; subst x; beta_reduce)
    | (extract_lets +onlyGivenNames x; clear_value (hx : x = _))
    | extract_lets +onlyGivenNames x
    | with_reducible refine Evolves.ite ?_ ?_
    | with_reducible refine Evolves.foldl (fun _ _ _ => ?_) ?_
    | with_reducible refine EvolvesFst.foldl (fun _ _ _ => ?_) ?_
    | split
    | refine Evolves.of_pair (by with_reducible assumption) ?_
    | refine Evolves.of_some (by with_reducible assumption) ?_
    | fail_if_no_progress with_reducible refine Evolves.other ?_
    | with_reducible refine Evolves.fields (by with_reducible assumption)
    | refine Evolves.fields (h := ?_)
    | fail

theorem State.devFinding_evolves {s t : State} {a1 : Nat} {a2 : Nat} {a3 : Bool} {a4 : Found} (h : Evolves s t) :
    Evolves s (State.devFinding t a1 a2 a3 a4) := by
  unfold State.devFinding
  repeat' first
    | with_reducible assumption
    | with_reducible refine State.minor_evolves ?_
    | with_reducible refine State.major_evolves ?_
    | (extract_lets +onlyGivenNames x; clear_value (hx : x = _); with_reducible refine Evolves.cut s hx ?_ (fun _ => ?_))
    | (extract_lets +onlyGivenNames x; clear_value (hx : x = _); with_reducible refine EvolvesFst.cut s hx ?_ (fun _ => ?_))
    | (extract_lets +onlyGivenNames x; with_reducible refine Evolves.local_fun x ?_; subst x; beta_reduce)
    | (extract_lets +onlyGivenNames x; clear_value (hx : x = _))
    | extract_lets +onlyGivenNames x
    | with_reducible refine Evolves.ite ?_ ?_
    | split
    | refine Evolves.of_pair (by with_reducible assumption) ?_
    | refine Evolves.of_some (by with_reducible assumption) ?_
    | fail

theorem State.setDevError_evolves {s t : State} {a1 : Nat} {a2 : Nat} {a3 : Bool} {a4 : WordError} (h : Evolves s t) :
    Evolves s (State.setDevError t a1 a2 a3 a4) := by
  unfold State.setDevError
  repeat' first
    | with_reducible assumption
    | (extract_lets +onlyGivenNames x; clear_value (hx : x = _); with_reducible refine Evolves.cut s hx ?_ (fun _ => ?_))
    | (extract_lets +onlyGivenNames x; clear_value (hx : x = _); with_reducible refine EvolvesFst.cut s hx ?_ (fun _ => ?_))
    | (extract_lets +onlyGivenNames x; with_reducible refine Evolves.local_fun x ?_; subst x; beta_reduce)
    | (extract_lets +onlyGivenNames x; clear_value (hx : x = _))
    | extract_lets +onlyGivenNames x
    | with_reducible refine Evolves.ite ?_ ?_
    | refine Evolves.of_pair (by with_reducible assumption) ?_
    | refine Evolves.of_some (by with_reducible assumption) ?_
    | fail_if_no_progress with_reducible refine Evolves.other ?_
    | with_reducible refine Evolves.fields (by with_reducible assumption)
    | refine Evolves.fields (h := ?_)
    | fail

theorem State.readValid_evolves {s t : State} {a1 : Nat} {a2 : Nat} (h : Evolves s t) :
    EvolvesFst s (State.readValid t a1 a2) := by
  unfold State.readValid
  repeat' first
    | with_reducible assumption
    | with_reducible refine State.setValid_evolves ?_
    | with_reducible refine State.devFinding_evolves ?_
    | (extract_lets +onlyGivenNames x; clear_value (hx : x = _); with_reducible refine Evolves.cut s hx ?_ (fun _ => ?_))
    | (extract_lets +onlyGivenNames x; clear_value (hx : x = _); with_reducible refine EvolvesFst.cut s hx ?_ (fun _ => ?_))
    | (extract_lets +onlyGivenNames x; with_reducible refine Evolves.local_fun x ?_; subst x; beta_reduce)
    | (extract_lets +onlyGivenNames x; clear_value (hx : x = _))
    | extract_lets +onlyGivenNames x
    | with_reducible refine Evolves.ite ?_ ?_
    | with_reducible refine EvolvesFst.ite ?_ ?_
    | split
    | with_reducible refine EvolvesFst.pair ?_
    | with_reducible refine EvolvesFst.fst ?_
    | refine Evolves.of_pair (by with_reducible assumption) ?_
    | refine Evolves.of_some (by with_reducible assumption) ?_
    | fail

theorem State.freshWord_evolves {s t : State} {a1 : Nat} {a2 : Nat} {a3 : Bool} (h : Evolves s t) :
    Evolves s (State.freshWord t a1 a2 a3) := by
  unfold State.freshWord
  repeat' first
    | with_reducible assumption
    | with_reducible refine State.setDevError_evolves ?_
    | with_reducible refine State.setValid_evolves ?_
    | (extract_lets +onlyGivenNames x; clear_value (hx : x = _); with_reducible refine Evolves.cut s hx ?_ (fun _ => ?_))
    | (extract_lets +onlyGivenNames x; clear_value (hx : x = _); with_reducible refine EvolvesFst.cut s hx ?_ (fun _ => ?_))
    | (extract_lets +onlyGivenNames x; with_reducible refine Evolves.local_fun x ?_; subst x; beta_reduce)
    | (extract_lets +onlyGivenNames x; clear_value (hx : x = _))
    | extract_lets +onlyGivenNames x
    | with_reducible refine Evolves.ite ?_ ?_
    | refine Evolves.of_pair (by with_reducible assumption) ?_
    | refine Evolves.of_some (by with_reducible assumption) ?_
    | fail

theorem State.readMfBuffer_evolves {s t : State} {a1 : Nat} {a2 : Nat} (h : Evolves s t) :
    EvolvesFst s (State.readMfBuffer t a1 a2) := by
  unfold State.readMfBuffer
  repeat' first
    | with_reducible assumption
    | with_reducible refine State.devFinding_evolves ?_
    | (extract_lets +onlyGivenNames x; clear_value (hx : x = _); with_reducible refine Evolves.cut s hx ?_ (fun _ => ?_))
    | (extract_lets +onlyGivenNames x; clear_value (hx : x = _); with_reducible refine EvolvesFst.cut s hx ?_ (fun _ => ?_))
    | (extract_lets +onlyGivenNames x; with_reducible refine Evolves.local_fun x ?_; subst x; beta_reduce)
    | (extract_lets +onlyGivenNames x; clear_value (hx : x = _))
    | extract_lets +onlyGivenNames x
    | with_reducible refine Evolves.ite ?_ ?_
    | with_reducible refine EvolvesFst.ite ?_ ?_
    | split
    | with_reducible refine EvolvesFst.pair ?_
    | with_reducible refine EvolvesFst.fst ?_
    | refine Evolves.of_pair (by with_reducible assumption) ?_
    | refine Evolves.of_some (by with_reducible assumption) ?_
    | fail

theorem State.writeMfBuffer_evolves {s t : State} {a1 : Nat} {a2 : Nat} (h : Evolves s t) :
    Evolves s (State.writeMfBuffer t a1 a2) := by
  unfold State.writeMfBuffer
  repeat' first
    | with_reducible assumption
    | (extract_lets +onlyGivenNames x; clear_value (hx : x = _); with_reducible refine Evolves.cut s hx ?_ (fun _ => ?_))
    | (extract_lets +onlyGivenNames x; clear_value (hx : x = _); with_reducible refine EvolvesFst.cut s hx ?_ (fun _ => ?_))
    | (extract_lets +onlyGivenNames x; with_reducible refine Evolves.local_fun x ?_; subst x; beta_reduce)
    | (extract_lets +onlyGivenNames x; clear_value (hx : x = _))
    | extract_lets +onlyGivenNames x
    | with_reducible refine Evolves.ite ?_ ?_
    | refine Evolves.of_pair (by with_reducible assumption) ?_
    | refine Evolves.of_some (by with_reducible assumption) ?_
    | fail_if_no_progress with_reducible refine Evolves.other ?_
    | with_reducible refine Evolves.fields (by with_reducible assumption)
    | refine Evolves.fields (h := ?_)
    | fail

end Sys2Proof.Machine
end

