-- ==== Sys2Proof/Laws/EvArrays.lean ====
section
/-! SUPPORT. What each operation of Sys2Proof/Machine/Arrays.lean does to the whole machine: one `Evolves` lemma an operation. -/

set_option linter.all false
set_option Elab.async false

namespace Sys2Proof.Machine

open Host (Outcome)

theorem State.issue_evolves {s t : State} {a1 : OpKind} {a2 : Nat} {a3 : OpSource} {a4 : Nat} {a5 : LineData} {a6 : DirEntry} (h : Evolves s t) :
    Evolves s (State.issue t a1 a2 a3 a4 a5 a6) := by
  unfold State.issue
  repeat' first
    | with_reducible assumption
    | (extract_lets +onlyGivenNames x; clear_value (hx : x = _); with_reducible refine Evolves.cut s hx ?_ (fun _ => ?_))
    | (extract_lets +onlyGivenNames x; clear_value (hx : x = _); with_reducible refine EvolvesFst.cut s hx ?_ (fun _ => ?_))
    | (extract_lets +onlyGivenNames x; with_reducible refine Evolves.local_fun x ?_; subst x; beta_reduce)
    | (extract_lets +onlyGivenNames x; clear_value (hx : x = _))
    | extract_lets +onlyGivenNames x
    | with_reducible refine Evolves.ite ?_ ?_
    | refine Evolves.of_pair (by with_reducible assumption) ?_
    | refine Evolves.of_some (by with_reducible assumption) ?_
    | fail_if_no_progress with_reducible refine Evolves.other ?_
    | with_reducible refine Evolves.fields (by with_reducible assumption)
    | refine Evolves.fields (h := ?_)
    | fail

theorem State.setOp_evolves {s t : State} {a1 : Nat} {a2 : Option MediaOp} (h : Evolves s t) :
    Evolves s (State.setOp t a1 a2) := by
  unfold State.setOp
  repeat' first
    | with_reducible assumption
    | (extract_lets +onlyGivenNames x; clear_value (hx : x = _); with_reducible refine Evolves.cut s hx ?_ (fun _ => ?_))
    | (extract_lets +onlyGivenNames x; with_reducible refine Evolves.local_fun x ?_; subst x; beta_reduce)
    | (extract_lets +onlyGivenNames x; clear_value (hx : x = _))
    | extract_lets +onlyGivenNames x
    | with_reducible refine Evolves.ite ?_ ?_
    | refine Evolves.of_pair (by with_reducible assumption) ?_
    | refine Evolves.of_some (by with_reducible assumption) ?_
    | fail_if_no_progress with_reducible refine Evolves.other ?_
    | with_reducible refine Evolves.fields (by with_reducible assumption)
    | refine Evolves.fields (h := ?_)
    | fail

theorem State.setWay_evolves {s t : State} {a1 : PhysSlice} {a2 : Nat} {a3 : Nat} {a4 : TagWord} {a5 : LineData} (h : Evolves s t) :
    Evolves s (State.setWay t a1 a2 a3 a4 a5) := by
  unfold State.setWay
  repeat' first
    | with_reducible assumption
    | with_reducible refine State.modSl_evolves ?_
    | with_reducible refine State.writeWords_evolves ?_
    | (extract_lets +onlyGivenNames x; clear_value (hx : x = _); with_reducible refine Evolves.cut s hx ?_ (fun _ => ?_))
    | (extract_lets +onlyGivenNames x; clear_value (hx : x = _); with_reducible refine EvolvesFst.cut s hx ?_ (fun _ => ?_))
    | (extract_lets +onlyGivenNames x; with_reducible refine Evolves.local_fun x ?_; subst x; beta_reduce)
    | (extract_lets +onlyGivenNames x; clear_value (hx : x = _))
    | extract_lets +onlyGivenNames x
    | with_reducible refine Evolves.ite ?_ ?_
    | refine Evolves.of_pair (by with_reducible assumption) ?_
    | refine Evolves.of_some (by with_reducible assumption) ?_
    | fail_if_no_progress with_reducible refine Evolves.other ?_
    | with_reducible refine Evolves.fields (by with_reducible assumption)
    | refine Evolves.fields (h := ?_)
    | fail

theorem State.setTag_evolves {s t : State} {a1 : PhysSlice} {a2 : Nat} {a3 : Nat} {a4 : TagWord} (h : Evolves s t) :
    Evolves s (State.setTag t a1 a2 a3 a4) := by
  unfold State.setTag
  repeat' first
    | with_reducible assumption
    | with_reducible refine State.modSl_evolves ?_
    | with_reducible refine State.writeWords_evolves ?_
    | (extract_lets +onlyGivenNames x; clear_value (hx : x = _); with_reducible refine Evolves.cut s hx ?_ (fun _ => ?_))
    | (extract_lets +onlyGivenNames x; clear_value (hx : x = _); with_reducible refine EvolvesFst.cut s hx ?_ (fun _ => ?_))
    | (extract_lets +onlyGivenNames x; with_reducible refine Evolves.local_fun x ?_; subst x; beta_reduce)
    | (extract_lets +onlyGivenNames x; clear_value (hx : x = _))
    | extract_lets +onlyGivenNames x
    | with_reducible refine Evolves.ite ?_ ?_
    | refine Evolves.of_pair (by with_reducible assumption) ?_
    | refine Evolves.of_some (by with_reducible assumption) ?_
    | fail_if_no_progress with_reducible refine Evolves.other ?_
    | with_reducible refine Evolves.fields (by with_reducible assumption)
    | refine Evolves.fields (h := ?_)
    | fail

theorem State.readData_evolves {s t : State} {a1 : PhysSlice} {a2 : Nat} {a3 : Nat} (h : Evolves s t) :
    EvolvesFst s (State.readData t a1 a2 a3) := by
  unfold State.readData
  repeat' first
    | with_reducible assumption
    | with_reducible refine State.readWords_evolves ?_
    | (extract_lets +onlyGivenNames x; clear_value (hx : x = _); with_reducible refine Evolves.cut s hx ?_ (fun _ => ?_))
    | (extract_lets +onlyGivenNames x; clear_value (hx : x = _); with_reducible refine EvolvesFst.cut s hx ?_ (fun _ => ?_))
    | (extract_lets +onlyGivenNames x; with_reducible refine Evolves.local_fun x ?_; subst x; beta_reduce)
    | (extract_lets +onlyGivenNames x; clear_value (hx : x = _))
    | extract_lets +onlyGivenNames x
    | with_reducible refine Evolves.ite ?_ ?_
    | with_reducible refine EvolvesFst.ite ?_ ?_
    | with_reducible refine EvolvesFst.pair ?_
    | with_reducible refine EvolvesFst.fst ?_
    | refine Evolves.of_pair (by with_reducible assumption) ?_
    | refine Evolves.of_some (by with_reducible assumption) ?_
    | fail

theorem State.evictWay_evolves {s t : State} {a1 : PhysSlice} {a2 : Nat} {a3 : Nat} (h : Evolves s t) :
    Evolves s (State.evictWay t a1 a2 a3) := by
  unfold State.evictWay
  repeat' first
    | with_reducible assumption
    | with_reducible refine State.readData_evolves ?_
    | with_reducible refine State.writeBuffer_evolves ?_
    | with_reducible refine State.readBuffer_evolves ?_
    | with_reducible refine State.modSl_evolves ?_
    | with_reducible refine State.issue_evolves ?_
    | with_reducible refine State.setTag_evolves ?_
    | (extract_lets +onlyGivenNames x; clear_value (hx : x = _); with_reducible refine Evolves.cut s hx ?_ (fun _ => ?_))
    | (extract_lets +onlyGivenNames x; clear_value (hx : x = _); with_reducible refine EvolvesFst.cut s hx ?_ (fun _ => ?_))
    | (extract_lets +onlyGivenNames x; with_reducible refine Evolves.local_fun x ?_; subst x; beta_reduce)
    | (extract_lets +onlyGivenNames x; clear_value (hx : x = _))
    | extract_lets +onlyGivenNames x
    | with_reducible refine Evolves.ite ?_ ?_
    | with_reducible refine EvolvesFst.ite ?_ ?_
    | split
    | with_reducible refine EvolvesFst.pair ?_
    | with_reducible refine EvolvesFst.fst ?_
    | refine Evolves.of_pair (by with_reducible assumption) ?_
    | refine Evolves.of_some (by with_reducible assumption) ?_
    | fail_if_no_progress with_reducible refine Evolves.other ?_
    | with_reducible refine Evolves.fields (by with_reducible assumption)
    | refine Evolves.fields (h := ?_)
    | fail

theorem State.hcTake_evolves {s t : State} {a1 : PhysSlice} {a2 : Nat} {a3 : Nat × Bool} (h : Evolves s t) :
    Evolves s (State.hcTake t a1 a2 a3) := by
  unfold State.hcTake
  repeat' first
    | with_reducible assumption
    | with_reducible refine State.evictWay_evolves ?_
    | with_reducible refine State.setTag_evolves ?_
    | with_reducible refine State.modSl_evolves ?_
    | (extract_lets +onlyGivenNames x; clear_value (hx : x = _); with_reducible refine Evolves.cut s hx ?_ (fun _ => ?_))
    | (extract_lets +onlyGivenNames x; clear_value (hx : x = _); with_reducible refine EvolvesFst.cut s hx ?_ (fun _ => ?_))
    | (extract_lets +onlyGivenNames x; with_reducible refine Evolves.local_fun x ?_; subst x; beta_reduce)
    | (extract_lets +onlyGivenNames x; clear_value (hx : x = _))
    | extract_lets +onlyGivenNames x
    | with_reducible refine Evolves.ite ?_ ?_
    | split
    | refine Evolves.of_pair (by with_reducible assumption) ?_
    | refine Evolves.of_some (by with_reducible assumption) ?_
    | fail_if_no_progress with_reducible refine Evolves.other ?_
    | with_reducible refine Evolves.fields (by with_reducible assumption)
    | refine Evolves.fields (h := ?_)
    | fail

theorem State.dropBad_evolves {s t : State} {a1 : PhysSlice} {a2 : Nat} {a3 : Nat} (h : Evolves s t) :
    Evolves s (State.dropBad t a1 a2 a3) := by
  unfold State.dropBad
  repeat' first
    | with_reducible assumption
    | with_reducible refine State.setTag_evolves ?_
    | (extract_lets +onlyGivenNames x; clear_value (hx : x = _); with_reducible refine Evolves.cut s hx ?_ (fun _ => ?_))
    | (extract_lets +onlyGivenNames x; clear_value (hx : x = _); with_reducible refine EvolvesFst.cut s hx ?_ (fun _ => ?_))
    | (extract_lets +onlyGivenNames x; with_reducible refine Evolves.local_fun x ?_; subst x; beta_reduce)
    | (extract_lets +onlyGivenNames x; clear_value (hx : x = _))
    | extract_lets +onlyGivenNames x
    | with_reducible refine Evolves.ite ?_ ?_
    | split
    | refine Evolves.of_pair (by with_reducible assumption) ?_
    | refine Evolves.of_some (by with_reducible assumption) ?_
    | fail_if_no_progress with_reducible refine Evolves.other ?_
    | with_reducible refine Evolves.fields (by with_reducible assumption)
    | refine Evolves.fields (h := ?_)
    | fail

theorem State.hcFill_evolves {s t : State} {a1 : PhysSlice} {a2 : Nat} {a3 : Nat × Bool} {a4 : LineData} {a5 : Bool} {a6 : Bool} {a7 : Option DirEntry} (h : Evolves s t) :
    Evolves s (State.hcFill t a1 a2 a3 a4 a5 a6 a7) := by
  unfold State.hcFill
  repeat' first
    | with_reducible assumption
    | with_reducible refine State.hcTake_evolves ?_
    | with_reducible refine State.setWay_evolves ?_
    | (extract_lets +onlyGivenNames x; clear_value (hx : x = _); with_reducible refine Evolves.cut s hx ?_ (fun _ => ?_))
    | (extract_lets +onlyGivenNames x; clear_value (hx : x = _); with_reducible refine EvolvesFst.cut s hx ?_ (fun _ => ?_))
    | (extract_lets +onlyGivenNames x; with_reducible refine Evolves.local_fun x ?_; subst x; beta_reduce)
    | (extract_lets +onlyGivenNames x; clear_value (hx : x = _))
    | extract_lets +onlyGivenNames x
    | with_reducible refine Evolves.ite ?_ ?_
    | refine Evolves.of_pair (by with_reducible assumption) ?_
    | refine Evolves.of_some (by with_reducible assumption) ?_
    | with_reducible refine EvolvesOpt.getD ?_ ?_
    | fail_if_no_progress with_reducible refine Evolves.other ?_
    | with_reducible refine Evolves.fields (by with_reducible assumption)
    | refine Evolves.fields (h := ?_)
    | fail

theorem State.cleanWrite_evolves {s t : State} {a1 : PhysSlice} {a2 : Nat} {a3 : Nat} {a4 : OpSource} {a5 : Bool} (h : Evolves s t) :
    Evolves s (State.cleanWrite t a1 a2 a3 a4 a5) := by
  unfold State.cleanWrite
  repeat' first
    | with_reducible assumption
    | with_reducible refine State.readData_evolves ?_
    | with_reducible refine State.setTag_evolves ?_
    | with_reducible refine State.issue_evolves ?_
    | (extract_lets +onlyGivenNames x; clear_value (hx : x = _); with_reducible refine Evolves.cut s hx ?_ (fun _ => ?_))
    | (extract_lets +onlyGivenNames x; clear_value (hx : x = _); with_reducible refine EvolvesFst.cut s hx ?_ (fun _ => ?_))
    | (extract_lets +onlyGivenNames x; with_reducible refine Evolves.local_fun x ?_; subst x; beta_reduce)
    | (extract_lets +onlyGivenNames x; clear_value (hx : x = _))
    | extract_lets +onlyGivenNames x
    | with_reducible refine Evolves.ite ?_ ?_
    | with_reducible refine EvolvesFst.ite ?_ ?_
    | split
    | with_reducible refine EvolvesFst.pair ?_
    | with_reducible refine EvolvesFst.fst ?_
    | refine Evolves.of_pair (by with_reducible assumption) ?_
    | refine Evolves.of_some (by with_reducible assumption) ?_
    | fail_if_no_progress with_reducible refine Evolves.other ?_
    | with_reducible refine Evolves.fields (by with_reducible assumption)
    | refine Evolves.fields (h := ?_)
    | fail

theorem State.setSf_evolves {s t : State} {a1 : PhysSlice} {a2 : Nat} {a3 : Nat} {a4 : FilterEntry} (h : Evolves s t) :
    Evolves s (State.setSf t a1 a2 a3 a4) := by
  unfold State.setSf
  repeat' first
    | with_reducible assumption
    | with_reducible refine State.modSl_evolves ?_
    | with_reducible refine State.writeWords_evolves ?_
    | with_reducible refine State.patchWords_evolves ?_
    | (extract_lets +onlyGivenNames x; clear_value (hx : x = _); with_reducible refine Evolves.cut s hx ?_ (fun _ => ?_))
    | (extract_lets +onlyGivenNames x; clear_value (hx : x = _); with_reducible refine EvolvesFst.cut s hx ?_ (fun _ => ?_))
    | (extract_lets +onlyGivenNames x; with_reducible refine Evolves.local_fun x ?_; subst x; beta_reduce)
    | (extract_lets +onlyGivenNames x; clear_value (hx : x = _))
    | extract_lets +onlyGivenNames x
    | with_reducible refine Evolves.ite ?_ ?_
    | split
    | refine Evolves.of_pair (by with_reducible assumption) ?_
    | refine Evolves.of_some (by with_reducible assumption) ?_
    | fail_if_no_progress with_reducible refine Evolves.other ?_
    | with_reducible refine Evolves.fields (by with_reducible assumption)
    | refine Evolves.fields (h := ?_)
    | fail

theorem State.modSf_evolves {s t : State} {a1 : PhysSlice} {a2 : Nat} {a3 : FilterEntry → FilterEntry} (h : Evolves s t) :
    Evolves s (State.modSf t a1 a2 a3) := by
  unfold State.modSf
  repeat' first
    | with_reducible assumption
    | with_reducible refine State.setSf_evolves ?_
    | (extract_lets +onlyGivenNames x; clear_value (hx : x = _); with_reducible refine Evolves.cut s hx ?_ (fun _ => ?_))
    | (extract_lets +onlyGivenNames x; clear_value (hx : x = _); with_reducible refine EvolvesFst.cut s hx ?_ (fun _ => ?_))
    | (extract_lets +onlyGivenNames x; with_reducible refine Evolves.local_fun x ?_; subst x; beta_reduce)
    | (extract_lets +onlyGivenNames x; clear_value (hx : x = _))
    | extract_lets +onlyGivenNames x
    | with_reducible refine Evolves.ite ?_ ?_
    | split
    | refine Evolves.of_pair (by with_reducible assumption) ?_
    | refine Evolves.of_some (by with_reducible assumption) ?_
    | fail

theorem State.checkSpill_evolves {s t : State} {a1 : PhysSlice} {a2 : Nat} (h : Evolves s t) :
    Evolves s (State.checkSpill t a1 a2) := by
  unfold State.checkSpill
  repeat' first
    | with_reducible assumption
    | with_reducible refine State.readWords_evolves ?_
    | with_reducible refine State.modSl_evolves ?_
    | with_reducible refine State.writeWords_evolves ?_
    | (extract_lets +onlyGivenNames x; clear_value (hx : x = _); with_reducible refine Evolves.cut s hx ?_ (fun _ => ?_))
    | (extract_lets +onlyGivenNames x; clear_value (hx : x = _); with_reducible refine EvolvesFst.cut s hx ?_ (fun _ => ?_))
    | (extract_lets +onlyGivenNames x; with_reducible refine Evolves.local_fun x ?_; subst x; beta_reduce)
    | (extract_lets +onlyGivenNames x; clear_value (hx : x = _))
    | extract_lets +onlyGivenNames x
    | with_reducible refine Evolves.ite ?_ ?_
    | with_reducible refine EvolvesFst.ite ?_ ?_
    | with_reducible refine Evolves.foldl (fun _ _ _ => ?_) ?_
    | with_reducible refine EvolvesFst.foldl (fun _ _ _ => ?_) ?_
    | split
    | with_reducible refine EvolvesFst.pair ?_
    | with_reducible refine EvolvesFst.fst ?_
    | refine Evolves.of_pair (by with_reducible assumption) ?_
    | refine Evolves.of_some (by with_reducible assumption) ?_
    | fail_if_no_progress with_reducible refine Evolves.other ?_
    | with_reducible refine Evolves.fields (by with_reducible assumption)
    | refine Evolves.fields (h := ?_)
    | fail

theorem State.setSpillBit_evolves {s t : State} {a1 : PhysSlice} {a2 : Nat} {a3 : Bool} (h : Evolves s t) :
    Evolves s (State.setSpillBit t a1 a2 a3) := by
  unfold State.setSpillBit
  repeat' first
    | with_reducible assumption
    | with_reducible refine State.checkSpill_evolves ?_
    | with_reducible refine State.modSl_evolves ?_
    | with_reducible refine State.writeWords_evolves ?_
    | (extract_lets +onlyGivenNames x; clear_value (hx : x = _); with_reducible refine Evolves.cut s hx ?_ (fun _ => ?_))
    | (extract_lets +onlyGivenNames x; clear_value (hx : x = _); with_reducible refine EvolvesFst.cut s hx ?_ (fun _ => ?_))
    | (extract_lets +onlyGivenNames x; with_reducible refine Evolves.local_fun x ?_; subst x; beta_reduce)
    | (extract_lets +onlyGivenNames x; clear_value (hx : x = _))
    | extract_lets +onlyGivenNames x
    | with_reducible refine Evolves.ite ?_ ?_
    | refine Evolves.of_pair (by with_reducible assumption) ?_
    | refine Evolves.of_some (by with_reducible assumption) ?_
    | fail_if_no_progress with_reducible refine Evolves.other ?_
    | with_reducible refine Evolves.fields (by with_reducible assumption)
    | refine Evolves.fields (h := ?_)
    | fail

theorem State.holderSet_evolves {s t : State} {a1 : PhysSlice} {a2 : Nat} (h : Evolves s t) :
    Evolves s (State.holderSet t a1 a2) := by
  unfold State.holderSet
  repeat' first
    | with_reducible assumption
    | with_reducible refine State.setSpillBit_evolves ?_
    | with_reducible refine State.modSl_evolves ?_
    | (extract_lets +onlyGivenNames x; clear_value (hx : x = _); with_reducible refine Evolves.cut s hx ?_ (fun _ => ?_))
    | (extract_lets +onlyGivenNames x; clear_value (hx : x = _); with_reducible refine EvolvesFst.cut s hx ?_ (fun _ => ?_))
    | (extract_lets +onlyGivenNames x; with_reducible refine Evolves.local_fun x ?_; subst x; beta_reduce)
    | (extract_lets +onlyGivenNames x; clear_value (hx : x = _))
    | extract_lets +onlyGivenNames x
    | with_reducible refine Evolves.ite ?_ ?_
    | split
    | refine Evolves.of_pair (by with_reducible assumption) ?_
    | refine Evolves.of_some (by with_reducible assumption) ?_
    | fail_if_no_progress with_reducible refine Evolves.other ?_
    | with_reducible refine Evolves.fields (by with_reducible assumption)
    | refine Evolves.fields (h := ?_)
    | fail

theorem State.sendSet_evolves {s t : State} {a1 : PhysSlice} {a2 : Nat} {a3 : SnoopOwner} (h : Evolves s t) :
    EvolvesFst s (State.sendSet t a1 a2 a3) := by
  unfold State.sendSet
  repeat' first
    | with_reducible assumption
    | with_reducible refine State.holderSet_evolves ?_
    | (extract_lets +onlyGivenNames x; clear_value (hx : x = _); with_reducible refine Evolves.cut s hx ?_ (fun _ => ?_))
    | (extract_lets +onlyGivenNames x; clear_value (hx : x = _); with_reducible refine EvolvesFst.cut s hx ?_ (fun _ => ?_))
    | (extract_lets +onlyGivenNames x; with_reducible refine Evolves.local_fun x ?_; subst x; beta_reduce)
    | (extract_lets +onlyGivenNames x; clear_value (hx : x = _))
    | extract_lets +onlyGivenNames x
    | with_reducible refine Evolves.ite ?_ ?_
    | with_reducible refine EvolvesFst.ite ?_ ?_
    | split
    | with_reducible refine EvolvesFst.pair ?_
    | with_reducible refine EvolvesFst.fst ?_
    | refine Evolves.of_pair (by with_reducible assumption) ?_
    | refine Evolves.of_some (by with_reducible assumption) ?_
    | fail_if_no_progress with_reducible refine Evolves.other ?_
    | with_reducible refine Evolves.fields (by with_reducible assumption)
    | refine Evolves.fields (h := ?_)
    | fail

theorem State.writeDir_evolves {s t : State} {a1 : PhysSlice} {a2 : Nat} {a3 : DirEntry} {a4 : OpSource} {a5 : Nat} (h : Evolves s t) :
    EvolvesFst s (State.writeDir t a1 a2 a3 a4 a5) := by
  unfold State.writeDir
  repeat' first
    | with_reducible assumption
    | with_reducible refine State.setTag_evolves ?_
    | with_reducible refine State.issue_evolves ?_
    | with_reducible refine State.hcFill_evolves ?_
    | with_reducible refine State.modSl_evolves ?_
    | (extract_lets +onlyGivenNames x; clear_value (hx : x = _); with_reducible refine Evolves.cut s hx ?_ (fun _ => ?_))
    | (extract_lets +onlyGivenNames x; clear_value (hx : x = _); with_reducible refine EvolvesFst.cut s hx ?_ (fun _ => ?_))
    | (extract_lets +onlyGivenNames x; with_reducible refine Evolves.local_fun x ?_; subst x; beta_reduce)
    | (extract_lets +onlyGivenNames x; clear_value (hx : x = _))
    | extract_lets +onlyGivenNames x
    | with_reducible refine Evolves.ite ?_ ?_
    | with_reducible refine EvolvesFst.ite ?_ ?_
    | split
    | with_reducible refine EvolvesFst.pair ?_
    | with_reducible refine EvolvesFst.fst ?_
    | refine Evolves.of_pair (by with_reducible assumption) ?_
    | refine Evolves.of_some (by with_reducible assumption) ?_
    | fail_if_no_progress with_reducible refine Evolves.other ?_
    | with_reducible refine Evolves.fields (by with_reducible assumption)
    | refine Evolves.fields (h := ?_)
    | fail

theorem State.lossWord_evolves {s t : State} {a1 : Nat} (h : Evolves s t) :
    Evolves s (State.lossWord t a1) := by
  unfold State.lossWord
  repeat' first
    | with_reducible assumption
    | with_reducible refine State.setDevError_evolves ?_
    | with_reducible refine State.freshWord_evolves ?_
    | (extract_lets +onlyGivenNames x; clear_value (hx : x = _); with_reducible refine Evolves.cut s hx ?_ (fun _ => ?_))
    | (extract_lets +onlyGivenNames x; clear_value (hx : x = _); with_reducible refine EvolvesFst.cut s hx ?_ (fun _ => ?_))
    | (extract_lets +onlyGivenNames x; with_reducible refine Evolves.local_fun x ?_; subst x; beta_reduce)
    | (extract_lets +onlyGivenNames x; clear_value (hx : x = _))
    | extract_lets +onlyGivenNames x
    | with_reducible refine Evolves.ite ?_ ?_
    | split
    | refine Evolves.of_pair (by with_reducible assumption) ?_
    | refine Evolves.of_some (by with_reducible assumption) ?_
    | fail

theorem State.setLosses_evolves {s t : State} {a1 : List Word} (h : Evolves s t) :
    Evolves s (State.setLosses t a1) := by
  unfold State.setLosses
  repeat' first
    | with_reducible assumption
    | with_reducible refine State.lossWord_evolves ?_
    | (extract_lets +onlyGivenNames x; clear_value (hx : x = _); with_reducible refine Evolves.cut s hx ?_ (fun _ => ?_))
    | (extract_lets +onlyGivenNames x; clear_value (hx : x = _); with_reducible refine EvolvesFst.cut s hx ?_ (fun _ => ?_))
    | (extract_lets +onlyGivenNames x; with_reducible refine Evolves.local_fun x ?_; subst x; beta_reduce)
    | (extract_lets +onlyGivenNames x; clear_value (hx : x = _))
    | extract_lets +onlyGivenNames x
    | with_reducible refine Evolves.ite ?_ ?_
    | with_reducible refine Evolves.foldl (fun _ _ _ => ?_) ?_
    | with_reducible refine EvolvesFst.foldl (fun _ _ _ => ?_) ?_
    | refine Evolves.of_pair (by with_reducible assumption) ?_
    | refine Evolves.of_some (by with_reducible assumption) ?_
    | fail_if_no_progress with_reducible refine Evolves.other ?_
    | with_reducible refine Evolves.fields (by with_reducible assumption)
    | refine Evolves.fields (h := ?_)
    | fail

theorem State.listLoss_evolves {s t : State} {a1 : HostId} {a2 : Word} (h : Evolves s t) :
    Evolves s (State.listLoss t a1 a2) := by
  unfold State.listLoss
  repeat' first
    | with_reducible assumption
    | with_reducible refine State.lossWord_evolves ?_
    | with_reducible refine State.wr_evolves ?_
    | (extract_lets +onlyGivenNames x; clear_value (hx : x = _); with_reducible refine Evolves.cut s hx ?_ (fun _ => ?_))
    | (extract_lets +onlyGivenNames x; clear_value (hx : x = _); with_reducible refine EvolvesFst.cut s hx ?_ (fun _ => ?_))
    | (extract_lets +onlyGivenNames x; with_reducible refine Evolves.local_fun x ?_; subst x; beta_reduce)
    | (extract_lets +onlyGivenNames x; clear_value (hx : x = _))
    | extract_lets +onlyGivenNames x
    | with_reducible refine Evolves.ite ?_ ?_
    | split
    | refine Evolves.of_pair (by with_reducible assumption) ?_
    | refine Evolves.of_some (by with_reducible assumption) ?_
    | fail_if_no_progress with_reducible refine Evolves.other ?_
    | with_reducible refine Evolves.fields (by with_reducible assumption)
    | refine Evolves.fields (h := ?_)
    | fail

theorem State.clearReserved_evolves {s t : State} {a1 : PhysSlice} {a2 : Nat} (h : Evolves s t) :
    Evolves s (State.clearReserved t a1 a2) := by
  unfold State.clearReserved
  repeat' first
    | with_reducible assumption
    | with_reducible refine State.modSl_evolves ?_
    | (extract_lets +onlyGivenNames x; clear_value (hx : x = _); with_reducible refine Evolves.cut s hx ?_ (fun _ => ?_))
    | (extract_lets +onlyGivenNames x; with_reducible refine Evolves.local_fun x ?_; subst x; beta_reduce)
    | (extract_lets +onlyGivenNames x; clear_value (hx : x = _))
    | extract_lets +onlyGivenNames x
    | with_reducible refine Evolves.ite ?_ ?_
    | refine Evolves.of_pair (by with_reducible assumption) ?_
    | refine Evolves.of_some (by with_reducible assumption) ?_
    | fail_if_no_progress with_reducible refine Evolves.other ?_
    | with_reducible refine Evolves.fields (by with_reducible assumption)
    | refine Evolves.fields (h := ?_)
    | fail

theorem State.poisonRecord_evolves {s t : State} {a1 : PhysSlice} {a2 : Nat} {a3 : OpSource} (h : Evolves s t) :
    EvolvesFst s (State.poisonRecord t a1 a2 a3) := by
  unfold State.poisonRecord
  repeat' first
    | with_reducible assumption
    | with_reducible refine State.clearReserved_evolves ?_
    | with_reducible refine State.count_evolves ?_
    | with_reducible refine State.setTag_evolves ?_
    | with_reducible refine State.cleanWrite_evolves ?_
    | with_reducible refine State.hcFill_evolves ?_
    | with_reducible refine State.modSl_evolves ?_
    | with_reducible refine State.issue_evolves ?_
    | (extract_lets +onlyGivenNames x; clear_value (hx : x = _); with_reducible refine Evolves.cut s hx ?_ (fun _ => ?_))
    | (extract_lets +onlyGivenNames x; clear_value (hx : x = _); with_reducible refine EvolvesFst.cut s hx ?_ (fun _ => ?_))
    | (extract_lets +onlyGivenNames x; with_reducible refine Evolves.local_fun x ?_; subst x; beta_reduce)
    | (extract_lets +onlyGivenNames x; clear_value (hx : x = _))
    | extract_lets +onlyGivenNames x
    | with_reducible refine Evolves.ite ?_ ?_
    | with_reducible refine EvolvesFst.ite ?_ ?_
    | split
    | with_reducible refine EvolvesFst.pair ?_
    | with_reducible refine EvolvesFst.fst ?_
    | refine Evolves.of_pair (by with_reducible assumption) ?_
    | refine Evolves.of_some (by with_reducible assumption) ?_
    | fail_if_no_progress with_reducible refine Evolves.other ?_
    | with_reducible refine Evolves.fields (by with_reducible assumption)
    | refine Evolves.fields (h := ?_)
    | fail

theorem State.resolveLost_evolves {s t : State} {a1 : PhysSlice} {a2 : BitVec 32} {a3 : Nat} {a4 : HostId} {a5 : BitVec 12} {a6 : Nat} {a7 : OpSource} (h : Evolves s t) :
    EvolvesFst s (State.resolveLost t a1 a2 a3 a4 a5 a6 a7) := by
  unfold State.resolveLost
  repeat' first
    | with_reducible assumption
    | with_reducible refine State.count_evolves ?_
    | with_reducible refine State.inc_evolves ?_
    | with_reducible refine State.listLoss_evolves ?_
    | with_reducible refine State.poisonRecord_evolves ?_
    | (extract_lets +onlyGivenNames x; clear_value (hx : x = _); with_reducible refine Evolves.cut s hx ?_ (fun _ => ?_))
    | (extract_lets +onlyGivenNames x; clear_value (hx : x = _); with_reducible refine EvolvesFst.cut s hx ?_ (fun _ => ?_))
    | (extract_lets +onlyGivenNames x; with_reducible refine Evolves.local_fun x ?_; subst x; beta_reduce)
    | (extract_lets +onlyGivenNames x; clear_value (hx : x = _))
    | extract_lets +onlyGivenNames x
    | with_reducible refine Evolves.ite ?_ ?_
    | with_reducible refine EvolvesFst.ite ?_ ?_
    | split
    | with_reducible refine EvolvesFst.pair ?_
    | with_reducible refine EvolvesFst.fst ?_
    | refine Evolves.of_pair (by with_reducible assumption) ?_
    | refine Evolves.of_some (by with_reducible assumption) ?_
    | with_reducible refine EvolvesOpt.getD ?_ ?_
    | fail

theorem State.cleanerCheck_evolves {s t : State} {a1 : PhysSlice} (h : Evolves s t) :
    Evolves s (State.cleanerCheck t a1) := by
  unfold State.cleanerCheck
  repeat' first
    | with_reducible assumption
    | with_reducible refine State.wb_evolves ?_
    | (extract_lets +onlyGivenNames x; clear_value (hx : x = _); with_reducible refine Evolves.cut s hx ?_ (fun _ => ?_))
    | (extract_lets +onlyGivenNames x; clear_value (hx : x = _); with_reducible refine EvolvesFst.cut s hx ?_ (fun _ => ?_))
    | (extract_lets +onlyGivenNames x; with_reducible refine Evolves.local_fun x ?_; subst x; beta_reduce)
    | (extract_lets +onlyGivenNames x; clear_value (hx : x = _))
    | extract_lets +onlyGivenNames x
    | with_reducible refine Evolves.ite ?_ ?_
    | refine Evolves.of_pair (by with_reducible assumption) ?_
    | refine Evolves.of_some (by with_reducible assumption) ?_
    | fail

theorem State.quotaCheck_evolves {s t : State} (h : Evolves s t) :
    Evolves s (State.quotaCheck t) := by
  unfold State.quotaCheck
  repeat' first
    | with_reducible assumption
    | with_reducible refine State.dormTrigger_evolves ?_
    | (extract_lets +onlyGivenNames x; clear_value (hx : x = _); with_reducible refine Evolves.cut s hx ?_ (fun _ => ?_))
    | (extract_lets +onlyGivenNames x; clear_value (hx : x = _); with_reducible refine EvolvesFst.cut s hx ?_ (fun _ => ?_))
    | (extract_lets +onlyGivenNames x; with_reducible refine Evolves.local_fun x ?_; subst x; beta_reduce)
    | (extract_lets +onlyGivenNames x; clear_value (hx : x = _))
    | extract_lets +onlyGivenNames x
    | with_reducible refine Evolves.ite ?_ ?_
    | split
    | refine Evolves.of_pair (by with_reducible assumption) ?_
    | refine Evolves.of_some (by with_reducible assumption) ?_
    | fail

end Sys2Proof.Machine
end

