-- ==== Sys2Proof/Laws/EvSnoops.lean ====
section
/-! SUPPORT. What each operation of Sys2Proof/Machine/Snoops.lean does to the whole machine: one `Evolves` lemma an operation. -/

set_option linter.all false
set_option Elab.async false

namespace Sys2Proof.Machine

open Host (Outcome)

theorem State.countS2m_evolves {s t : State} {a1 : HostId} {a2 : S2m} (h : Evolves s t) :
    Evolves s (State.countS2m t a1 a2) := by
  unfold State.countS2m
  repeat' first
    | with_reducible assumption
    | with_reducible refine State.count_evolves ?_
    | (extract_lets +onlyGivenNames x; clear_value (hx : x = _); with_reducible refine Evolves.cut s hx ?_ (fun _ => ?_))
    | (extract_lets +onlyGivenNames x; clear_value (hx : x = _); with_reducible refine EvolvesFst.cut s hx ?_ (fun _ => ?_))
    | (extract_lets +onlyGivenNames x; with_reducible refine Evolves.local_fun x ?_; subst x; beta_reduce)
    | (extract_lets +onlyGivenNames x; clear_value (hx : x = _))
    | extract_lets +onlyGivenNames x
    | with_reducible refine Evolves.ite ?_ ?_
    | split
    | refine Evolves.of_pair (by with_reducible assumption) ?_
    | refine Evolves.of_some (by with_reducible assumption) ?_
    | fail

theorem State.s2mGo_evolves {s t : State} {a1 : HostId} {a2 : S2m} (h : Evolves s t) :
    Evolves s (State.s2mGo t a1 a2) := by
  unfold State.s2mGo
  repeat' first
    | with_reducible assumption
    | with_reducible refine State.modPort_evolves ?_
    | with_reducible refine State.emit_evolves ?_
    | with_reducible refine State.countS2m_evolves ?_
    | (extract_lets +onlyGivenNames x; clear_value (hx : x = _); with_reducible refine Evolves.cut s hx ?_ (fun _ => ?_))
    | (extract_lets +onlyGivenNames x; clear_value (hx : x = _); with_reducible refine EvolvesFst.cut s hx ?_ (fun _ => ?_))
    | (extract_lets +onlyGivenNames x; with_reducible refine Evolves.local_fun x ?_; subst x; beta_reduce)
    | (extract_lets +onlyGivenNames x; clear_value (hx : x = _))
    | extract_lets +onlyGivenNames x
    | with_reducible refine Evolves.ite ?_ ?_
    | refine Evolves.of_pair (by with_reducible assumption) ?_
    | refine Evolves.of_some (by with_reducible assumption) ?_
    | fail

theorem State.sendS2m_evolves {s t : State} {a1 : HostId} {a2 : S2m} (h : Evolves s t) :
    Evolves s (State.sendS2m t a1 a2) := by
  unfold State.sendS2m
  repeat' first
    | with_reducible assumption
    | with_reducible refine State.s2mGo_evolves ?_
    | with_reducible refine State.modPort_evolves ?_
    | with_reducible refine State.crossRise_evolves ?_
    | (extract_lets +onlyGivenNames x; clear_value (hx : x = _); with_reducible refine Evolves.cut s hx ?_ (fun _ => ?_))
    | (extract_lets +onlyGivenNames x; clear_value (hx : x = _); with_reducible refine EvolvesFst.cut s hx ?_ (fun _ => ?_))
    | (extract_lets +onlyGivenNames x; with_reducible refine Evolves.local_fun x ?_; subst x; beta_reduce)
    | (extract_lets +onlyGivenNames x; clear_value (hx : x = _))
    | extract_lets +onlyGivenNames x
    | with_reducible refine Evolves.ite ?_ ?_
    | split
    | refine Evolves.of_pair (by with_reducible assumption) ?_
    | refine Evolves.of_some (by with_reducible assumption) ?_
    | fail_if_no_progress with_reducible refine Evolves.other ?_
    | with_reducible refine Evolves.fields (by with_reducible assumption)
    | refine Evolves.fields (h := ?_)
    | fail

theorem State.release_evolves {s t : State} {a0 : HostId} {a1 : S2mClass} {a2 : Nat} (h : Evolves s t) :
    Evolves s (State.release a0 a1 a2 t) := by
  induction a2 generalizing t with
  | zero => exact h
  | succ n ih =>
    unfold State.release
    repeat' first
      | with_reducible assumption
      | with_reducible refine ih ?_
      | with_reducible refine State.modPort_evolves ?_
      | with_reducible refine State.s2mGo_evolves ?_
      | (extract_lets +onlyGivenNames x; clear_value (hx : x = _); with_reducible refine Evolves.cut s hx ?_ (fun _ => ?_))
      | (extract_lets +onlyGivenNames x; clear_value (hx : x = _); with_reducible refine EvolvesFst.cut s hx ?_ (fun _ => ?_))
      | (extract_lets +onlyGivenNames x; with_reducible refine Evolves.local_fun x ?_; subst x; beta_reduce)
      | (extract_lets +onlyGivenNames x; clear_value (hx : x = _))
      | extract_lets +onlyGivenNames x
      | with_reducible refine Evolves.ite ?_ ?_
      | split
      | refine Evolves.of_pair (by with_reducible assumption) ?_
      | refine Evolves.of_some (by with_reducible assumption) ?_
      | fail_if_no_progress with_reducible refine Evolves.other ?_
      | with_reducible refine Evolves.fields (by with_reducible assumption)
      | refine Evolves.fields (h := ?_)
      | fail

theorem State.answerHost_evolves {s t : State} {a1 : HostId} {a2 : S2m} (h : Evolves s t) :
    Evolves s (State.answerHost t a1 a2) := by
  unfold State.answerHost
  repeat' first
    | with_reducible assumption
    | with_reducible refine State.sendS2m_evolves ?_
    | (extract_lets +onlyGivenNames x; clear_value (hx : x = _); with_reducible refine Evolves.cut s hx ?_ (fun _ => ?_))
    | (extract_lets +onlyGivenNames x; clear_value (hx : x = _); with_reducible refine EvolvesFst.cut s hx ?_ (fun _ => ?_))
    | (extract_lets +onlyGivenNames x; with_reducible refine Evolves.local_fun x ?_; subst x; beta_reduce)
    | (extract_lets +onlyGivenNames x; clear_value (hx : x = _))
    | extract_lets +onlyGivenNames x
    | with_reducible refine Evolves.ite ?_ ?_
    | split
    | refine Evolves.of_pair (by with_reducible assumption) ?_
    | refine Evolves.of_some (by with_reducible assumption) ?_
    | fail

theorem State.answerInc_evolves {s t : State} {a1 : HostId} {a2 : BitVec 12} {a3 : S2m} (h : Evolves s t) :
    Evolves s (State.answerInc t a1 a2 a3) := by
  unfold State.answerInc
  repeat' first
    | with_reducible assumption
    | with_reducible refine State.answerHost_evolves ?_
    | (extract_lets +onlyGivenNames x; clear_value (hx : x = _); with_reducible refine Evolves.cut s hx ?_ (fun _ => ?_))
    | (extract_lets +onlyGivenNames x; with_reducible refine Evolves.local_fun x ?_; subst x; beta_reduce)
    | (extract_lets +onlyGivenNames x; clear_value (hx : x = _))
    | extract_lets +onlyGivenNames x
    | with_reducible refine Evolves.ite ?_ ?_
    | split
    | refine Evolves.of_pair (by with_reducible assumption) ?_
    | refine Evolves.of_some (by with_reducible assumption) ?_
    | fail

theorem State.enterSnoop_evolves {s t : State} {a1 : HostId} {a2 : SnoopReq} (h : Evolves s t) :
    Evolves s (State.enterSnoop t a1 a2) := by
  unfold State.enterSnoop
  repeat' first
    | with_reducible assumption
    | with_reducible refine State.modPort_evolves ?_
    | with_reducible refine State.sendS2m_evolves ?_
    | (extract_lets +onlyGivenNames x; clear_value (hx : x = _); with_reducible refine Evolves.cut s hx ?_ (fun _ => ?_))
    | (extract_lets +onlyGivenNames x; clear_value (hx : x = _); with_reducible refine EvolvesFst.cut s hx ?_ (fun _ => ?_))
    | (extract_lets +onlyGivenNames x; with_reducible refine Evolves.local_fun x ?_; subst x; beta_reduce)
    | (extract_lets +onlyGivenNames x; clear_value (hx : x = _))
    | extract_lets +onlyGivenNames x
    | with_reducible refine Evolves.ite ?_ ?_
    | split
    | refine Evolves.of_pair (by with_reducible assumption) ?_
    | refine Evolves.of_some (by with_reducible assumption) ?_
    | fail_if_no_progress with_reducible refine Evolves.other ?_
    | with_reducible refine Evolves.fields (by with_reducible assumption)
    | refine Evolves.fields (h := ?_)
    | fail

theorem State.issueSnoop_evolves {s t : State} {a1 : HostId} {a2 : SnoopReq} (h : Evolves s t) :
    Evolves s (State.issueSnoop t a1 a2) := by
  unfold State.issueSnoop
  repeat' first
    | with_reducible assumption
    | with_reducible refine State.enterSnoop_evolves ?_
    | with_reducible refine State.modPort_evolves ?_
    | (extract_lets +onlyGivenNames x; clear_value (hx : x = _); with_reducible refine Evolves.cut s hx ?_ (fun _ => ?_))
    | (extract_lets +onlyGivenNames x; clear_value (hx : x = _); with_reducible refine EvolvesFst.cut s hx ?_ (fun _ => ?_))
    | (extract_lets +onlyGivenNames x; with_reducible refine Evolves.local_fun x ?_; subst x; beta_reduce)
    | (extract_lets +onlyGivenNames x; clear_value (hx : x = _))
    | extract_lets +onlyGivenNames x
    | with_reducible refine Evolves.ite ?_ ?_
    | split
    | refine Evolves.of_pair (by with_reducible assumption) ?_
    | refine Evolves.of_some (by with_reducible assumption) ?_
    | fail_if_no_progress with_reducible refine Evolves.other ?_
    | with_reducible refine Evolves.fields (by with_reducible assumption)
    | refine Evolves.fields (h := ?_)
    | fail

theorem State.freeSnoop_evolves {s t : State} {a1 : HostId} {a2 : Nat} (h : Evolves s t) :
    Evolves s (State.freeSnoop t a1 a2) := by
  unfold State.freeSnoop
  repeat' first
    | with_reducible assumption
    | with_reducible refine State.modPort_evolves ?_
    | (extract_lets +onlyGivenNames x; clear_value (hx : x = _); with_reducible refine Evolves.cut s hx ?_ (fun _ => ?_))
    | (extract_lets +onlyGivenNames x; with_reducible refine Evolves.local_fun x ?_; subst x; beta_reduce)
    | (extract_lets +onlyGivenNames x; clear_value (hx : x = _))
    | extract_lets +onlyGivenNames x
    | with_reducible refine Evolves.ite ?_ ?_
    | refine Evolves.of_pair (by with_reducible assumption) ?_
    | refine Evolves.of_some (by with_reducible assumption) ?_
    | fail_if_no_progress with_reducible refine Evolves.other ?_
    | with_reducible refine Evolves.fields (by with_reducible assumption)
    | refine Evolves.fields (h := ?_)
    | fail

theorem State.protoErr_evolves {s t : State} {a1 : HostId} {a2 : Nat} {a3 : Nat} {a4 : Nat} (h : Evolves s t) :
    Evolves s (State.protoErr t a1 a2 a3 a4) := by
  unfold State.protoErr
  repeat' first
    | with_reducible assumption
    | with_reducible refine State.wr_evolves ?_
    | with_reducible refine State.count_evolves ?_
    | with_reducible refine State.modPort_evolves ?_
    | with_reducible refine State.notice_evolves ?_
    | (extract_lets +onlyGivenNames x; clear_value (hx : x = _); with_reducible refine Evolves.cut s hx ?_ (fun _ => ?_))
    | (extract_lets +onlyGivenNames x; clear_value (hx : x = _); with_reducible refine EvolvesFst.cut s hx ?_ (fun _ => ?_))
    | (extract_lets +onlyGivenNames x; with_reducible refine Evolves.local_fun x ?_; subst x; beta_reduce)
    | (extract_lets +onlyGivenNames x; clear_value (hx : x = _))
    | extract_lets +onlyGivenNames x
    | with_reducible refine Evolves.ite ?_ ?_
    | split
    | refine Evolves.of_pair (by with_reducible assumption) ?_
    | refine Evolves.of_some (by with_reducible assumption) ?_
    | fail_if_no_progress with_reducible refine Evolves.other ?_
    | with_reducible refine Evolves.fields (by with_reducible assumption)
    | refine Evolves.fields (h := ?_)
    | fail

theorem State.countViolation_evolves {s t : State} {a1 : Agent} (h : Evolves s t) :
    Evolves s (State.countViolation t a1) := by
  unfold State.countViolation
  repeat' first
    | with_reducible assumption
    | with_reducible refine State.count_evolves ?_
    | (extract_lets +onlyGivenNames x; clear_value (hx : x = _); with_reducible refine Evolves.cut s hx ?_ (fun _ => ?_))
    | (extract_lets +onlyGivenNames x; with_reducible refine Evolves.local_fun x ?_; subst x; beta_reduce)
    | (extract_lets +onlyGivenNames x; clear_value (hx : x = _))
    | extract_lets +onlyGivenNames x
    | with_reducible refine Evolves.ite ?_ ?_
    | split
    | refine Evolves.of_pair (by with_reducible assumption) ?_
    | refine Evolves.of_some (by with_reducible assumption) ?_
    | fail

theorem State.regionViolation_evolves {s t : State} {a1 : Agent} {a2 : Nat} (h : Evolves s t) :
    Evolves s (State.regionViolation t a1 a2) := by
  unfold State.regionViolation
  repeat' first
    | with_reducible assumption
    | with_reducible refine State.countViolation_evolves ?_
    | with_reducible refine State.modPort_evolves ?_
    | with_reducible refine State.notice_evolves ?_
    | (extract_lets +onlyGivenNames x; clear_value (hx : x = _); with_reducible refine Evolves.cut s hx ?_ (fun _ => ?_))
    | (extract_lets +onlyGivenNames x; clear_value (hx : x = _); with_reducible refine EvolvesFst.cut s hx ?_ (fun _ => ?_))
    | (extract_lets +onlyGivenNames x; with_reducible refine Evolves.local_fun x ?_; subst x; beta_reduce)
    | (extract_lets +onlyGivenNames x; clear_value (hx : x = _))
    | extract_lets +onlyGivenNames x
    | with_reducible refine Evolves.ite ?_ ?_
    | split
    | refine Evolves.of_pair (by with_reducible assumption) ?_
    | refine Evolves.of_some (by with_reducible assumption) ?_
    | fail_if_no_progress with_reducible refine Evolves.other ?_
    | with_reducible refine Evolves.fields (by with_reducible assumption)
    | refine Evolves.fields (h := ?_)
    | fail

end Sys2Proof.Machine
end

