-- ==== Sys2Proof/Laws/EvHome.lean ====
section
/-! SUPPORT. What each operation of Sys2Proof/Machine/Home.lean does to the whole machine: one `Evolves` lemma an operation. -/

set_option linter.all false
set_option Elab.async false

namespace Sys2Proof.Machine

open Host (Outcome)

theorem State.modTrk_evolves {s t : State} {a1 : PhysSlice} {a2 : Nat} {a3 : Tracker → Tracker} (h : Evolves s t) :
    Evolves s (State.modTrk t a1 a2 a3) := by
  unfold State.modTrk
  repeat' first
    | with_reducible assumption
    | with_reducible refine State.modSl_evolves ?_
    | (extract_lets +onlyGivenNames x; clear_value (hx : x = _); with_reducible refine Evolves.cut s hx ?_ (fun _ => ?_))
    | (extract_lets +onlyGivenNames x; with_reducible refine Evolves.local_fun x ?_; subst x; beta_reduce)
    | (extract_lets +onlyGivenNames x; clear_value (hx : x = _))
    | extract_lets +onlyGivenNames x
    | with_reducible refine Evolves.ite ?_ ?_
    | split
    | refine Evolves.of_pair (by with_reducible assumption) ?_
    | refine Evolves.of_some (by with_reducible assumption) ?_
    | fail_if_no_progress with_reducible refine Evolves.other ?_
    | with_reducible refine Evolves.fields (by with_reducible assumption)
    | refine Evolves.fields (h := ?_)
    | fail

theorem State.pass_evolves {s t : State} {a1 : PhysSlice} (h : Evolves s t) :
    Evolves s (State.pass t a1) := by
  unfold State.pass
  repeat' first
    | with_reducible assumption
    | with_reducible refine State.modSl_evolves ?_
    | (extract_lets +onlyGivenNames x; clear_value (hx : x = _); with_reducible refine Evolves.cut s hx ?_ (fun _ => ?_))
    | (extract_lets +onlyGivenNames x; with_reducible refine Evolves.local_fun x ?_; subst x; beta_reduce)
    | (extract_lets +onlyGivenNames x; clear_value (hx : x = _))
    | extract_lets +onlyGivenNames x
    | with_reducible refine Evolves.ite ?_ ?_
    | refine Evolves.of_pair (by with_reducible assumption) ?_
    | refine Evolves.of_some (by with_reducible assumption) ?_
    | fail_if_no_progress with_reducible refine Evolves.other ?_
    | with_reducible refine Evolves.fields (by with_reducible assumption)
    | refine Evolves.fields (h := ?_)
    | fail

theorem State.passDone_evolves {s t : State} {a1 : PhysSlice} (h : Evolves s t) :
    Evolves s (State.passDone t a1) := by
  unfold State.passDone
  repeat' first
    | with_reducible assumption
    | with_reducible refine State.pass_evolves ?_
    | with_reducible refine State.count_evolves ?_
    | (extract_lets +onlyGivenNames x; clear_value (hx : x = _); with_reducible refine Evolves.cut s hx ?_ (fun _ => ?_))
    | (extract_lets +onlyGivenNames x; clear_value (hx : x = _); with_reducible refine EvolvesFst.cut s hx ?_ (fun _ => ?_))
    | (extract_lets +onlyGivenNames x; with_reducible refine Evolves.local_fun x ?_; subst x; beta_reduce)
    | (extract_lets +onlyGivenNames x; clear_value (hx : x = _))
    | extract_lets +onlyGivenNames x
    | with_reducible refine Evolves.ite ?_ ?_
    | refine Evolves.of_pair (by with_reducible assumption) ?_
    | refine Evolves.of_some (by with_reducible assumption) ?_
    | fail

theorem State.passRepeat_evolves {s t : State} {a1 : PhysSlice} (h : Evolves s t) :
    Evolves s (State.passRepeat t a1) := by
  unfold State.passRepeat
  repeat' first
    | with_reducible assumption
    | with_reducible refine State.pass_evolves ?_
    | with_reducible refine State.count_evolves ?_
    | (extract_lets +onlyGivenNames x; clear_value (hx : x = _); with_reducible refine Evolves.cut s hx ?_ (fun _ => ?_))
    | (extract_lets +onlyGivenNames x; clear_value (hx : x = _); with_reducible refine EvolvesFst.cut s hx ?_ (fun _ => ?_))
    | (extract_lets +onlyGivenNames x; with_reducible refine Evolves.local_fun x ?_; subst x; beta_reduce)
    | (extract_lets +onlyGivenNames x; clear_value (hx : x = _))
    | extract_lets +onlyGivenNames x
    | with_reducible refine Evolves.ite ?_ ?_
    | refine Evolves.of_pair (by with_reducible assumption) ?_
    | refine Evolves.of_some (by with_reducible assumption) ?_
    | fail

theorem State.replay_evolves {s t : State} {a1 : PhysSlice} {a2 : Nat} (h : Evolves s t) :
    Evolves s (State.replay t a1 a2) := by
  unfold State.replay
  repeat' first
    | with_reducible assumption
    | with_reducible refine State.passRepeat_evolves ?_
    | with_reducible refine State.count_evolves ?_
    | with_reducible refine State.modTrk_evolves ?_
    | (extract_lets +onlyGivenNames x; clear_value (hx : x = _); with_reducible refine Evolves.cut s hx ?_ (fun _ => ?_))
    | (extract_lets +onlyGivenNames x; clear_value (hx : x = _); with_reducible refine EvolvesFst.cut s hx ?_ (fun _ => ?_))
    | (extract_lets +onlyGivenNames x; with_reducible refine Evolves.local_fun x ?_; subst x; beta_reduce)
    | (extract_lets +onlyGivenNames x; clear_value (hx : x = _))
    | extract_lets +onlyGivenNames x
    | with_reducible refine Evolves.ite ?_ ?_
    | split
    | refine Evolves.of_pair (by with_reducible assumption) ?_
    | refine Evolves.of_some (by with_reducible assumption) ?_
    | fail_if_no_progress with_reducible refine Evolves.other ?_
    | with_reducible refine Evolves.fields (by with_reducible assumption)
    | refine Evolves.fields (h := ?_)
    | fail

theorem State.flag_evolves {s t : State} {a1 : PhysSlice} {a2 : Nat} {a3 : Nat} (h : Evolves s t) :
    Evolves s (State.flag t a1 a2 a3) := by
  unfold State.flag
  repeat' first
    | with_reducible assumption
    | with_reducible refine State.modTrk_evolves ?_
    | (extract_lets +onlyGivenNames x; clear_value (hx : x = _); with_reducible refine Evolves.cut s hx ?_ (fun _ => ?_))
    | (extract_lets +onlyGivenNames x; clear_value (hx : x = _); with_reducible refine EvolvesFst.cut s hx ?_ (fun _ => ?_))
    | (extract_lets +onlyGivenNames x; with_reducible refine Evolves.local_fun x ?_; subst x; beta_reduce)
    | (extract_lets +onlyGivenNames x; clear_value (hx : x = _))
    | extract_lets +onlyGivenNames x
    | with_reducible refine Evolves.ite ?_ ?_
    | refine Evolves.of_pair (by with_reducible assumption) ?_
    | refine Evolves.of_some (by with_reducible assumption) ?_
    | fail_if_no_progress with_reducible refine Evolves.other ?_
    | with_reducible refine Evolves.fields (by with_reducible assumption)
    | refine Evolves.fields (h := ?_)
    | fail

theorem State.sendSnoops_evolves {s t : State} {a1 : PhysSlice} {a2 : Tracker} (h : Evolves s t) :
    Evolves s (State.sendSnoops t a1 a2) := by
  unfold State.sendSnoops
  repeat' first
    | with_reducible assumption
    | with_reducible refine State.modTrk_evolves ?_
    | with_reducible refine State.issueSnoop_evolves ?_
    | with_reducible refine State.count_evolves ?_
    | with_reducible refine State.flag_evolves ?_
    | (extract_lets +onlyGivenNames x; clear_value (hx : x = _); with_reducible refine Evolves.cut s hx ?_ (fun _ => ?_))
    | (extract_lets +onlyGivenNames x; clear_value (hx : x = _); with_reducible refine EvolvesFst.cut s hx ?_ (fun _ => ?_))
    | (extract_lets +onlyGivenNames x; with_reducible refine Evolves.local_fun x ?_; subst x; beta_reduce)
    | (extract_lets +onlyGivenNames x; clear_value (hx : x = _))
    | extract_lets +onlyGivenNames x
    | with_reducible refine Evolves.ite ?_ ?_
    | with_reducible refine Evolves.foldl (fun _ _ _ => ?_) ?_
    | with_reducible refine EvolvesFst.foldl (fun _ _ _ => ?_) ?_
    | split
    | refine Evolves.of_pair (by with_reducible assumption) ?_
    | refine Evolves.of_some (by with_reducible assumption) ?_
    | fail_if_no_progress with_reducible refine Evolves.other ?_
    | with_reducible refine Evolves.fields (by with_reducible assumption)
    | refine Evolves.fields (h := ?_)
    | fail

theorem State.cmpTo_evolves {s t : State} {a1 : PhysSlice} {a2 : HostId} {a3 : BitVec 16} {a4 : BitVec 12} (h : Evolves s t) :
    Evolves s (State.cmpTo t a1 a2 a3 a4) := by
  unfold State.cmpTo
  repeat' first
    | with_reducible assumption
    | with_reducible refine State.answerInc_evolves ?_
    | (extract_lets +onlyGivenNames x; clear_value (hx : x = _); with_reducible refine Evolves.cut s hx ?_ (fun _ => ?_))
    | (extract_lets +onlyGivenNames x; clear_value (hx : x = _); with_reducible refine EvolvesFst.cut s hx ?_ (fun _ => ?_))
    | (extract_lets +onlyGivenNames x; with_reducible refine Evolves.local_fun x ?_; subst x; beta_reduce)
    | (extract_lets +onlyGivenNames x; clear_value (hx : x = _))
    | extract_lets +onlyGivenNames x
    | with_reducible refine Evolves.ite ?_ ?_
    | refine Evolves.of_pair (by with_reducible assumption) ?_
    | refine Evolves.of_some (by with_reducible assumption) ?_
    | fail

theorem State.wbPoison_evolves {s t : State} {a1 : Writeback} {a2 : Bool} (h : Evolves s t) :
    Evolves s (State.wbPoison t a1 a2) := by
  unfold State.wbPoison
  repeat' first
    | with_reducible assumption
    | with_reducible refine State.modTrk_evolves ?_
    | (extract_lets +onlyGivenNames x; clear_value (hx : x = _); with_reducible refine Evolves.cut s hx ?_ (fun _ => ?_))
    | (extract_lets +onlyGivenNames x; with_reducible refine Evolves.local_fun x ?_; subst x; beta_reduce)
    | (extract_lets +onlyGivenNames x; clear_value (hx : x = _))
    | extract_lets +onlyGivenNames x
    | with_reducible refine Evolves.ite ?_ ?_
    | split
    | refine Evolves.of_pair (by with_reducible assumption) ?_
    | refine Evolves.of_some (by with_reducible assumption) ?_
    | fail_if_no_progress with_reducible refine Evolves.other ?_
    | with_reducible refine Evolves.fields (by with_reducible assumption)
    | refine Evolves.fields (h := ?_)
    | fail

theorem State.placeWriteback_evolves {s t : State} {a1 : PhysSlice} {a2 : Writeback} {a3 : Option (LineData × Bool)} {a4 : Option DirEntry} (h : Evolves s t) :
    Evolves s (State.placeWriteback t a1 a2 a3 a4) := by
  unfold State.placeWriteback
  repeat' first
    | with_reducible assumption
    | with_reducible refine State.clearReserved_evolves ?_
    | with_reducible refine State.inc_evolves ?_
    | with_reducible refine State.modTrk_evolves ?_
    | with_reducible refine State.modSl_evolves ?_
    | with_reducible refine State.count_evolves ?_
    | with_reducible refine State.wbPoison_evolves ?_
    | with_reducible refine State.setWay_evolves ?_
    | with_reducible refine State.cleanWrite_evolves ?_
    | with_reducible refine State.cmpTo_evolves ?_
    | with_reducible refine State.quotaCheck_evolves ?_
    | with_reducible refine State.cleanerCheck_evolves ?_
    | with_reducible refine State.hcFill_evolves ?_
    | with_reducible refine State.issue_evolves ?_
    | (extract_lets +onlyGivenNames x; clear_value (hx : x = _); with_reducible refine Evolves.cut s hx ?_ (fun _ => ?_))
    | (extract_lets +onlyGivenNames x; clear_value (hx : x = _); with_reducible refine EvolvesFst.cut s hx ?_ (fun _ => ?_))
    | (extract_lets +onlyGivenNames x; with_reducible refine Evolves.local_fun x ?_; subst x; beta_reduce)
    | (extract_lets +onlyGivenNames x; clear_value (hx : x = _))
    | extract_lets +onlyGivenNames x
    | with_reducible refine Evolves.ite ?_ ?_
    | split
    | with_reducible refine EvolvesFst.pair ?_
    | with_reducible refine EvolvesFst.fst ?_
    | refine Evolves.of_pair (by with_reducible assumption) ?_
    | refine Evolves.of_some (by with_reducible assumption) ?_
    | with_reducible refine EvolvesOpt.getD ?_ ?_
    | fail_if_no_progress with_reducible refine Evolves.other ?_
    | with_reducible refine Evolves.fields (by with_reducible assumption)
    | refine Evolves.fields (h := ?_)
    | fail

theorem State.applyWriteback_evolves {s t : State} {a1 : PhysSlice} {a2 : Writeback} (h : Evolves s t) :
    Evolves s (State.applyWriteback t a1 a2) := by
  unfold State.applyWriteback
  repeat' first
    | with_reducible assumption
    | with_reducible refine State.count_evolves ?_
    | with_reducible refine State.cmpTo_evolves ?_
    | with_reducible refine State.inc_evolves ?_
    | with_reducible refine State.modSl_evolves ?_
    | with_reducible refine State.issue_evolves ?_
    | with_reducible refine State.placeWriteback_evolves ?_
    | (extract_lets +onlyGivenNames x; clear_value (hx : x = _); with_reducible refine Evolves.cut s hx ?_ (fun _ => ?_))
    | (extract_lets +onlyGivenNames x; clear_value (hx : x = _); with_reducible refine EvolvesFst.cut s hx ?_ (fun _ => ?_))
    | (extract_lets +onlyGivenNames x; with_reducible refine Evolves.local_fun x ?_; subst x; beta_reduce)
    | (extract_lets +onlyGivenNames x; clear_value (hx : x = _))
    | extract_lets +onlyGivenNames x
    | with_reducible refine Evolves.ite ?_ ?_
    | split
    | refine Evolves.of_pair (by with_reducible assumption) ?_
    | refine Evolves.of_some (by with_reducible assumption) ?_
    | fail_if_no_progress with_reducible refine Evolves.other ?_
    | with_reducible refine Evolves.fields (by with_reducible assumption)
    | refine Evolves.fields (h := ?_)
    | fail

theorem State.countHost_evolves {s t : State} {a1 : HostId} {a2 : ReqClass} (h : Evolves s t) :
    Evolves s (State.countHost t a1 a2) := by
  unfold State.countHost
  repeat' first
    | with_reducible assumption
    | with_reducible refine State.count_evolves ?_
    | (extract_lets +onlyGivenNames x; clear_value (hx : x = _); with_reducible refine Evolves.cut s hx ?_ (fun _ => ?_))
    | (extract_lets +onlyGivenNames x; with_reducible refine Evolves.local_fun x ?_; subst x; beta_reduce)
    | (extract_lets +onlyGivenNames x; clear_value (hx : x = _))
    | extract_lets +onlyGivenNames x
    | with_reducible refine Evolves.ite ?_ ?_
    | split
    | refine Evolves.of_pair (by with_reducible assumption) ?_
    | refine Evolves.of_some (by with_reducible assumption) ?_
    | fail

theorem State.bypassServe_evolves {s t : State} {a1 : PhysSlice} {a2 : SnoopOwner} {a3 : HostId} {a4 : Request} (h : Evolves s t) :
    Evolves s (State.bypassServe t a1 a2 a3 a4) := by
  unfold State.bypassServe
  repeat' first
    | with_reducible assumption
    | with_reducible refine State.emit_evolves ?_
    | with_reducible refine State.cmpTo_evolves ?_
    | with_reducible refine State.inc_evolves ?_
    | with_reducible refine State.applyWriteback_evolves ?_
    | (extract_lets +onlyGivenNames x; clear_value (hx : x = _); with_reducible refine Evolves.cut s hx ?_ (fun _ => ?_))
    | (extract_lets +onlyGivenNames x; clear_value (hx : x = _); with_reducible refine EvolvesFst.cut s hx ?_ (fun _ => ?_))
    | (extract_lets +onlyGivenNames x; with_reducible refine Evolves.local_fun x ?_; subst x; beta_reduce)
    | (extract_lets +onlyGivenNames x; clear_value (hx : x = _))
    | extract_lets +onlyGivenNames x
    | with_reducible refine Evolves.ite ?_ ?_
    | split
    | refine Evolves.of_pair (by with_reducible assumption) ?_
    | refine Evolves.of_some (by with_reducible assumption) ?_
    | fail_if_no_progress with_reducible refine Evolves.other ?_
    | with_reducible refine Evolves.fields (by with_reducible assumption)
    | refine Evolves.fields (h := ?_)
    | fail

theorem State.bypassTaken_evolves {s t : State} {a1 : PhysSlice} {a2 : SnoopOwner} {a3 : HostId} {a4 : Request} (h : Evolves s t) :
    Evolves s (State.bypassTaken t a1 a2 a3 a4) := by
  unfold State.bypassTaken
  repeat' first
    | with_reducible assumption
    | with_reducible refine State.passDone_evolves ?_
    | with_reducible refine State.bypassServe_evolves ?_
    | (extract_lets +onlyGivenNames x; clear_value (hx : x = _); with_reducible refine Evolves.cut s hx ?_ (fun _ => ?_))
    | (extract_lets +onlyGivenNames x; clear_value (hx : x = _); with_reducible refine EvolvesFst.cut s hx ?_ (fun _ => ?_))
    | (extract_lets +onlyGivenNames x; with_reducible refine Evolves.local_fun x ?_; subst x; beta_reduce)
    | (extract_lets +onlyGivenNames x; clear_value (hx : x = _))
    | extract_lets +onlyGivenNames x
    | with_reducible refine Evolves.ite ?_ ?_
    | refine Evolves.of_pair (by with_reducible assumption) ?_
    | refine Evolves.of_some (by with_reducible assumption) ?_
    | fail

theorem State.takeMarked_evolves {s t : State} {a1 : PhysSlice} {a2 : Nat} (h : Evolves s t) :
    Evolves s (State.takeMarked t a1 a2) := by
  unfold State.takeMarked
  repeat' first
    | with_reducible assumption
    | with_reducible refine State.modSl_evolves ?_
    | with_reducible refine State.passRepeat_evolves ?_
    | with_reducible refine State.bypassServe_evolves ?_
    | (extract_lets +onlyGivenNames x; clear_value (hx : x = _); with_reducible refine Evolves.cut s hx ?_ (fun _ => ?_))
    | (extract_lets +onlyGivenNames x; clear_value (hx : x = _); with_reducible refine EvolvesFst.cut s hx ?_ (fun _ => ?_))
    | (extract_lets +onlyGivenNames x; with_reducible refine Evolves.local_fun x ?_; subst x; beta_reduce)
    | (extract_lets +onlyGivenNames x; clear_value (hx : x = _))
    | extract_lets +onlyGivenNames x
    | with_reducible refine Evolves.ite ?_ ?_
    | with_reducible refine Evolves.foldl (fun _ _ _ => ?_) ?_
    | with_reducible refine EvolvesFst.foldl (fun _ _ _ => ?_) ?_
    | split
    | refine Evolves.of_pair (by with_reducible assumption) ?_
    | refine Evolves.of_some (by with_reducible assumption) ?_
    | fail_if_no_progress with_reducible refine Evolves.other ?_
    | with_reducible refine Evolves.fields (by with_reducible assumption)
    | refine Evolves.fields (h := ?_)
    | fail

theorem State.takeHeld_evolves {s t : State} {a1 : PhysSlice} {a2 : Nat} (h : Evolves s t) :
    Evolves s (State.takeHeld t a1 a2) := by
  unfold State.takeHeld
  repeat' first
    | with_reducible assumption
    | with_reducible refine State.modPort_evolves ?_
    | with_reducible refine State.countHost_evolves ?_
    | with_reducible refine State.park_evolves ?_
    | with_reducible refine State.bypassTaken_evolves ?_
    | (extract_lets +onlyGivenNames x; clear_value (hx : x = _); with_reducible refine Evolves.cut s hx ?_ (fun _ => ?_))
    | (extract_lets +onlyGivenNames x; clear_value (hx : x = _); with_reducible refine EvolvesFst.cut s hx ?_ (fun _ => ?_))
    | (extract_lets +onlyGivenNames x; with_reducible refine Evolves.local_fun x ?_; subst x; beta_reduce)
    | (extract_lets +onlyGivenNames x; clear_value (hx : x = _))
    | extract_lets +onlyGivenNames x
    | with_reducible refine Evolves.ite ?_ ?_
    | with_reducible refine Evolves.foldl (fun _ _ _ => ?_) ?_
    | with_reducible refine EvolvesFst.foldl (fun _ _ _ => ?_) ?_
    | split
    | refine Evolves.of_pair (by with_reducible assumption) ?_
    | refine Evolves.of_some (by with_reducible assumption) ?_
    | fail_if_no_progress with_reducible refine Evolves.other ?_
    | with_reducible refine Evolves.fields (by with_reducible assumption)
    | refine Evolves.fields (h := ?_)
    | fail

theorem State.readForTracker_evolves {s t : State} {a1 : PhysSlice} {a2 : Nat} {a3 : Nat} {a4 : Bool} (h : Evolves s t) :
    Evolves s (State.readForTracker t a1 a2 a3 a4) := by
  unfold State.readForTracker
  repeat' first
    | with_reducible assumption
    | with_reducible refine State.count_evolves ?_
    | with_reducible refine State.modTrk_evolves ?_
    | with_reducible refine State.issue_evolves ?_
    | (extract_lets +onlyGivenNames x; clear_value (hx : x = _); with_reducible refine Evolves.cut s hx ?_ (fun _ => ?_))
    | (extract_lets +onlyGivenNames x; clear_value (hx : x = _); with_reducible refine EvolvesFst.cut s hx ?_ (fun _ => ?_))
    | (extract_lets +onlyGivenNames x; with_reducible refine Evolves.local_fun x ?_; subst x; beta_reduce)
    | (extract_lets +onlyGivenNames x; clear_value (hx : x = _))
    | extract_lets +onlyGivenNames x
    | with_reducible refine Evolves.ite ?_ ?_
    | split
    | refine Evolves.of_pair (by with_reducible assumption) ?_
    | refine Evolves.of_some (by with_reducible assumption) ?_
    | fail_if_no_progress with_reducible refine Evolves.other ?_
    | with_reducible refine Evolves.fields (by with_reducible assumption)
    | refine Evolves.fields (h := ?_)
    | fail

theorem State.joinBudget_evolves {s t : State} {a1 : PhysSlice} {a2 : Nat} (h : Evolves s t) :
    Evolves s (State.joinBudget t a1 a2) := by
  unfold State.joinBudget
  repeat' first
    | with_reducible assumption
    | with_reducible refine State.modSl_evolves ?_
    | (extract_lets +onlyGivenNames x; clear_value (hx : x = _); with_reducible refine Evolves.cut s hx ?_ (fun _ => ?_))
    | (extract_lets +onlyGivenNames x; with_reducible refine Evolves.local_fun x ?_; subst x; beta_reduce)
    | (extract_lets +onlyGivenNames x; clear_value (hx : x = _))
    | extract_lets +onlyGivenNames x
    | with_reducible refine Evolves.ite ?_ ?_
    | split
    | refine Evolves.of_pair (by with_reducible assumption) ?_
    | refine Evolves.of_some (by with_reducible assumption) ?_
    | fail_if_no_progress with_reducible refine Evolves.other ?_
    | with_reducible refine Evolves.fields (by with_reducible assumption)
    | refine Evolves.fields (h := ?_)
    | fail

theorem State.earlyRead_evolves {s t : State} {a1 : PhysSlice} {a2 : Nat} (h : Evolves s t) :
    Evolves s (State.earlyRead t a1 a2) := by
  unfold State.earlyRead
  repeat' first
    | with_reducible assumption
    | with_reducible refine State.readForTracker_evolves ?_
    | with_reducible refine State.joinBudget_evolves ?_
    | with_reducible refine State.modTrk_evolves ?_
    | (extract_lets +onlyGivenNames x; clear_value (hx : x = _); with_reducible refine Evolves.cut s hx ?_ (fun _ => ?_))
    | (extract_lets +onlyGivenNames x; clear_value (hx : x = _); with_reducible refine EvolvesFst.cut s hx ?_ (fun _ => ?_))
    | (extract_lets +onlyGivenNames x; with_reducible refine Evolves.local_fun x ?_; subst x; beta_reduce)
    | (extract_lets +onlyGivenNames x; clear_value (hx : x = _))
    | extract_lets +onlyGivenNames x
    | with_reducible refine Evolves.ite ?_ ?_
    | split
    | refine Evolves.of_pair (by with_reducible assumption) ?_
    | refine Evolves.of_some (by with_reducible assumption) ?_
    | fail_if_no_progress with_reducible refine Evolves.other ?_
    | with_reducible refine Evolves.fields (by with_reducible assumption)
    | refine Evolves.fields (h := ?_)
    | fail

theorem State.setView_evolves {s t : State} {a1 : PhysSlice} {a2 : Tracker} {a3 : Tracking} {a4 : Bool} {a5 : Option DirEntry} (h : Evolves s t) :
    Evolves s (State.setView t a1 a2 a3 a4 a5) := by
  unfold State.setView
  repeat' first
    | with_reducible assumption
    | with_reducible refine State.count_evolves ?_
    | with_reducible refine State.flag_evolves ?_
    | with_reducible refine State.resolveLost_evolves ?_
    | with_reducible refine State.poisonRecord_evolves ?_
    | with_reducible refine State.modTrk_evolves ?_
    | with_reducible refine State.sendSnoops_evolves ?_
    | with_reducible refine State.takeMarked_evolves ?_
    | with_reducible refine State.takeHeld_evolves ?_
    | (extract_lets +onlyGivenNames x; clear_value (hx : x = _); with_reducible refine Evolves.cut s hx ?_ (fun _ => ?_))
    | (extract_lets +onlyGivenNames x; clear_value (hx : x = _); with_reducible refine EvolvesFst.cut s hx ?_ (fun _ => ?_))
    | (extract_lets +onlyGivenNames x; with_reducible refine Evolves.local_fun x ?_; subst x; beta_reduce)
    | (extract_lets +onlyGivenNames x; clear_value (hx : x = _))
    | extract_lets +onlyGivenNames x
    | with_reducible refine Evolves.ite ?_ ?_
    | with_reducible refine EvolvesFst.ite ?_ ?_
    | split
    | with_reducible refine EvolvesFst.pair ?_
    | with_reducible refine EvolvesFst.fst ?_
    | refine Evolves.of_pair (by with_reducible assumption) ?_
    | refine Evolves.of_some (by with_reducible assumption) ?_
    | fail_if_no_progress with_reducible refine Evolves.other ?_
    | with_reducible refine Evolves.fields (by with_reducible assumption)
    | refine Evolves.fields (h := ?_)
    | fail

theorem State.fetchDir_evolves {s t : State} {a1 : PhysSlice} {a2 : Tracker} (h : Evolves s t) :
    Evolves s (State.fetchDir t a1 a2) := by
  unfold State.fetchDir
  repeat' first
    | with_reducible assumption
    | with_reducible refine State.setView_evolves ?_
    | with_reducible refine State.modTrk_evolves ?_
    | with_reducible refine State.readForTracker_evolves ?_
    | (extract_lets +onlyGivenNames x; clear_value (hx : x = _); with_reducible refine Evolves.cut s hx ?_ (fun _ => ?_))
    | (extract_lets +onlyGivenNames x; clear_value (hx : x = _); with_reducible refine EvolvesFst.cut s hx ?_ (fun _ => ?_))
    | (extract_lets +onlyGivenNames x; with_reducible refine Evolves.local_fun x ?_; subst x; beta_reduce)
    | (extract_lets +onlyGivenNames x; clear_value (hx : x = _))
    | extract_lets +onlyGivenNames x
    | with_reducible refine Evolves.ite ?_ ?_
    | split
    | refine Evolves.of_pair (by with_reducible assumption) ?_
    | refine Evolves.of_some (by with_reducible assumption) ?_
    | fail_if_no_progress with_reducible refine Evolves.other ?_
    | with_reducible refine Evolves.fields (by with_reducible assumption)
    | refine Evolves.fields (h := ?_)
    | fail

theorem State.mapKnown_evolves {s t : State} {a1 : PhysSlice} {a2 : Tracker} {a3 : Bool} (h : Evolves s t) :
    Evolves s (State.mapKnown t a1 a2 a3) := by
  unfold State.mapKnown
  repeat' first
    | with_reducible assumption
    | with_reducible refine State.fetchDir_evolves ?_
    | with_reducible refine State.setView_evolves ?_
    | (extract_lets +onlyGivenNames x; clear_value (hx : x = _); with_reducible refine Evolves.cut s hx ?_ (fun _ => ?_))
    | (extract_lets +onlyGivenNames x; with_reducible refine Evolves.local_fun x ?_; subst x; beta_reduce)
    | (extract_lets +onlyGivenNames x; clear_value (hx : x = _))
    | extract_lets +onlyGivenNames x
    | with_reducible refine Evolves.ite ?_ ?_
    | split
    | refine Evolves.of_pair (by with_reducible assumption) ?_
    | refine Evolves.of_some (by with_reducible assumption) ?_
    | fail

theorem State.lineLost_evolves {s t : State} {a1 : Nat} {a2 : Nat} {a3 : Nat} (h : Evolves s t) :
    Evolves s (State.lineLost t a1 a2 a3) := by
  unfold State.lineLost
  repeat' first
    | with_reducible assumption
    | with_reducible refine State.major_evolves ?_
    | with_reducible refine State.notice_evolves ?_
    | (extract_lets +onlyGivenNames x; clear_value (hx : x = _); with_reducible refine Evolves.cut s hx ?_ (fun _ => ?_))
    | (extract_lets +onlyGivenNames x; clear_value (hx : x = _); with_reducible refine EvolvesFst.cut s hx ?_ (fun _ => ?_))
    | (extract_lets +onlyGivenNames x; with_reducible refine Evolves.local_fun x ?_; subst x; beta_reduce)
    | (extract_lets +onlyGivenNames x; clear_value (hx : x = _))
    | extract_lets +onlyGivenNames x
    | with_reducible refine Evolves.ite ?_ ?_
    | refine Evolves.of_pair (by with_reducible assumption) ?_
    | refine Evolves.of_some (by with_reducible assumption) ?_
    | fail

theorem State.sweepDirty_evolves {s t : State} {a1 : PhysSlice} (h : Evolves s t) :
    Evolves s (State.sweepDirty t a1) := by
  unfold State.sweepDirty
  repeat' first
    | with_reducible assumption
    | with_reducible refine State.modSl_evolves ?_
    | (extract_lets +onlyGivenNames x; clear_value (hx : x = _); with_reducible refine Evolves.cut s hx ?_ (fun _ => ?_))
    | (extract_lets +onlyGivenNames x; with_reducible refine Evolves.local_fun x ?_; subst x; beta_reduce)
    | (extract_lets +onlyGivenNames x; clear_value (hx : x = _))
    | extract_lets +onlyGivenNames x
    | with_reducible refine Evolves.ite ?_ ?_
    | refine Evolves.of_pair (by with_reducible assumption) ?_
    | refine Evolves.of_some (by with_reducible assumption) ?_
    | fail_if_no_progress with_reducible refine Evolves.other ?_
    | with_reducible refine Evolves.fields (by with_reducible assumption)
    | refine Evolves.fields (h := ?_)
    | fail

theorem State.agentDone_evolves {s t : State} {a1 : PhysSlice} {a2 : Nat} {a3 : List Nat} (h : Evolves s t) :
    Evolves s (State.agentDone t a1 a2 a3) := by
  unfold State.agentDone
  repeat' first
    | with_reducible assumption
    | with_reducible refine State.modTrk_evolves ?_
    | (extract_lets +onlyGivenNames x; clear_value (hx : x = _); with_reducible refine Evolves.cut s hx ?_ (fun _ => ?_))
    | (extract_lets +onlyGivenNames x; with_reducible refine Evolves.local_fun x ?_; subst x; beta_reduce)
    | (extract_lets +onlyGivenNames x; clear_value (hx : x = _))
    | extract_lets +onlyGivenNames x
    | with_reducible refine Evolves.ite ?_ ?_
    | refine Evolves.of_pair (by with_reducible assumption) ?_
    | refine Evolves.of_some (by with_reducible assumption) ?_
    | fail_if_no_progress with_reducible refine Evolves.other ?_
    | with_reducible refine Evolves.fields (by with_reducible assumption)
    | refine Evolves.fields (h := ?_)
    | fail

theorem State.resolveDir_evolves {s t : State} {a1 : PhysSlice} {a2 : Tracker} {a3 : Nat} {a4 : DirEntry} (h : Evolves s t) :
    EvolvesFst s (State.resolveDir t a1 a2 a3 a4) := by
  unfold State.resolveDir
  repeat' first
    | with_reducible assumption
    | with_reducible refine State.resolveLost_evolves ?_
    | with_reducible refine State.poisonRecord_evolves ?_
    | with_reducible refine State.writeDir_evolves ?_
    | (extract_lets +onlyGivenNames x; clear_value (hx : x = _); with_reducible refine Evolves.cut s hx ?_ (fun _ => ?_))
    | (extract_lets +onlyGivenNames x; clear_value (hx : x = _); with_reducible refine EvolvesFst.cut s hx ?_ (fun _ => ?_))
    | (extract_lets +onlyGivenNames x; with_reducible refine Evolves.local_fun x ?_; subst x; beta_reduce)
    | (extract_lets +onlyGivenNames x; clear_value (hx : x = _))
    | extract_lets +onlyGivenNames x
    | with_reducible refine Evolves.ite ?_ ?_
    | with_reducible refine EvolvesFst.ite ?_ ?_
    | split
    | with_reducible refine EvolvesFst.pair ?_
    | with_reducible refine EvolvesFst.fst ?_
    | refine Evolves.of_pair (by with_reducible assumption) ?_
    | refine Evolves.of_some (by with_reducible assumption) ?_
    | fail

theorem State.sweepUnder_evolves {s t : State} {a1 : PhysSlice} {a2 : Tracker} {a3 : Option DirEntry} (h : Evolves s t) :
    Evolves s (State.sweepUnder t a1 a2 a3) := by
  unfold State.sweepUnder
  repeat' first
    | with_reducible assumption
    | with_reducible refine State.agentDone_evolves ?_
    | with_reducible refine State.sweepDirty_evolves ?_
    | with_reducible refine State.lineLost_evolves ?_
    | with_reducible refine State.writeDir_evolves ?_
    | with_reducible refine State.setView_evolves ?_
    | with_reducible refine State.resolveDir_evolves ?_
    | (extract_lets +onlyGivenNames x; clear_value (hx : x = _); with_reducible refine Evolves.cut s hx ?_ (fun _ => ?_))
    | (extract_lets +onlyGivenNames x; clear_value (hx : x = _); with_reducible refine EvolvesFst.cut s hx ?_ (fun _ => ?_))
    | (extract_lets +onlyGivenNames x; with_reducible refine Evolves.local_fun x ?_; subst x; beta_reduce)
    | (extract_lets +onlyGivenNames x; clear_value (hx : x = _))
    | extract_lets +onlyGivenNames x
    | with_reducible refine Evolves.ite ?_ ?_
    | with_reducible refine EvolvesFst.ite ?_ ?_
    | split
    | with_reducible refine EvolvesFst.pair ?_
    | with_reducible refine EvolvesFst.fst ?_
    | refine Evolves.of_pair (by with_reducible assumption) ?_
    | refine Evolves.of_some (by with_reducible assumption) ?_
    | fail

theorem State.urgentUnder_evolves {s t : State} {a1 : PhysSlice} {a2 : Tracker} {a3 : Option DirEntry} (h : Evolves s t) :
    Evolves s (State.urgentUnder t a1 a2 a3) := by
  unfold State.urgentUnder
  repeat' first
    | with_reducible assumption
    | with_reducible refine State.agentDone_evolves ?_
    | with_reducible refine State.resolveDir_evolves ?_
    | (extract_lets +onlyGivenNames x; clear_value (hx : x = _); with_reducible refine Evolves.cut s hx ?_ (fun _ => ?_))
    | (extract_lets +onlyGivenNames x; clear_value (hx : x = _); with_reducible refine EvolvesFst.cut s hx ?_ (fun _ => ?_))
    | (extract_lets +onlyGivenNames x; with_reducible refine Evolves.local_fun x ?_; subst x; beta_reduce)
    | (extract_lets +onlyGivenNames x; clear_value (hx : x = _))
    | extract_lets +onlyGivenNames x
    | with_reducible refine Evolves.ite ?_ ?_
    | with_reducible refine EvolvesFst.ite ?_ ?_
    | split
    | with_reducible refine EvolvesFst.pair ?_
    | with_reducible refine EvolvesFst.fst ?_
    | refine Evolves.of_pair (by with_reducible assumption) ?_
    | refine Evolves.of_some (by with_reducible assumption) ?_
    | fail

theorem State.agentAct_evolves {s t : State} {a1 : PhysSlice} {a2 : Tracker} {a3 : Option DirEntry} (h : Evolves s t) :
    Evolves s (State.agentAct t a1 a2 a3) := by
  unfold State.agentAct
  repeat' first
    | with_reducible assumption
    | with_reducible refine State.sweepUnder_evolves ?_
    | with_reducible refine State.urgentUnder_evolves ?_
    | (extract_lets +onlyGivenNames x; clear_value (hx : x = _); with_reducible refine Evolves.cut s hx ?_ (fun _ => ?_))
    | (extract_lets +onlyGivenNames x; with_reducible refine Evolves.local_fun x ?_; subst x; beta_reduce)
    | (extract_lets +onlyGivenNames x; clear_value (hx : x = _))
    | extract_lets +onlyGivenNames x
    | with_reducible refine Evolves.ite ?_ ?_
    | split
    | refine Evolves.of_pair (by with_reducible assumption) ?_
    | refine Evolves.of_some (by with_reducible assumption) ?_
    | fail

theorem State.agentDerive_evolves {s t : State} {a1 : PhysSlice} {a2 : Tracker} (h : Evolves s t) :
    Evolves s (State.agentDerive t a1 a2) := by
  unfold State.agentDerive
  repeat' first
    | with_reducible assumption
    | with_reducible refine State.agentAct_evolves ?_
    | with_reducible refine State.readForTracker_evolves ?_
    | with_reducible refine State.modTrk_evolves ?_
    | (extract_lets +onlyGivenNames x; clear_value (hx : x = _); with_reducible refine Evolves.cut s hx ?_ (fun _ => ?_))
    | (extract_lets +onlyGivenNames x; clear_value (hx : x = _); with_reducible refine EvolvesFst.cut s hx ?_ (fun _ => ?_))
    | (extract_lets +onlyGivenNames x; with_reducible refine Evolves.local_fun x ?_; subst x; beta_reduce)
    | (extract_lets +onlyGivenNames x; clear_value (hx : x = _))
    | extract_lets +onlyGivenNames x
    | with_reducible refine Evolves.ite ?_ ?_
    | split
    | refine Evolves.of_pair (by with_reducible assumption) ?_
    | refine Evolves.of_some (by with_reducible assumption) ?_
    | fail_if_no_progress with_reducible refine Evolves.other ?_
    | with_reducible refine Evolves.fields (by with_reducible assumption)
    | refine Evolves.fields (h := ?_)
    | fail

theorem State.stDerive_evolves {s t : State} {a1 : PhysSlice} {a2 : Nat} (h : Evolves s t) :
    Evolves s (State.stDerive t a1 a2) := by
  unfold State.stDerive
  repeat' first
    | with_reducible assumption
    | with_reducible refine State.agentDerive_evolves ?_
    | with_reducible refine State.agentAct_evolves ?_
    | with_reducible refine State.setView_evolves ?_
    | with_reducible refine State.fetchDir_evolves ?_
    | with_reducible refine State.checkSpill_evolves ?_
    | with_reducible refine State.mapKnown_evolves ?_
    | with_reducible refine State.modTrk_evolves ?_
    | (extract_lets +onlyGivenNames x; clear_value (hx : x = _); with_reducible refine Evolves.cut s hx ?_ (fun _ => ?_))
    | (extract_lets +onlyGivenNames x; clear_value (hx : x = _); with_reducible refine EvolvesFst.cut s hx ?_ (fun _ => ?_))
    | (extract_lets +onlyGivenNames x; with_reducible refine Evolves.local_fun x ?_; subst x; beta_reduce)
    | (extract_lets +onlyGivenNames x; clear_value (hx : x = _))
    | extract_lets +onlyGivenNames x
    | with_reducible refine Evolves.ite ?_ ?_
    | split
    | refine Evolves.of_pair (by with_reducible assumption) ?_
    | refine Evolves.of_some (by with_reducible assumption) ?_
    | fail_if_no_progress with_reducible refine Evolves.other ?_
    | with_reducible refine Evolves.fields (by with_reducible assumption)
    | refine Evolves.fields (h := ?_)
    | fail

theorem State.dropReservation_evolves {s t : State} {a1 : LogicalCore} (h : Evolves s t) :
    Evolves s (State.dropReservation t a1) := by
  unfold State.dropReservation
  repeat' first
    | with_reducible assumption
    | with_reducible refine State.modSl_evolves ?_
    | (extract_lets +onlyGivenNames x; clear_value (hx : x = _); with_reducible refine Evolves.cut s hx ?_ (fun _ => ?_))
    | (extract_lets +onlyGivenNames x; clear_value (hx : x = _); with_reducible refine EvolvesFst.cut s hx ?_ (fun _ => ?_))
    | (extract_lets +onlyGivenNames x; with_reducible refine Evolves.local_fun x ?_; subst x; beta_reduce)
    | (extract_lets +onlyGivenNames x; clear_value (hx : x = _))
    | extract_lets +onlyGivenNames x
    | with_reducible refine Evolves.ite ?_ ?_
    | with_reducible refine Evolves.foldl (fun _ _ _ => ?_) ?_
    | with_reducible refine EvolvesFst.foldl (fun _ _ _ => ?_) ?_
    | refine Evolves.of_pair (by with_reducible assumption) ?_
    | refine Evolves.of_some (by with_reducible assumption) ?_
    | fail_if_no_progress with_reducible refine Evolves.other ?_
    | with_reducible refine Evolves.fields (by with_reducible assumption)
    | refine Evolves.fields (h := ?_)
    | fail

theorem State.passGranule_evolves {s t : State} {a1 : PhysSlice} {a2 : Request} (h : Evolves s t) :
    Evolves s (State.passGranule t a1 a2) := by
  unfold State.passGranule
  repeat' first
    | with_reducible assumption
    | with_reducible refine State.dropReservation_evolves ?_
    | with_reducible refine State.modSl_evolves ?_
    | (extract_lets +onlyGivenNames x; clear_value (hx : x = _); with_reducible refine Evolves.cut s hx ?_ (fun _ => ?_))
    | (extract_lets +onlyGivenNames x; clear_value (hx : x = _); with_reducible refine EvolvesFst.cut s hx ?_ (fun _ => ?_))
    | (extract_lets +onlyGivenNames x; with_reducible refine Evolves.local_fun x ?_; subst x; beta_reduce)
    | (extract_lets +onlyGivenNames x; clear_value (hx : x = _))
    | extract_lets +onlyGivenNames x
    | with_reducible refine Evolves.ite ?_ ?_
    | split
    | refine Evolves.of_pair (by with_reducible assumption) ?_
    | refine Evolves.of_some (by with_reducible assumption) ?_
    | fail_if_no_progress with_reducible refine Evolves.other ?_
    | with_reducible refine Evolves.fields (by with_reducible assumption)
    | refine Evolves.fields (h := ?_)
    | fail

theorem State.stCombine_evolves {s t : State} {a1 : PhysSlice} {a2 : Nat} (h : Evolves s t) :
    Evolves s (State.stCombine t a1 a2) := by
  unfold State.stCombine
  repeat' first
    | with_reducible assumption
    | with_reducible refine State.answer_evolves ?_
    | with_reducible refine State.resolveLost_evolves ?_
    | with_reducible refine State.poisonRecord_evolves ?_
    | with_reducible refine State.modTrk_evolves ?_
    | with_reducible refine State.passGranule_evolves ?_
    | (extract_lets +onlyGivenNames x; clear_value (hx : x = _); with_reducible refine Evolves.cut s hx ?_ (fun _ => ?_))
    | (extract_lets +onlyGivenNames x; clear_value (hx : x = _); with_reducible refine EvolvesFst.cut s hx ?_ (fun _ => ?_))
    | (extract_lets +onlyGivenNames x; with_reducible refine Evolves.local_fun x ?_; subst x; beta_reduce)
    | (extract_lets +onlyGivenNames x; clear_value (hx : x = _))
    | extract_lets +onlyGivenNames x
    | with_reducible refine Evolves.ite ?_ ?_
    | with_reducible refine EvolvesFst.ite ?_ ?_
    | split
    | with_reducible refine EvolvesFst.pair ?_
    | with_reducible refine EvolvesFst.fst ?_
    | refine Evolves.of_pair (by with_reducible assumption) ?_
    | refine Evolves.of_some (by with_reducible assumption) ?_
    | fail_if_no_progress with_reducible refine Evolves.other ?_
    | with_reducible refine Evolves.fields (by with_reducible assumption)
    | refine Evolves.fields (h := ?_)
    | fail

theorem State.readStage_evolves {s t : State} {a1 : PhysSlice} {a2 : Tracker} (h : Evolves s t) :
    Evolves s (State.readStage t a1 a2) := by
  unfold State.readStage
  repeat' first
    | with_reducible assumption
    | with_reducible refine State.modTrk_evolves ?_
    | with_reducible refine State.readData_evolves ?_
    | with_reducible refine State.dropBad_evolves ?_
    | with_reducible refine State.readForTracker_evolves ?_
    | with_reducible refine State.setTag_evolves ?_
    | with_reducible refine State.count_evolves ?_
    | with_reducible refine State.flag_evolves ?_
    | with_reducible refine State.readBuffer_evolves ?_
    | (extract_lets +onlyGivenNames x; clear_value (hx : x = _); with_reducible refine Evolves.cut s hx ?_ (fun _ => ?_))
    | (extract_lets +onlyGivenNames x; clear_value (hx : x = _); with_reducible refine EvolvesFst.cut s hx ?_ (fun _ => ?_))
    | (extract_lets +onlyGivenNames x; with_reducible refine Evolves.local_fun x ?_; subst x; beta_reduce)
    | (extract_lets +onlyGivenNames x; clear_value (hx : x = _))
    | extract_lets +onlyGivenNames x
    | with_reducible refine Evolves.ite ?_ ?_
    | with_reducible refine EvolvesFst.ite ?_ ?_
    | split
    | with_reducible refine EvolvesFst.pair ?_
    | with_reducible refine EvolvesFst.fst ?_
    | refine Evolves.of_pair (by with_reducible assumption) ?_
    | refine Evolves.of_some (by with_reducible assumption) ?_
    | fail_if_no_progress with_reducible refine Evolves.other ?_
    | with_reducible refine Evolves.fields (by with_reducible assumption)
    | refine Evolves.fields (h := ?_)
    | fail

theorem State.throughWay_evolves {s t : State} {a1 : PhysSlice} {a2 : Tracker} {a3 : Nat} (h : Evolves s t) :
    Evolves s (State.throughWay t a1 a2 a3) := by
  unfold State.throughWay
  repeat' first
    | with_reducible assumption
    | with_reducible refine State.cleanWrite_evolves ?_
    | with_reducible refine State.modTrk_evolves ?_
    | with_reducible refine State.flag_evolves ?_
    | (extract_lets +onlyGivenNames x; clear_value (hx : x = _); with_reducible refine Evolves.cut s hx ?_ (fun _ => ?_))
    | (extract_lets +onlyGivenNames x; clear_value (hx : x = _); with_reducible refine EvolvesFst.cut s hx ?_ (fun _ => ?_))
    | (extract_lets +onlyGivenNames x; with_reducible refine Evolves.local_fun x ?_; subst x; beta_reduce)
    | (extract_lets +onlyGivenNames x; clear_value (hx : x = _))
    | extract_lets +onlyGivenNames x
    | with_reducible refine Evolves.ite ?_ ?_
    | split
    | refine Evolves.of_pair (by with_reducible assumption) ?_
    | refine Evolves.of_some (by with_reducible assumption) ?_
    | fail_if_no_progress with_reducible refine Evolves.other ?_
    | with_reducible refine Evolves.fields (by with_reducible assumption)
    | refine Evolves.fields (h := ?_)
    | fail

theorem State.mergeRead_evolves {s t : State} {a1 : PhysSlice} {a2 : Nat} {a3 : Bool} (h : Evolves s t) :
    Evolves s (State.mergeRead t a1 a2 a3) := by
  unfold State.mergeRead
  repeat' first
    | with_reducible assumption
    | with_reducible refine State.readData_evolves ?_
    | with_reducible refine State.setTag_evolves ?_
    | with_reducible refine State.dropBad_evolves ?_
    | (extract_lets +onlyGivenNames x; clear_value (hx : x = _); with_reducible refine Evolves.cut s hx ?_ (fun _ => ?_))
    | (extract_lets +onlyGivenNames x; clear_value (hx : x = _); with_reducible refine EvolvesFst.cut s hx ?_ (fun _ => ?_))
    | (extract_lets +onlyGivenNames x; with_reducible refine Evolves.local_fun x ?_; subst x; beta_reduce)
    | (extract_lets +onlyGivenNames x; clear_value (hx : x = _))
    | extract_lets +onlyGivenNames x
    | with_reducible refine Evolves.ite ?_ ?_
    | with_reducible refine EvolvesFst.ite ?_ ?_
    | split
    | with_reducible refine EvolvesFst.pair ?_
    | with_reducible refine EvolvesFst.fst ?_
    | refine Evolves.of_pair (by with_reducible assumption) ?_
    | refine Evolves.of_some (by with_reducible assumption) ?_
    | fail_if_no_progress with_reducible refine Evolves.other ?_
    | with_reducible refine Evolves.fields (by with_reducible assumption)
    | refine Evolves.fields (h := ?_)
    | fail

theorem State.writeStage_evolves {s t : State} {a1 : PhysSlice} {a2 : Tracker} (h : Evolves s t) :
    Evolves s (State.writeStage t a1 a2) := by
  unfold State.writeStage
  repeat' first
    | with_reducible assumption
    | with_reducible refine State.mergeRead_evolves ?_
    | with_reducible refine State.joinBudget_evolves ?_
    | with_reducible refine State.modTrk_evolves ?_
    | with_reducible refine State.modSl_evolves ?_
    | with_reducible refine State.readBuffer_evolves ?_
    | with_reducible refine State.clearReserved_evolves ?_
    | with_reducible refine State.issue_evolves ?_
    | with_reducible refine State.flag_evolves ?_
    | with_reducible refine State.hcFill_evolves ?_
    | with_reducible refine State.count_evolves ?_
    | with_reducible refine State.throughWay_evolves ?_
    | with_reducible refine State.setWay_evolves ?_
    | with_reducible refine State.readForTracker_evolves ?_
    | (extract_lets +onlyGivenNames x; clear_value (hx : x = _); with_reducible refine Evolves.cut s hx ?_ (fun _ => ?_))
    | (extract_lets +onlyGivenNames x; clear_value (hx : x = _); with_reducible refine EvolvesFst.cut s hx ?_ (fun _ => ?_))
    | (extract_lets +onlyGivenNames x; with_reducible refine Evolves.local_fun x ?_; subst x; beta_reduce)
    | (extract_lets +onlyGivenNames x; clear_value (hx : x = _))
    | extract_lets +onlyGivenNames x
    | with_reducible refine Evolves.ite ?_ ?_
    | with_reducible refine EvolvesFst.ite ?_ ?_
    | split
    | with_reducible refine EvolvesFst.pair ?_
    | with_reducible refine EvolvesFst.fst ?_
    | refine Evolves.of_pair (by with_reducible assumption) ?_
    | refine Evolves.of_some (by with_reducible assumption) ?_
    | with_reducible refine EvolvesOpt.getD ?_ ?_
    | fail_if_no_progress with_reducible refine Evolves.other ?_
    | with_reducible refine Evolves.fields (by with_reducible assumption)
    | refine Evolves.fields (h := ?_)
    | fail

theorem State.stData_evolves {s t : State} {a1 : PhysSlice} {a2 : Nat} (h : Evolves s t) :
    Evolves s (State.stData t a1 a2) := by
  unfold State.stData
  repeat' first
    | with_reducible assumption
    | with_reducible refine State.modTrk_evolves ?_
    | with_reducible refine State.readStage_evolves ?_
    | with_reducible refine State.writeStage_evolves ?_
    | (extract_lets +onlyGivenNames x; clear_value (hx : x = _); with_reducible refine Evolves.cut s hx ?_ (fun _ => ?_))
    | (extract_lets +onlyGivenNames x; with_reducible refine Evolves.local_fun x ?_; subst x; beta_reduce)
    | (extract_lets +onlyGivenNames x; clear_value (hx : x = _))
    | extract_lets +onlyGivenNames x
    | with_reducible refine Evolves.ite ?_ ?_
    | split
    | refine Evolves.of_pair (by with_reducible assumption) ?_
    | refine Evolves.of_some (by with_reducible assumption) ?_
    | fail_if_no_progress with_reducible refine Evolves.other ?_
    | with_reducible refine Evolves.fields (by with_reducible assumption)
    | refine Evolves.fields (h := ?_)
    | fail

theorem State.modVictim_evolves {s t : State} {a1 : PhysSlice} {a2 : Nat} {a3 : Victim → Victim} (h : Evolves s t) :
    Evolves s (State.modVictim t a1 a2 a3) := by
  unfold State.modVictim
  repeat' first
    | with_reducible assumption
    | with_reducible refine State.modSl_evolves ?_
    | (extract_lets +onlyGivenNames x; clear_value (hx : x = _); with_reducible refine Evolves.cut s hx ?_ (fun _ => ?_))
    | (extract_lets +onlyGivenNames x; with_reducible refine Evolves.local_fun x ?_; subst x; beta_reduce)
    | (extract_lets +onlyGivenNames x; clear_value (hx : x = _))
    | extract_lets +onlyGivenNames x
    | with_reducible refine Evolves.ite ?_ ?_
    | split
    | refine Evolves.of_pair (by with_reducible assumption) ?_
    | refine Evolves.of_some (by with_reducible assumption) ?_
    | fail_if_no_progress with_reducible refine Evolves.other ?_
    | with_reducible refine Evolves.fields (by with_reducible assumption)
    | refine Evolves.fields (h := ?_)
    | fail

theorem State.spillLine_evolves {s t : State} {a1 : PhysSlice} {a2 : Nat} {a3 : FilterEntry} {a4 : Nat} (h : Evolves s t) :
    Evolves s (State.spillLine t a1 a2 a3 a4) := by
  unfold State.spillLine
  repeat' first
    | with_reducible assumption
    | with_reducible refine State.count_evolves ?_
    | with_reducible refine State.modVictim_evolves ?_
    | with_reducible refine State.issue_evolves ?_
    | with_reducible refine State.writeDir_evolves ?_
    | (extract_lets +onlyGivenNames x; clear_value (hx : x = _); with_reducible refine Evolves.cut s hx ?_ (fun _ => ?_))
    | (extract_lets +onlyGivenNames x; clear_value (hx : x = _); with_reducible refine EvolvesFst.cut s hx ?_ (fun _ => ?_))
    | (extract_lets +onlyGivenNames x; with_reducible refine Evolves.local_fun x ?_; subst x; beta_reduce)
    | (extract_lets +onlyGivenNames x; clear_value (hx : x = _))
    | extract_lets +onlyGivenNames x
    | with_reducible refine Evolves.ite ?_ ?_
    | with_reducible refine EvolvesFst.ite ?_ ?_
    | split
    | with_reducible refine EvolvesFst.pair ?_
    | with_reducible refine EvolvesFst.fst ?_
    | refine Evolves.of_pair (by with_reducible assumption) ?_
    | refine Evolves.of_some (by with_reducible assumption) ?_
    | fail_if_no_progress with_reducible refine Evolves.other ?_
    | with_reducible refine Evolves.fields (by with_reducible assumption)
    | refine Evolves.fields (h := ?_)
    | fail

theorem State.startRecall_evolves {s t : State} {a1 : PhysSlice} {a2 : Nat} (h : Evolves s t) :
    Evolves s (State.startRecall t a1 a2) := by
  unfold State.startRecall
  repeat' first
    | with_reducible assumption
    | with_reducible refine State.scrubRecall_evolves ?_
    | with_reducible refine State.resolveLost_evolves ?_
    | with_reducible refine State.modVictim_evolves ?_
    | with_reducible refine State.issueSnoop_evolves ?_
    | with_reducible refine State.count_evolves ?_
    | with_reducible refine State.takeHeld_evolves ?_
    | (extract_lets +onlyGivenNames x; clear_value (hx : x = _); with_reducible refine Evolves.cut s hx ?_ (fun _ => ?_))
    | (extract_lets +onlyGivenNames x; clear_value (hx : x = _); with_reducible refine EvolvesFst.cut s hx ?_ (fun _ => ?_))
    | (extract_lets +onlyGivenNames x; with_reducible refine Evolves.local_fun x ?_; subst x; beta_reduce)
    | (extract_lets +onlyGivenNames x; clear_value (hx : x = _))
    | extract_lets +onlyGivenNames x
    | with_reducible refine Evolves.ite ?_ ?_
    | with_reducible refine EvolvesFst.ite ?_ ?_
    | with_reducible refine Evolves.foldl (fun _ _ _ => ?_) ?_
    | with_reducible refine EvolvesFst.foldl (fun _ _ _ => ?_) ?_
    | split
    | with_reducible refine EvolvesFst.pair ?_
    | with_reducible refine EvolvesFst.fst ?_
    | refine Evolves.of_pair (by with_reducible assumption) ?_
    | refine Evolves.of_some (by with_reducible assumption) ?_
    | fail_if_no_progress with_reducible refine Evolves.other ?_
    | with_reducible refine Evolves.fields (by with_reducible assumption)
    | refine Evolves.fields (h := ?_)
    | fail

theorem State.startVictim_evolves {s t : State} {a1 : PhysSlice} {a2 : Nat} {a3 : Nat} {a4 : Bool} (h : Evolves s t) :
    Evolves s (State.startVictim t a1 a2 a3 a4) := by
  unfold State.startVictim
  repeat' first
    | with_reducible assumption
    | with_reducible refine State.bump_evolves ?_
    | with_reducible refine State.modSl_evolves ?_
    | with_reducible refine State.wr_evolves ?_
    | with_reducible refine State.spillLine_evolves ?_
    | with_reducible refine State.count_evolves ?_
    | with_reducible refine State.sendSet_evolves ?_
    | with_reducible refine State.modVictim_evolves ?_
    | with_reducible refine State.startRecall_evolves ?_
    | (extract_lets +onlyGivenNames x; clear_value (hx : x = _); with_reducible refine Evolves.cut s hx ?_ (fun _ => ?_))
    | (extract_lets +onlyGivenNames x; clear_value (hx : x = _); with_reducible refine EvolvesFst.cut s hx ?_ (fun _ => ?_))
    | (extract_lets +onlyGivenNames x; with_reducible refine Evolves.local_fun x ?_; subst x; beta_reduce)
    | (extract_lets +onlyGivenNames x; clear_value (hx : x = _))
    | extract_lets +onlyGivenNames x
    | with_reducible refine Evolves.ite ?_ ?_
    | with_reducible refine EvolvesFst.ite ?_ ?_
    | with_reducible refine Evolves.foldl (fun _ _ _ => ?_) ?_
    | with_reducible refine EvolvesFst.foldl (fun _ _ _ => ?_) ?_
    | split
    | with_reducible refine EvolvesFst.pair ?_
    | with_reducible refine EvolvesFst.fst ?_
    | refine Evolves.of_pair (by with_reducible assumption) ?_
    | refine Evolves.of_some (by with_reducible assumption) ?_
    | fail_if_no_progress with_reducible refine Evolves.other ?_
    | with_reducible refine Evolves.fields (by with_reducible assumption)
    | refine Evolves.fields (h := ?_)
    | fail

theorem State.freeVictim_evolves {s t : State} {a1 : PhysSlice} {a2 : Victim} (h : Evolves s t) :
    Evolves s (State.freeVictim t a1 a2) := by
  unfold State.freeVictim
  repeat' first
    | with_reducible assumption
    | with_reducible refine State.setSf_evolves ?_
    | with_reducible refine State.modSl_evolves ?_
    | (extract_lets +onlyGivenNames x; clear_value (hx : x = _); with_reducible refine Evolves.cut s hx ?_ (fun _ => ?_))
    | (extract_lets +onlyGivenNames x; clear_value (hx : x = _); with_reducible refine EvolvesFst.cut s hx ?_ (fun _ => ?_))
    | (extract_lets +onlyGivenNames x; with_reducible refine Evolves.local_fun x ?_; subst x; beta_reduce)
    | (extract_lets +onlyGivenNames x; clear_value (hx : x = _))
    | extract_lets +onlyGivenNames x
    | with_reducible refine Evolves.ite ?_ ?_
    | refine Evolves.of_pair (by with_reducible assumption) ?_
    | refine Evolves.of_some (by with_reducible assumption) ?_
    | fail_if_no_progress with_reducible refine Evolves.other ?_
    | with_reducible refine Evolves.fields (by with_reducible assumption)
    | refine Evolves.fields (h := ?_)
    | fail

theorem State.recordDir_evolves {s t : State} {a1 : PhysSlice} {a2 : Tracker} {a3 : Tracking} (h : Evolves s t) :
    Evolves s (State.recordDir t a1 a2 a3) := by
  unfold State.recordDir
  repeat' first
    | with_reducible assumption
    | with_reducible refine State.writeDir_evolves ?_
    | with_reducible refine State.sendSet_evolves ?_
    | with_reducible refine State.modTrk_evolves ?_
    | (extract_lets +onlyGivenNames x; clear_value (hx : x = _); with_reducible refine Evolves.cut s hx ?_ (fun _ => ?_))
    | (extract_lets +onlyGivenNames x; clear_value (hx : x = _); with_reducible refine EvolvesFst.cut s hx ?_ (fun _ => ?_))
    | (extract_lets +onlyGivenNames x; with_reducible refine Evolves.local_fun x ?_; subst x; beta_reduce)
    | (extract_lets +onlyGivenNames x; clear_value (hx : x = _))
    | extract_lets +onlyGivenNames x
    | with_reducible refine Evolves.ite ?_ ?_
    | with_reducible refine EvolvesFst.ite ?_ ?_
    | split
    | with_reducible refine EvolvesFst.pair ?_
    | with_reducible refine EvolvesFst.fst ?_
    | refine Evolves.of_pair (by with_reducible assumption) ?_
    | refine Evolves.of_some (by with_reducible assumption) ?_
    | fail_if_no_progress with_reducible refine Evolves.other ?_
    | with_reducible refine Evolves.fields (by with_reducible assumption)
    | refine Evolves.fields (h := ?_)
    | fail

theorem State.recordInDir_evolves {s t : State} {a1 : PhysSlice} {a2 : Tracker} {a3 : Tracking} {a4 : State → State} (hf : ∀ u, Evolves s u → Evolves s (a4 u)) (h : Evolves s t) :
    Evolves s (State.recordInDir t a1 a2 a3 a4) := by
  unfold State.recordInDir
  repeat' first
    | with_reducible assumption
    | with_reducible refine hf _ ?_
    | with_reducible refine State.recordDir_evolves ?_
    | with_reducible refine State.modTrk_evolves ?_
    | with_reducible refine State.readForTracker_evolves ?_
    | (extract_lets +onlyGivenNames x; clear_value (hx : x = _); with_reducible refine Evolves.cut s hx ?_ (fun _ => ?_))
    | (extract_lets +onlyGivenNames x; clear_value (hx : x = _); with_reducible refine EvolvesFst.cut s hx ?_ (fun _ => ?_))
    | (extract_lets +onlyGivenNames x; with_reducible refine Evolves.local_fun x ?_; subst x; beta_reduce)
    | (extract_lets +onlyGivenNames x; clear_value (hx : x = _))
    | extract_lets +onlyGivenNames x
    | with_reducible refine Evolves.ite ?_ ?_
    | split
    | refine Evolves.of_pair (by with_reducible assumption) ?_
    | refine Evolves.of_some (by with_reducible assumption) ?_
    | fail_if_no_progress with_reducible refine Evolves.other ?_
    | with_reducible refine Evolves.fields (by with_reducible assumption)
    | refine Evolves.fields (h := ?_)
    | fail

theorem State.settleGrant_evolves {s t : State} {a1 : PhysSlice} {a2 : Nat} (h : Evolves s t) :
    Evolves s (State.settleGrant t a1 a2) := by
  unfold State.settleGrant
  repeat' first
    | with_reducible assumption
    | with_reducible refine State.modTrk_evolves ?_
    | (extract_lets +onlyGivenNames x; clear_value (hx : x = _); with_reducible refine Evolves.cut s hx ?_ (fun _ => ?_))
    | (extract_lets +onlyGivenNames x; with_reducible refine Evolves.local_fun x ?_; subst x; beta_reduce)
    | (extract_lets +onlyGivenNames x; clear_value (hx : x = _))
    | extract_lets +onlyGivenNames x
    | with_reducible refine Evolves.ite ?_ ?_
    | split
    | refine Evolves.of_pair (by with_reducible assumption) ?_
    | refine Evolves.of_some (by with_reducible assumption) ?_
    | fail_if_no_progress with_reducible refine Evolves.other ?_
    | with_reducible refine Evolves.fields (by with_reducible assumption)
    | refine Evolves.fields (h := ?_)
    | fail

theorem State.stRecord_evolves {s t : State} {a1 : PhysSlice} {a2 : Nat} (h : Evolves s t) :
    Evolves s (State.stRecord t a1 a2) := by
  unfold State.stRecord
  repeat' first
    | with_reducible assumption
    | with_reducible refine State.settleGrant_evolves ?_
    | with_reducible refine State.modTrk_evolves ?_
    | with_reducible refine State.after_evolves ?_ ?_
    | with_reducible refine State.recordInDir_evolves (fun _ _ => ?_) ?_
    | with_reducible refine State.modSf_evolves ?_
    | with_reducible refine State.setSf_evolves ?_
    | with_reducible refine State.modSl_evolves ?_
    | with_reducible refine State.startVictim_evolves ?_
    | with_reducible refine State.flag_evolves ?_
    | with_reducible refine State.freeVictim_evolves ?_
    | (extract_lets +onlyGivenNames x; clear_value (hx : x = _); with_reducible refine Evolves.cut s hx ?_ (fun _ => ?_))
    | (extract_lets +onlyGivenNames x; clear_value (hx : x = _); with_reducible refine EvolvesFst.cut s hx ?_ (fun _ => ?_))
    | (extract_lets +onlyGivenNames x; with_reducible refine Evolves.local_fun x ?_; subst x; beta_reduce)
    | (extract_lets +onlyGivenNames x; clear_value (hx : x = _))
    | extract_lets +onlyGivenNames x
    | with_reducible refine Evolves.ite ?_ ?_
    | split
    | refine Evolves.of_pair (by with_reducible assumption) ?_
    | refine Evolves.of_some (by with_reducible assumption) ?_
    | fail_if_no_progress with_reducible refine Evolves.other ?_
    | with_reducible refine Evolves.fields (by with_reducible assumption)
    | refine Evolves.fields (h := ?_)
    | fail

theorem State.iaEnd_evolves {s t : State} {a1 : Nat} (h : Evolves s t) :
    Evolves s (State.iaEnd t a1) := by
  unfold State.iaEnd
  repeat' first
    | with_reducible assumption
    | (extract_lets +onlyGivenNames x; clear_value (hx : x = _); with_reducible refine Evolves.cut s hx ?_ (fun _ => ?_))
    | (extract_lets +onlyGivenNames x; clear_value (hx : x = _); with_reducible refine EvolvesFst.cut s hx ?_ (fun _ => ?_))
    | (extract_lets +onlyGivenNames x; with_reducible refine Evolves.local_fun x ?_; subst x; beta_reduce)
    | (extract_lets +onlyGivenNames x; clear_value (hx : x = _))
    | extract_lets +onlyGivenNames x
    | with_reducible refine Evolves.ite ?_ ?_
    | split
    | refine Evolves.of_pair (by with_reducible assumption) ?_
    | refine Evolves.of_some (by with_reducible assumption) ?_
    | fail_if_no_progress with_reducible refine Evolves.other ?_
    | with_reducible refine Evolves.fields (by with_reducible assumption)
    | refine Evolves.fields (h := ?_)
    | fail

theorem State.iaFail_evolves {s t : State} {a1 : Nat} {a2 : Nat} (h : Evolves s t) :
    Evolves s (State.iaFail t a1 a2) := by
  unfold State.iaFail
  repeat' first
    | with_reducible assumption
    | with_reducible refine State.dropReservation_evolves ?_
    | with_reducible refine State.iaEnd_evolves ?_
    | (extract_lets +onlyGivenNames x; clear_value (hx : x = _); with_reducible refine Evolves.cut s hx ?_ (fun _ => ?_))
    | (extract_lets +onlyGivenNames x; clear_value (hx : x = _); with_reducible refine EvolvesFst.cut s hx ?_ (fun _ => ?_))
    | (extract_lets +onlyGivenNames x; with_reducible refine Evolves.local_fun x ?_; subst x; beta_reduce)
    | (extract_lets +onlyGivenNames x; clear_value (hx : x = _))
    | extract_lets +onlyGivenNames x
    | with_reducible refine Evolves.ite ?_ ?_
    | with_reducible refine Evolves.foldl (fun _ _ _ => ?_) ?_
    | with_reducible refine EvolvesFst.foldl (fun _ _ _ => ?_) ?_
    | refine Evolves.of_pair (by with_reducible assumption) ?_
    | refine Evolves.of_some (by with_reducible assumption) ?_
    | fail_if_no_progress with_reducible refine Evolves.other ?_
    | with_reducible refine Evolves.fields (by with_reducible assumption)
    | refine Evolves.fields (h := ?_)
    | fail

theorem State.sampleRecord_evolves {s t : State} {a1 : PhysSlice} {a2 : Tracker} (h : Evolves s t) :
    Evolves s (State.sampleRecord t a1 a2) := by
  unfold State.sampleRecord
  repeat' first
    | with_reducible assumption
    | with_reducible refine State.inc_evolves ?_
    | with_reducible refine State.draw_evolves ?_
    | (extract_lets +onlyGivenNames x; clear_value (hx : x = _); with_reducible refine Evolves.cut s hx ?_ (fun _ => ?_))
    | (extract_lets +onlyGivenNames x; clear_value (hx : x = _); with_reducible refine EvolvesFst.cut s hx ?_ (fun _ => ?_))
    | (extract_lets +onlyGivenNames x; with_reducible refine Evolves.local_fun x ?_; subst x; beta_reduce)
    | (extract_lets +onlyGivenNames x; clear_value (hx : x = _))
    | extract_lets +onlyGivenNames x
    | with_reducible refine Evolves.ite ?_ ?_
    | split
    | refine Evolves.of_pair (by with_reducible assumption) ?_
    | refine Evolves.of_some (by with_reducible assumption) ?_
    | fail_if_no_progress with_reducible refine Evolves.other ?_
    | with_reducible refine Evolves.fields (by with_reducible assumption)
    | refine Evolves.fields (h := ?_)
    | fail

theorem State.answer_evolves {s t : State} {a1 : PhysSlice} {a2 : Tracker} (h : Evolves s t) :
    Evolves s (State.answer t a1 a2) := by
  unfold State.answer
  repeat' first
    | with_reducible assumption
    | with_reducible refine State.answerInc_evolves ?_
    | with_reducible refine State.inc_evolves ?_
    | with_reducible refine State.clearReserved_evolves ?_
    | with_reducible refine State.after_evolves ?_ ?_
    | with_reducible refine State.iaEnd_evolves ?_
    | with_reducible refine State.iaFail_evolves ?_
    | with_reducible refine State.emit_evolves ?_
    | with_reducible refine State.count_evolves ?_
    | (extract_lets +onlyGivenNames x; clear_value (hx : x = _); with_reducible refine Evolves.cut s hx ?_ (fun _ => ?_))
    | (extract_lets +onlyGivenNames x; clear_value (hx : x = _); with_reducible refine EvolvesFst.cut s hx ?_ (fun _ => ?_))
    | (extract_lets +onlyGivenNames x; with_reducible refine Evolves.local_fun x ?_; subst x; beta_reduce)
    | (extract_lets +onlyGivenNames x; clear_value (hx : x = _))
    | extract_lets +onlyGivenNames x
    | with_reducible refine Evolves.ite ?_ ?_
    | split
    | refine Evolves.of_pair (by with_reducible assumption) ?_
    | refine Evolves.of_some (by with_reducible assumption) ?_
    | with_reducible refine EvolvesOpt.getD ?_ ?_
    | fail_if_no_progress with_reducible refine Evolves.other ?_
    | with_reducible refine Evolves.fields (by with_reducible assumption)
    | refine Evolves.fields (h := ?_)
    | fail

theorem State.drainWrite_evolves {s t : State} {a1 : PhysSlice} {a2 : Nat} (h : Evolves s t) :
    Evolves s (State.drainWrite t a1 a2) := by
  unfold State.drainWrite
  repeat' first
    | with_reducible assumption
    | with_reducible refine State.throughWay_evolves ?_
    | (extract_lets +onlyGivenNames x; clear_value (hx : x = _); with_reducible refine Evolves.cut s hx ?_ (fun _ => ?_))
    | (extract_lets +onlyGivenNames x; with_reducible refine Evolves.local_fun x ?_; subst x; beta_reduce)
    | (extract_lets +onlyGivenNames x; clear_value (hx : x = _))
    | extract_lets +onlyGivenNames x
    | with_reducible refine Evolves.ite ?_ ?_
    | split
    | refine Evolves.of_pair (by with_reducible assumption) ?_
    | refine Evolves.of_some (by with_reducible assumption) ?_
    | fail

theorem State.stRespond_evolves {s t : State} {a1 : PhysSlice} {a2 : Nat} (h : Evolves s t) :
    Evolves s (State.stRespond t a1 a2) := by
  unfold State.stRespond
  repeat' first
    | with_reducible assumption
    | with_reducible refine State.drainWrite_evolves ?_
    | with_reducible refine State.answer_evolves ?_
    | with_reducible refine State.sampleRecord_evolves ?_
    | with_reducible refine State.modTrk_evolves ?_
    | (extract_lets +onlyGivenNames x; clear_value (hx : x = _); with_reducible refine Evolves.cut s hx ?_ (fun _ => ?_))
    | (extract_lets +onlyGivenNames x; clear_value (hx : x = _); with_reducible refine EvolvesFst.cut s hx ?_ (fun _ => ?_))
    | (extract_lets +onlyGivenNames x; with_reducible refine Evolves.local_fun x ?_; subst x; beta_reduce)
    | (extract_lets +onlyGivenNames x; clear_value (hx : x = _))
    | extract_lets +onlyGivenNames x
    | with_reducible refine Evolves.ite ?_ ?_
    | split
    | refine Evolves.of_pair (by with_reducible assumption) ?_
    | refine Evolves.of_some (by with_reducible assumption) ?_
    | fail_if_no_progress with_reducible refine Evolves.other ?_
    | with_reducible refine Evolves.fields (by with_reducible assumption)
    | refine Evolves.fields (h := ?_)
    | fail

theorem State.respondGranule_evolves {s t : State} {a1 : PhysSlice} {a2 : Nat} (h : Evolves s t) :
    Evolves s (State.respondGranule t a1 a2) := by
  unfold State.respondGranule
  repeat' first
    | with_reducible assumption
    | with_reducible refine State.stRespond_evolves ?_
    | (extract_lets +onlyGivenNames x; clear_value (hx : x = _); with_reducible refine Evolves.cut s hx ?_ (fun _ => ?_))
    | (extract_lets +onlyGivenNames x; clear_value (hx : x = _); with_reducible refine EvolvesFst.cut s hx ?_ (fun _ => ?_))
    | (extract_lets +onlyGivenNames x; with_reducible refine Evolves.local_fun x ?_; subst x; beta_reduce)
    | (extract_lets +onlyGivenNames x; clear_value (hx : x = _))
    | extract_lets +onlyGivenNames x
    | with_reducible refine Evolves.ite ?_ ?_
    | with_reducible refine Evolves.foldl (fun _ _ _ => ?_) ?_
    | with_reducible refine EvolvesFst.foldl (fun _ _ _ => ?_) ?_
    | split
    | refine Evolves.of_pair (by with_reducible assumption) ?_
    | refine Evolves.of_some (by with_reducible assumption) ?_
    | fail

theorem State.advance_evolves {s t : State} {a1 : PhysSlice} {a2 : Nat} (h : Evolves s t) :
    Evolves s (State.advance t a1 a2) := by
  unfold State.advance
  repeat' first
    | with_reducible assumption
    | with_reducible refine State.stDerive_evolves ?_
    | with_reducible refine State.stCombine_evolves ?_
    | with_reducible refine State.stData_evolves ?_
    | with_reducible refine State.stRecord_evolves ?_
    | with_reducible refine State.stRespond_evolves ?_
    | with_reducible refine State.respondGranule_evolves ?_
    | with_reducible refine State.quotaCheck_evolves ?_
    | with_reducible refine State.cleanerCheck_evolves ?_
    | (extract_lets +onlyGivenNames x; clear_value (hx : x = _); with_reducible refine Evolves.cut s hx ?_ (fun _ => ?_))
    | (extract_lets +onlyGivenNames x; clear_value (hx : x = _); with_reducible refine EvolvesFst.cut s hx ?_ (fun _ => ?_))
    | (extract_lets +onlyGivenNames x; with_reducible refine Evolves.local_fun x ?_; subst x; beta_reduce)
    | (extract_lets +onlyGivenNames x; clear_value (hx : x = _))
    | extract_lets +onlyGivenNames x
    | with_reducible refine Evolves.ite ?_ ?_
    | refine Evolves.of_pair (by with_reducible assumption) ?_
    | refine Evolves.of_some (by with_reducible assumption) ?_
    | fail

theorem State.advanceIf_evolves {s t : State} {a1 : PhysSlice} {a2 : Tracker → Bool} (h : Evolves s t) :
    Evolves s (State.advanceIf t a1 a2) := by
  unfold State.advanceIf
  repeat' first
    | with_reducible assumption
    | with_reducible refine State.advance_evolves ?_
    | (extract_lets +onlyGivenNames x; clear_value (hx : x = _); with_reducible refine Evolves.cut s hx ?_ (fun _ => ?_))
    | (extract_lets +onlyGivenNames x; clear_value (hx : x = _); with_reducible refine EvolvesFst.cut s hx ?_ (fun _ => ?_))
    | (extract_lets +onlyGivenNames x; with_reducible refine Evolves.local_fun x ?_; subst x; beta_reduce)
    | (extract_lets +onlyGivenNames x; clear_value (hx : x = _))
    | extract_lets +onlyGivenNames x
    | with_reducible refine Evolves.ite ?_ ?_
    | with_reducible refine Evolves.foldl (fun _ _ _ => ?_) ?_
    | with_reducible refine EvolvesFst.foldl (fun _ _ _ => ?_) ?_
    | refine Evolves.of_pair (by with_reducible assumption) ?_
    | refine Evolves.of_some (by with_reducible assumption) ?_
    | fail

end Sys2Proof.Machine
end

