-- ==== Sys2Proof/Laws/EvAgents.lean ====
section
/-! SUPPORT. What each operation of Sys2Proof/Machine/Agents.lean does to the whole machine: one `Evolves` lemma an operation. -/

set_option linter.all false
set_option Elab.async false

namespace Sys2Proof.Machine

open Host (Outcome)

theorem State.rangeCount_evolves {s t : State} {a1 : Fld} {a2 : Nat} (h : Evolves s t) :
    Evolves s (State.rangeCount t a1 a2) := by
  unfold State.rangeCount
  repeat' first
    | with_reducible assumption
    | with_reducible refine State.inc_evolves ?_
    | (extract_lets +onlyGivenNames x; clear_value (hx : x = _); with_reducible refine Evolves.cut s hx ?_ (fun _ => ?_))
    | (extract_lets +onlyGivenNames x; with_reducible refine Evolves.local_fun x ?_; subst x; beta_reduce)
    | (extract_lets +onlyGivenNames x; clear_value (hx : x = _))
    | extract_lets +onlyGivenNames x
    | with_reducible refine Evolves.ite ?_ ?_
    | refine Evolves.of_pair (by with_reducible assumption) ?_
    | refine Evolves.of_some (by with_reducible assumption) ?_
    | fail

theorem State.rangeDone_evolves {s t : State} {a1 : Bool} (h : Evolves s t) :
    Evolves s (State.rangeDone t a1) := by
  unfold State.rangeDone
  repeat' first
    | with_reducible assumption
    | with_reducible refine State.wr_evolves ?_
    | with_reducible refine State.notice_evolves ?_
    | (extract_lets +onlyGivenNames x; clear_value (hx : x = _); with_reducible refine Evolves.cut s hx ?_ (fun _ => ?_))
    | (extract_lets +onlyGivenNames x; clear_value (hx : x = _); with_reducible refine EvolvesFst.cut s hx ?_ (fun _ => ?_))
    | (extract_lets +onlyGivenNames x; with_reducible refine Evolves.local_fun x ?_; subst x; beta_reduce)
    | (extract_lets +onlyGivenNames x; clear_value (hx : x = _))
    | extract_lets +onlyGivenNames x
    | with_reducible refine Evolves.ite ?_ ?_
    | split
    | refine Evolves.of_pair (by with_reducible assumption) ?_
    | refine Evolves.of_some (by with_reducible assumption) ?_
    | fail

theorem State.rangePartEnd_evolves {s t : State} {a1 : PhysSlice} (h : Evolves s t) :
    Evolves s (State.rangePartEnd t a1) := by
  unfold State.rangePartEnd
  repeat' first
    | with_reducible assumption
    | with_reducible refine State.modSl_evolves ?_
    | with_reducible refine State.wr_evolves ?_
    | with_reducible refine State.rangeDone_evolves ?_
    | (extract_lets +onlyGivenNames x; clear_value (hx : x = _); with_reducible refine Evolves.cut s hx ?_ (fun _ => ?_))
    | (extract_lets +onlyGivenNames x; clear_value (hx : x = _); with_reducible refine EvolvesFst.cut s hx ?_ (fun _ => ?_))
    | (extract_lets +onlyGivenNames x; with_reducible refine Evolves.local_fun x ?_; subst x; beta_reduce)
    | (extract_lets +onlyGivenNames x; clear_value (hx : x = _))
    | extract_lets +onlyGivenNames x
    | with_reducible refine Evolves.ite ?_ ?_
    | split
    | refine Evolves.of_pair (by with_reducible assumption) ?_
    | refine Evolves.of_some (by with_reducible assumption) ?_
    | fail_if_no_progress with_reducible refine Evolves.other ?_
    | with_reducible refine Evolves.fields (by with_reducible assumption)
    | refine Evolves.fields (h := ?_)
    | fail

theorem State.rangeCheck_evolves {s t : State} {a1 : PhysSlice} (h : Evolves s t) :
    Evolves s (State.rangeCheck t a1) := by
  unfold State.rangeCheck
  repeat' first
    | with_reducible assumption
    | with_reducible refine State.rangePartEnd_evolves ?_
    | (extract_lets +onlyGivenNames x; clear_value (hx : x = _); with_reducible refine Evolves.cut s hx ?_ (fun _ => ?_))
    | (extract_lets +onlyGivenNames x; clear_value (hx : x = _); with_reducible refine EvolvesFst.cut s hx ?_ (fun _ => ?_))
    | (extract_lets +onlyGivenNames x; with_reducible refine Evolves.local_fun x ?_; subst x; beta_reduce)
    | (extract_lets +onlyGivenNames x; clear_value (hx : x = _))
    | extract_lets +onlyGivenNames x
    | with_reducible refine Evolves.ite ?_ ?_
    | split
    | refine Evolves.of_pair (by with_reducible assumption) ?_
    | refine Evolves.of_some (by with_reducible assumption) ?_
    | fail

theorem State.modRange_evolves {s t : State} {a1 : PhysSlice} {a2 : RangePart → RangePart} (h : Evolves s t) :
    Evolves s (State.modRange t a1 a2) := by
  unfold State.modRange
  repeat' first
    | with_reducible assumption
    | with_reducible refine State.modSl_evolves ?_
    | (extract_lets +onlyGivenNames x; clear_value (hx : x = _); with_reducible refine Evolves.cut s hx ?_ (fun _ => ?_))
    | (extract_lets +onlyGivenNames x; with_reducible refine Evolves.local_fun x ?_; subst x; beta_reduce)
    | (extract_lets +onlyGivenNames x; clear_value (hx : x = _))
    | extract_lets +onlyGivenNames x
    | with_reducible refine Evolves.ite ?_ ?_
    | refine Evolves.of_pair (by with_reducible assumption) ?_
    | refine Evolves.of_some (by with_reducible assumption) ?_
    | fail_if_no_progress with_reducible refine Evolves.other ?_
    | with_reducible refine Evolves.fields (by with_reducible assumption)
    | refine Evolves.fields (h := ?_)
    | fail

theorem State.awaitBuffer_evolves {s t : State} {a1 : PhysSlice} {a2 : Nat} (h : Evolves s t) :
    Evolves s (State.awaitBuffer t a1 a2) := by
  unfold State.awaitBuffer
  repeat' first
    | with_reducible assumption
    | with_reducible refine State.modRange_evolves ?_
    | (extract_lets +onlyGivenNames x; clear_value (hx : x = _); with_reducible refine Evolves.cut s hx ?_ (fun _ => ?_))
    | (extract_lets +onlyGivenNames x; clear_value (hx : x = _); with_reducible refine EvolvesFst.cut s hx ?_ (fun _ => ?_))
    | (extract_lets +onlyGivenNames x; with_reducible refine Evolves.local_fun x ?_; subst x; beta_reduce)
    | (extract_lets +onlyGivenNames x; clear_value (hx : x = _))
    | extract_lets +onlyGivenNames x
    | with_reducible refine Evolves.ite ?_ ?_
    | split
    | refine Evolves.of_pair (by with_reducible assumption) ?_
    | refine Evolves.of_some (by with_reducible assumption) ?_
    | fail_if_no_progress with_reducible refine Evolves.other ?_
    | with_reducible refine Evolves.fields (by with_reducible assumption)
    | refine Evolves.fields (h := ?_)
    | fail

theorem State.rangeMatched_evolves {s t : State} {a1 : PhysSlice} {a2 : Nat} {a3 : Bool} (h : Evolves s t) :
    Evolves s (State.rangeMatched t a1 a2 a3) := by
  unfold State.rangeMatched
  repeat' first
    | with_reducible assumption
    | with_reducible refine State.rangeCount_evolves ?_
    | with_reducible refine State.modRange_evolves ?_
    | (extract_lets +onlyGivenNames x; clear_value (hx : x = _); with_reducible refine Evolves.cut s hx ?_ (fun _ => ?_))
    | (extract_lets +onlyGivenNames x; clear_value (hx : x = _); with_reducible refine EvolvesFst.cut s hx ?_ (fun _ => ?_))
    | (extract_lets +onlyGivenNames x; with_reducible refine Evolves.local_fun x ?_; subst x; beta_reduce)
    | (extract_lets +onlyGivenNames x; clear_value (hx : x = _))
    | extract_lets +onlyGivenNames x
    | with_reducible refine Evolves.ite ?_ ?_
    | split
    | refine Evolves.of_pair (by with_reducible assumption) ?_
    | refine Evolves.of_some (by with_reducible assumption) ?_
    | fail_if_no_progress with_reducible refine Evolves.other ?_
    | with_reducible refine Evolves.fields (by with_reducible assumption)
    | refine Evolves.fields (h := ?_)
    | fail

theorem State.rangeBack_evolves {s t : State} {a1 : PhysSlice} {a2 : Nat} {a3 : Nat} {a4 : Bool} (h : Evolves s t) :
    Evolves s (State.rangeBack t a1 a2 a3 a4) := by
  unfold State.rangeBack
  repeat' first
    | with_reducible assumption
    | with_reducible refine State.rangeCount_evolves ?_
    | with_reducible refine State.modRange_evolves ?_
    | with_reducible refine State.cleanWrite_evolves ?_
    | (extract_lets +onlyGivenNames x; clear_value (hx : x = _); with_reducible refine Evolves.cut s hx ?_ (fun _ => ?_))
    | (extract_lets +onlyGivenNames x; clear_value (hx : x = _); with_reducible refine EvolvesFst.cut s hx ?_ (fun _ => ?_))
    | (extract_lets +onlyGivenNames x; with_reducible refine Evolves.local_fun x ?_; subst x; beta_reduce)
    | (extract_lets +onlyGivenNames x; clear_value (hx : x = _))
    | extract_lets +onlyGivenNames x
    | with_reducible refine Evolves.ite ?_ ?_
    | split
    | refine Evolves.of_pair (by with_reducible assumption) ?_
    | refine Evolves.of_some (by with_reducible assumption) ?_
    | fail_if_no_progress with_reducible refine Evolves.other ?_
    | with_reducible refine Evolves.fields (by with_reducible assumption)
    | refine Evolves.fields (h := ?_)
    | fail

theorem State.rangeLine_evolves {s t : State} {a1 : PhysSlice} {a2 : Nat} {a3 : Nat} (h : Evolves s t) :
    Evolves s (State.rangeLine t a1 a2 a3) := by
  unfold State.rangeLine
  repeat' first
    | with_reducible assumption
    | with_reducible refine State.rangeMatched_evolves ?_
    | with_reducible refine State.setTag_evolves ?_
    | with_reducible refine State.rangeCount_evolves ?_
    | with_reducible refine State.rangeBack_evolves ?_
    | with_reducible refine State.modSl_evolves ?_
    | with_reducible refine State.issue_evolves ?_
    | (extract_lets +onlyGivenNames x; clear_value (hx : x = _); with_reducible refine Evolves.cut s hx ?_ (fun _ => ?_))
    | (extract_lets +onlyGivenNames x; clear_value (hx : x = _); with_reducible refine EvolvesFst.cut s hx ?_ (fun _ => ?_))
    | (extract_lets +onlyGivenNames x; with_reducible refine Evolves.local_fun x ?_; subst x; beta_reduce)
    | (extract_lets +onlyGivenNames x; clear_value (hx : x = _))
    | extract_lets +onlyGivenNames x
    | with_reducible refine Evolves.ite ?_ ?_
    | split
    | refine Evolves.of_pair (by with_reducible assumption) ?_
    | refine Evolves.of_some (by with_reducible assumption) ?_
    | fail_if_no_progress with_reducible refine Evolves.other ?_
    | with_reducible refine Evolves.fields (by with_reducible assumption)
    | refine Evolves.fields (h := ?_)
    | fail

theorem State.lockLine_evolves {s t : State} {a1 : PhysSlice} {a2 : Nat} {a3 : Nat} (h : Evolves s t) :
    Evolves s (State.lockLine t a1 a2 a3) := by
  unfold State.lockLine
  repeat' first
    | with_reducible assumption
    | with_reducible refine State.rangeCount_evolves ?_
    | with_reducible refine State.rangeMatched_evolves ?_
    | with_reducible refine State.setTag_evolves ?_
    | with_reducible refine State.hcTake_evolves ?_
    | with_reducible refine State.setWay_evolves ?_
    | with_reducible refine State.hcFill_evolves ?_
    | with_reducible refine State.modTrk_evolves ?_
    | with_reducible refine State.issue_evolves ?_
    | (extract_lets +onlyGivenNames x; clear_value (hx : x = _); with_reducible refine Evolves.cut s hx ?_ (fun _ => ?_))
    | (extract_lets +onlyGivenNames x; clear_value (hx : x = _); with_reducible refine EvolvesFst.cut s hx ?_ (fun _ => ?_))
    | (extract_lets +onlyGivenNames x; with_reducible refine Evolves.local_fun x ?_; subst x; beta_reduce)
    | (extract_lets +onlyGivenNames x; clear_value (hx : x = _))
    | extract_lets +onlyGivenNames x
    | with_reducible refine Evolves.ite ?_ ?_
    | split
    | refine Evolves.of_pair (by with_reducible assumption) ?_
    | refine Evolves.of_some (by with_reducible assumption) ?_
    | fail_if_no_progress with_reducible refine Evolves.other ?_
    | with_reducible refine Evolves.fields (by with_reducible assumption)
    | refine Evolves.fields (h := ?_)
    | fail

theorem State.rangeAct_evolves {s t : State} {a1 : PhysSlice} {a2 : Nat} {a3 : Nat} (h : Evolves s t) :
    Evolves s (State.rangeAct t a1 a2 a3) := by
  unfold State.rangeAct
  repeat' first
    | with_reducible assumption
    | with_reducible refine State.lockLine_evolves ?_
    | with_reducible refine State.awaitBuffer_evolves ?_
    | with_reducible refine State.rangeLine_evolves ?_
    | with_reducible refine State.rangeMatched_evolves ?_
    | with_reducible refine State.rangeCheck_evolves ?_
    | (extract_lets +onlyGivenNames x; clear_value (hx : x = _); with_reducible refine Evolves.cut s hx ?_ (fun _ => ?_))
    | (extract_lets +onlyGivenNames x; clear_value (hx : x = _); with_reducible refine EvolvesFst.cut s hx ?_ (fun _ => ?_))
    | (extract_lets +onlyGivenNames x; with_reducible refine Evolves.local_fun x ?_; subst x; beta_reduce)
    | (extract_lets +onlyGivenNames x; clear_value (hx : x = _))
    | extract_lets +onlyGivenNames x
    | with_reducible refine Evolves.ite ?_ ?_
    | split
    | refine Evolves.of_pair (by with_reducible assumption) ?_
    | refine Evolves.of_some (by with_reducible assumption) ?_
    | fail

end Sys2Proof.Machine
end

