-- ==== Sys2Proof/Laws/EvWait.lean ====
section
/-! SUPPORT. What each operation of Sys2Proof/Machine/Wait.lean does to the whole machine: one `Evolves` lemma an operation. -/

set_option linter.all false
set_option Elab.async false

namespace Sys2Proof.Machine

open Host (Outcome)

theorem State.refuse_evolves {s t : State} {a1 : PhysSlice} {a2 : Request} (h : Evolves s t) :
    Evolves s (State.refuse t a1 a2) := by
  unfold State.refuse
  repeat' first
    | with_reducible assumption
    | with_reducible refine State.countViolation_evolves ?_
    | with_reducible refine State.regionViolation_evolves ?_
    | with_reducible refine State.answerInc_evolves ?_
    | with_reducible refine State.inc_evolves ?_
    | with_reducible refine State.draw_evolves ?_
    | with_reducible refine State.iaFail_evolves ?_
    | with_reducible refine State.emit_evolves ?_
    | (extract_lets +onlyGivenNames x; clear_value (hx : x = _); with_reducible refine Evolves.cut s hx ?_ (fun _ => ?_))
    | (extract_lets +onlyGivenNames x; clear_value (hx : x = _); with_reducible refine EvolvesFst.cut s hx ?_ (fun _ => ?_))
    | (extract_lets +onlyGivenNames x; with_reducible refine Evolves.local_fun x ?_; subst x; beta_reduce)
    | (extract_lets +onlyGivenNames x; clear_value (hx : x = _))
    | extract_lets +onlyGivenNames x
    | with_reducible refine Evolves.ite ?_ ?_
    | split
    | refine Evolves.of_pair (by with_reducible assumption) ?_
    | refine Evolves.of_some (by with_reducible assumption) ?_
    | fail

theorem State.cleanEvictSet_evolves {s t : State} {a1 : PhysSlice} {a2 : Nat} {a3 : Nat} {a4 : Tracking} (h : Evolves s t) :
    Evolves s (State.cleanEvictSet t a1 a2 a3 a4) := by
  unfold State.cleanEvictSet
  repeat' first
    | with_reducible assumption
    | with_reducible refine State.sendSet_evolves ?_
    | with_reducible refine State.modTrk_evolves ?_
    | (extract_lets +onlyGivenNames x; clear_value (hx : x = _); with_reducible refine Evolves.cut s hx ?_ (fun _ => ?_))
    | (extract_lets +onlyGivenNames x; clear_value (hx : x = _); with_reducible refine EvolvesFst.cut s hx ?_ (fun _ => ?_))
    | (extract_lets +onlyGivenNames x; with_reducible refine Evolves.local_fun x ?_; subst x; beta_reduce)
    | (extract_lets +onlyGivenNames x; clear_value (hx : x = _))
    | extract_lets +onlyGivenNames x
    | with_reducible refine Evolves.ite ?_ ?_
    | with_reducible refine EvolvesFst.ite ?_ ?_
    | split
    | with_reducible refine EvolvesFst.pair ?_
    | with_reducible refine EvolvesFst.fst ?_
    | refine Evolves.of_pair (by with_reducible assumption) ?_
    | refine Evolves.of_some (by with_reducible assumption) ?_
    | fail_if_no_progress with_reducible refine Evolves.other ?_
    | with_reducible refine Evolves.fields (by with_reducible assumption)
    | refine Evolves.fields (h := ?_)
    | fail

theorem State.cleanEvict_evolves {s t : State} {a1 : PhysSlice} {a2 : Nat} {a3 : HostId} {a4 : Nat} (h : Evolves s t) :
    Evolves s (State.cleanEvict t a1 a2 a3 a4) := by
  unfold State.cleanEvict
  repeat' first
    | with_reducible assumption
    | with_reducible refine State.setTag_evolves ?_
    | with_reducible refine State.cleanEvictSet_evolves ?_
    | with_reducible refine State.modSl_evolves ?_
    | with_reducible refine State.modSf_evolves ?_
    | (extract_lets +onlyGivenNames x; clear_value (hx : x = _); with_reducible refine Evolves.cut s hx ?_ (fun _ => ?_))
    | (extract_lets +onlyGivenNames x; clear_value (hx : x = _); with_reducible refine EvolvesFst.cut s hx ?_ (fun _ => ?_))
    | (extract_lets +onlyGivenNames x; with_reducible refine Evolves.local_fun x ?_; subst x; beta_reduce)
    | (extract_lets +onlyGivenNames x; clear_value (hx : x = _))
    | extract_lets +onlyGivenNames x
    | with_reducible refine Evolves.ite ?_ ?_
    | split
    | refine Evolves.of_pair (by with_reducible assumption) ?_
    | refine Evolves.of_some (by with_reducible assumption) ?_
    | fail_if_no_progress with_reducible refine Evolves.other ?_
    | with_reducible refine Evolves.fields (by with_reducible assumption)
    | refine Evolves.fields (h := ?_)
    | fail

theorem State.reloadCountdown_evolves {s t : State} {a1 : PhysSlice} (h : Evolves s t) :
    Evolves s (State.reloadCountdown t a1) := by
  unfold State.reloadCountdown
  repeat' first
    | with_reducible assumption
    | with_reducible refine State.modSl_evolves ?_
    | (extract_lets +onlyGivenNames x; clear_value (hx : x = _); with_reducible refine Evolves.cut s hx ?_ (fun _ => ?_))
    | (extract_lets +onlyGivenNames x; clear_value (hx : x = _); with_reducible refine EvolvesFst.cut s hx ?_ (fun _ => ?_))
    | (extract_lets +onlyGivenNames x; with_reducible refine Evolves.local_fun x ?_; subst x; beta_reduce)
    | (extract_lets +onlyGivenNames x; clear_value (hx : x = _))
    | extract_lets +onlyGivenNames x
    | with_reducible refine Evolves.ite ?_ ?_
    | split
    | refine Evolves.of_pair (by with_reducible assumption) ?_
    | refine Evolves.of_some (by with_reducible assumption) ?_
    | fail_if_no_progress with_reducible refine Evolves.other ?_
    | with_reducible refine Evolves.fields (by with_reducible assumption)
    | refine Evolves.fields (h := ?_)
    | fail

theorem State.sampleSelect_evolves {s t : State} {a1 : PhysSlice} {a2 : Request} (h : Evolves s t) :
    EvolvesFst s (State.sampleSelect t a1 a2) := by
  unfold State.sampleSelect
  repeat' first
    | with_reducible assumption
    | with_reducible refine State.reloadCountdown_evolves ?_
    | with_reducible refine State.modSl_evolves ?_
    | (extract_lets +onlyGivenNames x; clear_value (hx : x = _); with_reducible refine Evolves.cut s hx ?_ (fun _ => ?_))
    | (extract_lets +onlyGivenNames x; clear_value (hx : x = _); with_reducible refine EvolvesFst.cut s hx ?_ (fun _ => ?_))
    | (extract_lets +onlyGivenNames x; with_reducible refine Evolves.local_fun x ?_; subst x; beta_reduce)
    | (extract_lets +onlyGivenNames x; clear_value (hx : x = _))
    | extract_lets +onlyGivenNames x
    | with_reducible refine Evolves.ite ?_ ?_
    | with_reducible refine EvolvesFst.ite ?_ ?_
    | split
    | with_reducible refine EvolvesFst.pair ?_
    | with_reducible refine EvolvesFst.fst ?_
    | refine Evolves.of_pair (by with_reducible assumption) ?_
    | refine Evolves.of_some (by with_reducible assumption) ?_
    | fail_if_no_progress with_reducible refine Evolves.other ?_
    | with_reducible refine Evolves.fields (by with_reducible assumption)
    | refine Evolves.fields (h := ?_)
    | fail

theorem State.returnCredit_evolves {s t : State} {a1 : Request} (h : Evolves s t) :
    Evolves s (State.returnCredit t a1) := by
  unfold State.returnCredit
  repeat' first
    | with_reducible assumption
    | with_reducible refine State.emit_evolves ?_
    | (extract_lets +onlyGivenNames x; clear_value (hx : x = _); with_reducible refine Evolves.cut s hx ?_ (fun _ => ?_))
    | (extract_lets +onlyGivenNames x; clear_value (hx : x = _); with_reducible refine EvolvesFst.cut s hx ?_ (fun _ => ?_))
    | (extract_lets +onlyGivenNames x; with_reducible refine Evolves.local_fun x ?_; subst x; beta_reduce)
    | (extract_lets +onlyGivenNames x; clear_value (hx : x = _))
    | extract_lets +onlyGivenNames x
    | with_reducible refine Evolves.ite ?_ ?_
    | split
    | refine Evolves.of_pair (by with_reducible assumption) ?_
    | refine Evolves.of_some (by with_reducible assumption) ?_
    | fail

theorem State.beginTracker_evolves {s t : State} {a1 : PhysSlice} {a2 : Request} {a3 : Bool} (h : Evolves s t) :
    Evolves s (State.beginTracker t a1 a2 a3) := by
  unfold State.beginTracker
  repeat' first
    | with_reducible assumption
    | with_reducible refine State.passRepeat_evolves ?_
    | with_reducible refine State.pass_evolves ?_
    | with_reducible refine State.count_evolves ?_
    | with_reducible refine State.modAon_evolves ?_
    | with_reducible refine State.readBuffer_evolves ?_
    | with_reducible refine State.writeBuffer_evolves ?_
    | with_reducible refine State.sampleSelect_evolves ?_
    | with_reducible refine State.modSl_evolves ?_
    | with_reducible refine State.wr_evolves ?_
    | with_reducible refine State.refuse_evolves ?_
    | with_reducible refine State.sampleRecord_evolves ?_
    | with_reducible refine State.cleanEvict_evolves ?_
    | with_reducible refine State.stRespond_evolves ?_
    | with_reducible refine State.readForTracker_evolves ?_
    | with_reducible refine State.earlyRead_evolves ?_
    | with_reducible refine State.advance_evolves ?_
    | with_reducible refine State.iaEnd_evolves ?_
    | with_reducible refine State.emit_evolves ?_
    | with_reducible refine State.rangeAct_evolves ?_
    | (extract_lets +onlyGivenNames x; clear_value (hx : x = _); with_reducible refine Evolves.cut s hx ?_ (fun _ => ?_))
    | (extract_lets +onlyGivenNames x; clear_value (hx : x = _); with_reducible refine EvolvesFst.cut s hx ?_ (fun _ => ?_))
    | (extract_lets +onlyGivenNames x; with_reducible refine Evolves.local_fun x ?_; subst x; beta_reduce)
    | (extract_lets +onlyGivenNames x; clear_value (hx : x = _))
    | extract_lets +onlyGivenNames x
    | with_reducible refine Evolves.ite ?_ ?_
    | with_reducible refine EvolvesFst.ite ?_ ?_
    | split
    | with_reducible refine EvolvesFst.pair ?_
    | with_reducible refine EvolvesFst.fst ?_
    | refine Evolves.of_pair (by with_reducible assumption) ?_
    | refine Evolves.of_some (by with_reducible assumption) ?_
    | fail_if_no_progress with_reducible refine Evolves.other ?_
    | with_reducible refine Evolves.fields (by with_reducible assumption)
    | refine Evolves.fields (h := ?_)
    | fail

theorem State.startTracker_evolves {s t : State} {a1 : PhysSlice} {a2 : Request} {a3 : Bool} (h : Evolves s t) :
    Evolves s (State.startTracker t a1 a2 a3) := by
  unfold State.startTracker
  repeat' first
    | with_reducible assumption
    | with_reducible refine State.returnCredit_evolves ?_
    | with_reducible refine State.beginTracker_evolves ?_
    | (extract_lets +onlyGivenNames x; clear_value (hx : x = _); with_reducible refine Evolves.cut s hx ?_ (fun _ => ?_))
    | (extract_lets +onlyGivenNames x; clear_value (hx : x = _); with_reducible refine EvolvesFst.cut s hx ?_ (fun _ => ?_))
    | (extract_lets +onlyGivenNames x; with_reducible refine Evolves.local_fun x ?_; subst x; beta_reduce)
    | (extract_lets +onlyGivenNames x; clear_value (hx : x = _))
    | extract_lets +onlyGivenNames x
    | with_reducible refine Evolves.ite ?_ ?_
    | refine Evolves.of_pair (by with_reducible assumption) ?_
    | refine Evolves.of_some (by with_reducible assumption) ?_
    | fail

theorem State.arrayFatal_evolves {s t : State} {a1 : PhysSlice} {a2 : CodeWord} (h : Evolves s t) :
    Evolves s (State.arrayFatal t a1 a2) := by
  unfold State.arrayFatal
  repeat' first
    | with_reducible assumption
    | with_reducible refine State.fatal_evolves ?_
    | (extract_lets +onlyGivenNames x; clear_value (hx : x = _); with_reducible refine Evolves.cut s hx ?_ (fun _ => ?_))
    | (extract_lets +onlyGivenNames x; clear_value (hx : x = _); with_reducible refine EvolvesFst.cut s hx ?_ (fun _ => ?_))
    | (extract_lets +onlyGivenNames x; with_reducible refine Evolves.local_fun x ?_; subst x; beta_reduce)
    | (extract_lets +onlyGivenNames x; clear_value (hx : x = _))
    | extract_lets +onlyGivenNames x
    | with_reducible refine Evolves.ite ?_ ?_
    | refine Evolves.of_pair (by with_reducible assumption) ?_
    | refine Evolves.of_some (by with_reducible assumption) ?_
    | fail

theorem State.loseTag_evolves {s t : State} {a1 : PhysSlice} {a2 : Nat} {a3 : Nat} (h : Evolves s t) :
    Evolves s (State.loseTag t a1 a2 a3) := by
  unfold State.loseTag
  repeat' first
    | with_reducible assumption
    | with_reducible refine State.wr_evolves ?_
    | with_reducible refine State.modSl_evolves ?_
    | with_reducible refine State.arrayFatal_evolves ?_
    | (extract_lets +onlyGivenNames x; clear_value (hx : x = _); with_reducible refine Evolves.cut s hx ?_ (fun _ => ?_))
    | (extract_lets +onlyGivenNames x; clear_value (hx : x = _); with_reducible refine EvolvesFst.cut s hx ?_ (fun _ => ?_))
    | (extract_lets +onlyGivenNames x; with_reducible refine Evolves.local_fun x ?_; subst x; beta_reduce)
    | (extract_lets +onlyGivenNames x; clear_value (hx : x = _))
    | extract_lets +onlyGivenNames x
    | with_reducible refine Evolves.ite ?_ ?_
    | split
    | refine Evolves.of_pair (by with_reducible assumption) ?_
    | refine Evolves.of_some (by with_reducible assumption) ?_
    | fail_if_no_progress with_reducible refine Evolves.other ?_
    | with_reducible refine Evolves.fields (by with_reducible assumption)
    | refine Evolves.fields (h := ?_)
    | fail

theorem State.tagOutcome_evolves {s t : State} {a1 : PhysSlice} {a2 : Nat} {a3 : Nat} {a4 : Bool} {a5 : Bool} (h : Evolves s t) :
    EvolvesFst s (State.tagOutcome t a1 a2 a3 a4 a5) := by
  unfold State.tagOutcome
  repeat' first
    | with_reducible assumption
    | with_reducible refine State.modSl_evolves ?_
    | with_reducible refine State.writeWords_evolves ?_
    | with_reducible refine State.loseTag_evolves ?_
    | (extract_lets +onlyGivenNames x; clear_value (hx : x = _); with_reducible refine Evolves.cut s hx ?_ (fun _ => ?_))
    | (extract_lets +onlyGivenNames x; clear_value (hx : x = _); with_reducible refine EvolvesFst.cut s hx ?_ (fun _ => ?_))
    | (extract_lets +onlyGivenNames x; with_reducible refine Evolves.local_fun x ?_; subst x; beta_reduce)
    | (extract_lets +onlyGivenNames x; clear_value (hx : x = _))
    | extract_lets +onlyGivenNames x
    | with_reducible refine Evolves.ite ?_ ?_
    | with_reducible refine EvolvesFst.ite ?_ ?_
    | split
    | with_reducible refine EvolvesFst.pair ?_
    | with_reducible refine EvolvesFst.fst ?_
    | refine Evolves.of_pair (by with_reducible assumption) ?_
    | refine Evolves.of_some (by with_reducible assumption) ?_
    | fail_if_no_progress with_reducible refine Evolves.other ?_
    | with_reducible refine Evolves.fields (by with_reducible assumption)
    | refine Evolves.fields (h := ?_)
    | fail

theorem State.scrubRecall_evolves {s t : State} {a1 : PhysSlice} {a2 : Nat} {a3 : Nat} (h : Evolves s t) :
    Evolves s (State.scrubRecall t a1 a2 a3) := by
  unfold State.scrubRecall
  repeat' first
    | with_reducible assumption
    | with_reducible refine State.bump_evolves ?_
    | with_reducible refine State.modSl_evolves ?_
    | with_reducible refine State.startRecall_evolves ?_
    | with_reducible refine State.freeVictim_evolves ?_
    | (extract_lets +onlyGivenNames x; clear_value (hx : x = _); with_reducible refine Evolves.cut s hx ?_ (fun _ => ?_))
    | (extract_lets +onlyGivenNames x; clear_value (hx : x = _); with_reducible refine EvolvesFst.cut s hx ?_ (fun _ => ?_))
    | (extract_lets +onlyGivenNames x; with_reducible refine Evolves.local_fun x ?_; subst x; beta_reduce)
    | (extract_lets +onlyGivenNames x; clear_value (hx : x = _))
    | extract_lets +onlyGivenNames x
    | with_reducible refine Evolves.ite ?_ ?_
    | split
    | refine Evolves.of_pair (by with_reducible assumption) ?_
    | refine Evolves.of_some (by with_reducible assumption) ?_
    | fail_if_no_progress with_reducible refine Evolves.other ?_
    | with_reducible refine Evolves.fields (by with_reducible assumption)
    | refine Evolves.fields (h := ?_)
    | fail

theorem State.goBlind_evolves {s t : State} {a1 : PhysSlice} {a2 : Nat} {a3 : Nat} (h : Evolves s t) :
    Evolves s (State.goBlind t a1 a2 a3) := by
  unfold State.goBlind
  repeat' first
    | with_reducible assumption
    | with_reducible refine State.setSf_evolves ?_
    | with_reducible refine State.modSl_evolves ?_
    | with_reducible refine State.wr_evolves ?_
    | with_reducible refine State.arrayFatal_evolves ?_
    | (extract_lets +onlyGivenNames x; clear_value (hx : x = _); with_reducible refine Evolves.cut s hx ?_ (fun _ => ?_))
    | (extract_lets +onlyGivenNames x; clear_value (hx : x = _); with_reducible refine EvolvesFst.cut s hx ?_ (fun _ => ?_))
    | (extract_lets +onlyGivenNames x; with_reducible refine Evolves.local_fun x ?_; subst x; beta_reduce)
    | (extract_lets +onlyGivenNames x; clear_value (hx : x = _))
    | extract_lets +onlyGivenNames x
    | with_reducible refine Evolves.ite ?_ ?_
    | split
    | refine Evolves.of_pair (by with_reducible assumption) ?_
    | refine Evolves.of_some (by with_reducible assumption) ?_
    | fail_if_no_progress with_reducible refine Evolves.other ?_
    | with_reducible refine Evolves.fields (by with_reducible assumption)
    | refine Evolves.fields (h := ?_)
    | fail

theorem State.fixEcho_evolves {s t : State} {a1 : PhysSlice} {a2 : Nat} {a3 : Nat} (h : Evolves s t) :
    Evolves s (State.fixEcho t a1 a2 a3) := by
  unfold State.fixEcho
  repeat' first
    | with_reducible assumption
    | with_reducible refine State.modSl_evolves ?_
    | with_reducible refine State.writeWords_evolves ?_
    | (extract_lets +onlyGivenNames x; clear_value (hx : x = _); with_reducible refine Evolves.cut s hx ?_ (fun _ => ?_))
    | (extract_lets +onlyGivenNames x; clear_value (hx : x = _); with_reducible refine EvolvesFst.cut s hx ?_ (fun _ => ?_))
    | (extract_lets +onlyGivenNames x; with_reducible refine Evolves.local_fun x ?_; subst x; beta_reduce)
    | (extract_lets +onlyGivenNames x; clear_value (hx : x = _))
    | extract_lets +onlyGivenNames x
    | with_reducible refine Evolves.ite ?_ ?_
    | refine Evolves.of_pair (by with_reducible assumption) ?_
    | refine Evolves.of_some (by with_reducible assumption) ?_
    | fail_if_no_progress with_reducible refine Evolves.other ?_
    | with_reducible refine Evolves.fields (by with_reducible assumption)
    | refine Evolves.fields (h := ?_)
    | fail

theorem State.filterOutcome_evolves {s t : State} {a1 : PhysSlice} {a2 : Nat} {a3 : Nat} {a4 : Bool} {a5 : Bool} (h : Evolves s t) :
    Evolves s (State.filterOutcome t a1 a2 a3 a4 a5) := by
  unfold State.filterOutcome
  repeat' first
    | with_reducible assumption
    | with_reducible refine State.fixEcho_evolves ?_
    | with_reducible refine State.scrubRecall_evolves ?_
    | with_reducible refine State.setSf_evolves ?_
    | with_reducible refine State.goBlind_evolves ?_
    | (extract_lets +onlyGivenNames x; clear_value (hx : x = _); with_reducible refine Evolves.cut s hx ?_ (fun _ => ?_))
    | (extract_lets +onlyGivenNames x; clear_value (hx : x = _); with_reducible refine EvolvesFst.cut s hx ?_ (fun _ => ?_))
    | (extract_lets +onlyGivenNames x; with_reducible refine Evolves.local_fun x ?_; subst x; beta_reduce)
    | (extract_lets +onlyGivenNames x; clear_value (hx : x = _))
    | extract_lets +onlyGivenNames x
    | with_reducible refine Evolves.ite ?_ ?_
    | split
    | refine Evolves.of_pair (by with_reducible assumption) ?_
    | refine Evolves.of_some (by with_reducible assumption) ?_
    | fail

theorem State.regionOutcome_evolves {s t : State} {a1 : PhysSlice} {a2 : Nat} (h : Evolves s t) :
    EvolvesFst s (State.regionOutcome t a1 a2) := by
  unfold State.regionOutcome
  repeat' first
    | with_reducible assumption
    | with_reducible refine State.readWords_evolves ?_
    | with_reducible refine State.modSl_evolves ?_
    | with_reducible refine State.writeWords_evolves ?_
    | with_reducible refine State.major_evolves ?_
    | (extract_lets +onlyGivenNames x; clear_value (hx : x = _); with_reducible refine Evolves.cut s hx ?_ (fun _ => ?_))
    | (extract_lets +onlyGivenNames x; clear_value (hx : x = _); with_reducible refine EvolvesFst.cut s hx ?_ (fun _ => ?_))
    | (extract_lets +onlyGivenNames x; with_reducible refine Evolves.local_fun x ?_; subst x; beta_reduce)
    | (extract_lets +onlyGivenNames x; clear_value (hx : x = _))
    | extract_lets +onlyGivenNames x
    | with_reducible refine Evolves.ite ?_ ?_
    | with_reducible refine EvolvesFst.ite ?_ ?_
    | with_reducible refine Evolves.foldl (fun _ _ _ => ?_) ?_
    | with_reducible refine EvolvesFst.foldl (fun _ _ _ => ?_) ?_
    | split
    | with_reducible refine EvolvesFst.pair ?_
    | with_reducible refine EvolvesFst.fst ?_
    | refine Evolves.of_pair (by with_reducible assumption) ?_
    | refine Evolves.of_some (by with_reducible assumption) ?_
    | fail_if_no_progress with_reducible refine Evolves.other ?_
    | with_reducible refine Evolves.fields (by with_reducible assumption)
    | refine Evolves.fields (h := ?_)
    | fail

theorem State.lookupCheck_evolves {s t : State} {a1 : PhysSlice} {a2 : Nat} (h : Evolves s t) :
    EvolvesFst s (State.lookupCheck t a1 a2) := by
  unfold State.lookupCheck
  repeat' first
    | with_reducible assumption
    | with_reducible refine State.readWords_evolves ?_
    | with_reducible refine State.tagOutcome_evolves ?_
    | with_reducible refine State.filterOutcome_evolves ?_
    | with_reducible refine State.regionOutcome_evolves ?_
    | (extract_lets +onlyGivenNames x; clear_value (hx : x = _); with_reducible refine Evolves.cut s hx ?_ (fun _ => ?_))
    | (extract_lets +onlyGivenNames x; clear_value (hx : x = _); with_reducible refine EvolvesFst.cut s hx ?_ (fun _ => ?_))
    | (extract_lets +onlyGivenNames x; with_reducible refine Evolves.local_fun x ?_; subst x; beta_reduce)
    | (extract_lets +onlyGivenNames x; clear_value (hx : x = _))
    | extract_lets +onlyGivenNames x
    | with_reducible refine Evolves.ite ?_ ?_
    | with_reducible refine EvolvesFst.ite ?_ ?_
    | with_reducible refine Evolves.foldl (fun _ _ _ => ?_) ?_
    | with_reducible refine EvolvesFst.foldl (fun _ _ _ => ?_) ?_
    | split
    | with_reducible refine EvolvesFst.pair ?_
    | with_reducible refine EvolvesFst.fst ?_
    | refine Evolves.of_pair (by with_reducible assumption) ?_
    | refine Evolves.of_some (by with_reducible assumption) ?_
    | fail

theorem State.arrive_evolves {s t : State} {a1 : PhysSlice} {a2 : Request} (h : Evolves s t) :
    Evolves s (State.arrive t a1 a2) := by
  unfold State.arrive
  repeat' first
    | with_reducible assumption
    | with_reducible refine State.lookupCheck_evolves ?_
    | with_reducible refine State.passDone_evolves ?_
    | with_reducible refine State.returnCredit_evolves ?_
    | with_reducible refine State.refuse_evolves ?_
    | with_reducible refine State.passRepeat_evolves ?_
    | with_reducible refine State.startTracker_evolves ?_
    | with_reducible refine State.writeBuffer_evolves ?_
    | with_reducible refine State.modSl_evolves ?_
    | with_reducible refine State.count_evolves ?_
    | (extract_lets +onlyGivenNames x; clear_value (hx : x = _); with_reducible refine Evolves.cut s hx ?_ (fun _ => ?_))
    | (extract_lets +onlyGivenNames x; clear_value (hx : x = _); with_reducible refine EvolvesFst.cut s hx ?_ (fun _ => ?_))
    | (extract_lets +onlyGivenNames x; with_reducible refine Evolves.local_fun x ?_; subst x; beta_reduce)
    | (extract_lets +onlyGivenNames x; clear_value (hx : x = _))
    | extract_lets +onlyGivenNames x
    | with_reducible refine Evolves.ite ?_ ?_
    | with_reducible refine EvolvesFst.ite ?_ ?_
    | split
    | with_reducible refine EvolvesFst.pair ?_
    | with_reducible refine EvolvesFst.fst ?_
    | refine Evolves.of_pair (by with_reducible assumption) ?_
    | refine Evolves.of_some (by with_reducible assumption) ?_
    | fail_if_no_progress with_reducible refine Evolves.other ?_
    | with_reducible refine Evolves.fields (by with_reducible assumption)
    | refine Evolves.fields (h := ?_)
    | fail

theorem State.agentArrive_evolves {s t : State} {a1 : PhysSlice} {a2 : Request} (h : Evolves s t) :
    Evolves s (State.agentArrive t a1 a2) := by
  unfold State.agentArrive
  repeat' first
    | with_reducible assumption
    | with_reducible refine State.lookupCheck_evolves ?_
    | with_reducible refine State.startTracker_evolves ?_
    | with_reducible refine State.passRepeat_evolves ?_
    | with_reducible refine State.modSl_evolves ?_
    | with_reducible refine State.count_evolves ?_
    | (extract_lets +onlyGivenNames x; clear_value (hx : x = _); with_reducible refine Evolves.cut s hx ?_ (fun _ => ?_))
    | (extract_lets +onlyGivenNames x; clear_value (hx : x = _); with_reducible refine EvolvesFst.cut s hx ?_ (fun _ => ?_))
    | (extract_lets +onlyGivenNames x; with_reducible refine Evolves.local_fun x ?_; subst x; beta_reduce)
    | (extract_lets +onlyGivenNames x; clear_value (hx : x = _))
    | extract_lets +onlyGivenNames x
    | with_reducible refine Evolves.ite ?_ ?_
    | with_reducible refine EvolvesFst.ite ?_ ?_
    | split
    | with_reducible refine EvolvesFst.pair ?_
    | with_reducible refine EvolvesFst.fst ?_
    | refine Evolves.of_pair (by with_reducible assumption) ?_
    | refine Evolves.of_some (by with_reducible assumption) ?_
    | fail_if_no_progress with_reducible refine Evolves.other ?_
    | with_reducible refine Evolves.fields (by with_reducible assumption)
    | refine Evolves.fields (h := ?_)
    | fail

theorem State.drainWaitq_evolves {s t : State} {a0 : PhysSlice} {a1 : Nat} (h : Evolves s t) :
    Evolves s (State.drainWaitq a0 a1 t) := by
  induction a1 generalizing t with
  | zero => exact h
  | succ n ih =>
    unfold State.drainWaitq
    repeat' first
      | with_reducible assumption
      | with_reducible refine ih ?_
      | with_reducible refine State.modSl_evolves ?_
      | with_reducible refine State.startTracker_evolves ?_
      | (extract_lets +onlyGivenNames x; clear_value (hx : x = _); with_reducible refine Evolves.cut s hx ?_ (fun _ => ?_))
      | (extract_lets +onlyGivenNames x; clear_value (hx : x = _); with_reducible refine EvolvesFst.cut s hx ?_ (fun _ => ?_))
      | (extract_lets +onlyGivenNames x; with_reducible refine Evolves.local_fun x ?_; subst x; beta_reduce)
      | (extract_lets +onlyGivenNames x; clear_value (hx : x = _))
      | extract_lets +onlyGivenNames x
      | with_reducible refine Evolves.ite ?_ ?_
      | split
      | refine Evolves.of_pair (by with_reducible assumption) ?_
      | refine Evolves.of_some (by with_reducible assumption) ?_
      | fail_if_no_progress with_reducible refine Evolves.other ?_
      | with_reducible refine Evolves.fields (by with_reducible assumption)
      | refine Evolves.fields (h := ?_)
      | fail

theorem State.drainWait_evolves {s t : State} {a1 : PhysSlice} (h : Evolves s t) :
    Evolves s (State.drainWait t a1) := by
  unfold State.drainWait
  repeat' first
    | with_reducible assumption
    | with_reducible refine State.drainWaitq_evolves ?_
    | (extract_lets +onlyGivenNames x; clear_value (hx : x = _); with_reducible refine Evolves.cut s hx ?_ (fun _ => ?_))
    | (extract_lets +onlyGivenNames x; clear_value (hx : x = _); with_reducible refine EvolvesFst.cut s hx ?_ (fun _ => ?_))
    | (extract_lets +onlyGivenNames x; with_reducible refine Evolves.local_fun x ?_; subst x; beta_reduce)
    | (extract_lets +onlyGivenNames x; clear_value (hx : x = _))
    | extract_lets +onlyGivenNames x
    | with_reducible refine Evolves.ite ?_ ?_
    | refine Evolves.of_pair (by with_reducible assumption) ?_
    | refine Evolves.of_some (by with_reducible assumption) ?_
    | fail

theorem State.passOn_evolves {s t : State} {a1 : PhysSlice} {a2 : Nat} (h : Evolves s t) :
    Evolves s (State.passOn t a1 a2) := by
  unfold State.passOn
  repeat' first
    | with_reducible assumption
    | with_reducible refine State.modSl_evolves ?_
    | with_reducible refine State.startTracker_evolves ?_
    | with_reducible refine State.drainWait_evolves ?_
    | (extract_lets +onlyGivenNames x; clear_value (hx : x = _); with_reducible refine Evolves.cut s hx ?_ (fun _ => ?_))
    | (extract_lets +onlyGivenNames x; clear_value (hx : x = _); with_reducible refine EvolvesFst.cut s hx ?_ (fun _ => ?_))
    | (extract_lets +onlyGivenNames x; with_reducible refine Evolves.local_fun x ?_; subst x; beta_reduce)
    | (extract_lets +onlyGivenNames x; clear_value (hx : x = _))
    | extract_lets +onlyGivenNames x
    | with_reducible refine Evolves.ite ?_ ?_
    | split
    | refine Evolves.of_pair (by with_reducible assumption) ?_
    | refine Evolves.of_some (by with_reducible assumption) ?_
    | fail_if_no_progress with_reducible refine Evolves.other ?_
    | with_reducible refine Evolves.fields (by with_reducible assumption)
    | refine Evolves.fields (h := ?_)
    | fail

theorem State.freeTracker_evolves {s t : State} {a1 : PhysSlice} {a2 : Nat} (h : Evolves s t) :
    Evolves s (State.freeTracker t a1 a2) := by
  unfold State.freeTracker
  repeat' first
    | with_reducible assumption
    | with_reducible refine State.complete_evolves ?_
    | with_reducible refine State.count_evolves ?_
    | with_reducible refine State.modSl_evolves ?_
    | with_reducible refine State.passOn_evolves ?_
    | (extract_lets +onlyGivenNames x; clear_value (hx : x = _); with_reducible refine Evolves.cut s hx ?_ (fun _ => ?_))
    | (extract_lets +onlyGivenNames x; clear_value (hx : x = _); with_reducible refine EvolvesFst.cut s hx ?_ (fun _ => ?_))
    | (extract_lets +onlyGivenNames x; with_reducible refine Evolves.local_fun x ?_; subst x; beta_reduce)
    | (extract_lets +onlyGivenNames x; clear_value (hx : x = _))
    | extract_lets +onlyGivenNames x
    | with_reducible refine Evolves.ite ?_ ?_
    | split
    | refine Evolves.of_pair (by with_reducible assumption) ?_
    | refine Evolves.of_some (by with_reducible assumption) ?_
    | fail_if_no_progress with_reducible refine Evolves.other ?_
    | with_reducible refine Evolves.fields (by with_reducible assumption)
    | refine Evolves.fields (h := ?_)
    | fail

theorem State.finishVictim_evolves {s t : State} {a1 : PhysSlice} {a2 : Nat} (h : Evolves s t) :
    Evolves s (State.finishVictim t a1 a2) := by
  unfold State.finishVictim
  repeat' first
    | with_reducible assumption
    | with_reducible refine State.freeVictim_evolves ?_
    | with_reducible refine State.modTrk_evolves ?_
    | with_reducible refine State.advance_evolves ?_
    | with_reducible refine State.drainWait_evolves ?_
    | (extract_lets +onlyGivenNames x; clear_value (hx : x = _); with_reducible refine Evolves.cut s hx ?_ (fun _ => ?_))
    | (extract_lets +onlyGivenNames x; clear_value (hx : x = _); with_reducible refine EvolvesFst.cut s hx ?_ (fun _ => ?_))
    | (extract_lets +onlyGivenNames x; with_reducible refine Evolves.local_fun x ?_; subst x; beta_reduce)
    | (extract_lets +onlyGivenNames x; clear_value (hx : x = _))
    | extract_lets +onlyGivenNames x
    | with_reducible refine Evolves.ite ?_ ?_
    | with_reducible refine Evolves.foldl (fun _ _ _ => ?_) ?_
    | with_reducible refine EvolvesFst.foldl (fun _ _ _ => ?_) ?_
    | split
    | refine Evolves.of_pair (by with_reducible assumption) ?_
    | refine Evolves.of_some (by with_reducible assumption) ?_
    | fail_if_no_progress with_reducible refine Evolves.other ?_
    | with_reducible refine Evolves.fields (by with_reducible assumption)
    | refine Evolves.fields (h := ?_)
    | fail

theorem State.moveOwner_evolves {s t : State} {a1 : SnoopOwner} (h : Evolves s t) :
    Evolves s (State.moveOwner t a1) := by
  unfold State.moveOwner
  repeat' first
    | with_reducible assumption
    | with_reducible refine State.advance_evolves ?_
    | with_reducible refine State.finishVictim_evolves ?_
    | (extract_lets +onlyGivenNames x; clear_value (hx : x = _); with_reducible refine Evolves.cut s hx ?_ (fun _ => ?_))
    | (extract_lets +onlyGivenNames x; with_reducible refine Evolves.local_fun x ?_; subst x; beta_reduce)
    | (extract_lets +onlyGivenNames x; clear_value (hx : x = _))
    | extract_lets +onlyGivenNames x
    | with_reducible refine Evolves.ite ?_ ?_
    | split
    | refine Evolves.of_pair (by with_reducible assumption) ?_
    | refine Evolves.of_some (by with_reducible assumption) ?_
    | fail

theorem State.setAnswer_evolves {s t : State} {a1 : SnoopOwner} {a2 : HostId} {a3 : Nat} {a4 : SnoopAnswer} (h : Evolves s t) :
    Evolves s (State.setAnswer t a1 a2 a3 a4) := by
  unfold State.setAnswer
  repeat' first
    | with_reducible assumption
    | with_reducible refine State.answer_evolves ?_
    | with_reducible refine State.modTrk_evolves ?_
    | with_reducible refine State.modVictim_evolves ?_
    | (extract_lets +onlyGivenNames x; clear_value (hx : x = _); with_reducible refine Evolves.cut s hx ?_ (fun _ => ?_))
    | (extract_lets +onlyGivenNames x; clear_value (hx : x = _); with_reducible refine EvolvesFst.cut s hx ?_ (fun _ => ?_))
    | (extract_lets +onlyGivenNames x; with_reducible refine Evolves.local_fun x ?_; subst x; beta_reduce)
    | (extract_lets +onlyGivenNames x; clear_value (hx : x = _))
    | extract_lets +onlyGivenNames x
    | with_reducible refine Evolves.ite ?_ ?_
    | split
    | refine Evolves.of_pair (by with_reducible assumption) ?_
    | refine Evolves.of_some (by with_reducible assumption) ?_
    | fail_if_no_progress with_reducible refine Evolves.other ?_
    | with_reducible refine Evolves.fields (by with_reducible assumption)
    | refine Evolves.fields (h := ?_)
    | fail

theorem State.resolveSnoop_evolves {s t : State} {a1 : SnoopOwner} {a2 : HostId} {a3 : Nat} (h : Evolves s t) :
    Evolves s (State.resolveSnoop t a1 a2 a3) := by
  unfold State.resolveSnoop
  repeat' first
    | with_reducible assumption
    | with_reducible refine State.setAnswer_evolves ?_
    | with_reducible refine State.answer_evolves ?_
    | with_reducible refine State.resolveLost_evolves ?_
    | with_reducible refine State.modVictim_evolves ?_
    | (extract_lets +onlyGivenNames x; clear_value (hx : x = _); with_reducible refine Evolves.cut s hx ?_ (fun _ => ?_))
    | (extract_lets +onlyGivenNames x; clear_value (hx : x = _); with_reducible refine EvolvesFst.cut s hx ?_ (fun _ => ?_))
    | (extract_lets +onlyGivenNames x; with_reducible refine Evolves.local_fun x ?_; subst x; beta_reduce)
    | (extract_lets +onlyGivenNames x; clear_value (hx : x = _))
    | extract_lets +onlyGivenNames x
    | with_reducible refine Evolves.ite ?_ ?_
    | with_reducible refine EvolvesFst.ite ?_ ?_
    | split
    | with_reducible refine EvolvesFst.pair ?_
    | with_reducible refine EvolvesFst.fst ?_
    | refine Evolves.of_pair (by with_reducible assumption) ?_
    | refine Evolves.of_some (by with_reducible assumption) ?_
    | fail_if_no_progress with_reducible refine Evolves.other ?_
    | with_reducible refine Evolves.fields (by with_reducible assumption)
    | refine Evolves.fields (h := ?_)
    | fail

theorem State.resolveAll_evolves {s t : State} {a1 : HostId} (h : Evolves s t) :
    Evolves s (State.resolveAll t a1) := by
  unfold State.resolveAll
  repeat' first
    | with_reducible assumption
    | with_reducible refine State.modPort_evolves ?_
    | with_reducible refine State.resolveSnoop_evolves ?_
    | with_reducible refine State.moveOwner_evolves ?_
    | (extract_lets +onlyGivenNames x; clear_value (hx : x = _); with_reducible refine Evolves.cut s hx ?_ (fun _ => ?_))
    | (extract_lets +onlyGivenNames x; clear_value (hx : x = _); with_reducible refine EvolvesFst.cut s hx ?_ (fun _ => ?_))
    | (extract_lets +onlyGivenNames x; with_reducible refine Evolves.local_fun x ?_; subst x; beta_reduce)
    | (extract_lets +onlyGivenNames x; clear_value (hx : x = _))
    | extract_lets +onlyGivenNames x
    | with_reducible refine Evolves.ite ?_ ?_
    | with_reducible refine Evolves.foldl (fun _ _ _ => ?_) ?_
    | with_reducible refine EvolvesFst.foldl (fun _ _ _ => ?_) ?_
    | refine Evolves.of_pair (by with_reducible assumption) ?_
    | refine Evolves.of_some (by with_reducible assumption) ?_
    | fail_if_no_progress with_reducible refine Evolves.other ?_
    | with_reducible refine Evolves.fields (by with_reducible assumption)
    | refine Evolves.fields (h := ?_)
    | fail

theorem State.atSlice_evolves {s t : State} {a1 : PhysSlice} {a2 : Request} (h : Evolves s t) :
    Evolves s (State.atSlice t a1 a2) := by
  unfold State.atSlice
  repeat' first
    | with_reducible assumption
    | with_reducible refine State.bypassTaken_evolves ?_
    | with_reducible refine State.arrive_evolves ?_
    | (extract_lets +onlyGivenNames x; clear_value (hx : x = _); with_reducible refine Evolves.cut s hx ?_ (fun _ => ?_))
    | (extract_lets +onlyGivenNames x; with_reducible refine Evolves.local_fun x ?_; subst x; beta_reduce)
    | (extract_lets +onlyGivenNames x; clear_value (hx : x = _))
    | extract_lets +onlyGivenNames x
    | with_reducible refine Evolves.ite ?_ ?_
    | split
    | refine Evolves.of_pair (by with_reducible assumption) ?_
    | refine Evolves.of_some (by with_reducible assumption) ?_
    | fail

theorem State.deliver_evolves {s t : State} {a1 : PhysSlice} {a2 : Request} (h : Evolves s t) :
    Evolves s (State.deliver t a1 a2) := by
  unfold State.deliver
  repeat' first
    | with_reducible assumption
    | with_reducible refine State.atSlice_evolves ?_
    | with_reducible refine State.modSl_evolves ?_
    | with_reducible refine State.crossRise_evolves ?_
    | (extract_lets +onlyGivenNames x; clear_value (hx : x = _); with_reducible refine Evolves.cut s hx ?_ (fun _ => ?_))
    | (extract_lets +onlyGivenNames x; clear_value (hx : x = _); with_reducible refine EvolvesFst.cut s hx ?_ (fun _ => ?_))
    | (extract_lets +onlyGivenNames x; with_reducible refine Evolves.local_fun x ?_; subst x; beta_reduce)
    | (extract_lets +onlyGivenNames x; clear_value (hx : x = _))
    | extract_lets +onlyGivenNames x
    | with_reducible refine Evolves.ite ?_ ?_
    | split
    | refine Evolves.of_pair (by with_reducible assumption) ?_
    | refine Evolves.of_some (by with_reducible assumption) ?_
    | fail_if_no_progress with_reducible refine Evolves.other ?_
    | with_reducible refine Evolves.fields (by with_reducible assumption)
    | refine Evolves.fields (h := ?_)
    | fail

theorem State.drainIngress_evolves {s t : State} {a1 : PhysSlice} (h : Evolves s t) :
    Evolves s (State.drainIngress t a1) := by
  unfold State.drainIngress
  repeat' first
    | with_reducible assumption
    | with_reducible refine State.deliver_evolves ?_
    | with_reducible refine State.modSl_evolves ?_
    | (extract_lets +onlyGivenNames x; clear_value (hx : x = _); with_reducible refine Evolves.cut s hx ?_ (fun _ => ?_))
    | (extract_lets +onlyGivenNames x; clear_value (hx : x = _); with_reducible refine EvolvesFst.cut s hx ?_ (fun _ => ?_))
    | (extract_lets +onlyGivenNames x; with_reducible refine Evolves.local_fun x ?_; subst x; beta_reduce)
    | (extract_lets +onlyGivenNames x; clear_value (hx : x = _))
    | extract_lets +onlyGivenNames x
    | with_reducible refine Evolves.ite ?_ ?_
    | with_reducible refine Evolves.foldl (fun _ _ _ => ?_) ?_
    | with_reducible refine EvolvesFst.foldl (fun _ _ _ => ?_) ?_
    | split
    | refine Evolves.of_pair (by with_reducible assumption) ?_
    | refine Evolves.of_some (by with_reducible assumption) ?_
    | fail_if_no_progress with_reducible refine Evolves.other ?_
    | with_reducible refine Evolves.fields (by with_reducible assumption)
    | refine Evolves.fields (h := ?_)
    | fail

theorem State.park_evolves {s t : State} {a1 : Request} (h : Evolves s t) :
    Evolves s (State.park t a1) := by
  unfold State.park
  repeat' first
    | with_reducible assumption
    | with_reducible refine State.modPort_evolves ?_
    | (extract_lets +onlyGivenNames x; clear_value (hx : x = _); with_reducible refine Evolves.cut s hx ?_ (fun _ => ?_))
    | (extract_lets +onlyGivenNames x; with_reducible refine Evolves.local_fun x ?_; subst x; beta_reduce)
    | (extract_lets +onlyGivenNames x; clear_value (hx : x = _))
    | extract_lets +onlyGivenNames x
    | with_reducible refine Evolves.ite ?_ ?_
    | split
    | refine Evolves.of_pair (by with_reducible assumption) ?_
    | refine Evolves.of_some (by with_reducible assumption) ?_
    | fail_if_no_progress with_reducible refine Evolves.other ?_
    | with_reducible refine Evolves.fields (by with_reducible assumption)
    | refine Evolves.fields (h := ?_)
    | fail

theorem State.fenceAnswer_evolves {s t : State} {a1 : PhysSlice} {a2 : Request} (h : Evolves s t) :
    Evolves s (State.fenceAnswer t a1 a2) := by
  unfold State.fenceAnswer
  repeat' first
    | with_reducible assumption
    | with_reducible refine State.emit_evolves ?_
    | with_reducible refine State.returnCredit_evolves ?_
    | with_reducible refine State.iaFail_evolves ?_
    | with_reducible refine State.count_evolves ?_
    | (extract_lets +onlyGivenNames x; clear_value (hx : x = _); with_reducible refine Evolves.cut s hx ?_ (fun _ => ?_))
    | (extract_lets +onlyGivenNames x; clear_value (hx : x = _); with_reducible refine EvolvesFst.cut s hx ?_ (fun _ => ?_))
    | (extract_lets +onlyGivenNames x; with_reducible refine Evolves.local_fun x ?_; subst x; beta_reduce)
    | (extract_lets +onlyGivenNames x; clear_value (hx : x = _))
    | extract_lets +onlyGivenNames x
    | with_reducible refine Evolves.ite ?_ ?_
    | split
    | refine Evolves.of_pair (by with_reducible assumption) ?_
    | refine Evolves.of_some (by with_reducible assumption) ?_
    | fail

theorem State.leaveStop_evolves {s t : State} {a1 : Request} (h : Evolves s t) :
    Evolves s (State.leaveStop t a1) := by
  unfold State.leaveStop
  repeat' first
    | with_reducible assumption
    | with_reducible refine State.park_evolves ?_
    | with_reducible refine State.fenceAnswer_evolves ?_
    | with_reducible refine State.draw_evolves ?_
    | with_reducible refine State.major_evolves ?_
    | with_reducible refine State.deliver_evolves ?_
    | (extract_lets +onlyGivenNames x; clear_value (hx : x = _); with_reducible refine Evolves.cut s hx ?_ (fun _ => ?_))
    | (extract_lets +onlyGivenNames x; clear_value (hx : x = _); with_reducible refine EvolvesFst.cut s hx ?_ (fun _ => ?_))
    | (extract_lets +onlyGivenNames x; with_reducible refine Evolves.local_fun x ?_; subst x; beta_reduce)
    | (extract_lets +onlyGivenNames x; clear_value (hx : x = _))
    | extract_lets +onlyGivenNames x
    | with_reducible refine Evolves.ite ?_ ?_
    | split
    | refine Evolves.of_pair (by with_reducible assumption) ?_
    | refine Evolves.of_some (by with_reducible assumption) ?_
    | fail

theorem State.route_evolves {s t : State} {a1 : Request} (h : Evolves s t) :
    Evolves s (State.route t a1) := by
  unfold State.route
  repeat' first
    | with_reducible assumption
    | with_reducible refine State.countHost_evolves ?_
    | with_reducible refine State.leaveStop_evolves ?_
    | with_reducible refine State.modPort_evolves ?_
    | with_reducible refine State.crossRise_evolves ?_
    | (extract_lets +onlyGivenNames x; clear_value (hx : x = _); with_reducible refine Evolves.cut s hx ?_ (fun _ => ?_))
    | (extract_lets +onlyGivenNames x; clear_value (hx : x = _); with_reducible refine EvolvesFst.cut s hx ?_ (fun _ => ?_))
    | (extract_lets +onlyGivenNames x; with_reducible refine Evolves.local_fun x ?_; subst x; beta_reduce)
    | (extract_lets +onlyGivenNames x; clear_value (hx : x = _))
    | extract_lets +onlyGivenNames x
    | with_reducible refine Evolves.ite ?_ ?_
    | split
    | refine Evolves.of_pair (by with_reducible assumption) ?_
    | refine Evolves.of_some (by with_reducible assumption) ?_
    | fail_if_no_progress with_reducible refine Evolves.other ?_
    | with_reducible refine Evolves.fields (by with_reducible assumption)
    | refine Evolves.fields (h := ?_)
    | fail

theorem State.routeAll_evolves {s t : State} {a1 : List Request} (h : Evolves s t) :
    Evolves s (State.routeAll t a1) := by
  unfold State.routeAll
  repeat' first
    | with_reducible assumption
    | with_reducible refine State.route_evolves ?_
    | (extract_lets +onlyGivenNames x; clear_value (hx : x = _); with_reducible refine Evolves.cut s hx ?_ (fun _ => ?_))
    | (extract_lets +onlyGivenNames x; clear_value (hx : x = _); with_reducible refine EvolvesFst.cut s hx ?_ (fun _ => ?_))
    | (extract_lets +onlyGivenNames x; with_reducible refine Evolves.local_fun x ?_; subst x; beta_reduce)
    | (extract_lets +onlyGivenNames x; clear_value (hx : x = _))
    | extract_lets +onlyGivenNames x
    | with_reducible refine Evolves.ite ?_ ?_
    | with_reducible refine Evolves.foldl (fun _ _ _ => ?_) ?_
    | with_reducible refine EvolvesFst.foldl (fun _ _ _ => ?_) ?_
    | refine Evolves.of_pair (by with_reducible assumption) ?_
    | refine Evolves.of_some (by with_reducible assumption) ?_
    | fail

theorem State.pumpHost_evolves {s t : State} {a1 : HostId} (h : Evolves s t) :
    Evolves s (State.pumpHost t a1) := by
  unfold State.pumpHost
  repeat' first
    | with_reducible assumption
    | with_reducible refine State.park_evolves ?_
    | with_reducible refine State.modPort_evolves ?_
    | with_reducible refine State.leaveStop_evolves ?_
    | with_reducible refine State.routeAll_evolves ?_
    | (extract_lets +onlyGivenNames x; clear_value (hx : x = _); with_reducible refine Evolves.cut s hx ?_ (fun _ => ?_))
    | (extract_lets +onlyGivenNames x; clear_value (hx : x = _); with_reducible refine EvolvesFst.cut s hx ?_ (fun _ => ?_))
    | (extract_lets +onlyGivenNames x; with_reducible refine Evolves.local_fun x ?_; subst x; beta_reduce)
    | (extract_lets +onlyGivenNames x; clear_value (hx : x = _))
    | extract_lets +onlyGivenNames x
    | with_reducible refine Evolves.ite ?_ ?_
    | with_reducible refine Evolves.foldl (fun _ _ _ => ?_) ?_
    | with_reducible refine EvolvesFst.foldl (fun _ _ _ => ?_) ?_
    | split
    | refine Evolves.of_pair (by with_reducible assumption) ?_
    | refine Evolves.of_some (by with_reducible assumption) ?_
    | fail_if_no_progress with_reducible refine Evolves.other ?_
    | with_reducible refine Evolves.fields (by with_reducible assumption)
    | refine Evolves.fields (h := ?_)
    | fail

theorem State.pumpIa_evolves {s t : State} (h : Evolves s t) :
    Evolves s (State.pumpIa t) := by
  unfold State.pumpIa
  repeat' first
    | with_reducible assumption
    | with_reducible refine State.leaveStop_evolves ?_
    | with_reducible refine State.routeAll_evolves ?_
    | (extract_lets +onlyGivenNames x; clear_value (hx : x = _); with_reducible refine Evolves.cut s hx ?_ (fun _ => ?_))
    | (extract_lets +onlyGivenNames x; clear_value (hx : x = _); with_reducible refine EvolvesFst.cut s hx ?_ (fun _ => ?_))
    | (extract_lets +onlyGivenNames x; with_reducible refine Evolves.local_fun x ?_; subst x; beta_reduce)
    | (extract_lets +onlyGivenNames x; clear_value (hx : x = _))
    | extract_lets +onlyGivenNames x
    | with_reducible refine Evolves.ite ?_ ?_
    | with_reducible refine Evolves.foldl (fun _ _ _ => ?_) ?_
    | with_reducible refine EvolvesFst.foldl (fun _ _ _ => ?_) ?_
    | split
    | refine Evolves.of_pair (by with_reducible assumption) ?_
    | refine Evolves.of_some (by with_reducible assumption) ?_
    | fail_if_no_progress with_reducible refine Evolves.other ?_
    | with_reducible refine Evolves.fields (by with_reducible assumption)
    | refine Evolves.fields (h := ?_)
    | fail

theorem State.byStop_evolves {s t : State} {host : State → HostId → State} {ia : State → State}
    (hf : ∀ u h, Evolves s u → Evolves s (host u h)) (hg : ∀ u, Evolves s u → Evolves s (ia u)) (h : Evolves s t) :
    Evolves s (State.byStop host ia t) :=
  Evolves.foldl hf (hg _ (Evolves.foldl hf h))

theorem State.pump_evolves {s t : State} (h : Evolves s t) :
    Evolves s (State.pump t) := by
  unfold State.pump
  repeat' first
    | with_reducible assumption
    | with_reducible refine State.byStop_evolves (fun _ _ _ => ?_) (fun _ _ => ?_) ?_
    | with_reducible refine State.pumpHost_evolves ?_
    | with_reducible refine State.pumpIa_evolves ?_
    | (extract_lets +onlyGivenNames x; clear_value (hx : x = _); with_reducible refine Evolves.cut s hx ?_ (fun _ => ?_))
    | (extract_lets +onlyGivenNames x; with_reducible refine Evolves.local_fun x ?_; subst x; beta_reduce)
    | (extract_lets +onlyGivenNames x; clear_value (hx : x = _))
    | extract_lets +onlyGivenNames x
    | with_reducible refine Evolves.ite ?_ ?_
    | refine Evolves.of_pair (by with_reducible assumption) ?_
    | refine Evolves.of_some (by with_reducible assumption) ?_
    | fail

theorem State.discardPort_evolves {s t : State} {a1 : HostId} (h : Evolves s t) :
    Evolves s (State.discardPort t a1) := by
  unfold State.discardPort
  repeat' first
    | with_reducible assumption
    | with_reducible refine State.returnCredit_evolves ?_
    | with_reducible refine State.modPort_evolves ?_
    | (extract_lets +onlyGivenNames x; clear_value (hx : x = _); with_reducible refine Evolves.cut s hx ?_ (fun _ => ?_))
    | (extract_lets +onlyGivenNames x; clear_value (hx : x = _); with_reducible refine EvolvesFst.cut s hx ?_ (fun _ => ?_))
    | (extract_lets +onlyGivenNames x; with_reducible refine Evolves.local_fun x ?_; subst x; beta_reduce)
    | (extract_lets +onlyGivenNames x; clear_value (hx : x = _))
    | extract_lets +onlyGivenNames x
    | with_reducible refine Evolves.ite ?_ ?_
    | with_reducible refine Evolves.foldl (fun _ _ _ => ?_) ?_
    | with_reducible refine EvolvesFst.foldl (fun _ _ _ => ?_) ?_
    | refine Evolves.of_pair (by with_reducible assumption) ?_
    | refine Evolves.of_some (by with_reducible assumption) ?_
    | fail_if_no_progress with_reducible refine Evolves.other ?_
    | with_reducible refine Evolves.fields (by with_reducible assumption)
    | refine Evolves.fields (h := ?_)
    | fail

theorem State.flushParked_evolves {s t : State} {a1 : HostId} (h : Evolves s t) :
    Evolves s (State.flushParked t a1) := by
  unfold State.flushParked
  repeat' first
    | with_reducible assumption
    | with_reducible refine State.park_evolves ?_
    | with_reducible refine State.modPort_evolves ?_
    | with_reducible refine State.bypassTaken_evolves ?_
    | (extract_lets +onlyGivenNames x; clear_value (hx : x = _); with_reducible refine Evolves.cut s hx ?_ (fun _ => ?_))
    | (extract_lets +onlyGivenNames x; clear_value (hx : x = _); with_reducible refine EvolvesFst.cut s hx ?_ (fun _ => ?_))
    | (extract_lets +onlyGivenNames x; with_reducible refine Evolves.local_fun x ?_; subst x; beta_reduce)
    | (extract_lets +onlyGivenNames x; clear_value (hx : x = _))
    | extract_lets +onlyGivenNames x
    | with_reducible refine Evolves.ite ?_ ?_
    | with_reducible refine Evolves.foldl (fun _ _ _ => ?_) ?_
    | with_reducible refine EvolvesFst.foldl (fun _ _ _ => ?_) ?_
    | split
    | refine Evolves.of_pair (by with_reducible assumption) ?_
    | refine Evolves.of_some (by with_reducible assumption) ?_
    | fail_if_no_progress with_reducible refine Evolves.other ?_
    | with_reducible refine Evolves.fields (by with_reducible assumption)
    | refine Evolves.fields (h := ?_)
    | fail

theorem State.listUrgent_evolves {s t : State} {a1 : HostId} (h : Evolves s t) :
    Evolves s (State.listUrgent t a1) := by
  unfold State.listUrgent
  repeat' first
    | with_reducible assumption
    | with_reducible refine State.modPort_evolves ?_
    | with_reducible refine State.wr_evolves ?_
    | (extract_lets +onlyGivenNames x; clear_value (hx : x = _); with_reducible refine Evolves.cut s hx ?_ (fun _ => ?_))
    | (extract_lets +onlyGivenNames x; clear_value (hx : x = _); with_reducible refine EvolvesFst.cut s hx ?_ (fun _ => ?_))
    | (extract_lets +onlyGivenNames x; with_reducible refine Evolves.local_fun x ?_; subst x; beta_reduce)
    | (extract_lets +onlyGivenNames x; clear_value (hx : x = _))
    | extract_lets +onlyGivenNames x
    | with_reducible refine Evolves.ite ?_ ?_
    | split
    | refine Evolves.of_pair (by with_reducible assumption) ?_
    | refine Evolves.of_some (by with_reducible assumption) ?_
    | fail_if_no_progress with_reducible refine Evolves.other ?_
    | with_reducible refine Evolves.fields (by with_reducible assumption)
    | refine Evolves.fields (h := ?_)
    | fail

theorem State.depart_evolves {s t : State} {a1 : HostId} {a2 : Nat} (h : Evolves s t) :
    Evolves s (State.depart t a1 a2) := by
  unfold State.depart
  repeat' first
    | with_reducible assumption
    | with_reducible refine State.wr_evolves ?_
    | with_reducible refine State.modPort_evolves ?_
    | with_reducible refine State.discardPort_evolves ?_
    | with_reducible refine State.flushParked_evolves ?_
    | with_reducible refine State.inc_evolves ?_
    | with_reducible refine State.resolveAll_evolves ?_
    | with_reducible refine State.modSl_evolves ?_
    | with_reducible refine State.listUrgent_evolves ?_
    | with_reducible refine State.notice_evolves ?_
    | (extract_lets +onlyGivenNames x; clear_value (hx : x = _); with_reducible refine Evolves.cut s hx ?_ (fun _ => ?_))
    | (extract_lets +onlyGivenNames x; clear_value (hx : x = _); with_reducible refine EvolvesFst.cut s hx ?_ (fun _ => ?_))
    | (extract_lets +onlyGivenNames x; with_reducible refine Evolves.local_fun x ?_; subst x; beta_reduce)
    | (extract_lets +onlyGivenNames x; clear_value (hx : x = _))
    | extract_lets +onlyGivenNames x
    | with_reducible refine Evolves.ite ?_ ?_
    | with_reducible refine Evolves.foldl (fun _ _ _ => ?_) ?_
    | with_reducible refine EvolvesFst.foldl (fun _ _ _ => ?_) ?_
    | split
    | refine Evolves.of_pair (by with_reducible assumption) ?_
    | refine Evolves.of_some (by with_reducible assumption) ?_
    | fail_if_no_progress with_reducible refine Evolves.other ?_
    | with_reducible refine Evolves.fields (by with_reducible assumption)
    | refine Evolves.fields (h := ?_)
    | fail

theorem State.unsupported_evolves {s t : State} {a1 : HostId} {a2 : Nat} {a3 : Bool} {a4 : Nat} {a5 : BitVec 16} (h : Evolves s t) :
    Evolves s (State.unsupported t a1 a2 a3 a4 a5) := by
  unfold State.unsupported
  repeat' first
    | with_reducible assumption
    | with_reducible refine State.protoErr_evolves ?_
    | with_reducible refine State.count_evolves ?_
    | with_reducible refine State.emit_evolves ?_
    | with_reducible refine State.answerHost_evolves ?_
    | (extract_lets +onlyGivenNames x; clear_value (hx : x = _); with_reducible refine Evolves.cut s hx ?_ (fun _ => ?_))
    | (extract_lets +onlyGivenNames x; clear_value (hx : x = _); with_reducible refine EvolvesFst.cut s hx ?_ (fun _ => ?_))
    | (extract_lets +onlyGivenNames x; with_reducible refine Evolves.local_fun x ?_; subst x; beta_reduce)
    | (extract_lets +onlyGivenNames x; clear_value (hx : x = _))
    | extract_lets +onlyGivenNames x
    | with_reducible refine Evolves.ite ?_ ?_
    | refine Evolves.of_pair (by with_reducible assumption) ?_
    | refine Evolves.of_some (by with_reducible assumption) ?_
    | fail

theorem State.hostRequest_evolves {s t : State} {a1 : HostId} {a2 : ReqClass} {a3 : Word} {a4 : BitVec 16} {a5 : LineData} {a6 : ByteMask} {a7 : Bool} {a8 : Bool} (h : Evolves s t) :
    Evolves s (State.hostRequest t a1 a2 a3 a4 a5 a6 a7 a8) := by
  unfold State.hostRequest
  repeat' first
    | with_reducible assumption
    | with_reducible refine State.returnCredit_evolves ?_
    | with_reducible refine State.bump_evolves ?_
    | with_reducible refine State.unsupported_evolves ?_
    | with_reducible refine State.count_evolves ?_
    | with_reducible refine State.modPort_evolves ?_
    | with_reducible refine State.route_evolves ?_
    | (extract_lets +onlyGivenNames x; clear_value (hx : x = _); with_reducible refine Evolves.cut s hx ?_ (fun _ => ?_))
    | (extract_lets +onlyGivenNames x; clear_value (hx : x = _); with_reducible refine EvolvesFst.cut s hx ?_ (fun _ => ?_))
    | (extract_lets +onlyGivenNames x; with_reducible refine Evolves.local_fun x ?_; subst x; beta_reduce)
    | (extract_lets +onlyGivenNames x; clear_value (hx : x = _))
    | extract_lets +onlyGivenNames x
    | with_reducible refine Evolves.ite ?_ ?_
    | split
    | refine Evolves.of_pair (by with_reducible assumption) ?_
    | refine Evolves.of_some (by with_reducible assumption) ?_
    | fail_if_no_progress with_reducible refine Evolves.other ?_
    | with_reducible refine Evolves.fields (by with_reducible assumption)
    | refine Evolves.fields (h := ?_)
    | fail

end Sys2Proof.Machine
end

