-- ==== Sys2Proof/Laws/EvStripes.lean ====
section
/-! SUPPORT. What each operation of Sys2Proof/Machine/Stripes.lean does to the whole machine: one `Evolves` lemma an operation. -/

set_option linter.all false
set_option Elab.async false

namespace Sys2Proof.Machine

open Host (Outcome)

theorem State.setMedia_evolves {s t : State} {a1 : Channel} {a2 : Nat} {a3 : Option Stored} (h : Evolves s t) :
    Evolves s (State.setMedia t a1 a2 a3) := by
  unfold State.setMedia
  repeat' first
    | with_reducible assumption
    | (extract_lets +onlyGivenNames x; clear_value (hx : x = _); with_reducible refine Evolves.cut s hx ?_ (fun _ => ?_))
    | (extract_lets +onlyGivenNames x; clear_value (hx : x = _); with_reducible refine EvolvesFst.cut s hx ?_ (fun _ => ?_))
    | (extract_lets +onlyGivenNames x; with_reducible refine Evolves.local_fun x ?_; subst x; beta_reduce)
    | (extract_lets +onlyGivenNames x; clear_value (hx : x = _))
    | extract_lets +onlyGivenNames x
    | with_reducible refine Evolves.ite ?_ ?_
    | refine Evolves.of_pair (by with_reducible assumption) ?_
    | refine Evolves.of_some (by with_reducible assumption) ?_
    | fail_if_no_progress with_reducible refine Evolves.other ?_
    | with_reducible refine Evolves.fields (by with_reducible assumption)
    | refine Evolves.fields (h := ?_)
    | fail

theorem LineCounter.after_major {c d : LineCounter} (h : c.after d = true) : d.major ≤ c.major := by
  simp only [LineCounter.after, Bool.or_eq_true, Bool.and_eq_true, decide_eq_true_eq, beq_iff_eq] at h; omega

theorem State.setCounter_evolves {s t : State} {a1 : Nat} {a2 : LineCounter} (h : Evolves s t) :
    Evolves s (State.setCounter t a1 a2) := by
  unfold State.setCounter
  split
  · rename_i k
    exact Evolves.fields h (by constructor <;> first
      | with_reducible exact fun _ k => k
      | exact List.prefix_rfl
      | exact Nat.le_refl _
      | exact Evolves.major_put (LineCounter.after_major k)
      | exact fun _ k => Tbl.wf_put (fun _ => _) _ _ k)
  · exact h

theorem State.sealLost_evolves {s t : State} {a1 : Nat} (h : Evolves s t) :
    EvolvesFst s (State.sealLost t a1) := by
  unfold State.sealLost
  repeat' first
    | with_reducible assumption
    | with_reducible refine State.setCounter_evolves ?_
    | (extract_lets +onlyGivenNames x; clear_value (hx : x = _); with_reducible refine Evolves.cut s hx ?_ (fun _ => ?_))
    | (extract_lets +onlyGivenNames x; clear_value (hx : x = _); with_reducible refine EvolvesFst.cut s hx ?_ (fun _ => ?_))
    | (extract_lets +onlyGivenNames x; with_reducible refine Evolves.local_fun x ?_; subst x; beta_reduce)
    | (extract_lets +onlyGivenNames x; clear_value (hx : x = _))
    | extract_lets +onlyGivenNames x
    | with_reducible refine Evolves.ite ?_ ?_
    | with_reducible refine EvolvesFst.ite ?_ ?_
    | with_reducible refine EvolvesFst.pair ?_
    | with_reducible refine EvolvesFst.fst ?_
    | refine Evolves.of_pair (by with_reducible assumption) ?_
    | refine Evolves.of_some (by with_reducible assumption) ?_
    | fail

theorem State.rekeyDone_evolves {s t : State} {a1 : Nat} {a2 : Nat} (h : Evolves s t) :
    Evolves s (State.rekeyDone t a1 a2) := by
  unfold State.rekeyDone
  repeat' first
    | with_reducible assumption
    | with_reducible refine State.modSl_evolves ?_
    | with_reducible refine State.modMf_evolves ?_
    | with_reducible refine State.finish_evolves ?_
    | with_reducible refine State.count_evolves ?_
    | (extract_lets +onlyGivenNames x; clear_value (hx : x = _); with_reducible refine Evolves.cut s hx ?_ (fun _ => ?_))
    | (extract_lets +onlyGivenNames x; clear_value (hx : x = _); with_reducible refine EvolvesFst.cut s hx ?_ (fun _ => ?_))
    | (extract_lets +onlyGivenNames x; with_reducible refine Evolves.local_fun x ?_; subst x; beta_reduce)
    | (extract_lets +onlyGivenNames x; clear_value (hx : x = _))
    | extract_lets +onlyGivenNames x
    | with_reducible refine Evolves.ite ?_ ?_
    | split
    | refine Evolves.of_pair (by with_reducible assumption) ?_
    | refine Evolves.of_some (by with_reducible assumption) ?_
    | fail_if_no_progress with_reducible refine Evolves.other ?_
    | with_reducible refine Evolves.fields (by with_reducible assumption)
    | refine Evolves.fields (h := ?_)
    | fail

theorem State.queuePages_evolves {s t : State} (h : Evolves s t) :
    Evolves s (State.queuePages t) := by
  unfold State.queuePages
  repeat' first
    | with_reducible assumption
    | with_reducible refine State.modMf_evolves ?_
    | with_reducible refine State.wb_evolves ?_
    | (extract_lets +onlyGivenNames x; clear_value (hx : x = _); with_reducible refine Evolves.cut s hx ?_ (fun _ => ?_))
    | (extract_lets +onlyGivenNames x; clear_value (hx : x = _); with_reducible refine EvolvesFst.cut s hx ?_ (fun _ => ?_))
    | (extract_lets +onlyGivenNames x; with_reducible refine Evolves.local_fun x ?_; subst x; beta_reduce)
    | (extract_lets +onlyGivenNames x; clear_value (hx : x = _))
    | extract_lets +onlyGivenNames x
    | with_reducible refine Evolves.ite ?_ ?_
    | split
    | refine Evolves.of_pair (by with_reducible assumption) ?_
    | refine Evolves.of_some (by with_reducible assumption) ?_
    | fail_if_no_progress with_reducible refine Evolves.other ?_
    | with_reducible refine Evolves.fields (by with_reducible assumption)
    | refine Evolves.fields (h := ?_)
    | fail

theorem State.readHeld_evolves {s t : State} {a1 : Nat} {a2 : MediaOp} (h : Evolves s t) :
    Evolves s (State.readHeld t a1 a2) := by
  unfold State.readHeld
  repeat' first
    | with_reducible assumption
    | with_reducible refine State.readMfBuffer_evolves ?_
    | with_reducible refine State.setOp_evolves ?_
    | (extract_lets +onlyGivenNames x; clear_value (hx : x = _); with_reducible refine Evolves.cut s hx ?_ (fun _ => ?_))
    | (extract_lets +onlyGivenNames x; clear_value (hx : x = _); with_reducible refine EvolvesFst.cut s hx ?_ (fun _ => ?_))
    | (extract_lets +onlyGivenNames x; with_reducible refine Evolves.local_fun x ?_; subst x; beta_reduce)
    | (extract_lets +onlyGivenNames x; clear_value (hx : x = _))
    | extract_lets +onlyGivenNames x
    | with_reducible refine Evolves.ite ?_ ?_
    | with_reducible refine EvolvesFst.ite ?_ ?_
    | split
    | with_reducible refine EvolvesFst.pair ?_
    | with_reducible refine EvolvesFst.fst ?_
    | refine Evolves.of_pair (by with_reducible assumption) ?_
    | refine Evolves.of_some (by with_reducible assumption) ?_
    | fail_if_no_progress with_reducible refine Evolves.other ?_
    | with_reducible refine Evolves.fields (by with_reducible assumption)
    | refine Evolves.fields (h := ?_)
    | fail

theorem State.releaseHeld_evolves {s t : State} {a1 : Nat} {a2 : Nat} (h : Evolves s t) :
    Evolves s (State.releaseHeld t a1 a2) := by
  unfold State.releaseHeld
  repeat' first
    | with_reducible assumption
    | with_reducible refine State.readHeld_evolves ?_
    | (extract_lets +onlyGivenNames x; clear_value (hx : x = _); with_reducible refine Evolves.cut s hx ?_ (fun _ => ?_))
    | (extract_lets +onlyGivenNames x; clear_value (hx : x = _); with_reducible refine EvolvesFst.cut s hx ?_ (fun _ => ?_))
    | (extract_lets +onlyGivenNames x; with_reducible refine Evolves.local_fun x ?_; subst x; beta_reduce)
    | (extract_lets +onlyGivenNames x; clear_value (hx : x = _))
    | extract_lets +onlyGivenNames x
    | with_reducible refine Evolves.ite ?_ ?_
    | with_reducible refine Evolves.foldl (fun _ _ _ => ?_) ?_
    | with_reducible refine EvolvesFst.foldl (fun _ _ _ => ?_) ?_
    | split
    | refine Evolves.of_pair (by with_reducible assumption) ?_
    | refine Evolves.of_some (by with_reducible assumption) ?_
    | fail

theorem State.coalesce_evolves {s t : State} {a1 : Nat} {a2 : MediaOp} (h : Evolves s t) :
    Evolves s (State.coalesce t a1 a2) := by
  unfold State.coalesce
  repeat' first
    | with_reducible assumption
    | with_reducible refine State.writeMfBuffer_evolves ?_
    | with_reducible refine State.setOp_evolves ?_
    | with_reducible refine State.bump_evolves ?_
    | (extract_lets +onlyGivenNames x; clear_value (hx : x = _); with_reducible refine Evolves.cut s hx ?_ (fun _ => ?_))
    | (extract_lets +onlyGivenNames x; clear_value (hx : x = _); with_reducible refine EvolvesFst.cut s hx ?_ (fun _ => ?_))
    | (extract_lets +onlyGivenNames x; with_reducible refine Evolves.local_fun x ?_; subst x; beta_reduce)
    | (extract_lets +onlyGivenNames x; clear_value (hx : x = _))
    | extract_lets +onlyGivenNames x
    | with_reducible refine Evolves.ite ?_ ?_
    | split
    | refine Evolves.of_pair (by with_reducible assumption) ?_
    | refine Evolves.of_some (by with_reducible assumption) ?_
    | fail_if_no_progress with_reducible refine Evolves.other ?_
    | with_reducible refine Evolves.fields (by with_reducible assumption)
    | refine Evolves.fields (h := ?_)
    | fail

theorem State.rekeyRead_evolves {s t : State} {a1 : Nat} {a2 : MediaOp} {a3 : FinalStatus} {a4 : LineData} {a5 : DirEntry} (h : Evolves s t) :
    Evolves s (State.rekeyRead t a1 a2 a3 a4 a5) := by
  unfold State.rekeyRead
  repeat' first
    | with_reducible assumption
    | with_reducible refine State.coalesce_evolves ?_
    | with_reducible refine State.releaseHeld_evolves ?_
    | with_reducible refine State.setCounter_evolves ?_
    | with_reducible refine State.major_evolves ?_
    | with_reducible refine State.setOp_evolves ?_
    | with_reducible refine State.rekeyDone_evolves ?_
    | (extract_lets +onlyGivenNames x; clear_value (hx : x = _); with_reducible refine Evolves.cut s hx ?_ (fun _ => ?_))
    | (extract_lets +onlyGivenNames x; clear_value (hx : x = _); with_reducible refine EvolvesFst.cut s hx ?_ (fun _ => ?_))
    | (extract_lets +onlyGivenNames x; with_reducible refine Evolves.local_fun x ?_; subst x; beta_reduce)
    | (extract_lets +onlyGivenNames x; clear_value (hx : x = _))
    | extract_lets +onlyGivenNames x
    | with_reducible refine Evolves.ite ?_ ?_
    | split
    | refine Evolves.of_pair (by with_reducible assumption) ?_
    | refine Evolves.of_some (by with_reducible assumption) ?_
    | fail_if_no_progress with_reducible refine Evolves.other ?_
    | with_reducible refine Evolves.fields (by with_reducible assumption)
    | refine Evolves.fields (h := ?_)
    | fail

theorem State.finish_evolves {s t : State} {a1 : Nat} {a2 : FinalStatus} {a3 : LineData} {a4 : DirEntry} (h : Evolves s t) :
    Evolves s (State.finish t a1 a2 a3 a4) := by
  unfold State.finish
  repeat' first
    | with_reducible assumption
    | with_reducible refine State.rekeyRead_evolves ?_
    | with_reducible refine State.setOp_evolves ?_
    | (extract_lets +onlyGivenNames x; clear_value (hx : x = _); with_reducible refine Evolves.cut s hx ?_ (fun _ => ?_))
    | (extract_lets +onlyGivenNames x; clear_value (hx : x = _); with_reducible refine EvolvesFst.cut s hx ?_ (fun _ => ?_))
    | (extract_lets +onlyGivenNames x; with_reducible refine Evolves.local_fun x ?_; subst x; beta_reduce)
    | (extract_lets +onlyGivenNames x; clear_value (hx : x = _))
    | extract_lets +onlyGivenNames x
    | with_reducible refine Evolves.ite ?_ ?_
    | split
    | refine Evolves.of_pair (by with_reducible assumption) ?_
    | refine Evolves.of_some (by with_reducible assumption) ?_
    | fail_if_no_progress with_reducible refine Evolves.other ?_
    | with_reducible refine Evolves.fields (by with_reducible assumption)
    | refine Evolves.fields (h := ?_)
    | fail

theorem State.dropWrite_evolves {s t : State} {a1 : Nat} {a2 : Bool} (h : Evolves s t) :
    Evolves s (State.dropWrite t a1 a2) := by
  unfold State.dropWrite
  repeat' first
    | with_reducible assumption
    | with_reducible refine State.setOp_evolves ?_
    | with_reducible refine State.count_evolves ?_
    | with_reducible refine State.modMf_evolves ?_
    | with_reducible refine State.major_evolves ?_
    | with_reducible refine State.notice_evolves ?_
    | (extract_lets +onlyGivenNames x; clear_value (hx : x = _); with_reducible refine Evolves.cut s hx ?_ (fun _ => ?_))
    | (extract_lets +onlyGivenNames x; clear_value (hx : x = _); with_reducible refine EvolvesFst.cut s hx ?_ (fun _ => ?_))
    | (extract_lets +onlyGivenNames x; with_reducible refine Evolves.local_fun x ?_; subst x; beta_reduce)
    | (extract_lets +onlyGivenNames x; clear_value (hx : x = _))
    | extract_lets +onlyGivenNames x
    | with_reducible refine Evolves.ite ?_ ?_
    | split
    | refine Evolves.of_pair (by with_reducible assumption) ?_
    | refine Evolves.of_some (by with_reducible assumption) ?_
    | fail_if_no_progress with_reducible refine Evolves.other ?_
    | with_reducible refine Evolves.fields (by with_reducible assumption)
    | refine Evolves.fields (h := ?_)
    | fail

theorem State.setChop_evolves {s t : State} {a1 : Nat} {a2 : Option ChanOp} (h : Evolves s t) :
    Evolves s (State.setChop t a1 a2) := by
  unfold State.setChop
  repeat' first
    | with_reducible assumption
    | with_reducible refine State.modMf_evolves ?_
    | (extract_lets +onlyGivenNames x; clear_value (hx : x = _); with_reducible refine Evolves.cut s hx ?_ (fun _ => ?_))
    | (extract_lets +onlyGivenNames x; with_reducible refine Evolves.local_fun x ?_; subst x; beta_reduce)
    | (extract_lets +onlyGivenNames x; clear_value (hx : x = _))
    | extract_lets +onlyGivenNames x
    | with_reducible refine Evolves.ite ?_ ?_
    | refine Evolves.of_pair (by with_reducible assumption) ?_
    | refine Evolves.of_some (by with_reducible assumption) ?_
    | fail_if_no_progress with_reducible refine Evolves.other ?_
    | with_reducible refine Evolves.fields (by with_reducible assumption)
    | refine Evolves.fields (h := ?_)
    | fail

theorem State.limiterAdd_evolves {s t : State} {a1 : Nat} {a2 : Nat} {a3 : Nat} (h : Evolves s t) :
    Evolves s (State.limiterAdd t a1 a2 a3) := by
  unfold State.limiterAdd
  repeat' first
    | with_reducible assumption
    | with_reducible refine State.modMf_evolves ?_
    | (extract_lets +onlyGivenNames x; clear_value (hx : x = _); with_reducible refine Evolves.cut s hx ?_ (fun _ => ?_))
    | (extract_lets +onlyGivenNames x; clear_value (hx : x = _); with_reducible refine EvolvesFst.cut s hx ?_ (fun _ => ?_))
    | (extract_lets +onlyGivenNames x; with_reducible refine Evolves.local_fun x ?_; subst x; beta_reduce)
    | (extract_lets +onlyGivenNames x; clear_value (hx : x = _))
    | extract_lets +onlyGivenNames x
    | with_reducible refine Evolves.ite ?_ ?_
    | split
    | refine Evolves.of_pair (by with_reducible assumption) ?_
    | refine Evolves.of_some (by with_reducible assumption) ?_
    | fail_if_no_progress with_reducible refine Evolves.other ?_
    | with_reducible refine Evolves.fields (by with_reducible assumption)
    | refine Evolves.fields (h := ?_)
    | fail

theorem State.issueChop_evolves {s t : State} {a1 : Nat} {a2 : ChanOp} (h : Evolves s t) :
    Evolves s (State.issueChop t a1 a2) := by
  unfold State.issueChop
  repeat' first
    | with_reducible assumption
    | with_reducible refine State.count_evolves ?_
    | with_reducible refine State.modMf_evolves ?_
    | with_reducible refine State.setChop_evolves ?_
    | with_reducible refine State.emit_evolves ?_
    | (extract_lets +onlyGivenNames x; clear_value (hx : x = _); with_reducible refine Evolves.cut s hx ?_ (fun _ => ?_))
    | (extract_lets +onlyGivenNames x; clear_value (hx : x = _); with_reducible refine EvolvesFst.cut s hx ?_ (fun _ => ?_))
    | (extract_lets +onlyGivenNames x; with_reducible refine Evolves.local_fun x ?_; subst x; beta_reduce)
    | (extract_lets +onlyGivenNames x; clear_value (hx : x = _))
    | extract_lets +onlyGivenNames x
    | with_reducible refine Evolves.ite ?_ ?_
    | split
    | refine Evolves.of_pair (by with_reducible assumption) ?_
    | refine Evolves.of_some (by with_reducible assumption) ?_
    | fail_if_no_progress with_reducible refine Evolves.other ?_
    | with_reducible refine Evolves.fields (by with_reducible assumption)
    | refine Evolves.fields (h := ?_)
    | fail

theorem State.issueLoop_evolves {s t : State} {a0 : Nat} (h : Evolves s t) :
    Evolves s (State.issueLoop a0 t) := by
  induction a0 generalizing t with
  | zero => exact h
  | succ n ih =>
    unfold State.issueLoop
    repeat' first
      | with_reducible assumption
      | with_reducible refine ih ?_
      | with_reducible refine State.issueChop_evolves ?_
      | (extract_lets +onlyGivenNames x; clear_value (hx : x = _); with_reducible refine Evolves.cut s hx ?_ (fun _ => ?_))
      | (extract_lets +onlyGivenNames x; clear_value (hx : x = _); with_reducible refine EvolvesFst.cut s hx ?_ (fun _ => ?_))
      | (extract_lets +onlyGivenNames x; with_reducible refine Evolves.local_fun x ?_; subst x; beta_reduce)
      | (extract_lets +onlyGivenNames x; clear_value (hx : x = _))
      | extract_lets +onlyGivenNames x
      | with_reducible refine Evolves.ite ?_ ?_
      | split
      | refine Evolves.of_pair (by with_reducible assumption) ?_
      | refine Evolves.of_some (by with_reducible assumption) ?_
      | fail

theorem State.issueAll_evolves {s t : State} (h : Evolves s t) :
    Evolves s (State.issueAll t) := by
  unfold State.issueAll
  repeat' first
    | with_reducible assumption
    | with_reducible refine State.issueLoop_evolves ?_
    | (extract_lets +onlyGivenNames x; clear_value (hx : x = _); with_reducible refine Evolves.cut s hx ?_ (fun _ => ?_))
    | (extract_lets +onlyGivenNames x; with_reducible refine Evolves.local_fun x ?_; subst x; beta_reduce)
    | (extract_lets +onlyGivenNames x; clear_value (hx : x = _))
    | extract_lets +onlyGivenNames x
    | with_reducible refine Evolves.ite ?_ ?_
    | refine Evolves.of_pair (by with_reducible assumption) ?_
    | refine Evolves.of_some (by with_reducible assumption) ?_
    | fail

theorem State.placeChop_evolves {s t : State} {a1 : Nat} {a2 : ChanOp} {a3 : Bool} (h : Evolves s t) :
    Evolves s (State.placeChop t a1 a2 a3) := by
  unfold State.placeChop
  repeat' first
    | with_reducible assumption
    | with_reducible refine State.setOp_evolves ?_
    | with_reducible refine State.limiterAdd_evolves ?_
    | with_reducible refine State.count_evolves ?_
    | with_reducible refine State.setChop_evolves ?_
    | (extract_lets +onlyGivenNames x; clear_value (hx : x = _); with_reducible refine Evolves.cut s hx ?_ (fun _ => ?_))
    | (extract_lets +onlyGivenNames x; clear_value (hx : x = _); with_reducible refine EvolvesFst.cut s hx ?_ (fun _ => ?_))
    | (extract_lets +onlyGivenNames x; with_reducible refine Evolves.local_fun x ?_; subst x; beta_reduce)
    | (extract_lets +onlyGivenNames x; clear_value (hx : x = _))
    | extract_lets +onlyGivenNames x
    | with_reducible refine Evolves.ite ?_ ?_
    | split
    | refine Evolves.of_pair (by with_reducible assumption) ?_
    | refine Evolves.of_some (by with_reducible assumption) ?_
    | fail_if_no_progress with_reducible refine Evolves.other ?_
    | with_reducible refine Evolves.fields (by with_reducible assumption)
    | refine Evolves.fields (h := ?_)
    | fail

theorem State.addChop_evolves {s t : State} {a1 : Channel} {a2 : Nat} {a3 : Bool} {a4 : Bool} {a5 : Stored} {a6 : ChanUse} {a7 : Nat} (h : Evolves s t) :
    Evolves s (State.addChop t a1 a2 a3 a4 a5 a6 a7) := by
  unfold State.addChop
  repeat' first
    | with_reducible assumption
    | with_reducible refine State.bump_evolves ?_
    | with_reducible refine State.placeChop_evolves ?_
    | with_reducible refine State.setChop_evolves ?_
    | (extract_lets +onlyGivenNames x; clear_value (hx : x = _); with_reducible refine Evolves.cut s hx ?_ (fun _ => ?_))
    | (extract_lets +onlyGivenNames x; clear_value (hx : x = _); with_reducible refine EvolvesFst.cut s hx ?_ (fun _ => ?_))
    | (extract_lets +onlyGivenNames x; with_reducible refine Evolves.local_fun x ?_; subst x; beta_reduce)
    | (extract_lets +onlyGivenNames x; clear_value (hx : x = _))
    | extract_lets +onlyGivenNames x
    | with_reducible refine Evolves.ite ?_ ?_
    | split
    | refine Evolves.of_pair (by with_reducible assumption) ?_
    | refine Evolves.of_some (by with_reducible assumption) ?_
    | fail_if_no_progress with_reducible refine Evolves.other ?_
    | with_reducible refine Evolves.fields (by with_reducible assumption)
    | refine Evolves.fields (h := ?_)
    | fail

theorem State.setRecon_evolves {s t : State} {a1 : Nat} {a2 : Option Recon} (h : Evolves s t) :
    Evolves s (State.setRecon t a1 a2) := by
  unfold State.setRecon
  repeat' first
    | with_reducible assumption
    | with_reducible refine State.modMf_evolves ?_
    | (extract_lets +onlyGivenNames x; clear_value (hx : x = _); with_reducible refine Evolves.cut s hx ?_ (fun _ => ?_))
    | (extract_lets +onlyGivenNames x; with_reducible refine Evolves.local_fun x ?_; subst x; beta_reduce)
    | (extract_lets +onlyGivenNames x; clear_value (hx : x = _))
    | extract_lets +onlyGivenNames x
    | with_reducible refine Evolves.ite ?_ ?_
    | refine Evolves.of_pair (by with_reducible assumption) ?_
    | refine Evolves.of_some (by with_reducible assumption) ?_
    | fail_if_no_progress with_reducible refine Evolves.other ?_
    | with_reducible refine Evolves.fields (by with_reducible assumption)
    | refine Evolves.fields (h := ?_)
    | fail

theorem State.integrity_evolves {s t : State} {a1 : Nat} {a2 : Bool} (h : Evolves s t) :
    Evolves s (State.integrity t a1 a2) := by
  unfold State.integrity
  repeat' first
    | with_reducible assumption
    | with_reducible refine State.notice_evolves ?_
    | (extract_lets +onlyGivenNames x; clear_value (hx : x = _); with_reducible refine Evolves.cut s hx ?_ (fun _ => ?_))
    | (extract_lets +onlyGivenNames x; clear_value (hx : x = _); with_reducible refine EvolvesFst.cut s hx ?_ (fun _ => ?_))
    | (extract_lets +onlyGivenNames x; with_reducible refine Evolves.local_fun x ?_; subst x; beta_reduce)
    | (extract_lets +onlyGivenNames x; clear_value (hx : x = _))
    | extract_lets +onlyGivenNames x
    | with_reducible refine Evolves.ite ?_ ?_
    | refine Evolves.of_pair (by with_reducible assumption) ?_
    | refine Evolves.of_some (by with_reducible assumption) ?_
    | fail

theorem State.apertureAnswer_evolves {s t : State} {a1 : DmaChannel} {a2 : Stored} (h : Evolves s t) :
    Evolves s (State.apertureAnswer t a1 a2) := by
  unfold State.apertureAnswer
  repeat' first
    | with_reducible assumption
    | with_reducible refine State.emit_evolves ?_
    | (extract_lets +onlyGivenNames x; clear_value (hx : x = _); with_reducible refine Evolves.cut s hx ?_ (fun _ => ?_))
    | (extract_lets +onlyGivenNames x; clear_value (hx : x = _); with_reducible refine EvolvesFst.cut s hx ?_ (fun _ => ?_))
    | (extract_lets +onlyGivenNames x; with_reducible refine Evolves.local_fun x ?_; subst x; beta_reduce)
    | (extract_lets +onlyGivenNames x; clear_value (hx : x = _))
    | extract_lets +onlyGivenNames x
    | with_reducible refine Evolves.ite ?_ ?_
    | split
    | refine Evolves.of_pair (by with_reducible assumption) ?_
    | refine Evolves.of_some (by with_reducible assumption) ?_
    | fail_if_no_progress with_reducible refine Evolves.other ?_
    | with_reducible refine Evolves.fields (by with_reducible assumption)
    | refine Evolves.fields (h := ?_)
    | fail

theorem State.reconEnd_evolves {s t : State} {a1 : Nat} (h : Evolves s t) :
    Evolves s (State.reconEnd t a1) := by
  unfold State.reconEnd
  repeat' first
    | with_reducible assumption
    | with_reducible refine State.setRecon_evolves ?_
    | with_reducible refine State.writeMfBuffer_evolves ?_
    | with_reducible refine State.modMf_evolves ?_
    | with_reducible refine State.apertureAnswer_evolves ?_
    | with_reducible refine State.draw_evolves ?_
    | with_reducible refine State.lineLost_evolves ?_
    | with_reducible refine State.sealLost_evolves ?_
    | with_reducible refine State.apertureWrite_evolves ?_
    | with_reducible refine State.addChop_evolves ?_
    | with_reducible refine State.setOp_evolves ?_
    | with_reducible refine State.integrity_evolves ?_
    | with_reducible refine State.finish_evolves ?_
    | (extract_lets +onlyGivenNames x; clear_value (hx : x = _); with_reducible refine Evolves.cut s hx ?_ (fun _ => ?_))
    | (extract_lets +onlyGivenNames x; clear_value (hx : x = _); with_reducible refine EvolvesFst.cut s hx ?_ (fun _ => ?_))
    | (extract_lets +onlyGivenNames x; with_reducible refine Evolves.local_fun x ?_; subst x; beta_reduce)
    | (extract_lets +onlyGivenNames x; clear_value (hx : x = _))
    | extract_lets +onlyGivenNames x
    | with_reducible refine Evolves.ite ?_ ?_
    | with_reducible refine EvolvesFst.ite ?_ ?_
    | split
    | with_reducible refine EvolvesFst.pair ?_
    | with_reducible refine EvolvesFst.fst ?_
    | refine Evolves.of_pair (by with_reducible assumption) ?_
    | refine Evolves.of_some (by with_reducible assumption) ?_
    | fail_if_no_progress with_reducible refine Evolves.other ?_
    | with_reducible refine Evolves.fields (by with_reducible assumption)
    | refine Evolves.fields (h := ?_)
    | fail

theorem State.reconGot_evolves {s t : State} {a1 : Nat} {a2 : Nat} {a3 : Option Stored} (h : Evolves s t) :
    Evolves s (State.reconGot t a1 a2 a3) := by
  unfold State.reconGot
  repeat' first
    | with_reducible assumption
    | with_reducible refine State.setRecon_evolves ?_
    | with_reducible refine State.reconEnd_evolves ?_
    | (extract_lets +onlyGivenNames x; clear_value (hx : x = _); with_reducible refine Evolves.cut s hx ?_ (fun _ => ?_))
    | (extract_lets +onlyGivenNames x; clear_value (hx : x = _); with_reducible refine EvolvesFst.cut s hx ?_ (fun _ => ?_))
    | (extract_lets +onlyGivenNames x; with_reducible refine Evolves.local_fun x ?_; subst x; beta_reduce)
    | (extract_lets +onlyGivenNames x; clear_value (hx : x = _))
    | extract_lets +onlyGivenNames x
    | with_reducible refine Evolves.ite ?_ ?_
    | split
    | refine Evolves.of_pair (by with_reducible assumption) ?_
    | refine Evolves.of_some (by with_reducible assumption) ?_
    | fail_if_no_progress with_reducible refine Evolves.other ?_
    | with_reducible refine Evolves.fields (by with_reducible assumption)
    | refine Evolves.fields (h := ?_)
    | fail

theorem State.startRecon_evolves {s t : State} {a1 : Nat} {a2 : ReconWhy} {a3 : Nat} {a4 : Nat} {a5 : Nat} {a6 : Nat} (h : Evolves s t) :
    Evolves s (State.startRecon t a1 a2 a3 a4 a5 a6) := by
  unfold State.startRecon
  repeat' first
    | with_reducible assumption
    | with_reducible refine State.bump_evolves ?_
    | with_reducible refine State.setOp_evolves ?_
    | with_reducible refine State.setRecon_evolves ?_
    | with_reducible refine State.reconEnd_evolves ?_
    | with_reducible refine State.addChop_evolves ?_
    | (extract_lets +onlyGivenNames x; clear_value (hx : x = _); with_reducible refine Evolves.cut s hx ?_ (fun _ => ?_))
    | (extract_lets +onlyGivenNames x; clear_value (hx : x = _); with_reducible refine EvolvesFst.cut s hx ?_ (fun _ => ?_))
    | (extract_lets +onlyGivenNames x; with_reducible refine Evolves.local_fun x ?_; subst x; beta_reduce)
    | (extract_lets +onlyGivenNames x; clear_value (hx : x = _))
    | extract_lets +onlyGivenNames x
    | with_reducible refine Evolves.ite ?_ ?_
    | with_reducible refine Evolves.foldl (fun _ _ _ => ?_) ?_
    | with_reducible refine EvolvesFst.foldl (fun _ _ _ => ?_) ?_
    | split
    | with_reducible refine EvolvesFst.pair ?_
    | with_reducible refine EvolvesFst.fst ?_
    | refine Evolves.of_pair (by with_reducible assumption) ?_
    | refine Evolves.of_some (by with_reducible assumption) ?_
    | fail_if_no_progress with_reducible refine Evolves.other ?_
    | with_reducible refine Evolves.fields (by with_reducible assumption)
    | refine Evolves.fields (h := ?_)
    | fail

theorem State.setBatch_evolves {s t : State} {a1 : Nat} {a2 : Option Batch} (h : Evolves s t) :
    Evolves s (State.setBatch t a1 a2) := by
  unfold State.setBatch
  repeat' first
    | with_reducible assumption
    | with_reducible refine State.modMf_evolves ?_
    | (extract_lets +onlyGivenNames x; clear_value (hx : x = _); with_reducible refine Evolves.cut s hx ?_ (fun _ => ?_))
    | (extract_lets +onlyGivenNames x; with_reducible refine Evolves.local_fun x ?_; subst x; beta_reduce)
    | (extract_lets +onlyGivenNames x; clear_value (hx : x = _))
    | extract_lets +onlyGivenNames x
    | with_reducible refine Evolves.ite ?_ ?_
    | refine Evolves.of_pair (by with_reducible assumption) ?_
    | refine Evolves.of_some (by with_reducible assumption) ?_
    | fail_if_no_progress with_reducible refine Evolves.other ?_
    | with_reducible refine Evolves.fields (by with_reducible assumption)
    | refine Evolves.fields (h := ?_)
    | fail

theorem State.closeBatch_evolves {s t : State} {a1 : Nat} (h : Evolves s t) :
    Evolves s (State.closeBatch t a1) := by
  unfold State.closeBatch
  repeat' first
    | with_reducible assumption
    | with_reducible refine State.setBatch_evolves ?_
    | with_reducible refine State.modMf_evolves ?_
    | with_reducible refine State.setCounter_evolves ?_
    | with_reducible refine State.dropWrite_evolves ?_
    | with_reducible refine State.setOp_evolves ?_
    | with_reducible refine State.rekeyDone_evolves ?_
    | (extract_lets +onlyGivenNames x; clear_value (hx : x = _); with_reducible refine Evolves.cut s hx ?_ (fun _ => ?_))
    | (extract_lets +onlyGivenNames x; clear_value (hx : x = _); with_reducible refine EvolvesFst.cut s hx ?_ (fun _ => ?_))
    | (extract_lets +onlyGivenNames x; with_reducible refine Evolves.local_fun x ?_; subst x; beta_reduce)
    | (extract_lets +onlyGivenNames x; clear_value (hx : x = _))
    | extract_lets +onlyGivenNames x
    | with_reducible refine Evolves.ite ?_ ?_
    | with_reducible refine Evolves.foldl (fun _ _ _ => ?_) ?_
    | with_reducible refine EvolvesFst.foldl (fun _ _ _ => ?_) ?_
    | split
    | refine Evolves.of_pair (by with_reducible assumption) ?_
    | refine Evolves.of_some (by with_reducible assumption) ?_
    | fail_if_no_progress with_reducible refine Evolves.other ?_
    | with_reducible refine Evolves.fields (by with_reducible assumption)
    | refine Evolves.fields (h := ?_)
    | fail

theorem State.cancelBatch_evolves {s t : State} {a1 : Nat} {a2 : Batch} (h : Evolves s t) :
    Evolves s (State.cancelBatch t a1 a2) := by
  unfold State.cancelBatch
  repeat' first
    | with_reducible assumption
    | with_reducible refine State.setBatch_evolves ?_
    | with_reducible refine State.modMf_evolves ?_
    | with_reducible refine State.setOp_evolves ?_
    | (extract_lets +onlyGivenNames x; clear_value (hx : x = _); with_reducible refine Evolves.cut s hx ?_ (fun _ => ?_))
    | (extract_lets +onlyGivenNames x; clear_value (hx : x = _); with_reducible refine EvolvesFst.cut s hx ?_ (fun _ => ?_))
    | (extract_lets +onlyGivenNames x; with_reducible refine Evolves.local_fun x ?_; subst x; beta_reduce)
    | (extract_lets +onlyGivenNames x; clear_value (hx : x = _))
    | extract_lets +onlyGivenNames x
    | with_reducible refine Evolves.ite ?_ ?_
    | with_reducible refine Evolves.foldl (fun _ _ _ => ?_) ?_
    | with_reducible refine EvolvesFst.foldl (fun _ _ _ => ?_) ?_
    | split
    | refine Evolves.of_pair (by with_reducible assumption) ?_
    | refine Evolves.of_some (by with_reducible assumption) ?_
    | fail_if_no_progress with_reducible refine Evolves.other ?_
    | with_reducible refine Evolves.fields (by with_reducible assumption)
    | refine Evolves.fields (h := ?_)
    | fail

theorem State.holdRefused_evolves {s t : State} {a1 : List Nat} (h : Evolves s t) :
    Evolves s (State.holdRefused t a1) := by
  unfold State.holdRefused
  repeat' first
    | with_reducible assumption
    | with_reducible refine State.setOp_evolves ?_
    | with_reducible refine State.queuePages_evolves ?_
    | (extract_lets +onlyGivenNames x; clear_value (hx : x = _); with_reducible refine Evolves.cut s hx ?_ (fun _ => ?_))
    | (extract_lets +onlyGivenNames x; clear_value (hx : x = _); with_reducible refine EvolvesFst.cut s hx ?_ (fun _ => ?_))
    | (extract_lets +onlyGivenNames x; with_reducible refine Evolves.local_fun x ?_; subst x; beta_reduce)
    | (extract_lets +onlyGivenNames x; clear_value (hx : x = _))
    | extract_lets +onlyGivenNames x
    | with_reducible refine Evolves.ite ?_ ?_
    | with_reducible refine Evolves.foldl (fun _ _ _ => ?_) ?_
    | with_reducible refine EvolvesFst.foldl (fun _ _ _ => ?_) ?_
    | split
    | refine Evolves.of_pair (by with_reducible assumption) ?_
    | refine Evolves.of_some (by with_reducible assumption) ?_
    | fail_if_no_progress with_reducible refine Evolves.other ?_
    | with_reducible refine Evolves.fields (by with_reducible assumption)
    | refine Evolves.fields (h := ?_)
    | fail

theorem State.landed_evolves {s t : State} {a1 : Batch} {a2 : Nat} (h : Evolves s t) :
    Evolves s (State.landed t a1 a2) := by
  unfold State.landed
  repeat' first
    | with_reducible assumption
    | with_reducible refine State.setCounter_evolves ?_
    | (extract_lets +onlyGivenNames x; clear_value (hx : x = _); with_reducible refine Evolves.cut s hx ?_ (fun _ => ?_))
    | (extract_lets +onlyGivenNames x; clear_value (hx : x = _); with_reducible refine EvolvesFst.cut s hx ?_ (fun _ => ?_))
    | (extract_lets +onlyGivenNames x; with_reducible refine Evolves.local_fun x ?_; subst x; beta_reduce)
    | (extract_lets +onlyGivenNames x; clear_value (hx : x = _))
    | extract_lets +onlyGivenNames x
    | with_reducible refine Evolves.ite ?_ ?_
    | with_reducible refine Evolves.foldl (fun _ _ _ => ?_) ?_
    | with_reducible refine EvolvesFst.foldl (fun _ _ _ => ?_) ?_
    | split
    | refine Evolves.of_pair (by with_reducible assumption) ?_
    | refine Evolves.of_some (by with_reducible assumption) ?_
    | fail

theorem State.feedRecons_evolves {s t : State} {a1 : Batch} (h : Evolves s t) :
    Evolves s (State.feedRecons t a1) := by
  unfold State.feedRecons
  repeat' first
    | with_reducible assumption
    | with_reducible refine State.setRecon_evolves ?_
    | with_reducible refine State.reconEnd_evolves ?_
    | (extract_lets +onlyGivenNames x; clear_value (hx : x = _); with_reducible refine Evolves.cut s hx ?_ (fun _ => ?_))
    | (extract_lets +onlyGivenNames x; clear_value (hx : x = _); with_reducible refine EvolvesFst.cut s hx ?_ (fun _ => ?_))
    | (extract_lets +onlyGivenNames x; with_reducible refine Evolves.local_fun x ?_; subst x; beta_reduce)
    | (extract_lets +onlyGivenNames x; clear_value (hx : x = _))
    | extract_lets +onlyGivenNames x
    | with_reducible refine Evolves.ite ?_ ?_
    | with_reducible refine Evolves.foldl (fun _ _ _ => ?_) ?_
    | with_reducible refine EvolvesFst.foldl (fun _ _ _ => ?_) ?_
    | split
    | refine Evolves.of_pair (by with_reducible assumption) ?_
    | refine Evolves.of_some (by with_reducible assumption) ?_
    | fail_if_no_progress with_reducible refine Evolves.other ?_
    | with_reducible refine Evolves.fields (by with_reducible assumption)
    | refine Evolves.fields (h := ?_)
    | fail

theorem State.startWrites_evolves {s t : State} {a1 : Nat} {a2 : List (Nat × Stored)} (h : Evolves s t) :
    Evolves s (State.startWrites t a1 a2) := by
  unfold State.startWrites
  repeat' first
    | with_reducible assumption
    | with_reducible refine State.cancelBatch_evolves ?_
    | with_reducible refine State.holdRefused_evolves ?_
    | with_reducible refine State.draw_evolves ?_
    | with_reducible refine State.setBatch_evolves ?_
    | with_reducible refine State.addChop_evolves ?_
    | with_reducible refine State.feedRecons_evolves ?_
    | with_reducible refine State.closeBatch_evolves ?_
    | (extract_lets +onlyGivenNames x; clear_value (hx : x = _); with_reducible refine Evolves.cut s hx ?_ (fun _ => ?_))
    | (extract_lets +onlyGivenNames x; clear_value (hx : x = _); with_reducible refine EvolvesFst.cut s hx ?_ (fun _ => ?_))
    | (extract_lets +onlyGivenNames x; with_reducible refine Evolves.local_fun x ?_; subst x; beta_reduce)
    | (extract_lets +onlyGivenNames x; clear_value (hx : x = _))
    | extract_lets +onlyGivenNames x
    | with_reducible refine Evolves.ite ?_ ?_
    | with_reducible refine Evolves.foldl (fun _ _ _ => ?_) ?_
    | with_reducible refine EvolvesFst.foldl (fun _ _ _ => ?_) ?_
    | split
    | with_reducible refine EvolvesFst.pair ?_
    | with_reducible refine EvolvesFst.fst ?_
    | refine Evolves.of_pair (by with_reducible assumption) ?_
    | refine Evolves.of_some (by with_reducible assumption) ?_
    | fail_if_no_progress with_reducible refine Evolves.other ?_
    | with_reducible refine Evolves.fields (by with_reducible assumption)
    | refine Evolves.fields (h := ?_)
    | fail

theorem State.batchReads_evolves {s t : State} {a1 : Nat} {a2 : List Nat} {a3 : Bool} (h : Evolves s t) :
    Evolves s (State.batchReads t a1 a2 a3) := by
  unfold State.batchReads
  repeat' first
    | with_reducible assumption
    | with_reducible refine State.setBatch_evolves ?_
    | with_reducible refine State.addChop_evolves ?_
    | (extract_lets +onlyGivenNames x; clear_value (hx : x = _); with_reducible refine Evolves.cut s hx ?_ (fun _ => ?_))
    | (extract_lets +onlyGivenNames x; clear_value (hx : x = _); with_reducible refine EvolvesFst.cut s hx ?_ (fun _ => ?_))
    | (extract_lets +onlyGivenNames x; with_reducible refine Evolves.local_fun x ?_; subst x; beta_reduce)
    | (extract_lets +onlyGivenNames x; clear_value (hx : x = _))
    | extract_lets +onlyGivenNames x
    | with_reducible refine Evolves.ite ?_ ?_
    | with_reducible refine Evolves.foldl (fun _ _ _ => ?_) ?_
    | with_reducible refine EvolvesFst.foldl (fun _ _ _ => ?_) ?_
    | split
    | refine Evolves.of_pair (by with_reducible assumption) ?_
    | refine Evolves.of_some (by with_reducible assumption) ?_
    | fail_if_no_progress with_reducible refine Evolves.other ?_
    | with_reducible refine Evolves.fields (by with_reducible assumption)
    | refine Evolves.fields (h := ?_)
    | fail

theorem State.convertMeta_evolves {s t : State} {a1 : Nat} {a2 : Batch} {a3 : DirEntry} {a4 : List (Nat × Option Stored)} {a5 : List Nat} (h : Evolves s t) :
    Evolves s (State.convertMeta t a1 a2 a3 a4 a5) := by
  unfold State.convertMeta
  repeat' first
    | with_reducible assumption
    | with_reducible refine State.setOp_evolves ?_
    | with_reducible refine State.setBatch_evolves ?_
    | with_reducible refine State.batchReads_evolves ?_
    | with_reducible refine State.startWrites_evolves ?_
    | (extract_lets +onlyGivenNames x; clear_value (hx : x = _); with_reducible refine Evolves.cut s hx ?_ (fun _ => ?_))
    | (extract_lets +onlyGivenNames x; clear_value (hx : x = _); with_reducible refine EvolvesFst.cut s hx ?_ (fun _ => ?_))
    | (extract_lets +onlyGivenNames x; with_reducible refine Evolves.local_fun x ?_; subst x; beta_reduce)
    | (extract_lets +onlyGivenNames x; clear_value (hx : x = _))
    | extract_lets +onlyGivenNames x
    | with_reducible refine Evolves.ite ?_ ?_
    | with_reducible refine Evolves.foldl (fun _ _ _ => ?_) ?_
    | with_reducible refine EvolvesFst.foldl (fun _ _ _ => ?_) ?_
    | split
    | refine Evolves.of_pair (by with_reducible assumption) ?_
    | refine Evolves.of_some (by with_reducible assumption) ?_
    | fail_if_no_progress with_reducible refine Evolves.other ?_
    | with_reducible refine Evolves.fields (by with_reducible assumption)
    | refine Evolves.fields (h := ?_)
    | fail

theorem State.metaReady_evolves {s t : State} {a1 : Nat} {a2 : Batch} {a3 : MediaOp} (h : Evolves s t) :
    Evolves s (State.metaReady t a1 a2 a3) := by
  unfold State.metaReady
  repeat' first
    | with_reducible assumption
    | with_reducible refine State.addChop_evolves ?_
    | with_reducible refine State.setBatch_evolves ?_
    | with_reducible refine State.feedRecons_evolves ?_
    | with_reducible refine State.closeBatch_evolves ?_
    | with_reducible refine State.convertMeta_evolves ?_
    | with_reducible refine State.startWrites_evolves ?_
    | with_reducible refine State.setOp_evolves ?_
    | with_reducible refine State.lineLost_evolves ?_
    | (extract_lets +onlyGivenNames x; clear_value (hx : x = _); with_reducible refine Evolves.cut s hx ?_ (fun _ => ?_))
    | (extract_lets +onlyGivenNames x; clear_value (hx : x = _); with_reducible refine EvolvesFst.cut s hx ?_ (fun _ => ?_))
    | (extract_lets +onlyGivenNames x; with_reducible refine Evolves.local_fun x ?_; subst x; beta_reduce)
    | (extract_lets +onlyGivenNames x; clear_value (hx : x = _))
    | extract_lets +onlyGivenNames x
    | with_reducible refine Evolves.ite ?_ ?_
    | with_reducible refine Evolves.foldl (fun _ _ _ => ?_) ?_
    | with_reducible refine EvolvesFst.foldl (fun _ _ _ => ?_) ?_
    | split
    | refine Evolves.of_pair (by with_reducible assumption) ?_
    | refine Evolves.of_some (by with_reducible assumption) ?_
    | fail_if_no_progress with_reducible refine Evolves.other ?_
    | with_reducible refine Evolves.fields (by with_reducible assumption)
    | refine Evolves.fields (h := ?_)
    | fail

theorem State.batchReady_evolves {s t : State} {a1 : Nat} (h : Evolves s t) :
    Evolves s (State.batchReady t a1) := by
  unfold State.batchReady
  repeat' first
    | with_reducible assumption
    | with_reducible refine State.metaReady_evolves ?_
    | with_reducible refine State.startWrites_evolves ?_
    | (extract_lets +onlyGivenNames x; clear_value (hx : x = _); with_reducible refine Evolves.cut s hx ?_ (fun _ => ?_))
    | (extract_lets +onlyGivenNames x; clear_value (hx : x = _); with_reducible refine EvolvesFst.cut s hx ?_ (fun _ => ?_))
    | (extract_lets +onlyGivenNames x; with_reducible refine Evolves.local_fun x ?_; subst x; beta_reduce)
    | (extract_lets +onlyGivenNames x; clear_value (hx : x = _))
    | extract_lets +onlyGivenNames x
    | with_reducible refine Evolves.ite ?_ ?_
    | split
    | refine Evolves.of_pair (by with_reducible assumption) ?_
    | refine Evolves.of_some (by with_reducible assumption) ?_
    | fail

theorem State.batchKnow_evolves {s t : State} {a1 : Nat} {a2 : Nat} {a3 : Option Stored} {a4 : List (Nat × Stored)} {a5 : Bool} (h : Evolves s t) :
    Evolves s (State.batchKnow t a1 a2 a3 a4 a5) := by
  unfold State.batchKnow
  repeat' first
    | with_reducible assumption
    | with_reducible refine State.setBatch_evolves ?_
    | with_reducible refine State.batchReady_evolves ?_
    | (extract_lets +onlyGivenNames x; clear_value (hx : x = _); with_reducible refine Evolves.cut s hx ?_ (fun _ => ?_))
    | (extract_lets +onlyGivenNames x; clear_value (hx : x = _); with_reducible refine EvolvesFst.cut s hx ?_ (fun _ => ?_))
    | (extract_lets +onlyGivenNames x; with_reducible refine Evolves.local_fun x ?_; subst x; beta_reduce)
    | (extract_lets +onlyGivenNames x; clear_value (hx : x = _))
    | extract_lets +onlyGivenNames x
    | with_reducible refine Evolves.ite ?_ ?_
    | split
    | refine Evolves.of_pair (by with_reducible assumption) ?_
    | refine Evolves.of_some (by with_reducible assumption) ?_
    | fail_if_no_progress with_reducible refine Evolves.other ?_
    | with_reducible refine Evolves.fields (by with_reducible assumption)
    | refine Evolves.fields (h := ?_)
    | fail

theorem State.batchRecon_evolves {s t : State} {a1 : Nat} (h : Evolves s t) :
    Evolves s (State.batchRecon t a1) := by
  unfold State.batchRecon
  repeat' first
    | with_reducible assumption
    | with_reducible refine State.setRecon_evolves ?_
    | with_reducible refine State.addChop_evolves ?_
    | with_reducible refine State.batchKnow_evolves ?_
    | (extract_lets +onlyGivenNames x; clear_value (hx : x = _); with_reducible refine Evolves.cut s hx ?_ (fun _ => ?_))
    | (extract_lets +onlyGivenNames x; clear_value (hx : x = _); with_reducible refine EvolvesFst.cut s hx ?_ (fun _ => ?_))
    | (extract_lets +onlyGivenNames x; with_reducible refine Evolves.local_fun x ?_; subst x; beta_reduce)
    | (extract_lets +onlyGivenNames x; clear_value (hx : x = _))
    | extract_lets +onlyGivenNames x
    | with_reducible refine Evolves.ite ?_ ?_
    | split
    | with_reducible refine EvolvesFst.pair ?_
    | with_reducible refine EvolvesFst.fst ?_
    | refine Evolves.of_pair (by with_reducible assumption) ?_
    | refine Evolves.of_some (by with_reducible assumption) ?_
    | fail

theorem State.batchGot_evolves {s t : State} {a1 : Nat} {a2 : Nat} {a3 : Option Stored} {a4 : Bool} (h : Evolves s t) :
    Evolves s (State.batchGot t a1 a2 a3 a4) := by
  unfold State.batchGot
  repeat' first
    | with_reducible assumption
    | with_reducible refine State.batchKnow_evolves ?_
    | with_reducible refine State.count_evolves ?_
    | with_reducible refine State.startRecon_evolves ?_
    | with_reducible refine State.batchRecon_evolves ?_
    | (extract_lets +onlyGivenNames x; clear_value (hx : x = _); with_reducible refine Evolves.cut s hx ?_ (fun _ => ?_))
    | (extract_lets +onlyGivenNames x; clear_value (hx : x = _); with_reducible refine EvolvesFst.cut s hx ?_ (fun _ => ?_))
    | (extract_lets +onlyGivenNames x; with_reducible refine Evolves.local_fun x ?_; subst x; beta_reduce)
    | (extract_lets +onlyGivenNames x; clear_value (hx : x = _))
    | extract_lets +onlyGivenNames x
    | with_reducible refine Evolves.ite ?_ ?_
    | split
    | refine Evolves.of_pair (by with_reducible assumption) ?_
    | refine Evolves.of_some (by with_reducible assumption) ?_
    | fail

theorem State.openStripe_evolves {s t : State} {a1 : Nat} {a2 : Nat} (h : Evolves s t) :
    Evolves s (State.openStripe t a1 a2) := by
  unfold State.openStripe
  repeat' first
    | with_reducible assumption
    | with_reducible refine State.dropWrite_evolves ?_
    | with_reducible refine State.rekeyDone_evolves ?_
    | with_reducible refine State.setOp_evolves ?_
    | with_reducible refine State.bump_evolves ?_
    | with_reducible refine State.setBatch_evolves ?_
    | with_reducible refine State.count_evolves ?_
    | with_reducible refine State.batchReads_evolves ?_
    | with_reducible refine State.batchReady_evolves ?_
    | (extract_lets +onlyGivenNames x; clear_value (hx : x = _); with_reducible refine Evolves.cut s hx ?_ (fun _ => ?_))
    | (extract_lets +onlyGivenNames x; clear_value (hx : x = _); with_reducible refine EvolvesFst.cut s hx ?_ (fun _ => ?_))
    | (extract_lets +onlyGivenNames x; with_reducible refine Evolves.local_fun x ?_; subst x; beta_reduce)
    | (extract_lets +onlyGivenNames x; clear_value (hx : x = _))
    | extract_lets +onlyGivenNames x
    | with_reducible refine Evolves.ite ?_ ?_
    | with_reducible refine Evolves.foldl (fun _ _ _ => ?_) ?_
    | with_reducible refine EvolvesFst.foldl (fun _ _ _ => ?_) ?_
    | split
    | refine Evolves.of_pair (by with_reducible assumption) ?_
    | refine Evolves.of_some (by with_reducible assumption) ?_
    | fail_if_no_progress with_reducible refine Evolves.other ?_
    | with_reducible refine Evolves.fields (by with_reducible assumption)
    | refine Evolves.fields (h := ?_)
    | fail

theorem State.openLoop_evolves {s t : State} {a0 : Nat} (h : Evolves s t) :
    Evolves s (State.openLoop a0 t) := by
  induction a0 generalizing t with
  | zero => exact h
  | succ n ih =>
    unfold State.openLoop
    repeat' first
      | with_reducible assumption
      | with_reducible refine ih ?_
      | with_reducible refine State.openStripe_evolves ?_
      | (extract_lets +onlyGivenNames x; clear_value (hx : x = _); with_reducible refine Evolves.cut s hx ?_ (fun _ => ?_))
      | (extract_lets +onlyGivenNames x; clear_value (hx : x = _); with_reducible refine EvolvesFst.cut s hx ?_ (fun _ => ?_))
      | (extract_lets +onlyGivenNames x; with_reducible refine Evolves.local_fun x ?_; subst x; beta_reduce)
      | (extract_lets +onlyGivenNames x; clear_value (hx : x = _))
      | extract_lets +onlyGivenNames x
      | with_reducible refine Evolves.ite ?_ ?_
      | split
      | refine Evolves.of_pair (by with_reducible assumption) ?_
      | refine Evolves.of_some (by with_reducible assumption) ?_
      | fail

theorem State.startWaiting_evolves {s t : State} (h : Evolves s t) :
    Evolves s (State.startWaiting t) := by
  unfold State.startWaiting
  repeat' first
    | with_reducible assumption
    | with_reducible refine State.setRecon_evolves ?_
    | with_reducible refine State.startRecon_evolves ?_
    | with_reducible refine State.apertureWrite_evolves ?_
    | (extract_lets +onlyGivenNames x; clear_value (hx : x = _); with_reducible refine Evolves.cut s hx ?_ (fun _ => ?_))
    | (extract_lets +onlyGivenNames x; clear_value (hx : x = _); with_reducible refine EvolvesFst.cut s hx ?_ (fun _ => ?_))
    | (extract_lets +onlyGivenNames x; with_reducible refine Evolves.local_fun x ?_; subst x; beta_reduce)
    | (extract_lets +onlyGivenNames x; clear_value (hx : x = _))
    | extract_lets +onlyGivenNames x
    | with_reducible refine Evolves.ite ?_ ?_
    | split
    | refine Evolves.of_pair (by with_reducible assumption) ?_
    | refine Evolves.of_some (by with_reducible assumption) ?_
    | fail

theorem State.settleMedia_evolves {s t : State} (h : Evolves s t) :
    Evolves s (State.settleMedia t) := by
  unfold State.settleMedia
  repeat' first
    | with_reducible assumption
    | with_reducible refine State.openLoop_evolves ?_
    | with_reducible refine State.startWaiting_evolves ?_
    | with_reducible refine State.issueAll_evolves ?_
    | (extract_lets +onlyGivenNames x; clear_value (hx : x = _); with_reducible refine Evolves.cut s hx ?_ (fun _ => ?_))
    | (extract_lets +onlyGivenNames x; clear_value (hx : x = _); with_reducible refine EvolvesFst.cut s hx ?_ (fun _ => ?_))
    | (extract_lets +onlyGivenNames x; with_reducible refine Evolves.local_fun x ?_; subst x; beta_reduce)
    | (extract_lets +onlyGivenNames x; clear_value (hx : x = _))
    | extract_lets +onlyGivenNames x
    | with_reducible refine Evolves.ite ?_ ?_
    | refine Evolves.of_pair (by with_reducible assumption) ?_
    | refine Evolves.of_some (by with_reducible assumption) ?_
    | fail

theorem State.tryHedge_evolves {s t : State} {a1 : Nat} (h : Evolves s t) :
    Evolves s (State.tryHedge t a1) := by
  unfold State.tryHedge
  repeat' first
    | with_reducible assumption
    | with_reducible refine State.limiterAdd_evolves ?_
    | with_reducible refine State.count_evolves ?_
    | with_reducible refine State.modMf_evolves ?_
    | with_reducible refine State.setOp_evolves ?_
    | with_reducible refine State.startRecon_evolves ?_
    | with_reducible refine State.flag_evolves ?_
    | (extract_lets +onlyGivenNames x; clear_value (hx : x = _); with_reducible refine Evolves.cut s hx ?_ (fun _ => ?_))
    | (extract_lets +onlyGivenNames x; clear_value (hx : x = _); with_reducible refine EvolvesFst.cut s hx ?_ (fun _ => ?_))
    | (extract_lets +onlyGivenNames x; with_reducible refine Evolves.local_fun x ?_; subst x; beta_reduce)
    | (extract_lets +onlyGivenNames x; clear_value (hx : x = _))
    | extract_lets +onlyGivenNames x
    | with_reducible refine Evolves.ite ?_ ?_
    | with_reducible refine Evolves.foldl (fun _ _ _ => ?_) ?_
    | with_reducible refine EvolvesFst.foldl (fun _ _ _ => ?_) ?_
    | split
    | refine Evolves.of_pair (by with_reducible assumption) ?_
    | refine Evolves.of_some (by with_reducible assumption) ?_
    | fail_if_no_progress with_reducible refine Evolves.other ?_
    | with_reducible refine Evolves.fields (by with_reducible assumption)
    | refine Evolves.fields (h := ?_)
    | fail

theorem State.latency_evolves {s t : State} {a1 : Nat} {a2 : Nat} (h : Evolves s t) :
    Evolves s (State.latency t a1 a2) := by
  unfold State.latency
  repeat' first
    | with_reducible assumption
    | with_reducible refine State.draw_evolves ?_
    | with_reducible refine State.modMf_evolves ?_
    | with_reducible refine State.count_evolves ?_
    | (extract_lets +onlyGivenNames x; clear_value (hx : x = _); with_reducible refine Evolves.cut s hx ?_ (fun _ => ?_))
    | (extract_lets +onlyGivenNames x; clear_value (hx : x = _); with_reducible refine EvolvesFst.cut s hx ?_ (fun _ => ?_))
    | (extract_lets +onlyGivenNames x; with_reducible refine Evolves.local_fun x ?_; subst x; beta_reduce)
    | (extract_lets +onlyGivenNames x; clear_value (hx : x = _))
    | extract_lets +onlyGivenNames x
    | with_reducible refine Evolves.ite ?_ ?_
    | refine Evolves.of_pair (by with_reducible assumption) ?_
    | refine Evolves.of_some (by with_reducible assumption) ?_
    | fail_if_no_progress with_reducible refine Evolves.other ?_
    | with_reducible refine Evolves.fields (by with_reducible assumption)
    | refine Evolves.fields (h := ?_)
    | fail

theorem State.primaryAnswer_evolves {s t : State} {a1 : Nat} {a2 : ChanOp} {a3 : ReadStatus} (h : Evolves s t) :
    Evolves s (State.primaryAnswer t a1 a2 a3) := by
  unfold State.primaryAnswer
  repeat' first
    | with_reducible assumption
    | with_reducible refine State.count_evolves ?_
    | with_reducible refine State.setRecon_evolves ?_
    | with_reducible refine State.latency_evolves ?_
    | with_reducible refine State.finish_evolves ?_
    | with_reducible refine State.draw_evolves ?_
    | with_reducible refine State.startRecon_evolves ?_
    | with_reducible refine State.tryHedge_evolves ?_
    | (extract_lets +onlyGivenNames x; clear_value (hx : x = _); with_reducible refine Evolves.cut s hx ?_ (fun _ => ?_))
    | (extract_lets +onlyGivenNames x; clear_value (hx : x = _); with_reducible refine EvolvesFst.cut s hx ?_ (fun _ => ?_))
    | (extract_lets +onlyGivenNames x; with_reducible refine Evolves.local_fun x ?_; subst x; beta_reduce)
    | (extract_lets +onlyGivenNames x; clear_value (hx : x = _))
    | extract_lets +onlyGivenNames x
    | with_reducible refine Evolves.ite ?_ ?_
    | split
    | refine Evolves.of_pair (by with_reducible assumption) ?_
    | refine Evolves.of_some (by with_reducible assumption) ?_
    | fail_if_no_progress with_reducible refine Evolves.other ?_
    | with_reducible refine Evolves.fields (by with_reducible assumption)
    | refine Evolves.fields (h := ?_)
    | fail

theorem State.readAnswer_evolves {s t : State} {a1 : ChanOp} {a2 : ReadStatus} (h : Evolves s t) :
    Evolves s (State.readAnswer t a1 a2) := by
  unfold State.readAnswer
  repeat' first
    | with_reducible assumption
    | with_reducible refine State.primaryAnswer_evolves ?_
    | with_reducible refine State.reconGot_evolves ?_
    | with_reducible refine State.batchRecon_evolves ?_
    | with_reducible refine State.batchGot_evolves ?_
    | (extract_lets +onlyGivenNames x; clear_value (hx : x = _); with_reducible refine Evolves.cut s hx ?_ (fun _ => ?_))
    | (extract_lets +onlyGivenNames x; clear_value (hx : x = _); with_reducible refine EvolvesFst.cut s hx ?_ (fun _ => ?_))
    | (extract_lets +onlyGivenNames x; with_reducible refine Evolves.local_fun x ?_; subst x; beta_reduce)
    | (extract_lets +onlyGivenNames x; clear_value (hx : x = _))
    | extract_lets +onlyGivenNames x
    | with_reducible refine Evolves.ite ?_ ?_
    | split
    | refine Evolves.of_pair (by with_reducible assumption) ?_
    | refine Evolves.of_some (by with_reducible assumption) ?_
    | with_reducible refine EvolvesOpt.getD ?_ ?_
    | fail

theorem State.writeGone_evolves {s t : State} {a1 : ChanOp} (h : Evolves s t) :
    Evolves s (State.writeGone t a1) := by
  unfold State.writeGone
  repeat' first
    | with_reducible assumption
    | with_reducible refine State.setBatch_evolves ?_
    | with_reducible refine State.closeBatch_evolves ?_
    | with_reducible refine State.emit_evolves ?_
    | (extract_lets +onlyGivenNames x; clear_value (hx : x = _); with_reducible refine Evolves.cut s hx ?_ (fun _ => ?_))
    | (extract_lets +onlyGivenNames x; clear_value (hx : x = _); with_reducible refine EvolvesFst.cut s hx ?_ (fun _ => ?_))
    | (extract_lets +onlyGivenNames x; with_reducible refine Evolves.local_fun x ?_; subst x; beta_reduce)
    | (extract_lets +onlyGivenNames x; clear_value (hx : x = _))
    | extract_lets +onlyGivenNames x
    | with_reducible refine Evolves.ite ?_ ?_
    | split
    | refine Evolves.of_pair (by with_reducible assumption) ?_
    | refine Evolves.of_some (by with_reducible assumption) ?_
    | fail_if_no_progress with_reducible refine Evolves.other ?_
    | with_reducible refine Evolves.fields (by with_reducible assumption)
    | refine Evolves.fields (h := ?_)
    | fail

theorem State.huskChannel_evolves {s t : State} {a1 : Channel} (h : Evolves s t) :
    Evolves s (State.huskChannel t a1) := by
  unfold State.huskChannel
  repeat' first
    | with_reducible assumption
    | with_reducible refine State.wr_evolves ?_
    | with_reducible refine State.modMf_evolves ?_
    | with_reducible refine State.setChop_evolves ?_
    | with_reducible refine State.writeGone_evolves ?_
    | with_reducible refine State.readAnswer_evolves ?_
    | (extract_lets +onlyGivenNames x; clear_value (hx : x = _); with_reducible refine Evolves.cut s hx ?_ (fun _ => ?_))
    | (extract_lets +onlyGivenNames x; clear_value (hx : x = _); with_reducible refine EvolvesFst.cut s hx ?_ (fun _ => ?_))
    | (extract_lets +onlyGivenNames x; with_reducible refine Evolves.local_fun x ?_; subst x; beta_reduce)
    | (extract_lets +onlyGivenNames x; clear_value (hx : x = _))
    | extract_lets +onlyGivenNames x
    | with_reducible refine Evolves.ite ?_ ?_
    | with_reducible refine Evolves.foldl (fun _ _ _ => ?_) ?_
    | with_reducible refine EvolvesFst.foldl (fun _ _ _ => ?_) ?_
    | split
    | refine Evolves.of_pair (by with_reducible assumption) ?_
    | refine Evolves.of_some (by with_reducible assumption) ?_
    | fail_if_no_progress with_reducible refine Evolves.other ?_
    | with_reducible refine Evolves.fields (by with_reducible assumption)
    | refine Evolves.fields (h := ?_)
    | fail

end Sys2Proof.Machine
end

