-- ==== Sys2Proof/Laws/EvMedia.lean ====
section
/-! SUPPORT. What each operation of Sys2Proof/Machine/Media.lean does to the whole machine: one `Evolves` lemma an operation. -/

set_option linter.all false
set_option Elab.async false

namespace Sys2Proof.Machine

open Host (Outcome)

theorem execMediaReadRequest_evolves {s t : State} {a0 : Nat} (h : Evolves s t) :
    EvolvesOut s (execMediaReadRequest a0 t) := by
  unfold execMediaReadRequest
  repeat' first
    | with_reducible assumption
    | with_reducible refine State.finish_evolves ?_
    | with_reducible refine State.startRecon_evolves ?_
    | with_reducible refine State.setOp_evolves ?_
    | with_reducible refine State.addChop_evolves ?_
    | with_reducible refine State.settleMedia_evolves ?_
    | (extract_lets +onlyGivenNames x; clear_value (hx : x = _); with_reducible refine Evolves.cut s hx ?_ (fun _ => ?_))
    | (extract_lets +onlyGivenNames x; clear_value (hx : x = _); with_reducible refine EvolvesFst.cut s hx ?_ (fun _ => ?_))
    | (extract_lets +onlyGivenNames x; with_reducible refine Evolves.local_fun x ?_; subst x; beta_reduce)
    | (extract_lets +onlyGivenNames x; clear_value (hx : x = _))
    | extract_lets +onlyGivenNames x
    | with_reducible refine Evolves.ite ?_ ?_
    | with_reducible refine EvolvesOut.ite ?_ ?_
    | with_reducible refine EvolvesOut.next ?_
    | with_reducible exact EvolvesOut.fault
    | split
    | refine Evolves.of_pair (by with_reducible assumption) ?_
    | refine Evolves.of_some (by with_reducible assumption) ?_
    | fail_if_no_progress with_reducible refine Evolves.other ?_
    | with_reducible refine Evolves.fields (by with_reducible assumption)
    | refine Evolves.fields (h := ?_)
    | fail

theorem State.arriveDropped_evolves {s t : State} {a1 : Nat} {a2 : MediaOp} (h : Evolves s t) :
    EvolvesOpt s (State.arriveDropped t a1 a2) := by
  unfold State.arriveDropped
  repeat' first
    | with_reducible assumption
    | with_reducible refine State.dropWrite_evolves ?_
    | (extract_lets +onlyGivenNames x; clear_value (hx : x = _); with_reducible refine Evolves.cut s hx ?_ (fun _ => ?_))
    | (extract_lets +onlyGivenNames x; clear_value (hx : x = _); with_reducible refine EvolvesFst.cut s hx ?_ (fun _ => ?_))
    | (extract_lets +onlyGivenNames x; with_reducible refine Evolves.local_fun x ?_; subst x; beta_reduce)
    | (extract_lets +onlyGivenNames x; clear_value (hx : x = _))
    | extract_lets +onlyGivenNames x
    | with_reducible refine Evolves.ite ?_ ?_
    | with_reducible refine EvolvesOpt.ite ?_ ?_
    | with_reducible exact EvolvesOpt.none
    | with_reducible refine EvolvesOpt.some ?_
    | with_reducible refine EvolvesOpt.map (fun _ => ?_)
    | with_reducible refine EvolvesOpt.bind (fun _ => ?_)
    | split
    | refine Evolves.of_pair (by with_reducible assumption) ?_
    | refine Evolves.of_some (by with_reducible assumption) ?_
    | fail

theorem execMediaLineWrite_evolves {s t : State} {a0 : Nat} (h : Evolves s t) :
    EvolvesOut s (execMediaLineWrite a0 t) := by
  unfold execMediaLineWrite
  repeat' first
    | with_reducible assumption
    | with_reducible refine State.arriveDropped_evolves ?_
    | with_reducible refine State.settleMedia_evolves ?_
    | with_reducible refine State.coalesce_evolves ?_
    | with_reducible refine State.releaseHeld_evolves ?_
    | (extract_lets +onlyGivenNames x; clear_value (hx : x = _); with_reducible refine Evolves.cut s hx ?_ (fun _ => ?_))
    | (extract_lets +onlyGivenNames x; clear_value (hx : x = _); with_reducible refine EvolvesFst.cut s hx ?_ (fun _ => ?_))
    | (extract_lets +onlyGivenNames x; with_reducible refine Evolves.local_fun x ?_; subst x; beta_reduce)
    | (extract_lets +onlyGivenNames x; clear_value (hx : x = _))
    | extract_lets +onlyGivenNames x
    | with_reducible refine Evolves.ite ?_ ?_
    | with_reducible refine EvolvesOut.ite ?_ ?_
    | with_reducible refine EvolvesOut.next ?_
    | with_reducible exact EvolvesOut.fault
    | split
    | refine Evolves.of_pair (by with_reducible assumption) ?_
    | refine Evolves.of_some (by with_reducible assumption) ?_
    | fail

theorem execMetadataOnlyWrite_evolves {s t : State} {a0 : Nat} (h : Evolves s t) :
    EvolvesOut s (execMetadataOnlyWrite a0 t) := by
  unfold execMetadataOnlyWrite
  repeat' first
    | with_reducible assumption
    | with_reducible refine State.arriveDropped_evolves ?_
    | with_reducible refine State.settleMedia_evolves ?_
    | with_reducible refine State.releaseHeld_evolves ?_
    | with_reducible refine State.setOp_evolves ?_
    | with_reducible refine State.bump_evolves ?_
    | (extract_lets +onlyGivenNames x; clear_value (hx : x = _); with_reducible refine Evolves.cut s hx ?_ (fun _ => ?_))
    | (extract_lets +onlyGivenNames x; clear_value (hx : x = _); with_reducible refine EvolvesFst.cut s hx ?_ (fun _ => ?_))
    | (extract_lets +onlyGivenNames x; with_reducible refine Evolves.local_fun x ?_; subst x; beta_reduce)
    | (extract_lets +onlyGivenNames x; clear_value (hx : x = _))
    | extract_lets +onlyGivenNames x
    | with_reducible refine Evolves.ite ?_ ?_
    | with_reducible refine EvolvesOut.ite ?_ ?_
    | with_reducible refine EvolvesOut.next ?_
    | with_reducible exact EvolvesOut.fault
    | split
    | refine Evolves.of_pair (by with_reducible assumption) ?_
    | refine Evolves.of_some (by with_reducible assumption) ?_
    | fail_if_no_progress with_reducible refine Evolves.other ?_
    | with_reducible refine Evolves.fields (by with_reducible assumption)
    | refine Evolves.fields (h := ?_)
    | fail

theorem execCoalesceWindowExpiry_evolves {s t : State} {a0 : Group} {a1 : Nat} (h : Evolves s t) :
    EvolvesOut s (execCoalesceWindowExpiry a0 a1 t) := by
  unfold execCoalesceWindowExpiry
  repeat' first
    | with_reducible assumption
    | with_reducible refine State.releaseHeld_evolves ?_
    | with_reducible refine State.settleMedia_evolves ?_
    | (extract_lets +onlyGivenNames x; clear_value (hx : x = _); with_reducible refine Evolves.cut s hx ?_ (fun _ => ?_))
    | (extract_lets +onlyGivenNames x; clear_value (hx : x = _); with_reducible refine EvolvesFst.cut s hx ?_ (fun _ => ?_))
    | (extract_lets +onlyGivenNames x; with_reducible refine Evolves.local_fun x ?_; subst x; beta_reduce)
    | (extract_lets +onlyGivenNames x; clear_value (hx : x = _))
    | extract_lets +onlyGivenNames x
    | with_reducible refine Evolves.ite ?_ ?_
    | with_reducible refine EvolvesOut.ite ?_ ?_
    | with_reducible refine EvolvesOut.next ?_
    | with_reducible exact EvolvesOut.fault
    | refine Evolves.of_pair (by with_reducible assumption) ?_
    | refine Evolves.of_some (by with_reducible assumption) ?_
    | fail

theorem execDispatchPlaceFree_evolves {s t : State} {a0 : Channel} (h : Evolves s t) :
    EvolvesOut s (execDispatchPlaceFree a0 t) := by
  unfold execDispatchPlaceFree
  repeat' first
    | with_reducible assumption
    | with_reducible refine State.placeChop_evolves ?_
    | with_reducible refine State.issueAll_evolves ?_
    | (extract_lets +onlyGivenNames x; clear_value (hx : x = _); with_reducible refine Evolves.cut s hx ?_ (fun _ => ?_))
    | (extract_lets +onlyGivenNames x; clear_value (hx : x = _); with_reducible refine EvolvesFst.cut s hx ?_ (fun _ => ?_))
    | (extract_lets +onlyGivenNames x; with_reducible refine Evolves.local_fun x ?_; subst x; beta_reduce)
    | (extract_lets +onlyGivenNames x; clear_value (hx : x = _))
    | extract_lets +onlyGivenNames x
    | with_reducible refine Evolves.ite ?_ ?_
    | with_reducible refine EvolvesOut.ite ?_ ?_
    | with_reducible refine EvolvesOut.next ?_
    | with_reducible exact EvolvesOut.fault
    | split
    | refine Evolves.of_pair (by with_reducible assumption) ?_
    | refine Evolves.of_some (by with_reducible assumption) ?_
    | fail

theorem execMediaReadStatus_evolves {s t : State} {a0 : Nat} {a1 : ReadStatus} (h : Evolves s t) :
    EvolvesOut s (execMediaReadStatus a0 a1 t) := by
  unfold execMediaReadStatus
  repeat' first
    | with_reducible assumption
    | with_reducible refine State.count_evolves ?_
    | with_reducible refine State.minor_evolves ?_
    | with_reducible refine State.major_evolves ?_
    | with_reducible refine State.setChop_evolves ?_
    | with_reducible refine State.readAnswer_evolves ?_
    | with_reducible refine State.issueAll_evolves ?_
    | with_reducible refine State.settleMedia_evolves ?_
    | (extract_lets +onlyGivenNames x; clear_value (hx : x = _); with_reducible refine Evolves.cut s hx ?_ (fun _ => ?_))
    | (extract_lets +onlyGivenNames x; clear_value (hx : x = _); with_reducible refine EvolvesFst.cut s hx ?_ (fun _ => ?_))
    | (extract_lets +onlyGivenNames x; with_reducible refine Evolves.local_fun x ?_; subst x; beta_reduce)
    | (extract_lets +onlyGivenNames x; clear_value (hx : x = _))
    | extract_lets +onlyGivenNames x
    | with_reducible refine Evolves.ite ?_ ?_
    | with_reducible refine EvolvesOut.ite ?_ ?_
    | with_reducible refine EvolvesOut.next ?_
    | with_reducible exact EvolvesOut.fault
    | split
    | refine Evolves.of_pair (by with_reducible assumption) ?_
    | refine Evolves.of_some (by with_reducible assumption) ?_
    | fail_if_no_progress with_reducible refine Evolves.other ?_
    | with_reducible refine Evolves.fields (by with_reducible assumption)
    | refine Evolves.fields (h := ?_)
    | fail

theorem execBusyMigratingReissue_evolves {s t : State} {a0 : Nat} (h : Evolves s t) :
    EvolvesOut s (execBusyMigratingReissue a0 t) := by
  unfold execBusyMigratingReissue
  repeat' first
    | with_reducible assumption
    | with_reducible refine State.setChop_evolves ?_
    | with_reducible refine State.emit_evolves ?_
    | (extract_lets +onlyGivenNames x; clear_value (hx : x = _); with_reducible refine Evolves.cut s hx ?_ (fun _ => ?_))
    | (extract_lets +onlyGivenNames x; clear_value (hx : x = _); with_reducible refine EvolvesFst.cut s hx ?_ (fun _ => ?_))
    | (extract_lets +onlyGivenNames x; with_reducible refine Evolves.local_fun x ?_; subst x; beta_reduce)
    | (extract_lets +onlyGivenNames x; clear_value (hx : x = _))
    | extract_lets +onlyGivenNames x
    | with_reducible refine Evolves.ite ?_ ?_
    | with_reducible refine EvolvesOut.ite ?_ ?_
    | with_reducible refine EvolvesOut.next ?_
    | with_reducible exact EvolvesOut.fault
    | split
    | refine Evolves.of_pair (by with_reducible assumption) ?_
    | refine Evolves.of_some (by with_reducible assumption) ?_
    | fail_if_no_progress with_reducible refine Evolves.other ?_
    | with_reducible refine Evolves.fields (by with_reducible assumption)
    | refine Evolves.fields (h := ?_)
    | fail

theorem execHedgeDeadline_evolves {s t : State} {a0 : Nat} (h : Evolves s t) :
    EvolvesOut s (execHedgeDeadline a0 t) := by
  unfold execHedgeDeadline
  repeat' first
    | with_reducible assumption
    | with_reducible refine State.tryHedge_evolves ?_
    | with_reducible refine State.issueAll_evolves ?_
    | (extract_lets +onlyGivenNames x; clear_value (hx : x = _); with_reducible refine Evolves.cut s hx ?_ (fun _ => ?_))
    | (extract_lets +onlyGivenNames x; clear_value (hx : x = _); with_reducible refine EvolvesFst.cut s hx ?_ (fun _ => ?_))
    | (extract_lets +onlyGivenNames x; with_reducible refine Evolves.local_fun x ?_; subst x; beta_reduce)
    | (extract_lets +onlyGivenNames x; clear_value (hx : x = _))
    | extract_lets +onlyGivenNames x
    | with_reducible refine Evolves.ite ?_ ?_
    | with_reducible refine EvolvesOut.ite ?_ ?_
    | with_reducible refine EvolvesOut.next ?_
    | with_reducible exact EvolvesOut.fault
    | split
    | refine Evolves.of_pair (by with_reducible assumption) ?_
    | refine Evolves.of_some (by with_reducible assumption) ?_
    | fail

theorem State.rebuiltLine_evolves {s t : State} {a1 : Nat} (h : Evolves s t) :
    Evolves s (State.rebuiltLine t a1) := by
  unfold State.rebuiltLine
  repeat' first
    | with_reducible assumption
    | with_reducible refine State.wr_evolves ?_
    | with_reducible refine State.modMf_evolves ?_
    | with_reducible refine State.count_evolves ?_
    | with_reducible refine State.notice_evolves ?_
    | (extract_lets +onlyGivenNames x; clear_value (hx : x = _); with_reducible refine Evolves.cut s hx ?_ (fun _ => ?_))
    | (extract_lets +onlyGivenNames x; clear_value (hx : x = _); with_reducible refine EvolvesFst.cut s hx ?_ (fun _ => ?_))
    | (extract_lets +onlyGivenNames x; with_reducible refine Evolves.local_fun x ?_; subst x; beta_reduce)
    | (extract_lets +onlyGivenNames x; clear_value (hx : x = _))
    | extract_lets +onlyGivenNames x
    | with_reducible refine Evolves.ite ?_ ?_
    | split
    | refine Evolves.of_pair (by with_reducible assumption) ?_
    | refine Evolves.of_some (by with_reducible assumption) ?_
    | fail_if_no_progress with_reducible refine Evolves.other ?_
    | with_reducible refine Evolves.fields (by with_reducible assumption)
    | refine Evolves.fields (h := ?_)
    | fail

theorem execMediaWriteStatus_evolves {s t : State} {a0 : Nat} {a1 : Bool} (h : Evolves s t) :
    EvolvesOut s (execMediaWriteStatus a0 a1 t) := by
  unfold execMediaWriteStatus
  repeat' first
    | with_reducible assumption
    | with_reducible refine State.setMedia_evolves ?_
    | with_reducible refine State.setChop_evolves ?_
    | with_reducible refine State.landed_evolves ?_
    | with_reducible refine State.setBatch_evolves ?_
    | with_reducible refine State.closeBatch_evolves ?_
    | with_reducible refine State.settleMedia_evolves ?_
    | with_reducible refine State.iaEnd_evolves ?_
    | with_reducible refine State.rebuiltLine_evolves ?_
    | with_reducible refine State.major_evolves ?_
    | with_reducible refine State.writeGone_evolves ?_
    | with_reducible refine State.huskChannel_evolves ?_
    | with_reducible refine State.escalate_evolves ?_
    | (extract_lets +onlyGivenNames x; clear_value (hx : x = _); with_reducible refine Evolves.cut s hx ?_ (fun _ => ?_))
    | (extract_lets +onlyGivenNames x; clear_value (hx : x = _); with_reducible refine EvolvesFst.cut s hx ?_ (fun _ => ?_))
    | (extract_lets +onlyGivenNames x; with_reducible refine Evolves.local_fun x ?_; subst x; beta_reduce)
    | (extract_lets +onlyGivenNames x; clear_value (hx : x = _))
    | extract_lets +onlyGivenNames x
    | with_reducible refine Evolves.ite ?_ ?_
    | with_reducible refine EvolvesOut.ite ?_ ?_
    | with_reducible refine EvolvesOut.next ?_
    | with_reducible exact EvolvesOut.fault
    | split
    | refine Evolves.of_pair (by with_reducible assumption) ?_
    | refine Evolves.of_some (by with_reducible assumption) ?_
    | with_reducible refine EvolvesOpt.getD ?_ ?_
    | fail_if_no_progress with_reducible refine Evolves.other ?_
    | with_reducible refine Evolves.fields (by with_reducible assumption)
    | refine Evolves.fields (h := ?_)
    | fail

theorem execWriteRetry_evolves {s t : State} {a0 : Nat} (h : Evolves s t) :
    EvolvesOut s (execWriteRetry a0 t) := by
  unfold execWriteRetry
  repeat' first
    | with_reducible assumption
    | with_reducible refine State.setChop_evolves ?_
    | with_reducible refine State.emit_evolves ?_
    | (extract_lets +onlyGivenNames x; clear_value (hx : x = _); with_reducible refine Evolves.cut s hx ?_ (fun _ => ?_))
    | (extract_lets +onlyGivenNames x; clear_value (hx : x = _); with_reducible refine EvolvesFst.cut s hx ?_ (fun _ => ?_))
    | (extract_lets +onlyGivenNames x; with_reducible refine Evolves.local_fun x ?_; subst x; beta_reduce)
    | (extract_lets +onlyGivenNames x; clear_value (hx : x = _))
    | extract_lets +onlyGivenNames x
    | with_reducible refine Evolves.ite ?_ ?_
    | with_reducible refine EvolvesOut.ite ?_ ?_
    | with_reducible refine EvolvesOut.next ?_
    | with_reducible exact EvolvesOut.fault
    | split
    | refine Evolves.of_pair (by with_reducible assumption) ?_
    | refine Evolves.of_some (by with_reducible assumption) ?_
    | fail_if_no_progress with_reducible refine Evolves.other ?_
    | with_reducible refine Evolves.fields (by with_reducible assumption)
    | refine Evolves.fields (h := ?_)
    | fail

theorem execHedgeTraining_evolves {s t : State} (h : Evolves s t) :
    EvolvesOut s (execHedgeTraining t) := by
  unfold execHedgeTraining
  repeat' first
    | with_reducible assumption
    | with_reducible refine State.modMf_evolves ?_
    | (extract_lets +onlyGivenNames x; clear_value (hx : x = _); with_reducible refine Evolves.cut s hx ?_ (fun _ => ?_))
    | (extract_lets +onlyGivenNames x; clear_value (hx : x = _); with_reducible refine EvolvesFst.cut s hx ?_ (fun _ => ?_))
    | (extract_lets +onlyGivenNames x; with_reducible refine Evolves.local_fun x ?_; subst x; beta_reduce)
    | (extract_lets +onlyGivenNames x; clear_value (hx : x = _))
    | extract_lets +onlyGivenNames x
    | with_reducible refine Evolves.ite ?_ ?_
    | with_reducible refine EvolvesOut.ite ?_ ?_
    | with_reducible refine EvolvesOut.next ?_
    | with_reducible exact EvolvesOut.fault
    | split
    | refine Evolves.of_pair (by with_reducible assumption) ?_
    | refine Evolves.of_some (by with_reducible assumption) ?_
    | fail_if_no_progress with_reducible refine Evolves.other ?_
    | with_reducible refine Evolves.fields (by with_reducible assumption)
    | refine Evolves.fields (h := ?_)
    | fail

theorem execChannelLightSleep_evolves {s t : State} {a0 : Channel} (h : Evolves s t) :
    EvolvesOut s (execChannelLightSleep a0 t) := by
  unfold execChannelLightSleep
  repeat' first
    | with_reducible assumption
    | with_reducible refine State.modMf_evolves ?_
    | with_reducible refine State.emit_evolves ?_
    | (extract_lets +onlyGivenNames x; clear_value (hx : x = _); with_reducible refine Evolves.cut s hx ?_ (fun _ => ?_))
    | (extract_lets +onlyGivenNames x; clear_value (hx : x = _); with_reducible refine EvolvesFst.cut s hx ?_ (fun _ => ?_))
    | (extract_lets +onlyGivenNames x; with_reducible refine Evolves.local_fun x ?_; subst x; beta_reduce)
    | (extract_lets +onlyGivenNames x; clear_value (hx : x = _))
    | extract_lets +onlyGivenNames x
    | with_reducible refine Evolves.ite ?_ ?_
    | with_reducible refine EvolvesOut.ite ?_ ?_
    | with_reducible refine EvolvesOut.next ?_
    | with_reducible exact EvolvesOut.fault
    | split
    | refine Evolves.of_pair (by with_reducible assumption) ?_
    | refine Evolves.of_some (by with_reducible assumption) ?_
    | fail_if_no_progress with_reducible refine Evolves.other ?_
    | with_reducible refine Evolves.fields (by with_reducible assumption)
    | refine Evolves.fields (h := ?_)
    | fail

theorem State.leaveBatch_evolves {s t : State} {a1 : Nat} (h : Evolves s t) :
    Evolves s (State.leaveBatch t a1) := by
  unfold State.leaveBatch
  repeat' first
    | with_reducible assumption
    | with_reducible refine State.cancelBatch_evolves ?_
    | with_reducible refine State.setBatch_evolves ?_
    | with_reducible refine State.setOp_evolves ?_
    | with_reducible refine State.batchReads_evolves ?_
    | with_reducible refine State.batchReady_evolves ?_
    | (extract_lets +onlyGivenNames x; clear_value (hx : x = _); with_reducible refine Evolves.cut s hx ?_ (fun _ => ?_))
    | (extract_lets +onlyGivenNames x; clear_value (hx : x = _); with_reducible refine EvolvesFst.cut s hx ?_ (fun _ => ?_))
    | (extract_lets +onlyGivenNames x; with_reducible refine Evolves.local_fun x ?_; subst x; beta_reduce)
    | (extract_lets +onlyGivenNames x; clear_value (hx : x = _))
    | extract_lets +onlyGivenNames x
    | with_reducible refine Evolves.ite ?_ ?_
    | with_reducible refine Evolves.foldl (fun _ _ _ => ?_) ?_
    | with_reducible refine EvolvesFst.foldl (fun _ _ _ => ?_) ?_
    | split
    | refine Evolves.of_pair (by with_reducible assumption) ?_
    | refine Evolves.of_some (by with_reducible assumption) ?_
    | fail_if_no_progress with_reducible refine Evolves.other ?_
    | with_reducible refine Evolves.fields (by with_reducible assumption)
    | refine Evolves.fields (h := ?_)
    | fail

theorem execMinorCounterExhausted_evolves {s t : State} {a0 : Nat} (h : Evolves s t) :
    EvolvesOut s (execMinorCounterExhausted a0 t) := by
  unfold execMinorCounterExhausted
  repeat' first
    | with_reducible assumption
    | with_reducible refine State.leaveBatch_evolves ?_
    | with_reducible refine State.holdRefused_evolves ?_
    | with_reducible refine State.settleMedia_evolves ?_
    | (extract_lets +onlyGivenNames x; clear_value (hx : x = _); with_reducible refine Evolves.cut s hx ?_ (fun _ => ?_))
    | (extract_lets +onlyGivenNames x; clear_value (hx : x = _); with_reducible refine EvolvesFst.cut s hx ?_ (fun _ => ?_))
    | (extract_lets +onlyGivenNames x; with_reducible refine Evolves.local_fun x ?_; subst x; beta_reduce)
    | (extract_lets +onlyGivenNames x; clear_value (hx : x = _))
    | extract_lets +onlyGivenNames x
    | with_reducible refine Evolves.ite ?_ ?_
    | with_reducible refine EvolvesOut.ite ?_ ?_
    | with_reducible refine EvolvesOut.next ?_
    | with_reducible exact EvolvesOut.fault
    | split
    | refine Evolves.of_pair (by with_reducible assumption) ?_
    | refine Evolves.of_some (by with_reducible assumption) ?_
    | fail

theorem State.takePage_evolves {s t : State} (h : Evolves s t) :
    Evolves s (State.takePage t) := by
  unfold State.takePage
  repeat' first
    | with_reducible assumption
    | with_reducible refine State.modMf_evolves ?_
    | with_reducible refine State.emit_evolves ?_
    | with_reducible refine State.queuePages_evolves ?_
    | (extract_lets +onlyGivenNames x; clear_value (hx : x = _); with_reducible refine Evolves.cut s hx ?_ (fun _ => ?_))
    | (extract_lets +onlyGivenNames x; clear_value (hx : x = _); with_reducible refine EvolvesFst.cut s hx ?_ (fun _ => ?_))
    | (extract_lets +onlyGivenNames x; with_reducible refine Evolves.local_fun x ?_; subst x; beta_reduce)
    | (extract_lets +onlyGivenNames x; clear_value (hx : x = _))
    | extract_lets +onlyGivenNames x
    | with_reducible refine Evolves.ite ?_ ?_
    | split
    | refine Evolves.of_pair (by with_reducible assumption) ?_
    | refine Evolves.of_some (by with_reducible assumption) ?_
    | fail_if_no_progress with_reducible refine Evolves.other ?_
    | with_reducible refine Evolves.fields (by with_reducible assumption)
    | refine Evolves.fields (h := ?_)
    | fail

theorem State.rekeyBegin_evolves {s t : State} {a1 : PhysSlice} {a2 : Nat} {a3 : Nat} (h : Evolves s t) :
    Evolves s (State.rekeyBegin t a1 a2 a3) := by
  unfold State.rekeyBegin
  repeat' first
    | with_reducible assumption
    | with_reducible refine State.modTrk_evolves ?_
    | with_reducible refine State.issue_evolves ?_
    | with_reducible refine State.setOp_evolves ?_
    | with_reducible refine State.settleMedia_evolves ?_
    | (extract_lets +onlyGivenNames x; clear_value (hx : x = _); with_reducible refine Evolves.cut s hx ?_ (fun _ => ?_))
    | (extract_lets +onlyGivenNames x; clear_value (hx : x = _); with_reducible refine EvolvesFst.cut s hx ?_ (fun _ => ?_))
    | (extract_lets +onlyGivenNames x; with_reducible refine Evolves.local_fun x ?_; subst x; beta_reduce)
    | (extract_lets +onlyGivenNames x; clear_value (hx : x = _))
    | extract_lets +onlyGivenNames x
    | with_reducible refine Evolves.ite ?_ ?_
    | with_reducible refine Evolves.foldl (fun _ _ _ => ?_) ?_
    | with_reducible refine EvolvesFst.foldl (fun _ _ _ => ?_) ?_
    | split
    | refine Evolves.of_pair (by with_reducible assumption) ?_
    | refine Evolves.of_some (by with_reducible assumption) ?_
    | fail_if_no_progress with_reducible refine Evolves.other ?_
    | with_reducible refine Evolves.fields (by with_reducible assumption)
    | refine Evolves.fields (h := ?_)
    | fail

theorem execRekeyStep_evolves {s t : State} (h : Evolves s t) :
    EvolvesOut s (execRekeyStep t) := by
  unfold execRekeyStep
  repeat' first
    | with_reducible assumption
    | with_reducible refine State.takePage_evolves ?_
    | with_reducible refine State.rekeyBegin_evolves ?_
    | with_reducible refine State.bump_evolves ?_
    | with_reducible refine State.agentArrive_evolves ?_
    | with_reducible refine State.modMf_evolves ?_
    | (extract_lets +onlyGivenNames x; clear_value (hx : x = _); with_reducible refine Evolves.cut s hx ?_ (fun _ => ?_))
    | (extract_lets +onlyGivenNames x; clear_value (hx : x = _); with_reducible refine EvolvesFst.cut s hx ?_ (fun _ => ?_))
    | (extract_lets +onlyGivenNames x; with_reducible refine Evolves.local_fun x ?_; subst x; beta_reduce)
    | (extract_lets +onlyGivenNames x; clear_value (hx : x = _))
    | extract_lets +onlyGivenNames x
    | with_reducible refine Evolves.ite ?_ ?_
    | with_reducible refine EvolvesOut.ite ?_ ?_
    | with_reducible refine EvolvesOut.next ?_
    | with_reducible exact EvolvesOut.fault
    | split
    | refine Evolves.of_pair (by with_reducible assumption) ?_
    | refine Evolves.of_some (by with_reducible assumption) ?_
    | fail_if_no_progress with_reducible refine Evolves.other ?_
    | with_reducible refine Evolves.fields (by with_reducible assumption)
    | refine Evolves.fields (h := ?_)
    | fail

theorem execMacFailure_evolves {s t : State} {a0 : Nat} (h : Evolves s t) :
    EvolvesOut s (execMacFailure a0 t) := by
  unfold execMacFailure
  repeat' first
    | with_reducible assumption
    | with_reducible refine State.setChop_evolves ?_
    | with_reducible refine State.major_evolves ?_
    | with_reducible refine State.count_evolves ?_
    | with_reducible refine State.setRecon_evolves ?_
    | with_reducible refine State.integrity_evolves ?_
    | with_reducible refine State.finish_evolves ?_
    | with_reducible refine State.settleMedia_evolves ?_
    | with_reducible refine State.startRecon_evolves ?_
    | (extract_lets +onlyGivenNames x; clear_value (hx : x = _); with_reducible refine Evolves.cut s hx ?_ (fun _ => ?_))
    | (extract_lets +onlyGivenNames x; clear_value (hx : x = _); with_reducible refine EvolvesFst.cut s hx ?_ (fun _ => ?_))
    | (extract_lets +onlyGivenNames x; with_reducible refine Evolves.local_fun x ?_; subst x; beta_reduce)
    | (extract_lets +onlyGivenNames x; clear_value (hx : x = _))
    | extract_lets +onlyGivenNames x
    | with_reducible refine Evolves.ite ?_ ?_
    | with_reducible refine EvolvesOut.ite ?_ ?_
    | with_reducible refine EvolvesOut.next ?_
    | with_reducible exact EvolvesOut.fault
    | split
    | refine Evolves.of_pair (by with_reducible assumption) ?_
    | refine Evolves.of_some (by with_reducible assumption) ?_
    | fail_if_no_progress with_reducible refine Evolves.other ?_
    | with_reducible refine Evolves.fields (by with_reducible assumption)
    | refine Evolves.fields (h := ?_)
    | fail

theorem execCounterUnreadable_evolves {s t : State} {a0 : Word} {a1 : Word} (h : Evolves s t) :
    EvolvesOut s (execCounterUnreadable a0 a1 t) := by
  unfold execCounterUnreadable
  repeat' first
    | with_reducible assumption
    | with_reducible refine State.major_evolves ?_
    | with_reducible refine State.modMf_evolves ?_
    | with_reducible refine State.notice_evolves ?_
    | (extract_lets +onlyGivenNames x; clear_value (hx : x = _); with_reducible refine Evolves.cut s hx ?_ (fun _ => ?_))
    | (extract_lets +onlyGivenNames x; clear_value (hx : x = _); with_reducible refine EvolvesFst.cut s hx ?_ (fun _ => ?_))
    | (extract_lets +onlyGivenNames x; with_reducible refine Evolves.local_fun x ?_; subst x; beta_reduce)
    | (extract_lets +onlyGivenNames x; clear_value (hx : x = _))
    | extract_lets +onlyGivenNames x
    | with_reducible refine Evolves.ite ?_ ?_
    | with_reducible refine EvolvesOut.ite ?_ ?_
    | with_reducible refine EvolvesOut.next ?_
    | with_reducible exact EvolvesOut.fault
    | split
    | refine Evolves.of_pair (by with_reducible assumption) ?_
    | refine Evolves.of_some (by with_reducible assumption) ?_
    | fail_if_no_progress with_reducible refine Evolves.other ?_
    | with_reducible refine Evolves.fields (by with_reducible assumption)
    | refine Evolves.fields (h := ?_)
    | fail

theorem execChannelRetire_evolves {s t : State} {a0 : Channel} (h : Evolves s t) :
    EvolvesOut s (execChannelRetire a0 t) := by
  unfold execChannelRetire
  repeat' first
    | with_reducible assumption
    | with_reducible refine State.huskChannel_evolves ?_
    | with_reducible refine State.settleMedia_evolves ?_
    | (extract_lets +onlyGivenNames x; clear_value (hx : x = _); with_reducible refine Evolves.cut s hx ?_ (fun _ => ?_))
    | (extract_lets +onlyGivenNames x; clear_value (hx : x = _); with_reducible refine EvolvesFst.cut s hx ?_ (fun _ => ?_))
    | (extract_lets +onlyGivenNames x; with_reducible refine Evolves.local_fun x ?_; subst x; beta_reduce)
    | (extract_lets +onlyGivenNames x; clear_value (hx : x = _))
    | extract_lets +onlyGivenNames x
    | with_reducible refine Evolves.ite ?_ ?_
    | with_reducible refine EvolvesOut.ite ?_ ?_
    | with_reducible refine EvolvesOut.next ?_
    | with_reducible exact EvolvesOut.fault
    | split
    | refine Evolves.of_pair (by with_reducible assumption) ?_
    | refine Evolves.of_some (by with_reducible assumption) ?_
    | fail

theorem State.refreshChannels_evolves {s t : State} (h : Evolves s t) :
    Evolves s (State.refreshChannels t) := by
  unfold State.refreshChannels
  repeat' first
    | with_reducible assumption
    | with_reducible refine State.wr_evolves ?_
    | (extract_lets +onlyGivenNames x; clear_value (hx : x = _); with_reducible refine Evolves.cut s hx ?_ (fun _ => ?_))
    | (extract_lets +onlyGivenNames x; clear_value (hx : x = _); with_reducible refine EvolvesFst.cut s hx ?_ (fun _ => ?_))
    | (extract_lets +onlyGivenNames x; with_reducible refine Evolves.local_fun x ?_; subst x; beta_reduce)
    | (extract_lets +onlyGivenNames x; clear_value (hx : x = _))
    | extract_lets +onlyGivenNames x
    | with_reducible refine Evolves.ite ?_ ?_
    | with_reducible refine Evolves.foldl (fun _ _ _ => ?_) ?_
    | with_reducible refine EvolvesFst.foldl (fun _ _ _ => ?_) ?_
    | split
    | refine Evolves.of_pair (by with_reducible assumption) ?_
    | refine Evolves.of_some (by with_reducible assumption) ?_
    | fail

theorem State.writeGroupMap_evolves {s t : State} {a1 : Nat} {a2 : Word} (h : Evolves s t) :
    Evolves s (State.writeGroupMap t a1 a2) := by
  unfold State.writeGroupMap
  repeat' first
    | with_reducible assumption
    | with_reducible refine State.wr_evolves ?_
    | with_reducible refine State.refreshChannels_evolves ?_
    | with_reducible refine State.modMf_evolves ?_
    | (extract_lets +onlyGivenNames x; clear_value (hx : x = _); with_reducible refine Evolves.cut s hx ?_ (fun _ => ?_))
    | (extract_lets +onlyGivenNames x; clear_value (hx : x = _); with_reducible refine EvolvesFst.cut s hx ?_ (fun _ => ?_))
    | (extract_lets +onlyGivenNames x; with_reducible refine Evolves.local_fun x ?_; subst x; beta_reduce)
    | (extract_lets +onlyGivenNames x; clear_value (hx : x = _))
    | extract_lets +onlyGivenNames x
    | with_reducible refine Evolves.ite ?_ ?_
    | with_reducible refine Evolves.foldl (fun _ _ _ => ?_) ?_
    | with_reducible refine EvolvesFst.foldl (fun _ _ _ => ?_) ?_
    | split
    | refine Evolves.of_pair (by with_reducible assumption) ?_
    | refine Evolves.of_some (by with_reducible assumption) ?_
    | fail_if_no_progress with_reducible refine Evolves.other ?_
    | with_reducible refine Evolves.fields (by with_reducible assumption)
    | refine Evolves.fields (h := ?_)
    | fail

theorem execMfGroupMapWrite_evolves {s t : State} {a0 : Group} {a1 : Word} (h : Evolves s t) :
    EvolvesOut s (execMfGroupMapWrite a0 a1 t) := by
  unfold execMfGroupMapWrite
  repeat' first
    | with_reducible assumption
    | with_reducible refine State.writeGroupMap_evolves ?_
    | (extract_lets +onlyGivenNames x; clear_value (hx : x = _); with_reducible refine Evolves.cut s hx ?_ (fun _ => ?_))
    | (extract_lets +onlyGivenNames x; clear_value (hx : x = _); with_reducible refine EvolvesFst.cut s hx ?_ (fun _ => ?_))
    | (extract_lets +onlyGivenNames x; with_reducible refine Evolves.local_fun x ?_; subst x; beta_reduce)
    | (extract_lets +onlyGivenNames x; clear_value (hx : x = _))
    | extract_lets +onlyGivenNames x
    | with_reducible refine Evolves.ite ?_ ?_
    | with_reducible refine EvolvesOut.ite ?_ ?_
    | with_reducible refine EvolvesOut.next ?_
    | with_reducible exact EvolvesOut.fault
    | split
    | refine Evolves.of_pair (by with_reducible assumption) ?_
    | refine Evolves.of_some (by with_reducible assumption) ?_
    | fail

theorem execRebuildResume_evolves {s t : State} {a0 : Word} (h : Evolves s t) :
    EvolvesOut s (execRebuildResume a0 t) := by
  unfold execRebuildResume
  repeat' first
    | with_reducible assumption
    | with_reducible refine State.wr_evolves ?_
    | with_reducible refine State.modMf_evolves ?_
    | (extract_lets +onlyGivenNames x; clear_value (hx : x = _); with_reducible refine Evolves.cut s hx ?_ (fun _ => ?_))
    | (extract_lets +onlyGivenNames x; clear_value (hx : x = _); with_reducible refine EvolvesFst.cut s hx ?_ (fun _ => ?_))
    | (extract_lets +onlyGivenNames x; with_reducible refine Evolves.local_fun x ?_; subst x; beta_reduce)
    | (extract_lets +onlyGivenNames x; clear_value (hx : x = _))
    | extract_lets +onlyGivenNames x
    | with_reducible refine Evolves.ite ?_ ?_
    | with_reducible refine EvolvesOut.ite ?_ ?_
    | with_reducible refine EvolvesOut.next ?_
    | with_reducible exact EvolvesOut.fault
    | split
    | refine Evolves.of_pair (by with_reducible assumption) ?_
    | refine Evolves.of_some (by with_reducible assumption) ?_
    | fail_if_no_progress with_reducible refine Evolves.other ?_
    | with_reducible refine Evolves.fields (by with_reducible assumption)
    | refine Evolves.fields (h := ?_)
    | fail

theorem State.apertureRead_evolves {s t : State} {a1 : Word} {a2 : Nat} {a3 : DmaChannel} (h : Evolves s t) :
    EvolvesOpt s (State.apertureRead t a1 a2 a3) := by
  unfold State.apertureRead
  repeat' first
    | with_reducible assumption
    | with_reducible refine State.startRecon_evolves ?_
    | with_reducible refine State.settleMedia_evolves ?_
    | (extract_lets +onlyGivenNames x; clear_value (hx : x = _); with_reducible refine Evolves.cut s hx ?_ (fun _ => ?_))
    | (extract_lets +onlyGivenNames x; clear_value (hx : x = _); with_reducible refine EvolvesFst.cut s hx ?_ (fun _ => ?_))
    | (extract_lets +onlyGivenNames x; with_reducible refine Evolves.local_fun x ?_; subst x; beta_reduce)
    | (extract_lets +onlyGivenNames x; clear_value (hx : x = _))
    | extract_lets +onlyGivenNames x
    | with_reducible refine Evolves.ite ?_ ?_
    | with_reducible refine EvolvesOpt.ite ?_ ?_
    | with_reducible exact EvolvesOpt.none
    | with_reducible refine EvolvesOpt.some ?_
    | with_reducible refine EvolvesOpt.map (fun _ => ?_)
    | with_reducible refine EvolvesOpt.bind (fun _ => ?_)
    | refine Evolves.of_pair (by with_reducible assumption) ?_
    | refine Evolves.of_some (by with_reducible assumption) ?_
    | fail

theorem execApertureRead_evolves {s t : State} {a0 : Word} {a1 : Nat} {a2 : DmaChannel} (h : Evolves s t) :
    EvolvesOut s (execApertureRead a0 a1 a2 t) := by
  unfold execApertureRead
  repeat' first
    | with_reducible assumption
    | with_reducible refine State.apertureRead_evolves ?_
    | with_reducible refine State.emit_evolves ?_
    | (extract_lets +onlyGivenNames x; clear_value (hx : x = _); with_reducible refine Evolves.cut s hx ?_ (fun _ => ?_))
    | (extract_lets +onlyGivenNames x; clear_value (hx : x = _); with_reducible refine EvolvesFst.cut s hx ?_ (fun _ => ?_))
    | (extract_lets +onlyGivenNames x; with_reducible refine Evolves.local_fun x ?_; subst x; beta_reduce)
    | (extract_lets +onlyGivenNames x; clear_value (hx : x = _))
    | extract_lets +onlyGivenNames x
    | with_reducible refine Evolves.ite ?_ ?_
    | with_reducible refine EvolvesOut.ite ?_ ?_
    | with_reducible refine EvolvesOut.next ?_
    | with_reducible exact EvolvesOut.fault
    | split
    | refine Evolves.of_pair (by with_reducible assumption) ?_
    | refine Evolves.of_some (by with_reducible assumption) ?_
    | with_reducible refine EvolvesOpt.getD ?_ ?_
    | fail

theorem State.apertureWrite_evolves {s t : State} {a1 : Word} {a2 : Nat} {a3 : DmaChannel} {a4 : Stored} (h : Evolves s t) :
    EvolvesOpt s (State.apertureWrite t a1 a2 a3 a4) := by
  unfold State.apertureWrite
  repeat' first
    | with_reducible assumption
    | with_reducible refine State.readMfBuffer_evolves ?_
    | with_reducible refine State.addChop_evolves ?_
    | with_reducible refine State.settleMedia_evolves ?_
    | with_reducible refine State.setRecon_evolves ?_
    | with_reducible refine State.bump_evolves ?_
    | (extract_lets +onlyGivenNames x; clear_value (hx : x = _); with_reducible refine Evolves.cut s hx ?_ (fun _ => ?_))
    | (extract_lets +onlyGivenNames x; clear_value (hx : x = _); with_reducible refine EvolvesFst.cut s hx ?_ (fun _ => ?_))
    | (extract_lets +onlyGivenNames x; with_reducible refine Evolves.local_fun x ?_; subst x; beta_reduce)
    | (extract_lets +onlyGivenNames x; clear_value (hx : x = _))
    | extract_lets +onlyGivenNames x
    | with_reducible refine Evolves.ite ?_ ?_
    | with_reducible refine EvolvesOpt.ite ?_ ?_
    | with_reducible exact EvolvesOpt.none
    | with_reducible refine EvolvesOpt.some ?_
    | with_reducible refine EvolvesOpt.map (fun _ => ?_)
    | with_reducible refine EvolvesOpt.bind (fun _ => ?_)
    | with_reducible refine EvolvesFst.ite ?_ ?_
    | split
    | with_reducible refine EvolvesFst.pair ?_
    | with_reducible refine EvolvesFst.fst ?_
    | refine Evolves.of_pair (by with_reducible assumption) ?_
    | refine Evolves.of_some (by with_reducible assumption) ?_
    | fail_if_no_progress with_reducible refine Evolves.other ?_
    | with_reducible refine Evolves.fields (by with_reducible assumption)
    | refine Evolves.fields (h := ?_)
    | fail

theorem execApertureWrite_evolves {s t : State} {a0 : Word} {a1 : Nat} {a2 : DmaChannel} {a3 : LineData} {a4 : LineMeta} (h : Evolves s t) :
    EvolvesOut s (execApertureWrite a0 a1 a2 a3 a4 t) := by
  unfold execApertureWrite
  repeat' first
    | with_reducible assumption
    | with_reducible refine State.apertureWrite_evolves ?_
    | with_reducible refine State.emit_evolves ?_
    | (extract_lets +onlyGivenNames x; clear_value (hx : x = _); with_reducible refine Evolves.cut s hx ?_ (fun _ => ?_))
    | (extract_lets +onlyGivenNames x; clear_value (hx : x = _); with_reducible refine EvolvesFst.cut s hx ?_ (fun _ => ?_))
    | (extract_lets +onlyGivenNames x; with_reducible refine Evolves.local_fun x ?_; subst x; beta_reduce)
    | (extract_lets +onlyGivenNames x; clear_value (hx : x = _))
    | extract_lets +onlyGivenNames x
    | with_reducible refine Evolves.ite ?_ ?_
    | with_reducible refine EvolvesOut.ite ?_ ?_
    | with_reducible refine EvolvesOut.next ?_
    | with_reducible exact EvolvesOut.fault
    | split
    | refine Evolves.of_pair (by with_reducible assumption) ?_
    | refine Evolves.of_some (by with_reducible assumption) ?_
    | with_reducible refine EvolvesOpt.getD ?_ ?_
    | fail_if_no_progress with_reducible refine Evolves.other ?_
    | with_reducible refine Evolves.fields (by with_reducible assumption)
    | refine Evolves.fields (h := ?_)
    | fail

theorem execResyncStart_evolves {s t : State} (h : Evolves s t) :
    EvolvesOut s (execResyncStart t) := by
  unfold execResyncStart
  repeat' first
    | with_reducible assumption
    | with_reducible refine State.wr_evolves ?_
    | with_reducible refine State.modMf_evolves ?_
    | (extract_lets +onlyGivenNames x; clear_value (hx : x = _); with_reducible refine Evolves.cut s hx ?_ (fun _ => ?_))
    | (extract_lets +onlyGivenNames x; clear_value (hx : x = _); with_reducible refine EvolvesFst.cut s hx ?_ (fun _ => ?_))
    | (extract_lets +onlyGivenNames x; with_reducible refine Evolves.local_fun x ?_; subst x; beta_reduce)
    | (extract_lets +onlyGivenNames x; clear_value (hx : x = _))
    | extract_lets +onlyGivenNames x
    | with_reducible refine Evolves.ite ?_ ?_
    | with_reducible refine EvolvesOut.ite ?_ ?_
    | with_reducible refine EvolvesOut.next ?_
    | with_reducible exact EvolvesOut.fault
    | split
    | refine Evolves.of_pair (by with_reducible assumption) ?_
    | refine Evolves.of_some (by with_reducible assumption) ?_
    | fail_if_no_progress with_reducible refine Evolves.other ?_
    | with_reducible refine Evolves.fields (by with_reducible assumption)
    | refine Evolves.fields (h := ?_)
    | fail

theorem State.visitOps_evolves {s t : State} {a1 : Nat} {a2 : Nat} {a3 : List Nat} {a4 : Bool} (h : Evolves s t) :
    Evolves s (State.visitOps t a1 a2 a3 a4) := by
  unfold State.visitOps
  repeat' first
    | with_reducible assumption
    | with_reducible refine State.count_evolves ?_
    | with_reducible refine State.emit_evolves ?_
    | with_reducible refine State.bump_evolves ?_
    | (extract_lets +onlyGivenNames x; clear_value (hx : x = _); with_reducible refine Evolves.cut s hx ?_ (fun _ => ?_))
    | (extract_lets +onlyGivenNames x; clear_value (hx : x = _); with_reducible refine EvolvesFst.cut s hx ?_ (fun _ => ?_))
    | (extract_lets +onlyGivenNames x; with_reducible refine Evolves.local_fun x ?_; subst x; beta_reduce)
    | (extract_lets +onlyGivenNames x; clear_value (hx : x = _))
    | extract_lets +onlyGivenNames x
    | with_reducible refine Evolves.ite ?_ ?_
    | with_reducible refine Evolves.foldl (fun _ _ _ => ?_) ?_
    | with_reducible refine EvolvesFst.foldl (fun _ _ _ => ?_) ?_
    | split
    | refine Evolves.of_pair (by with_reducible assumption) ?_
    | refine Evolves.of_some (by with_reducible assumption) ?_
    | fail

theorem execResyncStripeCheck_evolves {s t : State} (h : Evolves s t) :
    EvolvesOut s (execResyncStripeCheck t) := by
  unfold execResyncStripeCheck
  repeat' first
    | with_reducible assumption
    | with_reducible refine State.visitOps_evolves ?_
    | with_reducible refine State.setMedia_evolves ?_
    | with_reducible refine State.modMf_evolves ?_
    | with_reducible refine State.wr_evolves ?_
    | with_reducible refine State.notice_evolves ?_
    | (extract_lets +onlyGivenNames x; clear_value (hx : x = _); with_reducible refine Evolves.cut s hx ?_ (fun _ => ?_))
    | (extract_lets +onlyGivenNames x; clear_value (hx : x = _); with_reducible refine EvolvesFst.cut s hx ?_ (fun _ => ?_))
    | (extract_lets +onlyGivenNames x; with_reducible refine Evolves.local_fun x ?_; subst x; beta_reduce)
    | (extract_lets +onlyGivenNames x; clear_value (hx : x = _))
    | extract_lets +onlyGivenNames x
    | with_reducible refine Evolves.ite ?_ ?_
    | with_reducible refine EvolvesOut.ite ?_ ?_
    | with_reducible refine EvolvesOut.next ?_
    | with_reducible exact EvolvesOut.fault
    | split
    | refine Evolves.of_pair (by with_reducible assumption) ?_
    | refine Evolves.of_some (by with_reducible assumption) ?_
    | with_reducible refine EvolvesOpt.getD ?_ ?_
    | fail_if_no_progress with_reducible refine Evolves.other ?_
    | with_reducible refine Evolves.fields (by with_reducible assumption)
    | refine Evolves.fields (h := ?_)
    | fail

theorem execMfHedgeTableLatch_evolves {s t : State} {a0 : Word} (h : Evolves s t) :
    EvolvesOut s (execMfHedgeTableLatch a0 t) := by
  unfold execMfHedgeTableLatch
  repeat' first
    | with_reducible assumption
    | with_reducible refine State.wr_evolves ?_
    | with_reducible refine State.wb_evolves ?_
    | (extract_lets +onlyGivenNames x; clear_value (hx : x = _); with_reducible refine Evolves.cut s hx ?_ (fun _ => ?_))
    | (extract_lets +onlyGivenNames x; clear_value (hx : x = _); with_reducible refine EvolvesFst.cut s hx ?_ (fun _ => ?_))
    | (extract_lets +onlyGivenNames x; with_reducible refine Evolves.local_fun x ?_; subst x; beta_reduce)
    | (extract_lets +onlyGivenNames x; clear_value (hx : x = _))
    | extract_lets +onlyGivenNames x
    | with_reducible refine Evolves.ite ?_ ?_
    | with_reducible refine EvolvesOut.ite ?_ ?_
    | with_reducible refine EvolvesOut.next ?_
    | with_reducible exact EvolvesOut.fault
    | split
    | refine Evolves.of_pair (by with_reducible assumption) ?_
    | refine Evolves.of_some (by with_reducible assumption) ?_
    | fail

end Sys2Proof.Machine
end

