-- ==== Sys2Proof/Laws/EvModes.lean ====
section
/-! SUPPORT. What each operation of Sys2Proof/Machine/Modes.lean does to the whole machine: one `Evolves` lemma an operation. -/

set_option linter.all false
set_option Elab.async false

namespace Sys2Proof.Machine

open Host (Outcome)

theorem execPfwNAssert_evolves {s t : State} (h : Evolves s t) :
    EvolvesOut s (execPfwNAssert t) := by
  unfold execPfwNAssert
  repeat' first
    | with_reducible assumption
    | with_reducible refine State.modAon_evolves ?_
    | with_reducible refine State.enterHold_evolves ?_
    | with_reducible refine State.enterDrain_evolves ?_
    | (extract_lets +onlyGivenNames x; clear_value (hx : x = _); with_reducible refine Evolves.cut s hx ?_ (fun _ => ?_))
    | (extract_lets +onlyGivenNames x; clear_value (hx : x = _); with_reducible refine EvolvesFst.cut s hx ?_ (fun _ => ?_))
    | (extract_lets +onlyGivenNames x; with_reducible refine Evolves.local_fun x ?_; subst x; beta_reduce)
    | (extract_lets +onlyGivenNames x; clear_value (hx : x = _))
    | extract_lets +onlyGivenNames x
    | with_reducible refine Evolves.ite ?_ ?_
    | with_reducible refine EvolvesOut.ite ?_ ?_
    | with_reducible refine EvolvesOut.next ?_
    | with_reducible exact EvolvesOut.fault
    | split
    | refine Evolves.of_pair (by with_reducible assumption) ?_
    | refine Evolves.of_some (by with_reducible assumption) ?_
    | fail_if_no_progress with_reducible refine Evolves.other ?_
    | with_reducible refine Evolves.fields (by with_reducible assumption)
    | refine Evolves.fields (h := ?_)
    | fail

theorem execPfwNDeassert_evolves {s t : State} (h : Evolves s t) :
    EvolvesOut s (execPfwNDeassert t) := by
  unfold execPfwNDeassert
  repeat' first
    | with_reducible assumption
    | with_reducible refine State.modAon_evolves ?_
    | (extract_lets +onlyGivenNames x; clear_value (hx : x = _); with_reducible refine Evolves.cut s hx ?_ (fun _ => ?_))
    | (extract_lets +onlyGivenNames x; clear_value (hx : x = _); with_reducible refine EvolvesFst.cut s hx ?_ (fun _ => ?_))
    | (extract_lets +onlyGivenNames x; with_reducible refine Evolves.local_fun x ?_; subst x; beta_reduce)
    | (extract_lets +onlyGivenNames x; clear_value (hx : x = _))
    | extract_lets +onlyGivenNames x
    | with_reducible refine Evolves.ite ?_ ?_
    | with_reducible refine EvolvesOut.ite ?_ ?_
    | with_reducible refine EvolvesOut.next ?_
    | with_reducible exact EvolvesOut.fault
    | split
    | refine Evolves.of_pair (by with_reducible assumption) ?_
    | refine Evolves.of_some (by with_reducible assumption) ?_
    | fail_if_no_progress with_reducible refine Evolves.other ?_
    | with_reducible refine Evolves.fields (by with_reducible assumption)
    | refine Evolves.fields (h := ?_)
    | fail

theorem execBlockResetAssert_evolves {s t : State} (h : Evolves s t) :
    EvolvesOut s (execBlockResetAssert t) := by
  unfold execBlockResetAssert
  repeat' first
    | with_reducible assumption
    | with_reducible refine State.unorderedStop_evolves ?_
    | with_reducible refine State.modAon_evolves ?_
    | (extract_lets +onlyGivenNames x; clear_value (hx : x = _); with_reducible refine Evolves.cut s hx ?_ (fun _ => ?_))
    | (extract_lets +onlyGivenNames x; clear_value (hx : x = _); with_reducible refine EvolvesFst.cut s hx ?_ (fun _ => ?_))
    | (extract_lets +onlyGivenNames x; with_reducible refine Evolves.local_fun x ?_; subst x; beta_reduce)
    | (extract_lets +onlyGivenNames x; clear_value (hx : x = _))
    | extract_lets +onlyGivenNames x
    | with_reducible refine Evolves.ite ?_ ?_
    | with_reducible refine EvolvesOut.ite ?_ ?_
    | with_reducible refine EvolvesOut.next ?_
    | with_reducible exact EvolvesOut.fault
    | split
    | refine Evolves.of_pair (by with_reducible assumption) ?_
    | refine Evolves.of_some (by with_reducible assumption) ?_
    | fail_if_no_progress with_reducible refine Evolves.other ?_
    | with_reducible refine Evolves.fields (by with_reducible assumption)
    | refine Evolves.fields (h := ?_)
    | fail

theorem execBlockResetRelease_evolves {s t : State} {a0 : Bool} (h : Evolves s t) :
    EvolvesOut s (execBlockResetRelease a0 t) := by
  unfold execBlockResetRelease
  repeat' first
    | with_reducible assumption
    | with_reducible refine State.modAon_evolves ?_
    | with_reducible refine State.enterSprout_evolves ?_
    | (extract_lets +onlyGivenNames x; clear_value (hx : x = _); with_reducible refine Evolves.cut s hx ?_ (fun _ => ?_))
    | (extract_lets +onlyGivenNames x; clear_value (hx : x = _); with_reducible refine EvolvesFst.cut s hx ?_ (fun _ => ?_))
    | (extract_lets +onlyGivenNames x; with_reducible refine Evolves.local_fun x ?_; subst x; beta_reduce)
    | (extract_lets +onlyGivenNames x; clear_value (hx : x = _))
    | extract_lets +onlyGivenNames x
    | with_reducible refine Evolves.ite ?_ ?_
    | with_reducible refine EvolvesOut.ite ?_ ?_
    | with_reducible refine EvolvesOut.next ?_
    | with_reducible exact EvolvesOut.fault
    | split
    | refine Evolves.of_pair (by with_reducible assumption) ?_
    | refine Evolves.of_some (by with_reducible assumption) ?_
    | fail_if_no_progress with_reducible refine Evolves.other ?_
    | with_reducible refine Evolves.fields (by with_reducible assumption)
    | refine Evolves.fields (h := ?_)
    | fail

theorem execAutomaticRestart_evolves {s t : State} (h : Evolves s t) :
    EvolvesOut s (execAutomaticRestart t) := by
  unfold execAutomaticRestart
  repeat' first
    | with_reducible assumption
    | with_reducible refine State.enterSprout_evolves ?_
    | (extract_lets +onlyGivenNames x; clear_value (hx : x = _); with_reducible refine Evolves.cut s hx ?_ (fun _ => ?_))
    | (extract_lets +onlyGivenNames x; clear_value (hx : x = _); with_reducible refine EvolvesFst.cut s hx ?_ (fun _ => ?_))
    | (extract_lets +onlyGivenNames x; with_reducible refine Evolves.local_fun x ?_; subst x; beta_reduce)
    | (extract_lets +onlyGivenNames x; clear_value (hx : x = _))
    | extract_lets +onlyGivenNames x
    | with_reducible refine Evolves.ite ?_ ?_
    | with_reducible refine EvolvesOut.ite ?_ ?_
    | with_reducible refine EvolvesOut.next ?_
    | with_reducible exact EvolvesOut.fault
    | split
    | refine Evolves.of_pair (by with_reducible assumption) ?_
    | refine Evolves.of_some (by with_reducible assumption) ?_
    | fail

theorem execPowerLoss_evolves {s t : State} (h : Evolves s t) :
    EvolvesOut s (execPowerLoss t) := by
  unfold execPowerLoss
  repeat' first
    | with_reducible assumption
    | with_reducible refine State.enterHold_evolves ?_
    | with_reducible refine State.unorderedStop_evolves ?_
    | (extract_lets +onlyGivenNames x; clear_value (hx : x = _); with_reducible refine Evolves.cut s hx ?_ (fun _ => ?_))
    | (extract_lets +onlyGivenNames x; with_reducible refine Evolves.local_fun x ?_; subst x; beta_reduce)
    | (extract_lets +onlyGivenNames x; clear_value (hx : x = _))
    | extract_lets +onlyGivenNames x
    | with_reducible refine Evolves.ite ?_ ?_
    | with_reducible refine EvolvesOut.ite ?_ ?_
    | with_reducible refine EvolvesOut.next ?_
    | with_reducible exact EvolvesOut.fault
    | split
    | refine Evolves.of_pair (by with_reducible assumption) ?_
    | refine Evolves.of_some (by with_reducible assumption) ?_
    | fail_if_no_progress with_reducible refine Evolves.other ?_
    | with_reducible refine Evolves.fields (by with_reducible assumption)
    | refine Evolves.fields (h := ?_)
    | fail

theorem execPowerOnReset_evolves {s t : State} (h : Evolves s t) :
    EvolvesOut s (execPowerOnReset t) := by
  unfold execPowerOnReset
  repeat' first
    | with_reducible assumption
    | with_reducible refine State.modAon_evolves ?_
    | (extract_lets +onlyGivenNames x; clear_value (hx : x = _); with_reducible refine Evolves.cut s hx ?_ (fun _ => ?_))
    | (extract_lets +onlyGivenNames x; clear_value (hx : x = _); with_reducible refine EvolvesFst.cut s hx ?_ (fun _ => ?_))
    | (extract_lets +onlyGivenNames x; with_reducible refine Evolves.local_fun x ?_; subst x; beta_reduce)
    | (extract_lets +onlyGivenNames x; clear_value (hx : x = _))
    | extract_lets +onlyGivenNames x
    | with_reducible refine Evolves.ite ?_ ?_
    | with_reducible refine EvolvesOut.ite ?_ ?_
    | with_reducible refine EvolvesOut.next ?_
    | with_reducible exact EvolvesOut.fault
    | split
    | refine Evolves.of_pair (by with_reducible assumption) ?_
    | refine Evolves.of_some (by with_reducible assumption) ?_
    | fail_if_no_progress with_reducible refine Evolves.other ?_
    | with_reducible refine Evolves.fields (by with_reducible assumption)
    | refine Evolves.fields (h := ?_)
    | fail

theorem execModeReqServe_evolves {s t : State} (h : Evolves s t) :
    EvolvesOut s (execModeReqServe t) := by
  unfold execModeReqServe
  repeat' first
    | with_reducible assumption
    | with_reducible refine State.refuseMode_evolves ?_
    | with_reducible refine State.acceptMode_evolves ?_
    | with_reducible refine State.enterServe_evolves ?_
    | with_reducible refine State.dormTrigger_evolves ?_
    | with_reducible refine State.exitRepair_evolves ?_
    | (extract_lets +onlyGivenNames x; clear_value (hx : x = _); with_reducible refine Evolves.cut s hx ?_ (fun _ => ?_))
    | (extract_lets +onlyGivenNames x; clear_value (hx : x = _); with_reducible refine EvolvesFst.cut s hx ?_ (fun _ => ?_))
    | (extract_lets +onlyGivenNames x; with_reducible refine Evolves.local_fun x ?_; subst x; beta_reduce)
    | (extract_lets +onlyGivenNames x; clear_value (hx : x = _))
    | extract_lets +onlyGivenNames x
    | with_reducible refine Evolves.ite ?_ ?_
    | with_reducible refine EvolvesOut.ite ?_ ?_
    | with_reducible refine EvolvesOut.next ?_
    | with_reducible exact EvolvesOut.fault
    | split
    | refine Evolves.of_pair (by with_reducible assumption) ?_
    | refine Evolves.of_some (by with_reducible assumption) ?_
    | fail

theorem execModeReqDormant_evolves {s t : State} (h : Evolves s t) :
    EvolvesOut s (execModeReqDormant t) := by
  unfold execModeReqDormant
  repeat' first
    | with_reducible assumption
    | with_reducible refine State.refuseMode_evolves ?_
    | with_reducible refine State.acceptMode_evolves ?_
    | with_reducible refine State.startDormant_evolves ?_
    | (extract_lets +onlyGivenNames x; clear_value (hx : x = _); with_reducible refine Evolves.cut s hx ?_ (fun _ => ?_))
    | (extract_lets +onlyGivenNames x; clear_value (hx : x = _); with_reducible refine EvolvesFst.cut s hx ?_ (fun _ => ?_))
    | (extract_lets +onlyGivenNames x; with_reducible refine Evolves.local_fun x ?_; subst x; beta_reduce)
    | (extract_lets +onlyGivenNames x; clear_value (hx : x = _))
    | extract_lets +onlyGivenNames x
    | with_reducible refine Evolves.ite ?_ ?_
    | with_reducible refine EvolvesOut.ite ?_ ?_
    | with_reducible refine EvolvesOut.next ?_
    | with_reducible exact EvolvesOut.fault
    | split
    | refine Evolves.of_pair (by with_reducible assumption) ?_
    | refine Evolves.of_some (by with_reducible assumption) ?_
    | fail

theorem execModeReqRepair_evolves {s t : State} (h : Evolves s t) :
    EvolvesOut s (execModeReqRepair t) := by
  unfold execModeReqRepair
  repeat' first
    | with_reducible assumption
    | with_reducible refine State.refuseMode_evolves ?_
    | with_reducible refine State.acceptMode_evolves ?_
    | with_reducible refine State.enterRepair_evolves ?_
    | (extract_lets +onlyGivenNames x; clear_value (hx : x = _); with_reducible refine Evolves.cut s hx ?_ (fun _ => ?_))
    | (extract_lets +onlyGivenNames x; clear_value (hx : x = _); with_reducible refine EvolvesFst.cut s hx ?_ (fun _ => ?_))
    | (extract_lets +onlyGivenNames x; with_reducible refine Evolves.local_fun x ?_; subst x; beta_reduce)
    | (extract_lets +onlyGivenNames x; clear_value (hx : x = _))
    | extract_lets +onlyGivenNames x
    | with_reducible refine Evolves.ite ?_ ?_
    | with_reducible refine EvolvesOut.ite ?_ ?_
    | with_reducible refine EvolvesOut.next ?_
    | with_reducible exact EvolvesOut.fault
    | split
    | refine Evolves.of_pair (by with_reducible assumption) ?_
    | refine Evolves.of_some (by with_reducible assumption) ?_
    | fail

theorem execModeReqHold_evolves {s t : State} (h : Evolves s t) :
    EvolvesOut s (execModeReqHold t) := by
  unfold execModeReqHold
  repeat' first
    | with_reducible assumption
    | with_reducible refine State.refuseMode_evolves ?_
    | with_reducible refine State.acceptMode_evolves ?_
    | with_reducible refine State.closeHosts_evolves ?_
    | with_reducible refine State.drainStep_evolves ?_
    | (extract_lets +onlyGivenNames x; clear_value (hx : x = _); with_reducible refine Evolves.cut s hx ?_ (fun _ => ?_))
    | (extract_lets +onlyGivenNames x; clear_value (hx : x = _); with_reducible refine EvolvesFst.cut s hx ?_ (fun _ => ?_))
    | (extract_lets +onlyGivenNames x; with_reducible refine Evolves.local_fun x ?_; subst x; beta_reduce)
    | (extract_lets +onlyGivenNames x; clear_value (hx : x = _))
    | extract_lets +onlyGivenNames x
    | with_reducible refine Evolves.ite ?_ ?_
    | with_reducible refine EvolvesOut.ite ?_ ?_
    | with_reducible refine EvolvesOut.next ?_
    | with_reducible exact EvolvesOut.fault
    | split
    | refine Evolves.of_pair (by with_reducible assumption) ?_
    | refine Evolves.of_some (by with_reducible assumption) ?_
    | fail

theorem execDrainHostPhaseEnd_evolves {s t : State} (h : Evolves s t) :
    EvolvesOut s (execDrainHostPhaseEnd t) := by
  unfold execDrainHostPhaseEnd
  repeat' first
    | with_reducible assumption
    | with_reducible refine State.acceptMode_evolves ?_
    | with_reducible refine State.closeHosts_evolves ?_
    | with_reducible refine State.drainStep_evolves ?_
    | (extract_lets +onlyGivenNames x; clear_value (hx : x = _); with_reducible refine Evolves.cut s hx ?_ (fun _ => ?_))
    | (extract_lets +onlyGivenNames x; clear_value (hx : x = _); with_reducible refine EvolvesFst.cut s hx ?_ (fun _ => ?_))
    | (extract_lets +onlyGivenNames x; with_reducible refine Evolves.local_fun x ?_; subst x; beta_reduce)
    | (extract_lets +onlyGivenNames x; clear_value (hx : x = _))
    | extract_lets +onlyGivenNames x
    | with_reducible refine Evolves.ite ?_ ?_
    | with_reducible refine EvolvesOut.ite ?_ ?_
    | with_reducible refine EvolvesOut.next ?_
    | with_reducible exact EvolvesOut.fault
    | split
    | refine Evolves.of_pair (by with_reducible assumption) ?_
    | refine Evolves.of_some (by with_reducible assumption) ?_
    | fail

theorem execDrainSnoopTimeout_evolves {s t : State} {a0 : HostId} {a1 : BitVec 8} (h : Evolves s t) :
    EvolvesOut s (execDrainSnoopTimeout a0 a1 t) := by
  unfold execDrainSnoopTimeout
  repeat' first
    | with_reducible assumption
    | with_reducible refine State.freeSnoop_evolves ?_
    | with_reducible refine State.modPort_evolves ?_
    | with_reducible refine State.resolveSnoop_evolves ?_
    | with_reducible refine State.moveOwner_evolves ?_
    | with_reducible refine State.drainStep_evolves ?_
    | (extract_lets +onlyGivenNames x; clear_value (hx : x = _); with_reducible refine Evolves.cut s hx ?_ (fun _ => ?_))
    | (extract_lets +onlyGivenNames x; clear_value (hx : x = _); with_reducible refine EvolvesFst.cut s hx ?_ (fun _ => ?_))
    | (extract_lets +onlyGivenNames x; with_reducible refine Evolves.local_fun x ?_; subst x; beta_reduce)
    | (extract_lets +onlyGivenNames x; clear_value (hx : x = _))
    | extract_lets +onlyGivenNames x
    | with_reducible refine Evolves.ite ?_ ?_
    | with_reducible refine EvolvesOut.ite ?_ ?_
    | with_reducible refine EvolvesOut.next ?_
    | with_reducible exact EvolvesOut.fault
    | with_reducible refine Evolves.foldl (fun _ _ _ => ?_) ?_
    | with_reducible refine EvolvesFst.foldl (fun _ _ _ => ?_) ?_
    | split
    | refine Evolves.of_pair (by with_reducible assumption) ?_
    | refine Evolves.of_some (by with_reducible assumption) ?_
    | fail_if_no_progress with_reducible refine Evolves.other ?_
    | with_reducible refine Evolves.fields (by with_reducible assumption)
    | refine Evolves.fields (h := ?_)
    | fail

theorem execCipherFlushDone_evolves {s t : State} (h : Evolves s t) :
    EvolvesOut s (execCipherFlushDone t) := by
  unfold execCipherFlushDone
  repeat' first
    | with_reducible assumption
    | with_reducible refine State.drainStep_evolves ?_
    | with_reducible refine State.modAon_evolves ?_
    | with_reducible refine State.emit_evolves ?_
    | (extract_lets +onlyGivenNames x; clear_value (hx : x = _); with_reducible refine Evolves.cut s hx ?_ (fun _ => ?_))
    | (extract_lets +onlyGivenNames x; clear_value (hx : x = _); with_reducible refine EvolvesFst.cut s hx ?_ (fun _ => ?_))
    | (extract_lets +onlyGivenNames x; with_reducible refine Evolves.local_fun x ?_; subst x; beta_reduce)
    | (extract_lets +onlyGivenNames x; clear_value (hx : x = _))
    | extract_lets +onlyGivenNames x
    | with_reducible refine Evolves.ite ?_ ?_
    | with_reducible refine EvolvesOut.ite ?_ ?_
    | with_reducible refine EvolvesOut.next ?_
    | with_reducible exact EvolvesOut.fault
    | split
    | refine Evolves.of_pair (by with_reducible assumption) ?_
    | refine Evolves.of_some (by with_reducible assumption) ?_
    | fail_if_no_progress with_reducible refine Evolves.other ?_
    | with_reducible refine Evolves.fields (by with_reducible assumption)
    | refine Evolves.fields (h := ?_)
    | fail

theorem execRecordCloseAck_evolves {s t : State} (h : Evolves s t) :
    EvolvesOut s (execRecordCloseAck t) := by
  unfold execRecordCloseAck
  repeat' first
    | with_reducible assumption
    | with_reducible refine State.enterHold_evolves ?_
    | (extract_lets +onlyGivenNames x; clear_value (hx : x = _); with_reducible refine Evolves.cut s hx ?_ (fun _ => ?_))
    | (extract_lets +onlyGivenNames x; clear_value (hx : x = _); with_reducible refine EvolvesFst.cut s hx ?_ (fun _ => ?_))
    | (extract_lets +onlyGivenNames x; with_reducible refine Evolves.local_fun x ?_; subst x; beta_reduce)
    | (extract_lets +onlyGivenNames x; clear_value (hx : x = _))
    | extract_lets +onlyGivenNames x
    | with_reducible refine Evolves.ite ?_ ?_
    | with_reducible refine EvolvesOut.ite ?_ ?_
    | with_reducible refine EvolvesOut.next ?_
    | with_reducible exact EvolvesOut.fault
    | split
    | refine Evolves.of_pair (by with_reducible assumption) ?_
    | refine Evolves.of_some (by with_reducible assumption) ?_
    | fail_if_no_progress with_reducible refine Evolves.other ?_
    | with_reducible refine Evolves.fields (by with_reducible assumption)
    | refine Evolves.fields (h := ?_)
    | fail

theorem execDormantIdleDwell_evolves {s t : State} (h : Evolves s t) :
    EvolvesOut s (execDormantIdleDwell t) := by
  unfold execDormantIdleDwell
  repeat' first
    | with_reducible assumption
    | with_reducible refine State.startDormant_evolves ?_
    | (extract_lets +onlyGivenNames x; clear_value (hx : x = _); with_reducible refine Evolves.cut s hx ?_ (fun _ => ?_))
    | (extract_lets +onlyGivenNames x; clear_value (hx : x = _); with_reducible refine EvolvesFst.cut s hx ?_ (fun _ => ?_))
    | (extract_lets +onlyGivenNames x; with_reducible refine Evolves.local_fun x ?_; subst x; beta_reduce)
    | (extract_lets +onlyGivenNames x; clear_value (hx : x = _))
    | extract_lets +onlyGivenNames x
    | with_reducible refine Evolves.ite ?_ ?_
    | with_reducible refine EvolvesOut.ite ?_ ?_
    | with_reducible refine EvolvesOut.next ?_
    | with_reducible exact EvolvesOut.fault
    | split
    | refine Evolves.of_pair (by with_reducible assumption) ?_
    | refine Evolves.of_some (by with_reducible assumption) ?_
    | fail

theorem State.dropHighWays_evolves {s t : State} {a1 : PhysSlice} (h : Evolves s t) :
    Evolves s (State.dropHighWays t a1) := by
  unfold State.dropHighWays
  repeat' first
    | with_reducible assumption
    | with_reducible refine State.modSl_evolves ?_
    | (extract_lets +onlyGivenNames x; clear_value (hx : x = _); with_reducible refine Evolves.cut s hx ?_ (fun _ => ?_))
    | (extract_lets +onlyGivenNames x; with_reducible refine Evolves.local_fun x ?_; subst x; beta_reduce)
    | (extract_lets +onlyGivenNames x; clear_value (hx : x = _))
    | extract_lets +onlyGivenNames x
    | with_reducible refine Evolves.ite ?_ ?_
    | refine Evolves.of_pair (by with_reducible assumption) ?_
    | refine Evolves.of_some (by with_reducible assumption) ?_
    | fail_if_no_progress with_reducible refine Evolves.other ?_
    | with_reducible refine Evolves.fields (by with_reducible assumption)
    | refine Evolves.fields (h := ?_)
    | fail

theorem State.narrowPorts_evolves {s t : State} (h : Evolves s t) :
    Evolves s (State.narrowPorts t) := by
  unfold State.narrowPorts
  repeat' first
    | with_reducible assumption
    | with_reducible refine State.wr_evolves ?_
    | with_reducible refine State.modPort_evolves ?_
    | with_reducible refine State.emit_evolves ?_
    | (extract_lets +onlyGivenNames x; clear_value (hx : x = _); with_reducible refine Evolves.cut s hx ?_ (fun _ => ?_))
    | (extract_lets +onlyGivenNames x; clear_value (hx : x = _); with_reducible refine EvolvesFst.cut s hx ?_ (fun _ => ?_))
    | (extract_lets +onlyGivenNames x; with_reducible refine Evolves.local_fun x ?_; subst x; beta_reduce)
    | (extract_lets +onlyGivenNames x; clear_value (hx : x = _))
    | extract_lets +onlyGivenNames x
    | with_reducible refine Evolves.ite ?_ ?_
    | with_reducible refine Evolves.foldl (fun _ _ _ => ?_) ?_
    | with_reducible refine EvolvesFst.foldl (fun _ _ _ => ?_) ?_
    | refine Evolves.of_pair (by with_reducible assumption) ?_
    | refine Evolves.of_some (by with_reducible assumption) ?_
    | fail_if_no_progress with_reducible refine Evolves.other ?_
    | with_reducible refine Evolves.fields (by with_reducible assumption)
    | refine Evolves.fields (h := ?_)
    | fail

theorem State.widenPorts_evolves {s t : State} (h : Evolves s t) :
    Evolves s (State.widenPorts t) := by
  unfold State.widenPorts
  repeat' first
    | with_reducible assumption
    | with_reducible refine State.modPort_evolves ?_
    | with_reducible refine State.emit_evolves ?_
    | (extract_lets +onlyGivenNames x; clear_value (hx : x = _); with_reducible refine Evolves.cut s hx ?_ (fun _ => ?_))
    | (extract_lets +onlyGivenNames x; clear_value (hx : x = _); with_reducible refine EvolvesFst.cut s hx ?_ (fun _ => ?_))
    | (extract_lets +onlyGivenNames x; with_reducible refine Evolves.local_fun x ?_; subst x; beta_reduce)
    | (extract_lets +onlyGivenNames x; clear_value (hx : x = _))
    | extract_lets +onlyGivenNames x
    | with_reducible refine Evolves.ite ?_ ?_
    | with_reducible refine Evolves.foldl (fun _ _ _ => ?_) ?_
    | with_reducible refine EvolvesFst.foldl (fun _ _ _ => ?_) ?_
    | refine Evolves.of_pair (by with_reducible assumption) ?_
    | refine Evolves.of_some (by with_reducible assumption) ?_
    | fail_if_no_progress with_reducible refine Evolves.other ?_
    | with_reducible refine Evolves.fields (by with_reducible assumption)
    | refine Evolves.fields (h := ?_)
    | fail

theorem State.sleepChannels_evolves {s t : State} (h : Evolves s t) :
    Evolves s (State.sleepChannels t) := by
  unfold State.sleepChannels
  repeat' first
    | with_reducible assumption
    | with_reducible refine State.emit_evolves ?_
    | (extract_lets +onlyGivenNames x; clear_value (hx : x = _); with_reducible refine Evolves.cut s hx ?_ (fun _ => ?_))
    | (extract_lets +onlyGivenNames x; clear_value (hx : x = _); with_reducible refine EvolvesFst.cut s hx ?_ (fun _ => ?_))
    | (extract_lets +onlyGivenNames x; with_reducible refine Evolves.local_fun x ?_; subst x; beta_reduce)
    | (extract_lets +onlyGivenNames x; clear_value (hx : x = _))
    | extract_lets +onlyGivenNames x
    | with_reducible refine Evolves.ite ?_ ?_
    | with_reducible refine Evolves.foldl (fun _ _ _ => ?_) ?_
    | with_reducible refine EvolvesFst.foldl (fun _ _ _ => ?_) ?_
    | refine Evolves.of_pair (by with_reducible assumption) ?_
    | refine Evolves.of_some (by with_reducible assumption) ?_
    | fail

theorem execDormantEntryStepEnd_evolves {s t : State} (h : Evolves s t) :
    EvolvesOut s (execDormantEntryStepEnd t) := by
  unfold execDormantEntryStepEnd
  repeat' first
    | with_reducible assumption
    | with_reducible refine State.modAon_evolves ?_
    | with_reducible refine State.dropHighWays_evolves ?_
    | with_reducible refine State.retargetAll_evolves ?_
    | with_reducible refine State.modMf_evolves ?_
    | with_reducible refine State.sleepChannels_evolves ?_
    | with_reducible refine State.narrowPorts_evolves ?_
    | with_reducible refine State.setMode_evolves ?_
    | with_reducible refine State.inc_evolves ?_
    | with_reducible refine State.dormTrigger_evolves ?_
    | (extract_lets +onlyGivenNames x; clear_value (hx : x = _); with_reducible refine Evolves.cut s hx ?_ (fun _ => ?_))
    | (extract_lets +onlyGivenNames x; clear_value (hx : x = _); with_reducible refine EvolvesFst.cut s hx ?_ (fun _ => ?_))
    | (extract_lets +onlyGivenNames x; with_reducible refine Evolves.local_fun x ?_; subst x; beta_reduce)
    | (extract_lets +onlyGivenNames x; clear_value (hx : x = _))
    | extract_lets +onlyGivenNames x
    | with_reducible refine Evolves.ite ?_ ?_
    | with_reducible refine EvolvesOut.ite ?_ ?_
    | with_reducible refine EvolvesOut.next ?_
    | with_reducible exact EvolvesOut.fault
    | with_reducible refine Evolves.foldl (fun _ _ _ => ?_) ?_
    | with_reducible refine EvolvesFst.foldl (fun _ _ _ => ?_) ?_
    | split
    | refine Evolves.of_pair (by with_reducible assumption) ?_
    | refine Evolves.of_some (by with_reducible assumption) ?_
    | fail_if_no_progress with_reducible refine Evolves.other ?_
    | with_reducible refine Evolves.fields (by with_reducible assumption)
    | refine Evolves.fields (h := ?_)
    | fail

theorem execDormantEntryTimeout_evolves {s t : State} (h : Evolves s t) :
    EvolvesOut s (execDormantEntryTimeout t) := by
  unfold execDormantEntryTimeout
  repeat' first
    | with_reducible assumption
    | with_reducible refine State.abortDormant_evolves ?_
    | (extract_lets +onlyGivenNames x; clear_value (hx : x = _); with_reducible refine Evolves.cut s hx ?_ (fun _ => ?_))
    | (extract_lets +onlyGivenNames x; with_reducible refine Evolves.local_fun x ?_; subst x; beta_reduce)
    | (extract_lets +onlyGivenNames x; clear_value (hx : x = _))
    | extract_lets +onlyGivenNames x
    | with_reducible refine Evolves.ite ?_ ?_
    | with_reducible refine EvolvesOut.ite ?_ ?_
    | with_reducible refine EvolvesOut.next ?_
    | with_reducible exact EvolvesOut.fault
    | split
    | refine Evolves.of_pair (by with_reducible assumption) ?_
    | refine Evolves.of_some (by with_reducible assumption) ?_
    | fail

theorem execDormantExitCount_evolves {s t : State} (h : Evolves s t) :
    EvolvesOut s (execDormantExitCount t) := by
  unfold execDormantExitCount
  repeat' first
    | with_reducible assumption
    | with_reducible refine State.dormTrigger_evolves ?_
    | (extract_lets +onlyGivenNames x; clear_value (hx : x = _); with_reducible refine Evolves.cut s hx ?_ (fun _ => ?_))
    | (extract_lets +onlyGivenNames x; clear_value (hx : x = _); with_reducible refine EvolvesFst.cut s hx ?_ (fun _ => ?_))
    | (extract_lets +onlyGivenNames x; with_reducible refine Evolves.local_fun x ?_; subst x; beta_reduce)
    | (extract_lets +onlyGivenNames x; clear_value (hx : x = _))
    | extract_lets +onlyGivenNames x
    | with_reducible refine Evolves.ite ?_ ?_
    | with_reducible refine EvolvesOut.ite ?_ ?_
    | with_reducible refine EvolvesOut.next ?_
    | with_reducible exact EvolvesOut.fault
    | split
    | refine Evolves.of_pair (by with_reducible assumption) ?_
    | refine Evolves.of_some (by with_reducible assumption) ?_
    | fail

theorem execDormantExitStepEnd_evolves {s t : State} (h : Evolves s t) :
    EvolvesOut s (execDormantExitStepEnd t) := by
  unfold execDormantExitStepEnd
  repeat' first
    | with_reducible assumption
    | with_reducible refine State.modAon_evolves ?_
    | with_reducible refine State.modSl_evolves ?_
    | with_reducible refine State.modMf_evolves ?_
    | with_reducible refine State.retargetAll_evolves ?_
    | with_reducible refine State.setMode_evolves ?_
    | with_reducible refine State.widenPorts_evolves ?_
    | with_reducible refine State.enterRepair_evolves ?_
    | (extract_lets +onlyGivenNames x; clear_value (hx : x = _); with_reducible refine Evolves.cut s hx ?_ (fun _ => ?_))
    | (extract_lets +onlyGivenNames x; clear_value (hx : x = _); with_reducible refine EvolvesFst.cut s hx ?_ (fun _ => ?_))
    | (extract_lets +onlyGivenNames x; with_reducible refine Evolves.local_fun x ?_; subst x; beta_reduce)
    | (extract_lets +onlyGivenNames x; clear_value (hx : x = _))
    | extract_lets +onlyGivenNames x
    | with_reducible refine Evolves.ite ?_ ?_
    | with_reducible refine EvolvesOut.ite ?_ ?_
    | with_reducible refine EvolvesOut.next ?_
    | with_reducible exact EvolvesOut.fault
    | with_reducible refine Evolves.foldl (fun _ _ _ => ?_) ?_
    | with_reducible refine EvolvesFst.foldl (fun _ _ _ => ?_) ?_
    | split
    | refine Evolves.of_pair (by with_reducible assumption) ?_
    | refine Evolves.of_some (by with_reducible assumption) ?_
    | fail_if_no_progress with_reducible refine Evolves.other ?_
    | with_reducible refine Evolves.fields (by with_reducible assumption)
    | refine Evolves.fields (h := ?_)
    | fail

theorem State.repairCause_evolves {s t : State} (h : Evolves s t) :
    Evolves s (State.repairCause t) := by
  unfold State.repairCause
  repeat' first
    | with_reducible assumption
    | with_reducible refine State.dormTrigger_evolves ?_
    | with_reducible refine State.modAon_evolves ?_
    | with_reducible refine State.abortDormant_evolves ?_
    | with_reducible refine State.enterRepair_evolves ?_
    | (extract_lets +onlyGivenNames x; clear_value (hx : x = _); with_reducible refine Evolves.cut s hx ?_ (fun _ => ?_))
    | (extract_lets +onlyGivenNames x; clear_value (hx : x = _); with_reducible refine EvolvesFst.cut s hx ?_ (fun _ => ?_))
    | (extract_lets +onlyGivenNames x; with_reducible refine Evolves.local_fun x ?_; subst x; beta_reduce)
    | (extract_lets +onlyGivenNames x; clear_value (hx : x = _))
    | extract_lets +onlyGivenNames x
    | with_reducible refine Evolves.ite ?_ ?_
    | split
    | refine Evolves.of_pair (by with_reducible assumption) ?_
    | refine Evolves.of_some (by with_reducible assumption) ?_
    | fail_if_no_progress with_reducible refine Evolves.other ?_
    | with_reducible refine Evolves.fields (by with_reducible assumption)
    | refine Evolves.fields (h := ?_)
    | fail

theorem execControlComplexLoss_evolves {s t : State} (h : Evolves s t) :
    EvolvesOut s (execControlComplexLoss t) := by
  unfold execControlComplexLoss
  repeat' first
    | with_reducible assumption
    | with_reducible refine State.repairCause_evolves ?_
    | (extract_lets +onlyGivenNames x; clear_value (hx : x = _); with_reducible refine Evolves.cut s hx ?_ (fun _ => ?_))
    | (extract_lets +onlyGivenNames x; with_reducible refine Evolves.local_fun x ?_; subst x; beta_reduce)
    | (extract_lets +onlyGivenNames x; clear_value (hx : x = _))
    | extract_lets +onlyGivenNames x
    | with_reducible refine Evolves.ite ?_ ?_
    | with_reducible refine EvolvesOut.ite ?_ ?_
    | with_reducible refine EvolvesOut.next ?_
    | with_reducible exact EvolvesOut.fault
    | refine Evolves.of_pair (by with_reducible assumption) ?_
    | refine Evolves.of_some (by with_reducible assumption) ?_
    | fail

theorem execRepairCauseRelease_evolves {s t : State} (h : Evolves s t) :
    EvolvesOut s (execRepairCauseRelease t) := by
  unfold execRepairCauseRelease
  repeat' first
    | with_reducible assumption
    | with_reducible refine State.repairCause_evolves ?_
    | (extract_lets +onlyGivenNames x; clear_value (hx : x = _); with_reducible refine Evolves.cut s hx ?_ (fun _ => ?_))
    | (extract_lets +onlyGivenNames x; with_reducible refine Evolves.local_fun x ?_; subst x; beta_reduce)
    | (extract_lets +onlyGivenNames x; clear_value (hx : x = _))
    | extract_lets +onlyGivenNames x
    | with_reducible refine Evolves.ite ?_ ?_
    | with_reducible refine EvolvesOut.ite ?_ ?_
    | with_reducible refine EvolvesOut.next ?_
    | with_reducible exact EvolvesOut.fault
    | split
    | refine Evolves.of_pair (by with_reducible assumption) ?_
    | refine Evolves.of_some (by with_reducible assumption) ?_
    | fail

theorem execRepairTimeout_evolves {s t : State} (h : Evolves s t) :
    EvolvesOut s (execRepairTimeout t) := by
  unfold execRepairTimeout
  repeat' first
    | with_reducible assumption
    | with_reducible refine State.draw_evolves ?_
    | with_reducible refine State.exitRepair_evolves ?_
    | with_reducible refine State.major_evolves ?_
    | (extract_lets +onlyGivenNames x; clear_value (hx : x = _); with_reducible refine Evolves.cut s hx ?_ (fun _ => ?_))
    | (extract_lets +onlyGivenNames x; clear_value (hx : x = _); with_reducible refine EvolvesFst.cut s hx ?_ (fun _ => ?_))
    | (extract_lets +onlyGivenNames x; with_reducible refine Evolves.local_fun x ?_; subst x; beta_reduce)
    | (extract_lets +onlyGivenNames x; clear_value (hx : x = _))
    | extract_lets +onlyGivenNames x
    | with_reducible refine Evolves.ite ?_ ?_
    | with_reducible refine EvolvesOut.ite ?_ ?_
    | with_reducible refine EvolvesOut.next ?_
    | with_reducible exact EvolvesOut.fault
    | split
    | refine Evolves.of_pair (by with_reducible assumption) ?_
    | refine Evolves.of_some (by with_reducible assumption) ?_
    | fail

theorem execResetInvalidationDone_evolves {s t : State} (h : Evolves s t) :
    EvolvesOut s (execResetInvalidationDone t) := by
  unfold execResetInvalidationDone
  repeat' first
    | with_reducible assumption
    | with_reducible refine State.modSl_evolves ?_
    | with_reducible refine State.wr_evolves ?_
    | with_reducible refine State.modPort_evolves ?_
    | (extract_lets +onlyGivenNames x; clear_value (hx : x = _); with_reducible refine Evolves.cut s hx ?_ (fun _ => ?_))
    | (extract_lets +onlyGivenNames x; clear_value (hx : x = _); with_reducible refine EvolvesFst.cut s hx ?_ (fun _ => ?_))
    | (extract_lets +onlyGivenNames x; with_reducible refine Evolves.local_fun x ?_; subst x; beta_reduce)
    | (extract_lets +onlyGivenNames x; clear_value (hx : x = _))
    | extract_lets +onlyGivenNames x
    | with_reducible refine Evolves.ite ?_ ?_
    | with_reducible refine EvolvesOut.ite ?_ ?_
    | with_reducible refine EvolvesOut.next ?_
    | with_reducible exact EvolvesOut.fault
    | with_reducible refine Evolves.foldl (fun _ _ _ => ?_) ?_
    | with_reducible refine EvolvesFst.foldl (fun _ _ _ => ?_) ?_
    | split
    | refine Evolves.of_pair (by with_reducible assumption) ?_
    | refine Evolves.of_some (by with_reducible assumption) ?_
    | fail_if_no_progress with_reducible refine Evolves.other ?_
    | with_reducible refine Evolves.fields (by with_reducible assumption)
    | refine Evolves.fields (h := ?_)
    | fail

end Sys2Proof.Machine
end

