-- ==== Sys2Proof/Laws/EvHost.lean ====
section
/-! SUPPORT. What each operation of Sys2Proof/Machine/Host.lean does to the whole machine: one `Evolves` lemma an operation. -/

set_option linter.all false
set_option Elab.async false

namespace Sys2Proof.Machine

open Host (Outcome)

theorem execRdShared_evolves {s t : State} {a0 : HostId} {a1 : Word} {a2 : BitVec 16} (h : Evolves s t) :
    EvolvesOut s (execRdShared a0 a1 a2 t) := by
  unfold execRdShared
  repeat' first
    | with_reducible assumption
    | with_reducible refine State.hostRequest_evolves ?_
    | (extract_lets +onlyGivenNames x; clear_value (hx : x = _); with_reducible refine Evolves.cut s hx ?_ (fun _ => ?_))
    | (extract_lets +onlyGivenNames x; clear_value (hx : x = _); with_reducible refine EvolvesFst.cut s hx ?_ (fun _ => ?_))
    | (extract_lets +onlyGivenNames x; with_reducible refine Evolves.local_fun x ?_; subst x; beta_reduce)
    | (extract_lets +onlyGivenNames x; clear_value (hx : x = _))
    | extract_lets +onlyGivenNames x
    | with_reducible refine Evolves.ite ?_ ?_
    | with_reducible refine EvolvesOut.ite ?_ ?_
    | with_reducible refine EvolvesOut.next ?_
    | with_reducible exact EvolvesOut.fault
    | refine Evolves.of_pair (by with_reducible assumption) ?_
    | refine Evolves.of_some (by with_reducible assumption) ?_
    | fail

theorem execRdOwn_evolves {s t : State} {a0 : HostId} {a1 : Word} {a2 : BitVec 16} (h : Evolves s t) :
    EvolvesOut s (execRdOwn a0 a1 a2 t) := by
  unfold execRdOwn
  repeat' first
    | with_reducible assumption
    | with_reducible refine State.hostRequest_evolves ?_
    | (extract_lets +onlyGivenNames x; clear_value (hx : x = _); with_reducible refine Evolves.cut s hx ?_ (fun _ => ?_))
    | (extract_lets +onlyGivenNames x; clear_value (hx : x = _); with_reducible refine EvolvesFst.cut s hx ?_ (fun _ => ?_))
    | (extract_lets +onlyGivenNames x; with_reducible refine Evolves.local_fun x ?_; subst x; beta_reduce)
    | (extract_lets +onlyGivenNames x; clear_value (hx : x = _))
    | extract_lets +onlyGivenNames x
    | with_reducible refine Evolves.ite ?_ ?_
    | with_reducible refine EvolvesOut.ite ?_ ?_
    | with_reducible refine EvolvesOut.next ?_
    | with_reducible exact EvolvesOut.fault
    | refine Evolves.of_pair (by with_reducible assumption) ?_
    | refine Evolves.of_some (by with_reducible assumption) ?_
    | fail

theorem execRdCur_evolves {s t : State} {a0 : HostId} {a1 : Word} {a2 : BitVec 16} (h : Evolves s t) :
    EvolvesOut s (execRdCur a0 a1 a2 t) := by
  unfold execRdCur
  repeat' first
    | with_reducible assumption
    | with_reducible refine State.hostRequest_evolves ?_
    | (extract_lets +onlyGivenNames x; clear_value (hx : x = _); with_reducible refine Evolves.cut s hx ?_ (fun _ => ?_))
    | (extract_lets +onlyGivenNames x; clear_value (hx : x = _); with_reducible refine EvolvesFst.cut s hx ?_ (fun _ => ?_))
    | (extract_lets +onlyGivenNames x; with_reducible refine Evolves.local_fun x ?_; subst x; beta_reduce)
    | (extract_lets +onlyGivenNames x; clear_value (hx : x = _))
    | extract_lets +onlyGivenNames x
    | with_reducible refine Evolves.ite ?_ ?_
    | with_reducible refine EvolvesOut.ite ?_ ?_
    | with_reducible refine EvolvesOut.next ?_
    | with_reducible exact EvolvesOut.fault
    | refine Evolves.of_pair (by with_reducible assumption) ?_
    | refine Evolves.of_some (by with_reducible assumption) ?_
    | fail

theorem execInvOwn_evolves {s t : State} {a0 : HostId} {a1 : Word} {a2 : BitVec 16} (h : Evolves s t) :
    EvolvesOut s (execInvOwn a0 a1 a2 t) := by
  unfold execInvOwn
  repeat' first
    | with_reducible assumption
    | with_reducible refine State.hostRequest_evolves ?_
    | (extract_lets +onlyGivenNames x; clear_value (hx : x = _); with_reducible refine Evolves.cut s hx ?_ (fun _ => ?_))
    | (extract_lets +onlyGivenNames x; clear_value (hx : x = _); with_reducible refine EvolvesFst.cut s hx ?_ (fun _ => ?_))
    | (extract_lets +onlyGivenNames x; with_reducible refine Evolves.local_fun x ?_; subst x; beta_reduce)
    | (extract_lets +onlyGivenNames x; clear_value (hx : x = _))
    | extract_lets +onlyGivenNames x
    | with_reducible refine Evolves.ite ?_ ?_
    | with_reducible refine EvolvesOut.ite ?_ ?_
    | with_reducible refine EvolvesOut.next ?_
    | with_reducible exact EvolvesOut.fault
    | refine Evolves.of_pair (by with_reducible assumption) ?_
    | refine Evolves.of_some (by with_reducible assumption) ?_
    | fail

theorem execInvFlush_evolves {s t : State} {a0 : HostId} {a1 : Word} {a2 : BitVec 16} (h : Evolves s t) :
    EvolvesOut s (execInvFlush a0 a1 a2 t) := by
  unfold execInvFlush
  repeat' first
    | with_reducible assumption
    | with_reducible refine State.hostRequest_evolves ?_
    | (extract_lets +onlyGivenNames x; clear_value (hx : x = _); with_reducible refine Evolves.cut s hx ?_ (fun _ => ?_))
    | (extract_lets +onlyGivenNames x; clear_value (hx : x = _); with_reducible refine EvolvesFst.cut s hx ?_ (fun _ => ?_))
    | (extract_lets +onlyGivenNames x; with_reducible refine Evolves.local_fun x ?_; subst x; beta_reduce)
    | (extract_lets +onlyGivenNames x; clear_value (hx : x = _))
    | extract_lets +onlyGivenNames x
    | with_reducible refine Evolves.ite ?_ ?_
    | with_reducible refine EvolvesOut.ite ?_ ?_
    | with_reducible refine EvolvesOut.next ?_
    | with_reducible exact EvolvesOut.fault
    | refine Evolves.of_pair (by with_reducible assumption) ?_
    | refine Evolves.of_some (by with_reducible assumption) ?_
    | fail

theorem execWrFull_evolves {s t : State} {a0 : HostId} {a1 : Word} {a2 : BitVec 16} {a3 : LineData} {a4 : Bool} {a5 : Bool} (h : Evolves s t) :
    EvolvesOut s (execWrFull a0 a1 a2 a3 a4 a5 t) := by
  unfold execWrFull
  repeat' first
    | with_reducible assumption
    | with_reducible refine State.hostRequest_evolves ?_
    | (extract_lets +onlyGivenNames x; clear_value (hx : x = _); with_reducible refine Evolves.cut s hx ?_ (fun _ => ?_))
    | (extract_lets +onlyGivenNames x; clear_value (hx : x = _); with_reducible refine EvolvesFst.cut s hx ?_ (fun _ => ?_))
    | (extract_lets +onlyGivenNames x; with_reducible refine Evolves.local_fun x ?_; subst x; beta_reduce)
    | (extract_lets +onlyGivenNames x; clear_value (hx : x = _))
    | extract_lets +onlyGivenNames x
    | with_reducible refine Evolves.ite ?_ ?_
    | with_reducible refine EvolvesOut.ite ?_ ?_
    | with_reducible refine EvolvesOut.next ?_
    | with_reducible exact EvolvesOut.fault
    | refine Evolves.of_pair (by with_reducible assumption) ?_
    | refine Evolves.of_some (by with_reducible assumption) ?_
    | fail

theorem execWrPtl_evolves {s t : State} {a0 : HostId} {a1 : Word} {a2 : BitVec 16} {a3 : LineData} {a4 : ByteMask} {a5 : Bool} {a6 : Bool} (h : Evolves s t) :
    EvolvesOut s (execWrPtl a0 a1 a2 a3 a4 a5 a6 t) := by
  unfold execWrPtl
  repeat' first
    | with_reducible assumption
    | with_reducible refine State.hostRequest_evolves ?_
    | (extract_lets +onlyGivenNames x; clear_value (hx : x = _); with_reducible refine Evolves.cut s hx ?_ (fun _ => ?_))
    | (extract_lets +onlyGivenNames x; clear_value (hx : x = _); with_reducible refine EvolvesFst.cut s hx ?_ (fun _ => ?_))
    | (extract_lets +onlyGivenNames x; with_reducible refine Evolves.local_fun x ?_; subst x; beta_reduce)
    | (extract_lets +onlyGivenNames x; clear_value (hx : x = _))
    | extract_lets +onlyGivenNames x
    | with_reducible refine Evolves.ite ?_ ?_
    | with_reducible refine EvolvesOut.ite ?_ ?_
    | with_reducible refine EvolvesOut.next ?_
    | with_reducible exact EvolvesOut.fault
    | split
    | refine Evolves.of_pair (by with_reducible assumption) ?_
    | refine Evolves.of_some (by with_reducible assumption) ?_
    | fail

theorem execClnEvct_evolves {s t : State} {a0 : HostId} {a1 : Word} {a2 : BitVec 16} (h : Evolves s t) :
    EvolvesOut s (execClnEvct a0 a1 a2 t) := by
  unfold execClnEvct
  repeat' first
    | with_reducible assumption
    | with_reducible refine State.hostRequest_evolves ?_
    | (extract_lets +onlyGivenNames x; clear_value (hx : x = _); with_reducible refine Evolves.cut s hx ?_ (fun _ => ?_))
    | (extract_lets +onlyGivenNames x; clear_value (hx : x = _); with_reducible refine EvolvesFst.cut s hx ?_ (fun _ => ?_))
    | (extract_lets +onlyGivenNames x; with_reducible refine Evolves.local_fun x ?_; subst x; beta_reduce)
    | (extract_lets +onlyGivenNames x; clear_value (hx : x = _))
    | extract_lets +onlyGivenNames x
    | with_reducible refine Evolves.ite ?_ ?_
    | with_reducible refine EvolvesOut.ite ?_ ?_
    | with_reducible refine EvolvesOut.next ?_
    | with_reducible exact EvolvesOut.fault
    | refine Evolves.of_pair (by with_reducible assumption) ?_
    | refine Evolves.of_some (by with_reducible assumption) ?_
    | fail

theorem execSpec_evolves {s t : State} {a0 : HostId} {a1 : Word} (h : Evolves s t) :
    EvolvesOut s (execSpec a0 a1 t) := by
  unfold execSpec
  repeat' first
    | with_reducible assumption
    | with_reducible refine State.hostRequest_evolves ?_
    | (extract_lets +onlyGivenNames x; clear_value (hx : x = _); with_reducible refine Evolves.cut s hx ?_ (fun _ => ?_))
    | (extract_lets +onlyGivenNames x; clear_value (hx : x = _); with_reducible refine EvolvesFst.cut s hx ?_ (fun _ => ?_))
    | (extract_lets +onlyGivenNames x; with_reducible refine Evolves.local_fun x ?_; subst x; beta_reduce)
    | (extract_lets +onlyGivenNames x; clear_value (hx : x = _))
    | extract_lets +onlyGivenNames x
    | with_reducible refine Evolves.ite ?_ ?_
    | with_reducible refine EvolvesOut.ite ?_ ?_
    | with_reducible refine EvolvesOut.next ?_
    | with_reducible exact EvolvesOut.fault
    | refine Evolves.of_pair (by with_reducible assumption) ?_
    | refine Evolves.of_some (by with_reducible assumption) ?_
    | fail

theorem execUnsupportedRequest_evolves {s t : State} {a0 : HostId} {a1 : Bool} {a2 : BitVec 4} {a3 : Word} {a4 : BitVec 16} (h : Evolves s t) :
    EvolvesOut s (execUnsupportedRequest a0 a1 a2 a3 a4 t) := by
  unfold execUnsupportedRequest
  repeat' first
    | with_reducible assumption
    | with_reducible refine State.emit_evolves ?_
    | with_reducible refine State.unsupported_evolves ?_
    | (extract_lets +onlyGivenNames x; clear_value (hx : x = _); with_reducible refine Evolves.cut s hx ?_ (fun _ => ?_))
    | (extract_lets +onlyGivenNames x; clear_value (hx : x = _); with_reducible refine EvolvesFst.cut s hx ?_ (fun _ => ?_))
    | (extract_lets +onlyGivenNames x; with_reducible refine Evolves.local_fun x ?_; subst x; beta_reduce)
    | (extract_lets +onlyGivenNames x; clear_value (hx : x = _))
    | extract_lets +onlyGivenNames x
    | with_reducible refine Evolves.ite ?_ ?_
    | with_reducible refine EvolvesOut.ite ?_ ?_
    | with_reducible refine EvolvesOut.next ?_
    | with_reducible exact EvolvesOut.fault
    | split
    | refine Evolves.of_pair (by with_reducible assumption) ?_
    | refine Evolves.of_some (by with_reducible assumption) ?_
    | fail

theorem State.toInvalidate_evolves {s t : State} {a1 : SnoopOwner} {a2 : HostId} {a3 : Nat} (h : Evolves s t) :
    Evolves s (State.toInvalidate t a1 a2 a3) := by
  unfold State.toInvalidate
  repeat' first
    | with_reducible assumption
    | with_reducible refine State.modTrk_evolves ?_
    | with_reducible refine State.issueSnoop_evolves ?_
    | (extract_lets +onlyGivenNames x; clear_value (hx : x = _); with_reducible refine Evolves.cut s hx ?_ (fun _ => ?_))
    | (extract_lets +onlyGivenNames x; clear_value (hx : x = _); with_reducible refine EvolvesFst.cut s hx ?_ (fun _ => ?_))
    | (extract_lets +onlyGivenNames x; with_reducible refine Evolves.local_fun x ?_; subst x; beta_reduce)
    | (extract_lets +onlyGivenNames x; clear_value (hx : x = _))
    | extract_lets +onlyGivenNames x
    | with_reducible refine Evolves.ite ?_ ?_
    | split
    | refine Evolves.of_pair (by with_reducible assumption) ?_
    | refine Evolves.of_some (by with_reducible assumption) ?_
    | fail_if_no_progress with_reducible refine Evolves.other ?_
    | with_reducible refine Evolves.fields (by with_reducible assumption)
    | refine Evolves.fields (h := ?_)
    | fail

theorem State.entryAnswered_evolves {s t : State} {a1 : HostId} {a2 : Nat} {a3 : SnoopEntry} {a4 : List Nat} (h : Evolves s t) :
    Evolves s (State.entryAnswered t a1 a2 a3 a4) := by
  unfold State.entryAnswered
  repeat' first
    | with_reducible assumption
    | with_reducible refine State.freeSnoop_evolves ?_
    | with_reducible refine State.modPort_evolves ?_
    | (extract_lets +onlyGivenNames x; clear_value (hx : x = _); with_reducible refine Evolves.cut s hx ?_ (fun _ => ?_))
    | (extract_lets +onlyGivenNames x; clear_value (hx : x = _); with_reducible refine EvolvesFst.cut s hx ?_ (fun _ => ?_))
    | (extract_lets +onlyGivenNames x; with_reducible refine Evolves.local_fun x ?_; subst x; beta_reduce)
    | (extract_lets +onlyGivenNames x; clear_value (hx : x = _))
    | extract_lets +onlyGivenNames x
    | with_reducible refine Evolves.ite ?_ ?_
    | split
    | refine Evolves.of_pair (by with_reducible assumption) ?_
    | refine Evolves.of_some (by with_reducible assumption) ?_
    | fail_if_no_progress with_reducible refine Evolves.other ?_
    | with_reducible refine Evolves.fields (by with_reducible assumption)
    | refine Evolves.fields (h := ?_)
    | fail

theorem State.takeAnswer_evolves {s t : State} {a1 : SnoopEntry} {a2 : HostId} {a3 : SnoopRsp} {a4 : Nat} (h : Evolves s t) :
    EvolvesFst s (State.takeAnswer t a1 a2 a3 a4) := by
  unfold State.takeAnswer
  repeat' first
    | with_reducible assumption
    | with_reducible refine State.setAnswer_evolves ?_
    | with_reducible refine State.toInvalidate_evolves ?_
    | (extract_lets +onlyGivenNames x; clear_value (hx : x = _); with_reducible refine Evolves.cut s hx ?_ (fun _ => ?_))
    | (extract_lets +onlyGivenNames x; clear_value (hx : x = _); with_reducible refine EvolvesFst.cut s hx ?_ (fun _ => ?_))
    | (extract_lets +onlyGivenNames x; with_reducible refine Evolves.local_fun x ?_; subst x; beta_reduce)
    | (extract_lets +onlyGivenNames x; clear_value (hx : x = _))
    | extract_lets +onlyGivenNames x
    | with_reducible refine Evolves.ite ?_ ?_
    | with_reducible refine EvolvesFst.ite ?_ ?_
    | split
    | with_reducible refine EvolvesFst.pair ?_
    | with_reducible refine EvolvesFst.fst ?_
    | refine Evolves.of_pair (by with_reducible assumption) ?_
    | refine Evolves.of_some (by with_reducible assumption) ?_
    | fail

theorem execBirsp_evolves {s t : State} {a0 : HostId} {a1 : BitVec 8} {a2 : SnoopRsp} {a3 : Bool} {a4 : Word} (h : Evolves s t) :
    EvolvesOut s (execBirsp a0 a1 a2 a3 a4 t) := by
  unfold execBirsp
  repeat' first
    | with_reducible assumption
    | with_reducible refine State.count_evolves ?_
    | with_reducible refine State.protoErr_evolves ?_
    | with_reducible refine State.takeAnswer_evolves ?_
    | with_reducible refine State.depart_evolves ?_
    | with_reducible refine State.entryAnswered_evolves ?_
    | with_reducible refine State.passDone_evolves ?_
    | with_reducible refine State.moveOwner_evolves ?_
    | (extract_lets +onlyGivenNames x; clear_value (hx : x = _); with_reducible refine Evolves.cut s hx ?_ (fun _ => ?_))
    | (extract_lets +onlyGivenNames x; clear_value (hx : x = _); with_reducible refine EvolvesFst.cut s hx ?_ (fun _ => ?_))
    | (extract_lets +onlyGivenNames x; with_reducible refine Evolves.local_fun x ?_; subst x; beta_reduce)
    | (extract_lets +onlyGivenNames x; clear_value (hx : x = _))
    | extract_lets +onlyGivenNames x
    | with_reducible refine Evolves.ite ?_ ?_
    | with_reducible refine EvolvesOut.ite ?_ ?_
    | with_reducible refine EvolvesOut.next ?_
    | with_reducible exact EvolvesOut.fault
    | with_reducible refine EvolvesFst.ite ?_ ?_
    | with_reducible refine Evolves.foldl (fun _ _ _ => ?_) ?_
    | with_reducible refine EvolvesFst.foldl (fun _ _ _ => ?_) ?_
    | split
    | with_reducible refine EvolvesFst.pair ?_
    | with_reducible refine EvolvesFst.fst ?_
    | refine Evolves.of_pair (by with_reducible assumption) ?_
    | refine Evolves.of_some (by with_reducible assumption) ?_
    | fail

theorem execBiconflict_evolves {s t : State} {a0 : HostId} {a1 : Word} (h : Evolves s t) :
    EvolvesOut s (execBiconflict a0 a1 t) := by
  unfold execBiconflict
  repeat' first
    | with_reducible assumption
    | with_reducible refine State.count_evolves ?_
    | with_reducible refine State.answerHost_evolves ?_
    | (extract_lets +onlyGivenNames x; clear_value (hx : x = _); with_reducible refine Evolves.cut s hx ?_ (fun _ => ?_))
    | (extract_lets +onlyGivenNames x; clear_value (hx : x = _); with_reducible refine EvolvesFst.cut s hx ?_ (fun _ => ?_))
    | (extract_lets +onlyGivenNames x; with_reducible refine Evolves.local_fun x ?_; subst x; beta_reduce)
    | (extract_lets +onlyGivenNames x; clear_value (hx : x = _))
    | extract_lets +onlyGivenNames x
    | with_reducible refine Evolves.ite ?_ ?_
    | with_reducible refine EvolvesOut.ite ?_ ?_
    | with_reducible refine EvolvesOut.next ?_
    | with_reducible exact EvolvesOut.fault
    | split
    | refine Evolves.of_pair (by with_reducible assumption) ?_
    | refine Evolves.of_some (by with_reducible assumption) ?_
    | fail

theorem execSnoopReoffer_evolves {s t : State} {a0 : HostId} (h : Evolves s t) :
    EvolvesOut s (execSnoopReoffer a0 t) := by
  unfold execSnoopReoffer
  repeat' first
    | with_reducible assumption
    | with_reducible refine State.modPort_evolves ?_
    | with_reducible refine State.enterSnoop_evolves ?_
    | (extract_lets +onlyGivenNames x; clear_value (hx : x = _); with_reducible refine Evolves.cut s hx ?_ (fun _ => ?_))
    | (extract_lets +onlyGivenNames x; clear_value (hx : x = _); with_reducible refine EvolvesFst.cut s hx ?_ (fun _ => ?_))
    | (extract_lets +onlyGivenNames x; with_reducible refine Evolves.local_fun x ?_; subst x; beta_reduce)
    | (extract_lets +onlyGivenNames x; clear_value (hx : x = _))
    | extract_lets +onlyGivenNames x
    | with_reducible refine Evolves.ite ?_ ?_
    | with_reducible refine EvolvesOut.ite ?_ ?_
    | with_reducible refine EvolvesOut.next ?_
    | with_reducible exact EvolvesOut.fault
    | split
    | refine Evolves.of_pair (by with_reducible assumption) ?_
    | refine Evolves.of_some (by with_reducible assumption) ?_
    | fail_if_no_progress with_reducible refine Evolves.other ?_
    | with_reducible refine Evolves.fields (by with_reducible assumption)
    | refine Evolves.fields (h := ?_)
    | fail

theorem execBiWarnExpiry_evolves {s t : State} {a0 : HostId} {a1 : BitVec 8} (h : Evolves s t) :
    EvolvesOut s (execBiWarnExpiry a0 a1 t) := by
  unfold execBiWarnExpiry
  repeat' first
    | with_reducible assumption
    | with_reducible refine State.wr_evolves ?_
    | with_reducible refine State.modPort_evolves ?_
    | with_reducible refine State.notice_evolves ?_
    | (extract_lets +onlyGivenNames x; clear_value (hx : x = _); with_reducible refine Evolves.cut s hx ?_ (fun _ => ?_))
    | (extract_lets +onlyGivenNames x; clear_value (hx : x = _); with_reducible refine EvolvesFst.cut s hx ?_ (fun _ => ?_))
    | (extract_lets +onlyGivenNames x; with_reducible refine Evolves.local_fun x ?_; subst x; beta_reduce)
    | (extract_lets +onlyGivenNames x; clear_value (hx : x = _))
    | extract_lets +onlyGivenNames x
    | with_reducible refine Evolves.ite ?_ ?_
    | with_reducible refine EvolvesOut.ite ?_ ?_
    | with_reducible refine EvolvesOut.next ?_
    | with_reducible exact EvolvesOut.fault
    | split
    | refine Evolves.of_pair (by with_reducible assumption) ?_
    | refine Evolves.of_some (by with_reducible assumption) ?_
    | fail_if_no_progress with_reducible refine Evolves.other ?_
    | with_reducible refine Evolves.fields (by with_reducible assumption)
    | refine Evolves.fields (h := ?_)
    | fail

theorem execBiFenceExpiry_evolves {s t : State} {a0 : HostId} {a1 : BitVec 8} (h : Evolves s t) :
    EvolvesOut s (execBiFenceExpiry a0 a1 t) := by
  unfold execBiFenceExpiry
  repeat' first
    | with_reducible assumption
    | with_reducible refine State.wr_evolves ?_
    | with_reducible refine State.depart_evolves ?_
    | with_reducible refine State.notice_evolves ?_
    | (extract_lets +onlyGivenNames x; clear_value (hx : x = _); with_reducible refine Evolves.cut s hx ?_ (fun _ => ?_))
    | (extract_lets +onlyGivenNames x; clear_value (hx : x = _); with_reducible refine EvolvesFst.cut s hx ?_ (fun _ => ?_))
    | (extract_lets +onlyGivenNames x; with_reducible refine Evolves.local_fun x ?_; subst x; beta_reduce)
    | (extract_lets +onlyGivenNames x; clear_value (hx : x = _))
    | extract_lets +onlyGivenNames x
    | with_reducible refine Evolves.ite ?_ ?_
    | with_reducible refine EvolvesOut.ite ?_ ?_
    | with_reducible refine EvolvesOut.next ?_
    | with_reducible exact EvolvesOut.fault
    | split
    | refine Evolves.of_pair (by with_reducible assumption) ?_
    | refine Evolves.of_some (by with_reducible assumption) ?_
    | fail

theorem execLinkUp_evolves {s t : State} {a0 : HostId} (h : Evolves s t) :
    EvolvesOut s (execLinkUp a0 t) := by
  unfold execLinkUp
  repeat' first
    | with_reducible assumption
    | with_reducible refine State.wr_evolves ?_
    | (extract_lets +onlyGivenNames x; clear_value (hx : x = _); with_reducible refine Evolves.cut s hx ?_ (fun _ => ?_))
    | (extract_lets +onlyGivenNames x; clear_value (hx : x = _); with_reducible refine EvolvesFst.cut s hx ?_ (fun _ => ?_))
    | (extract_lets +onlyGivenNames x; with_reducible refine Evolves.local_fun x ?_; subst x; beta_reduce)
    | (extract_lets +onlyGivenNames x; clear_value (hx : x = _))
    | extract_lets +onlyGivenNames x
    | with_reducible refine Evolves.ite ?_ ?_
    | with_reducible refine EvolvesOut.ite ?_ ?_
    | with_reducible refine EvolvesOut.next ?_
    | with_reducible exact EvolvesOut.fault
    | split
    | refine Evolves.of_pair (by with_reducible assumption) ?_
    | refine Evolves.of_some (by with_reducible assumption) ?_
    | fail

theorem State.linkReset_evolves {s t : State} {a1 : HostId} {a2 : Nat} (h : Evolves s t) :
    Evolves s (State.linkReset t a1 a2) := by
  unfold State.linkReset
  repeat' first
    | with_reducible assumption
    | with_reducible refine State.modPort_evolves ?_
    | with_reducible refine State.depart_evolves ?_
    | (extract_lets +onlyGivenNames x; clear_value (hx : x = _); with_reducible refine Evolves.cut s hx ?_ (fun _ => ?_))
    | (extract_lets +onlyGivenNames x; clear_value (hx : x = _); with_reducible refine EvolvesFst.cut s hx ?_ (fun _ => ?_))
    | (extract_lets +onlyGivenNames x; with_reducible refine Evolves.local_fun x ?_; subst x; beta_reduce)
    | (extract_lets +onlyGivenNames x; clear_value (hx : x = _))
    | extract_lets +onlyGivenNames x
    | with_reducible refine Evolves.ite ?_ ?_
    | split
    | refine Evolves.of_pair (by with_reducible assumption) ?_
    | refine Evolves.of_some (by with_reducible assumption) ?_
    | fail_if_no_progress with_reducible refine Evolves.other ?_
    | with_reducible refine Evolves.fields (by with_reducible assumption)
    | refine Evolves.fields (h := ?_)
    | fail

theorem execLinkDown_evolves {s t : State} {a0 : HostId} (h : Evolves s t) :
    EvolvesOut s (execLinkDown a0 t) := by
  unfold execLinkDown
  repeat' first
    | with_reducible assumption
    | with_reducible refine State.wr_evolves ?_
    | with_reducible refine State.linkReset_evolves ?_
    | (extract_lets +onlyGivenNames x; clear_value (hx : x = _); with_reducible refine Evolves.cut s hx ?_ (fun _ => ?_))
    | (extract_lets +onlyGivenNames x; clear_value (hx : x = _); with_reducible refine EvolvesFst.cut s hx ?_ (fun _ => ?_))
    | (extract_lets +onlyGivenNames x; with_reducible refine Evolves.local_fun x ?_; subst x; beta_reduce)
    | (extract_lets +onlyGivenNames x; clear_value (hx : x = _))
    | extract_lets +onlyGivenNames x
    | with_reducible refine Evolves.ite ?_ ?_
    | with_reducible refine EvolvesOut.ite ?_ ?_
    | with_reducible refine EvolvesOut.next ?_
    | with_reducible exact EvolvesOut.fault
    | split
    | refine Evolves.of_pair (by with_reducible assumption) ?_
    | refine Evolves.of_some (by with_reducible assumption) ?_
    | fail

theorem execHotReset_evolves {s t : State} {a0 : HostId} (h : Evolves s t) :
    EvolvesOut s (execHotReset a0 t) := by
  unfold execHotReset
  repeat' first
    | with_reducible assumption
    | with_reducible refine State.linkReset_evolves ?_
    | (extract_lets +onlyGivenNames x; clear_value (hx : x = _); with_reducible refine Evolves.cut s hx ?_ (fun _ => ?_))
    | (extract_lets +onlyGivenNames x; clear_value (hx : x = _); with_reducible refine EvolvesFst.cut s hx ?_ (fun _ => ?_))
    | (extract_lets +onlyGivenNames x; with_reducible refine Evolves.local_fun x ?_; subst x; beta_reduce)
    | (extract_lets +onlyGivenNames x; clear_value (hx : x = _))
    | extract_lets +onlyGivenNames x
    | with_reducible refine Evolves.ite ?_ ?_
    | with_reducible refine EvolvesOut.ite ?_ ?_
    | with_reducible refine EvolvesOut.next ?_
    | with_reducible exact EvolvesOut.fault
    | split
    | refine Evolves.of_pair (by with_reducible assumption) ?_
    | refine Evolves.of_some (by with_reducible assumption) ?_
    | fail

theorem execBiEnableChange_evolves {s t : State} {a0 : HostId} {a1 : Bool} (h : Evolves s t) :
    EvolvesOut s (execBiEnableChange a0 a1 t) := by
  unfold execBiEnableChange
  repeat' first
    | with_reducible assumption
    | with_reducible refine State.wb_evolves ?_
    | with_reducible refine State.depart_evolves ?_
    | (extract_lets +onlyGivenNames x; clear_value (hx : x = _); with_reducible refine Evolves.cut s hx ?_ (fun _ => ?_))
    | (extract_lets +onlyGivenNames x; clear_value (hx : x = _); with_reducible refine EvolvesFst.cut s hx ?_ (fun _ => ?_))
    | (extract_lets +onlyGivenNames x; with_reducible refine Evolves.local_fun x ?_; subst x; beta_reduce)
    | (extract_lets +onlyGivenNames x; clear_value (hx : x = _))
    | extract_lets +onlyGivenNames x
    | with_reducible refine Evolves.ite ?_ ?_
    | with_reducible refine EvolvesOut.ite ?_ ?_
    | with_reducible refine EvolvesOut.next ?_
    | with_reducible exact EvolvesOut.fault
    | split
    | refine Evolves.of_pair (by with_reducible assumption) ?_
    | refine Evolves.of_some (by with_reducible assumption) ?_
    | fail

theorem execWidthReport_evolves {s t : State} {a0 : HostId} {a1 : LinkWidth} {a2 : Bool} (h : Evolves s t) :
    EvolvesOut s (execWidthReport a0 a1 a2 t) := by
  unfold execWidthReport
  repeat' first
    | with_reducible assumption
    | with_reducible refine State.wr_evolves ?_
    | with_reducible refine State.dormTrigger_evolves ?_
    | (extract_lets +onlyGivenNames x; clear_value (hx : x = _); with_reducible refine Evolves.cut s hx ?_ (fun _ => ?_))
    | (extract_lets +onlyGivenNames x; clear_value (hx : x = _); with_reducible refine EvolvesFst.cut s hx ?_ (fun _ => ?_))
    | (extract_lets +onlyGivenNames x; with_reducible refine Evolves.local_fun x ?_; subst x; beta_reduce)
    | (extract_lets +onlyGivenNames x; clear_value (hx : x = _))
    | extract_lets +onlyGivenNames x
    | with_reducible refine Evolves.ite ?_ ?_
    | with_reducible refine EvolvesOut.ite ?_ ?_
    | with_reducible refine EvolvesOut.next ?_
    | with_reducible exact EvolvesOut.fault
    | split
    | refine Evolves.of_pair (by with_reducible assumption) ?_
    | refine Evolves.of_some (by with_reducible assumption) ?_
    | fail

theorem execL0pRefused_evolves {s t : State} {a0 : HostId} (h : Evolves s t) :
    EvolvesOut s (execL0pRefused a0 t) := by
  unfold execL0pRefused
  repeat' first
    | with_reducible assumption
    | with_reducible refine State.wr_evolves ?_
    | with_reducible refine State.modPort_evolves ?_
    | (extract_lets +onlyGivenNames x; clear_value (hx : x = _); with_reducible refine Evolves.cut s hx ?_ (fun _ => ?_))
    | (extract_lets +onlyGivenNames x; clear_value (hx : x = _); with_reducible refine EvolvesFst.cut s hx ?_ (fun _ => ?_))
    | (extract_lets +onlyGivenNames x; with_reducible refine Evolves.local_fun x ?_; subst x; beta_reduce)
    | (extract_lets +onlyGivenNames x; clear_value (hx : x = _))
    | extract_lets +onlyGivenNames x
    | with_reducible refine Evolves.ite ?_ ?_
    | with_reducible refine EvolvesOut.ite ?_ ?_
    | with_reducible refine EvolvesOut.next ?_
    | with_reducible exact EvolvesOut.fault
    | split
    | refine Evolves.of_pair (by with_reducible assumption) ?_
    | refine Evolves.of_some (by with_reducible assumption) ?_
    | fail_if_no_progress with_reducible refine Evolves.other ?_
    | with_reducible refine Evolves.fields (by with_reducible assumption)
    | refine Evolves.fields (h := ?_)
    | fail

theorem execGpfPhase1_evolves {s t : State} {a0 : HostId} (h : Evolves s t) :
    EvolvesOut s (execGpfPhase1 a0 t) := by
  unfold execGpfPhase1
  repeat' first
    | with_reducible assumption
    | (extract_lets +onlyGivenNames x; clear_value (hx : x = _); with_reducible refine Evolves.cut s hx ?_ (fun _ => ?_))
    | (extract_lets +onlyGivenNames x; with_reducible refine Evolves.local_fun x ?_; subst x; beta_reduce)
    | (extract_lets +onlyGivenNames x; clear_value (hx : x = _))
    | extract_lets +onlyGivenNames x
    | with_reducible refine Evolves.ite ?_ ?_
    | with_reducible refine EvolvesOut.ite ?_ ?_
    | with_reducible refine EvolvesOut.next ?_
    | with_reducible exact EvolvesOut.fault
    | refine Evolves.of_pair (by with_reducible assumption) ?_
    | refine Evolves.of_some (by with_reducible assumption) ?_
    | fail

theorem execGpfPhase2_evolves {s t : State} {a0 : HostId} (h : Evolves s t) :
    EvolvesOut s (execGpfPhase2 a0 t) := by
  unfold execGpfPhase2
  repeat' first
    | with_reducible assumption
    | with_reducible refine State.modPort_evolves ?_
    | with_reducible refine State.enterDrain_evolves ?_
    | (extract_lets +onlyGivenNames x; clear_value (hx : x = _); with_reducible refine Evolves.cut s hx ?_ (fun _ => ?_))
    | (extract_lets +onlyGivenNames x; clear_value (hx : x = _); with_reducible refine EvolvesFst.cut s hx ?_ (fun _ => ?_))
    | (extract_lets +onlyGivenNames x; with_reducible refine Evolves.local_fun x ?_; subst x; beta_reduce)
    | (extract_lets +onlyGivenNames x; clear_value (hx : x = _))
    | extract_lets +onlyGivenNames x
    | with_reducible refine Evolves.ite ?_ ?_
    | with_reducible refine EvolvesOut.ite ?_ ?_
    | with_reducible refine EvolvesOut.next ?_
    | with_reducible exact EvolvesOut.fault
    | split
    | refine Evolves.of_pair (by with_reducible assumption) ?_
    | refine Evolves.of_some (by with_reducible assumption) ?_
    | fail_if_no_progress with_reducible refine Evolves.other ?_
    | with_reducible refine Evolves.fields (by with_reducible assumption)
    | refine Evolves.fields (h := ?_)
    | fail

theorem execGpfPhase2Ack_evolves {s t : State} {a0 : HostId} (h : Evolves s t) :
    EvolvesOut s (execGpfPhase2Ack a0 t) := by
  unfold execGpfPhase2Ack
  repeat' first
    | with_reducible assumption
    | with_reducible refine State.modPort_evolves ?_
    | with_reducible refine State.emit_evolves ?_
    | (extract_lets +onlyGivenNames x; clear_value (hx : x = _); with_reducible refine Evolves.cut s hx ?_ (fun _ => ?_))
    | (extract_lets +onlyGivenNames x; clear_value (hx : x = _); with_reducible refine EvolvesFst.cut s hx ?_ (fun _ => ?_))
    | (extract_lets +onlyGivenNames x; with_reducible refine Evolves.local_fun x ?_; subst x; beta_reduce)
    | (extract_lets +onlyGivenNames x; clear_value (hx : x = _))
    | extract_lets +onlyGivenNames x
    | with_reducible refine Evolves.ite ?_ ?_
    | with_reducible refine EvolvesOut.ite ?_ ?_
    | with_reducible refine EvolvesOut.next ?_
    | with_reducible exact EvolvesOut.fault
    | split
    | refine Evolves.of_pair (by with_reducible assumption) ?_
    | refine Evolves.of_some (by with_reducible assumption) ?_
    | fail_if_no_progress with_reducible refine Evolves.other ?_
    | with_reducible refine Evolves.fields (by with_reducible assumption)
    | refine Evolves.fields (h := ?_)
    | fail

theorem execHpHuskWrite_evolves {s t : State} {a0 : HostId} (h : Evolves s t) :
    EvolvesOut s (execHpHuskWrite a0 t) := by
  unfold execHpHuskWrite
  repeat' first
    | with_reducible assumption
    | with_reducible refine State.depart_evolves ?_
    | with_reducible refine State.commit_evolves ?_
    | (extract_lets +onlyGivenNames x; clear_value (hx : x = _); with_reducible refine Evolves.cut s hx ?_ (fun _ => ?_))
    | (extract_lets +onlyGivenNames x; clear_value (hx : x = _); with_reducible refine EvolvesFst.cut s hx ?_ (fun _ => ?_))
    | (extract_lets +onlyGivenNames x; with_reducible refine Evolves.local_fun x ?_; subst x; beta_reduce)
    | (extract_lets +onlyGivenNames x; clear_value (hx : x = _))
    | extract_lets +onlyGivenNames x
    | with_reducible refine Evolves.ite ?_ ?_
    | with_reducible refine EvolvesOut.ite ?_ ?_
    | with_reducible refine EvolvesOut.next ?_
    | with_reducible exact EvolvesOut.fault
    | split
    | refine Evolves.of_pair (by with_reducible assumption) ?_
    | refine Evolves.of_some (by with_reducible assumption) ?_
    | with_reducible refine EvolvesOpt.getD ?_ ?_
    | fail

theorem execHpEnableClear_evolves {s t : State} {a0 : HostId} (h : Evolves s t) :
    EvolvesOut s (execHpEnableClear a0 t) := by
  unfold execHpEnableClear
  repeat' first
    | with_reducible assumption
    | with_reducible refine State.wr_evolves ?_
    | with_reducible refine State.depart_evolves ?_
    | (extract_lets +onlyGivenNames x; clear_value (hx : x = _); with_reducible refine Evolves.cut s hx ?_ (fun _ => ?_))
    | (extract_lets +onlyGivenNames x; clear_value (hx : x = _); with_reducible refine EvolvesFst.cut s hx ?_ (fun _ => ?_))
    | (extract_lets +onlyGivenNames x; with_reducible refine Evolves.local_fun x ?_; subst x; beta_reduce)
    | (extract_lets +onlyGivenNames x; clear_value (hx : x = _))
    | extract_lets +onlyGivenNames x
    | with_reducible refine Evolves.ite ?_ ?_
    | with_reducible refine EvolvesOut.ite ?_ ?_
    | with_reducible refine EvolvesOut.next ?_
    | with_reducible exact EvolvesOut.fault
    | split
    | refine Evolves.of_pair (by with_reducible assumption) ?_
    | refine Evolves.of_some (by with_reducible assumption) ?_
    | fail

theorem execHuskClear_evolves {s t : State} {a0 : HostId} (h : Evolves s t) :
    EvolvesOut s (execHuskClear a0 t) := by
  unfold execHuskClear
  repeat' first
    | with_reducible assumption
    | with_reducible refine State.linkReset_evolves ?_
    | with_reducible refine State.wr_evolves ?_
    | with_reducible refine State.modPort_evolves ?_
    | (extract_lets +onlyGivenNames x; clear_value (hx : x = _); with_reducible refine Evolves.cut s hx ?_ (fun _ => ?_))
    | (extract_lets +onlyGivenNames x; clear_value (hx : x = _); with_reducible refine EvolvesFst.cut s hx ?_ (fun _ => ?_))
    | (extract_lets +onlyGivenNames x; with_reducible refine Evolves.local_fun x ?_; subst x; beta_reduce)
    | (extract_lets +onlyGivenNames x; clear_value (hx : x = _))
    | extract_lets +onlyGivenNames x
    | with_reducible refine Evolves.ite ?_ ?_
    | with_reducible refine EvolvesOut.ite ?_ ?_
    | with_reducible refine EvolvesOut.next ?_
    | with_reducible exact EvolvesOut.fault
    | split
    | refine Evolves.of_pair (by with_reducible assumption) ?_
    | refine Evolves.of_some (by with_reducible assumption) ?_
    | fail_if_no_progress with_reducible refine Evolves.other ?_
    | with_reducible refine Evolves.fields (by with_reducible assumption)
    | refine Evolves.fields (h := ?_)
    | fail

theorem execHostCreditAdvertised_evolves {s t : State} {a0 : HostId} {a1 : S2mClass} {a2 : Nat} (h : Evolves s t) :
    EvolvesOut s (execHostCreditAdvertised a0 a1 a2 t) := by
  unfold execHostCreditAdvertised
  repeat' first
    | with_reducible assumption
    | with_reducible refine State.modPort_evolves ?_
    | with_reducible refine State.release_evolves ?_
    | (extract_lets +onlyGivenNames x; clear_value (hx : x = _); with_reducible refine Evolves.cut s hx ?_ (fun _ => ?_))
    | (extract_lets +onlyGivenNames x; clear_value (hx : x = _); with_reducible refine EvolvesFst.cut s hx ?_ (fun _ => ?_))
    | (extract_lets +onlyGivenNames x; with_reducible refine Evolves.local_fun x ?_; subst x; beta_reduce)
    | (extract_lets +onlyGivenNames x; clear_value (hx : x = _))
    | extract_lets +onlyGivenNames x
    | with_reducible refine Evolves.ite ?_ ?_
    | with_reducible refine EvolvesOut.ite ?_ ?_
    | with_reducible refine EvolvesOut.next ?_
    | with_reducible exact EvolvesOut.fault
    | split
    | refine Evolves.of_pair (by with_reducible assumption) ?_
    | refine Evolves.of_some (by with_reducible assumption) ?_
    | fail

end Sys2Proof.Machine
end

