-- ==== Sys2Proof/Laws/EvSettings.lean ====
section
/-! SUPPORT. What each operation of Sys2Proof/Machine/Settings.lean does to the whole machine: one `Evolves` lemma an operation. -/

set_option linter.all false
set_option Elab.async false

namespace Sys2Proof.Machine

open Host (Outcome)

theorem State.after_evolves {s t : State} {o : Outcome State Fault Refusal} (hf : EvolvesOut s o) (h : Evolves s t) :
    Evolves s (State.after t o) := by
  unfold State.after
  split
  · rename_i u; exact hf u rfl
  · exact h

theorem State.plain_evolves {s t : State} {a1 : Nat} {a2 : Word} (h : Evolves s t) :
    Evolves s (State.plain t a1 a2) := by
  unfold State.plain
  repeat' first
    | with_reducible assumption
    | with_reducible refine State.setReg_evolves ?_
    | (extract_lets +onlyGivenNames x; clear_value (hx : x = _); with_reducible refine Evolves.cut s hx ?_ (fun _ => ?_))
    | (extract_lets +onlyGivenNames x; clear_value (hx : x = _); with_reducible refine EvolvesFst.cut s hx ?_ (fun _ => ?_))
    | (extract_lets +onlyGivenNames x; with_reducible refine Evolves.local_fun x ?_; subst x; beta_reduce)
    | (extract_lets +onlyGivenNames x; clear_value (hx : x = _))
    | extract_lets +onlyGivenNames x
    | with_reducible refine Evolves.ite ?_ ?_
    | refine Evolves.of_pair (by with_reducible assumption) ?_
    | refine Evolves.of_some (by with_reducible assumption) ?_
    | fail

theorem State.plainBits_evolves {s t : State} {a1 : Nat} {a2 : Word} {a3 : Word} (h : Evolves s t) :
    Evolves s (State.plainBits t a1 a2 a3) := by
  unfold State.plainBits
  repeat' first
    | with_reducible assumption
    | with_reducible refine State.setReg_evolves ?_
    | (extract_lets +onlyGivenNames x; clear_value (hx : x = _); with_reducible refine Evolves.cut s hx ?_ (fun _ => ?_))
    | (extract_lets +onlyGivenNames x; clear_value (hx : x = _); with_reducible refine EvolvesFst.cut s hx ?_ (fun _ => ?_))
    | (extract_lets +onlyGivenNames x; with_reducible refine Evolves.local_fun x ?_; subst x; beta_reduce)
    | (extract_lets +onlyGivenNames x; clear_value (hx : x = _))
    | extract_lets +onlyGivenNames x
    | with_reducible refine Evolves.ite ?_ ?_
    | refine Evolves.of_pair (by with_reducible assumption) ?_
    | refine Evolves.of_some (by with_reducible assumption) ?_
    | fail

theorem State.writeHpCtrl_evolves {s t : State} {a1 : HostId} {a2 : Word} (h : Evolves s t) :
    Evolves s (State.writeHpCtrl t a1 a2) := by
  unfold State.writeHpCtrl
  repeat' first
    | with_reducible assumption
    | with_reducible refine State.plainBits_evolves ?_
    | with_reducible refine State.after_evolves ?_ ?_
    | with_reducible refine execHpHuskWrite_evolves ?_
    | with_reducible refine execHuskClear_evolves ?_
    | with_reducible refine State.wr_evolves ?_
    | with_reducible refine execHpEnableClear_evolves ?_
    | (extract_lets +onlyGivenNames x; clear_value (hx : x = _); with_reducible refine Evolves.cut s hx ?_ (fun _ => ?_))
    | (extract_lets +onlyGivenNames x; clear_value (hx : x = _); with_reducible refine EvolvesFst.cut s hx ?_ (fun _ => ?_))
    | (extract_lets +onlyGivenNames x; with_reducible refine Evolves.local_fun x ?_; subst x; beta_reduce)
    | (extract_lets +onlyGivenNames x; clear_value (hx : x = _))
    | extract_lets +onlyGivenNames x
    | with_reducible refine Evolves.ite ?_ ?_
    | split
    | refine Evolves.of_pair (by with_reducible assumption) ?_
    | refine Evolves.of_some (by with_reducible assumption) ?_
    | fail

theorem State.writeHpCredits_evolves {s t : State} {a1 : HostId} {a2 : Word} (h : Evolves s t) :
    Evolves s (State.writeHpCredits t a1 a2) := by
  unfold State.writeHpCredits
  repeat' first
    | with_reducible assumption
    | with_reducible refine State.plainBits_evolves ?_
    | (extract_lets +onlyGivenNames x; clear_value (hx : x = _); with_reducible refine Evolves.cut s hx ?_ (fun _ => ?_))
    | (extract_lets +onlyGivenNames x; clear_value (hx : x = _); with_reducible refine EvolvesFst.cut s hx ?_ (fun _ => ?_))
    | (extract_lets +onlyGivenNames x; with_reducible refine Evolves.local_fun x ?_; subst x; beta_reduce)
    | (extract_lets +onlyGivenNames x; clear_value (hx : x = _))
    | extract_lets +onlyGivenNames x
    | with_reducible refine Evolves.ite ?_ ?_
    | split
    | refine Evolves.of_pair (by with_reducible assumption) ?_
    | refine Evolves.of_some (by with_reducible assumption) ?_
    | fail

theorem State.applySetting_evolves {s t : State} {a1 : Nat} {a2 : Word} (h : Evolves s t) :
    Evolves s (State.applySetting t a1 a2) := by
  unfold State.applySetting
  repeat' first
    | with_reducible assumption
    | with_reducible refine State.writeHpCtrl_evolves ?_
    | with_reducible refine State.plain_evolves ?_
    | with_reducible refine State.writeHpCredits_evolves ?_
    | with_reducible refine State.wr_evolves ?_
    | with_reducible refine State.plainBits_evolves ?_
    | with_reducible refine State.after_evolves ?_ ?_
    | with_reducible refine execOppTargetWrite_evolves ?_
    | (extract_lets +onlyGivenNames x; clear_value (hx : x = _); with_reducible refine Evolves.cut s hx ?_ (fun _ => ?_))
    | (extract_lets +onlyGivenNames x; clear_value (hx : x = _); with_reducible refine EvolvesFst.cut s hx ?_ (fun _ => ?_))
    | (extract_lets +onlyGivenNames x; with_reducible refine Evolves.local_fun x ?_; subst x; beta_reduce)
    | (extract_lets +onlyGivenNames x; clear_value (hx : x = _))
    | extract_lets +onlyGivenNames x
    | with_reducible refine Evolves.ite ?_ ?_
    | with_reducible refine Evolves.foldl (fun _ _ _ => ?_) ?_
    | with_reducible refine EvolvesFst.foldl (fun _ _ _ => ?_) ?_
    | split
    | refine Evolves.of_pair (by with_reducible assumption) ?_
    | refine Evolves.of_some (by with_reducible assumption) ?_
    | fail

end Sys2Proof.Machine
end

