-- ==== Sys2Proof/Laws/EvRegisterWrite.lean ====
section
/-! SUPPORT. What each operation of Sys2Proof/Machine/RegisterWrite.lean does to the whole machine: one `Evolves` lemma an operation. -/

set_option linter.all false
set_option Elab.async false

namespace Sys2Proof.Machine

open Host (Outcome)

theorem State.requestMode_evolves {s t : State} {a1 : Nat} (h : Evolves s t) :
    Evolves s (State.requestMode t a1) := by
  unfold State.requestMode
  repeat' first
    | with_reducible assumption
    | with_reducible refine State.after_evolves ?_ ?_
    | with_reducible refine execModeReqHold_evolves ?_
    | with_reducible refine execModeReqServe_evolves ?_
    | with_reducible refine execModeReqDormant_evolves ?_
    | with_reducible refine execModeReqRepair_evolves ?_
    | with_reducible refine State.refuseMode_evolves ?_
    | (extract_lets +onlyGivenNames x; clear_value (hx : x = _); with_reducible refine Evolves.cut s hx ?_ (fun _ => ?_))
    | (extract_lets +onlyGivenNames x; clear_value (hx : x = _); with_reducible refine EvolvesFst.cut s hx ?_ (fun _ => ?_))
    | (extract_lets +onlyGivenNames x; with_reducible refine Evolves.local_fun x ?_; subst x; beta_reduce)
    | (extract_lets +onlyGivenNames x; clear_value (hx : x = _))
    | extract_lets +onlyGivenNames x
    | with_reducible refine Evolves.ite ?_ ?_
    | split
    | refine Evolves.of_pair (by with_reducible assumption) ?_
    | refine Evolves.of_some (by with_reducible assumption) ?_
    | fail

theorem State.writeEpoch_evolves {s t : State} {a1 : Word} (h : Evolves s t) :
    Evolves s (State.writeEpoch t a1) := by
  unfold State.writeEpoch
  repeat' first
    | with_reducible assumption
    | with_reducible refine State.wr_evolves ?_
    | (extract_lets +onlyGivenNames x; clear_value (hx : x = _); with_reducible refine Evolves.cut s hx ?_ (fun _ => ?_))
    | (extract_lets +onlyGivenNames x; clear_value (hx : x = _); with_reducible refine EvolvesFst.cut s hx ?_ (fun _ => ?_))
    | (extract_lets +onlyGivenNames x; with_reducible refine Evolves.local_fun x ?_; subst x; beta_reduce)
    | (extract_lets +onlyGivenNames x; clear_value (hx : x = _))
    | extract_lets +onlyGivenNames x
    | with_reducible refine Evolves.ite ?_ ?_
    | split
    | refine Evolves.of_pair (by with_reducible assumption) ?_
    | refine Evolves.of_some (by with_reducible assumption) ?_
    | fail_if_no_progress with_reducible refine Evolves.other ?_
    | with_reducible refine Evolves.fields (by with_reducible assumption)
    | refine Evolves.fields (h := ?_)
    | fail

theorem State.writeRemap_evolves {s t : State} {a1 : RemapUnit} {a2 : Nat} {a3 : Word} (h : Evolves s t) :
    Evolves s (State.writeRemap t a1 a2 a3) := by
  unfold State.writeRemap
  repeat' first
    | with_reducible assumption
    | with_reducible refine State.plain_evolves ?_
    | with_reducible refine State.after_evolves ?_ ?_
    | with_reducible refine execRemapReadEntry_evolves ?_
    | with_reducible refine execInstallWithCopy_evolves ?_
    | with_reducible refine execInstallZeroed_evolves ?_
    | (extract_lets +onlyGivenNames x; clear_value (hx : x = _); with_reducible refine Evolves.cut s hx ?_ (fun _ => ?_))
    | (extract_lets +onlyGivenNames x; clear_value (hx : x = _); with_reducible refine EvolvesFst.cut s hx ?_ (fun _ => ?_))
    | (extract_lets +onlyGivenNames x; with_reducible refine Evolves.local_fun x ?_; subst x; beta_reduce)
    | (extract_lets +onlyGivenNames x; clear_value (hx : x = _))
    | extract_lets +onlyGivenNames x
    | with_reducible refine Evolves.ite ?_ ?_
    | split
    | refine Evolves.of_pair (by with_reducible assumption) ?_
    | refine Evolves.of_some (by with_reducible assumption) ?_
    | fail

theorem State.writeRegionPort_evolves {s t : State} {a1 : Word} (h : Evolves s t) :
    Evolves s (State.writeRegionPort t a1) := by
  unfold State.writeRegionPort
  repeat' first
    | with_reducible assumption
    | with_reducible refine State.plain_evolves ?_
    | with_reducible refine State.after_evolves ?_ ?_
    | with_reducible refine execRegionPortRead_evolves ?_
    | with_reducible refine execRegionPortWrite_evolves ?_
    | (extract_lets +onlyGivenNames x; clear_value (hx : x = _); with_reducible refine Evolves.cut s hx ?_ (fun _ => ?_))
    | (extract_lets +onlyGivenNames x; clear_value (hx : x = _); with_reducible refine EvolvesFst.cut s hx ?_ (fun _ => ?_))
    | (extract_lets +onlyGivenNames x; with_reducible refine Evolves.local_fun x ?_; subst x; beta_reduce)
    | (extract_lets +onlyGivenNames x; clear_value (hx : x = _))
    | extract_lets +onlyGivenNames x
    | with_reducible refine Evolves.ite ?_ ?_
    | split
    | refine Evolves.of_pair (by with_reducible assumption) ?_
    | refine Evolves.of_some (by with_reducible assumption) ?_
    | fail

theorem State.storeGlb_evolves {s t : State} {a1 : Nat} {a2 : Word} (h : Evolves s t) :
    Evolves s (State.storeGlb t a1 a2) := by
  unfold State.storeGlb
  repeat' first
    | with_reducible assumption
    | with_reducible refine State.plain_evolves ?_
    | with_reducible refine State.requestMode_evolves ?_
    | with_reducible refine State.writeSliceMap_evolves ?_
    | with_reducible refine State.writeHash_evolves ?_
    | with_reducible refine State.after_evolves ?_ ?_
    | with_reducible refine execDirtyBudgetWrite_evolves ?_
    | with_reducible refine execPersistModeWrite_evolves ?_
    | with_reducible refine State.writeEpoch_evolves ?_
    | with_reducible refine State.plainBits_evolves ?_
    | with_reducible refine State.writeRegionPort_evolves ?_
    | with_reducible refine State.writeRemap_evolves ?_
    | (extract_lets +onlyGivenNames x; clear_value (hx : x = _); with_reducible refine Evolves.cut s hx ?_ (fun _ => ?_))
    | (extract_lets +onlyGivenNames x; clear_value (hx : x = _); with_reducible refine EvolvesFst.cut s hx ?_ (fun _ => ?_))
    | (extract_lets +onlyGivenNames x; with_reducible refine Evolves.local_fun x ?_; subst x; beta_reduce)
    | (extract_lets +onlyGivenNames x; clear_value (hx : x = _))
    | extract_lets +onlyGivenNames x
    | with_reducible refine Evolves.ite ?_ ?_
    | split
    | refine Evolves.of_pair (by with_reducible assumption) ?_
    | refine Evolves.of_some (by with_reducible assumption) ?_
    | fail

theorem State.storeHp_evolves {s t : State} {a1 : HostId} {a2 : Nat} {a3 : Word} (h : Evolves s t) :
    Evolves s (State.storeHp t a1 a2 a3) := by
  unfold State.storeHp
  repeat' first
    | with_reducible assumption
    | with_reducible refine State.writeHpCtrl_evolves ?_
    | with_reducible refine State.writeHpCredits_evolves ?_
    | with_reducible refine State.plain_evolves ?_
    | (extract_lets +onlyGivenNames x; clear_value (hx : x = _); with_reducible refine Evolves.cut s hx ?_ (fun _ => ?_))
    | (extract_lets +onlyGivenNames x; clear_value (hx : x = _); with_reducible refine EvolvesFst.cut s hx ?_ (fun _ => ?_))
    | (extract_lets +onlyGivenNames x; with_reducible refine Evolves.local_fun x ?_; subst x; beta_reduce)
    | (extract_lets +onlyGivenNames x; clear_value (hx : x = _))
    | extract_lets +onlyGivenNames x
    | with_reducible refine Evolves.ite ?_ ?_
    | split
    | refine Evolves.of_pair (by with_reducible assumption) ?_
    | refine Evolves.of_some (by with_reducible assumption) ?_
    | fail

theorem State.writeSlCtrl_evolves {s t : State} {a1 : PhysSlice} {a2 : Word} (h : Evolves s t) :
    Evolves s (State.writeSlCtrl t a1 a2) := by
  unfold State.writeSlCtrl
  repeat' first
    | with_reducible assumption
    | with_reducible refine State.plainBits_evolves ?_
    | with_reducible refine State.huskSlice_evolves ?_
    | with_reducible refine State.wr_evolves ?_
    | with_reducible refine State.startDrain_evolves ?_
    | with_reducible refine State.modSl_evolves ?_
    | with_reducible refine State.startMove_evolves ?_
    | (extract_lets +onlyGivenNames x; clear_value (hx : x = _); with_reducible refine Evolves.cut s hx ?_ (fun _ => ?_))
    | (extract_lets +onlyGivenNames x; clear_value (hx : x = _); with_reducible refine EvolvesFst.cut s hx ?_ (fun _ => ?_))
    | (extract_lets +onlyGivenNames x; with_reducible refine Evolves.local_fun x ?_; subst x; beta_reduce)
    | (extract_lets +onlyGivenNames x; clear_value (hx : x = _))
    | extract_lets +onlyGivenNames x
    | with_reducible refine Evolves.ite ?_ ?_
    | split
    | refine Evolves.of_pair (by with_reducible assumption) ?_
    | refine Evolves.of_some (by with_reducible assumption) ?_
    | fail_if_no_progress with_reducible refine Evolves.other ?_
    | with_reducible refine Evolves.fields (by with_reducible assumption)
    | refine Evolves.fields (h := ?_)
    | fail

theorem State.storeSl_evolves {s t : State} {a1 : PhysSlice} {a2 : Nat} {a3 : Word} (h : Evolves s t) :
    Evolves s (State.storeSl t a1 a2 a3) := by
  unfold State.storeSl
  repeat' first
    | with_reducible assumption
    | with_reducible refine State.count_evolves ?_
    | with_reducible refine State.writeSlCtrl_evolves ?_
    | with_reducible refine State.writeLogicalId_evolves ?_
    | with_reducible refine State.after_evolves ?_ ?_
    | with_reducible refine execOppTargetWrite_evolves ?_
    | with_reducible refine execPeakClr_evolves ?_
    | with_reducible refine State.writeRemap_evolves ?_
    | with_reducible refine execEccTestArm_evolves ?_
    | with_reducible refine execEccTestUnlockKey_evolves ?_
    | with_reducible refine State.plain_evolves ?_
    | (extract_lets +onlyGivenNames x; clear_value (hx : x = _); with_reducible refine Evolves.cut s hx ?_ (fun _ => ?_))
    | (extract_lets +onlyGivenNames x; clear_value (hx : x = _); with_reducible refine EvolvesFst.cut s hx ?_ (fun _ => ?_))
    | (extract_lets +onlyGivenNames x; with_reducible refine Evolves.local_fun x ?_; subst x; beta_reduce)
    | (extract_lets +onlyGivenNames x; clear_value (hx : x = _))
    | extract_lets +onlyGivenNames x
    | with_reducible refine Evolves.ite ?_ ?_
    | split
    | refine Evolves.of_pair (by with_reducible assumption) ?_
    | refine Evolves.of_some (by with_reducible assumption) ?_
    | fail

theorem State.storeAgents_evolves {s t : State} {a1 : Nat} {a2 : Word} (h : Evolves s t) :
    Evolves s (State.storeAgents t a1 a2) := by
  unfold State.storeAgents
  repeat' first
    | with_reducible assumption
    | with_reducible refine State.plain_evolves ?_
    | with_reducible refine State.startRange_evolves ?_
    | with_reducible refine State.after_evolves ?_ ?_
    | with_reducible refine execScrubStop_evolves ?_
    | with_reducible refine execScrubStartPass_evolves ?_
    | (extract_lets +onlyGivenNames x; clear_value (hx : x = _); with_reducible refine Evolves.cut s hx ?_ (fun _ => ?_))
    | (extract_lets +onlyGivenNames x; clear_value (hx : x = _); with_reducible refine EvolvesFst.cut s hx ?_ (fun _ => ?_))
    | (extract_lets +onlyGivenNames x; with_reducible refine Evolves.local_fun x ?_; subst x; beta_reduce)
    | (extract_lets +onlyGivenNames x; clear_value (hx : x = _))
    | extract_lets +onlyGivenNames x
    | with_reducible refine Evolves.ite ?_ ?_
    | split
    | refine Evolves.of_pair (by with_reducible assumption) ?_
    | refine Evolves.of_some (by with_reducible assumption) ?_
    | fail

theorem State.storeMf_evolves {s t : State} {a1 : Nat} {a2 : Word} (h : Evolves s t) :
    Evolves s (State.storeMf t a1 a2) := by
  unfold State.storeMf
  repeat' first
    | with_reducible assumption
    | with_reducible refine State.plainBits_evolves ?_
    | with_reducible refine State.after_evolves ?_ ?_
    | with_reducible refine execResyncStart_evolves ?_
    | with_reducible refine execChannelRetire_evolves ?_
    | with_reducible refine State.writeGroupMap_evolves ?_
    | with_reducible refine execMfHedgeTableLatch_evolves ?_
    | with_reducible refine execRebuildResume_evolves ?_
    | with_reducible refine State.plain_evolves ?_
    | (extract_lets +onlyGivenNames x; clear_value (hx : x = _); with_reducible refine Evolves.cut s hx ?_ (fun _ => ?_))
    | (extract_lets +onlyGivenNames x; clear_value (hx : x = _); with_reducible refine EvolvesFst.cut s hx ?_ (fun _ => ?_))
    | (extract_lets +onlyGivenNames x; with_reducible refine Evolves.local_fun x ?_; subst x; beta_reduce)
    | (extract_lets +onlyGivenNames x; clear_value (hx : x = _))
    | extract_lets +onlyGivenNames x
    | with_reducible refine Evolves.ite ?_ ?_
    | split
    | refine Evolves.of_pair (by with_reducible assumption) ?_
    | refine Evolves.of_some (by with_reducible assumption) ?_
    | fail

theorem State.storePq_evolves {s t : State} {a1 : QueueId} {a2 : Nat} {a3 : Word} (h : Evolves s t) :
    Evolves s (State.storePq t a1 a2 a3) := by
  unfold State.storePq
  repeat' first
    | with_reducible assumption
    | with_reducible refine State.plainBits_evolves ?_
    | with_reducible refine State.queueInterrupt_evolves ?_
    | with_reducible refine State.after_evolves ?_ ?_
    | with_reducible refine execPqReset_evolves ?_
    | with_reducible refine execPqFillWrite_evolves ?_
    | with_reducible refine State.plain_evolves ?_
    | (extract_lets +onlyGivenNames x; clear_value (hx : x = _); with_reducible refine Evolves.cut s hx ?_ (fun _ => ?_))
    | (extract_lets +onlyGivenNames x; clear_value (hx : x = _); with_reducible refine EvolvesFst.cut s hx ?_ (fun _ => ?_))
    | (extract_lets +onlyGivenNames x; with_reducible refine Evolves.local_fun x ?_; subst x; beta_reduce)
    | (extract_lets +onlyGivenNames x; clear_value (hx : x = _))
    | extract_lets +onlyGivenNames x
    | with_reducible refine Evolves.ite ?_ ?_
    | split
    | refine Evolves.of_pair (by with_reducible assumption) ?_
    | refine Evolves.of_some (by with_reducible assumption) ?_
    | fail

theorem State.storeMbx_evolves {s t : State} {a1 : Mailbox} {a2 : Nat} {a3 : Word} (h : Evolves s t) :
    Evolves s (State.storeMbx t a1 a2 a3) := by
  unfold State.storeMbx
  repeat' first
    | with_reducible assumption
    | with_reducible refine State.modMbx_evolves ?_
    | with_reducible refine State.doorbell_evolves ?_
    | with_reducible refine State.ctrlWrite_evolves ?_
    | (extract_lets +onlyGivenNames x; clear_value (hx : x = _); with_reducible refine Evolves.cut s hx ?_ (fun _ => ?_))
    | (extract_lets +onlyGivenNames x; clear_value (hx : x = _); with_reducible refine EvolvesFst.cut s hx ?_ (fun _ => ?_))
    | (extract_lets +onlyGivenNames x; with_reducible refine Evolves.local_fun x ?_; subst x; beta_reduce)
    | (extract_lets +onlyGivenNames x; clear_value (hx : x = _))
    | extract_lets +onlyGivenNames x
    | with_reducible refine Evolves.ite ?_ ?_
    | split
    | refine Evolves.of_pair (by with_reducible assumption) ?_
    | refine Evolves.of_some (by with_reducible assumption) ?_
    | fail_if_no_progress with_reducible refine Evolves.other ?_
    | with_reducible refine Evolves.fields (by with_reducible assumption)
    | refine Evolves.fields (h := ?_)
    | fail

theorem State.hostWrite_evolves {s t : State} {a1 : HostId} {a2 : Nat} {a3 : Word} (h : Evolves s t) :
    Evolves s (State.hostWrite t a1 a2 a3) := by
  unfold State.hostWrite
  repeat' first
    | with_reducible assumption
    | with_reducible refine State.storeMbx_evolves ?_
    | (extract_lets +onlyGivenNames x; clear_value (hx : x = _); with_reducible refine Evolves.cut s hx ?_ (fun _ => ?_))
    | (extract_lets +onlyGivenNames x; clear_value (hx : x = _); with_reducible refine EvolvesFst.cut s hx ?_ (fun _ => ?_))
    | (extract_lets +onlyGivenNames x; with_reducible refine Evolves.local_fun x ?_; subst x; beta_reduce)
    | (extract_lets +onlyGivenNames x; clear_value (hx : x = _))
    | extract_lets +onlyGivenNames x
    | with_reducible refine Evolves.ite ?_ ?_
    | split
    | refine Evolves.of_pair (by with_reducible assumption) ?_
    | refine Evolves.of_some (by with_reducible assumption) ?_
    | fail

theorem State.storeMbxWindow_evolves {s t : State} {a1 : Nat} {a2 : Word} (h : Evolves s t) :
    Evolves s (State.storeMbxWindow t a1 a2) := by
  unfold State.storeMbxWindow
  repeat' first
    | with_reducible assumption
    | with_reducible refine State.plain_evolves ?_
    | with_reducible refine State.bgDone_evolves ?_
    | with_reducible refine State.complete_evolves ?_
    | with_reducible refine State.storeMbx_evolves ?_
    | (extract_lets +onlyGivenNames x; clear_value (hx : x = _); with_reducible refine Evolves.cut s hx ?_ (fun _ => ?_))
    | (extract_lets +onlyGivenNames x; clear_value (hx : x = _); with_reducible refine EvolvesFst.cut s hx ?_ (fun _ => ?_))
    | (extract_lets +onlyGivenNames x; with_reducible refine Evolves.local_fun x ?_; subst x; beta_reduce)
    | (extract_lets +onlyGivenNames x; clear_value (hx : x = _))
    | extract_lets +onlyGivenNames x
    | with_reducible refine Evolves.ite ?_ ?_
    | split
    | refine Evolves.of_pair (by with_reducible assumption) ?_
    | refine Evolves.of_some (by with_reducible assumption) ?_
    | fail

theorem State.writeDcCtrl_evolves {s t : State} {a1 : DmaChannel} {a2 : Word} (h : Evolves s t) :
    Evolves s (State.writeDcCtrl t a1 a2) := by
  unfold State.writeDcCtrl
  repeat' first
    | with_reducible assumption
    | with_reducible refine State.dmaPause_evolves ?_
    | with_reducible refine State.dmaResume_evolves ?_
    | with_reducible refine State.dmaDisable_evolves ?_
    | with_reducible refine State.wr_evolves ?_
    | with_reducible refine State.dmaGo_evolves ?_
    | (extract_lets +onlyGivenNames x; clear_value (hx : x = _); with_reducible refine Evolves.cut s hx ?_ (fun _ => ?_))
    | (extract_lets +onlyGivenNames x; clear_value (hx : x = _); with_reducible refine EvolvesFst.cut s hx ?_ (fun _ => ?_))
    | (extract_lets +onlyGivenNames x; with_reducible refine Evolves.local_fun x ?_; subst x; beta_reduce)
    | (extract_lets +onlyGivenNames x; clear_value (hx : x = _))
    | extract_lets +onlyGivenNames x
    | with_reducible refine Evolves.ite ?_ ?_
    | split
    | refine Evolves.of_pair (by with_reducible assumption) ?_
    | refine Evolves.of_some (by with_reducible assumption) ?_
    | fail

theorem State.storeDma_evolves {s t : State} {a1 : DmaChannel} {a2 : Nat} {a3 : Word} (h : Evolves s t) :
    Evolves s (State.storeDma t a1 a2 a3) := by
  unfold State.storeDma
  repeat' first
    | with_reducible assumption
    | with_reducible refine State.writeDcCtrl_evolves ?_
    | with_reducible refine State.plain_evolves ?_
    | (extract_lets +onlyGivenNames x; clear_value (hx : x = _); with_reducible refine Evolves.cut s hx ?_ (fun _ => ?_))
    | (extract_lets +onlyGivenNames x; clear_value (hx : x = _); with_reducible refine EvolvesFst.cut s hx ?_ (fun _ => ?_))
    | (extract_lets +onlyGivenNames x; with_reducible refine Evolves.local_fun x ?_; subst x; beta_reduce)
    | (extract_lets +onlyGivenNames x; clear_value (hx : x = _))
    | extract_lets +onlyGivenNames x
    | with_reducible refine Evolves.ite ?_ ?_
    | split
    | refine Evolves.of_pair (by with_reducible assumption) ?_
    | refine Evolves.of_some (by with_reducible assumption) ?_
    | fail

theorem State.writeBootAct_evolves {s t : State} {a1 : Word} (h : Evolves s t) :
    Evolves s (State.writeBootAct t a1) := by
  unfold State.writeBootAct
  repeat' first
    | with_reducible assumption
    | with_reducible refine State.plain_evolves ?_
    | with_reducible refine State.loadStandby_evolves ?_
    | with_reducible refine State.after_evolves ?_ ?_
    | with_reducible refine execBootSwitch_evolves ?_
    | with_reducible refine State.bootConfirm_evolves ?_
    | (extract_lets +onlyGivenNames x; clear_value (hx : x = _); with_reducible refine Evolves.cut s hx ?_ (fun _ => ?_))
    | (extract_lets +onlyGivenNames x; clear_value (hx : x = _); with_reducible refine EvolvesFst.cut s hx ?_ (fun _ => ?_))
    | (extract_lets +onlyGivenNames x; with_reducible refine Evolves.local_fun x ?_; subst x; beta_reduce)
    | (extract_lets +onlyGivenNames x; clear_value (hx : x = _))
    | extract_lets +onlyGivenNames x
    | with_reducible refine Evolves.ite ?_ ?_
    | split
    | refine Evolves.of_pair (by with_reducible assumption) ?_
    | refine Evolves.of_some (by with_reducible assumption) ?_
    | fail

theorem State.storeReg_evolves {s t : State} {a1 : Nat} {a2 : Word} (h : Evolves s t) :
    Evolves s (State.storeReg t a1 a2) := by
  unfold State.storeReg
  repeat' first
    | with_reducible assumption
    | with_reducible refine State.storeGlb_evolves ?_
    | with_reducible refine State.storeHp_evolves ?_
    | with_reducible refine State.storeSl_evolves ?_
    | with_reducible refine State.storeAgents_evolves ?_
    | with_reducible refine State.storeMf_evolves ?_
    | with_reducible refine State.storePq_evolves ?_
    | with_reducible refine State.storeMbxWindow_evolves ?_
    | with_reducible refine State.storeDma_evolves ?_
    | with_reducible refine State.after_evolves ?_ ?_
    | with_reducible refine execWatchdogFeed_evolves ?_
    | with_reducible refine State.takeSnap_evolves ?_
    | with_reducible refine State.writeSampleCtrl_evolves ?_
    | with_reducible refine State.writeSampleSeed_evolves ?_
    | with_reducible refine State.writeBootAct_evolves ?_
    | with_reducible refine State.writeCoreMap_evolves ?_
    | with_reducible refine State.plain_evolves ?_
    | (extract_lets +onlyGivenNames x; clear_value (hx : x = _); with_reducible refine Evolves.cut s hx ?_ (fun _ => ?_))
    | (extract_lets +onlyGivenNames x; clear_value (hx : x = _); with_reducible refine EvolvesFst.cut s hx ?_ (fun _ => ?_))
    | (extract_lets +onlyGivenNames x; with_reducible refine Evolves.local_fun x ?_; subst x; beta_reduce)
    | (extract_lets +onlyGivenNames x; clear_value (hx : x = _))
    | extract_lets +onlyGivenNames x
    | with_reducible refine Evolves.ite ?_ ?_
    | split
    | refine Evolves.of_pair (by with_reducible assumption) ?_
    | refine Evolves.of_some (by with_reducible assumption) ?_
    | fail

theorem execRegisterWrite_evolves {s t : State} {a0 : Nat} {a1 : Word} (h : Evolves s t) :
    EvolvesOut s (execRegisterWrite a0 a1 t) := by
  unfold execRegisterWrite
  repeat' first
    | with_reducible assumption
    | with_reducible refine State.count_evolves ?_
    | with_reducible refine State.storeReg_evolves ?_
    | (extract_lets +onlyGivenNames x; clear_value (hx : x = _); with_reducible refine Evolves.cut s hx ?_ (fun _ => ?_))
    | (extract_lets +onlyGivenNames x; clear_value (hx : x = _); with_reducible refine EvolvesFst.cut s hx ?_ (fun _ => ?_))
    | (extract_lets +onlyGivenNames x; with_reducible refine Evolves.local_fun x ?_; subst x; beta_reduce)
    | (extract_lets +onlyGivenNames x; clear_value (hx : x = _))
    | extract_lets +onlyGivenNames x
    | with_reducible refine Evolves.ite ?_ ?_
    | with_reducible refine EvolvesOut.ite ?_ ?_
    | with_reducible refine EvolvesOut.next ?_
    | with_reducible exact EvolvesOut.fault
    | split
    | refine Evolves.of_pair (by with_reducible assumption) ?_
    | refine Evolves.of_some (by with_reducible assumption) ?_
    | fail

end Sys2Proof.Machine
end

