-- ==== Sys2Proof/Laws/Registers.lean ====
section
/-! SUPPORT. The laws of registers and fields: a field reads back what was put into it, and a write of one field leaves every
other field, of the same register or of another, alone. -/

set_option Elab.async false

namespace Sys2Proof.Machine

theorem putBits_getLsbD (v : Word) (lo w x i : Nat) :
    (putBits v lo w x).getLsbD i =
      (decide (i < 64) && if lo ≤ i ∧ i < lo + w then x.testBit (i - lo) else v.getLsbD i) := by
  unfold putBits
  rw [BitVec.getLsbD_or, BitVec.getLsbD_and, BitVec.getLsbD_not, BitVec.getLsbD_shiftLeft, BitVec.getLsbD_shiftLeft,
    BitVec.getLsbD_setWidth, BitVec.getLsbD_setWidth, BitVec.getLsbD_allOnes, BitVec.getLsbD_ofNat]
  by_cases h : i < 64
  · by_cases h1 : i < lo
    · simp [h, h1, Nat.not_le.mpr h1]
    · by_cases h2 : i - lo < w
      · have : i - lo < 64 := by omega
        have : lo ≤ i ∧ i < lo + w := by omega
        simp [*]
      · have : ¬(lo ≤ i ∧ i < lo + w) := by omega
        simp [*]
  · simp [h]

theorem getBits_eq (v : Word) (lo w : Nat) : getBits v lo w = v.toNat / 2 ^ lo % 2 ^ w := by
  simp [getBits, BitVec.extractLsb'_toNat, Nat.shiftRight_eq_div_pow]

/-- A field put reads back, cut to its width. -/
theorem getBits_putBits_same (v : Word) (lo w x : Nat) (h : lo + w ≤ 64) : getBits (putBits v lo w x) lo w = x % 2 ^ w := by
  have e : (putBits v lo w x).extractLsb' lo w = BitVec.ofNat w x := by
    apply BitVec.eq_of_getLsbD_eq
    intro i hi
    rw [BitVec.getLsbD_extractLsb', putBits_getLsbD, BitVec.getLsbD_ofNat]
    have h1 : lo ≤ lo + i ∧ lo + i < lo + w := by omega
    have h2 : lo + i < 64 := by omega
    simp [h1, h2, hi]
  rw [getBits, e, BitVec.toNat_ofNat]

/-- A field put leaves bits that it does not cover alone. -/
theorem getBits_putBits_disjoint (v : Word) (lo w x lo' w' : Nat) (h : lo' + w' ≤ lo ∨ lo + w ≤ lo') :
    getBits (putBits v lo w x) lo' w' = getBits v lo' w' := by
  unfold getBits
  congr 1
  apply BitVec.eq_of_getLsbD_eq
  intro i hi
  rw [BitVec.getLsbD_extractLsb', BitVec.getLsbD_extractLsb', putBits_getLsbD]
  have h1 : ¬(lo ≤ lo' + i ∧ lo' + i < lo + w) := by omega
  simp only [h1, if_false]
  by_cases h2 : lo' + i < 64
  · simp [h2]
  · simp [h2, BitVec.getLsbD_of_ge _ _ (by omega : 64 ≤ lo' + i)]

@[simp] theorem State.reg_setReg_same (s : State) (off : Nat) (v : Word) : (s.setReg off v).reg off = v := by
  simp [State.reg, State.setReg]

@[simp] theorem State.reg_setReg_ne (s : State) {off off' : Nat} (v : Word) (h : off' ≠ off) :
    (s.setReg off v).reg off' = s.reg off' := by
  simp [State.reg, State.setReg, h]

@[simp] theorem State.reg_wr_same (s : State) (f : Fld) (x : Nat) :
    (s.wr f x).reg f.off = putBits (s.reg f.off) f.lo f.w x := by
  simp [State.wr]

@[simp] theorem State.reg_wr_ne (s : State) (f : Fld) (x : Nat) {off : Nat} (h : off ≠ f.off) : (s.wr f x).reg off = s.reg off := by
  simp [State.wr, h]

/-- A field written reads back, cut to its width. -/
theorem State.rd_wr_same (s : State) (f : Fld) (x : Nat) (h : f.lo + f.w ≤ 64) : (s.wr f x).rd f = x % 2 ^ f.w := by
  rw [State.rd, State.reg_wr_same, getBits_putBits_same _ _ _ _ h]

/-- A field written leaves the fields of other registers alone. -/
theorem State.rd_wr_off (s : State) (f g : Fld) (x : Nat) (h : g.off ≠ f.off) : (s.wr f x).rd g = s.rd g := by
  rw [State.rd, State.rd, State.reg_wr_ne _ _ _ h]

/-- A field written leaves the other fields of its register alone. -/
theorem State.rd_wr_disjoint (s : State) (f g : Fld) (x : Nat) (h : g.lo + g.w ≤ f.lo ∨ f.lo + f.w ≤ g.lo) :
    (s.wr f x).rd g = s.rd g := by
  by_cases e : g.off = f.off
  · rw [State.rd, State.rd, e, State.reg_wr_same, getBits_putBits_disjoint _ _ _ _ _ _ h]
  · exact State.rd_wr_off s f g x e

/-- A field's value fits its width. -/
theorem State.rd_lt (s : State) (f : Fld) : s.rd f < 2 ^ f.w := (BitVec.isLt _)

/-- A counter field raised: it stops at its largest value. -/
theorem State.rd_inc_same (s : State) (f : Fld) (k : Nat) (h : f.lo + f.w ≤ 64) : (s.inc f k).rd f = min (s.rd f + k) (2 ^ f.w - 1) := by
  have : min (s.rd f + k) (2 ^ f.w - 1) < 2 ^ f.w := by
    have := Nat.two_pow_pos f.w
    omega
  rw [State.inc, State.rd_wr_same _ _ _ h, Nat.mod_eq_of_lt this]

/-- A counter raised, modulo 2^48. -/
theorem State.cnt_count_same (s : State) (u e k : Nat) : (s.count u e k).cnt u e = (s.cnt u e + k) % 2 ^ 48 := by
  simp [State.cnt, State.count]

theorem State.cnt_count_ne (s : State) {u e u' e' : Nat} (k : Nat) (h : u' * 32 + e' ≠ u * 32 + e) :
    (s.count u e k).cnt u' e' = s.cnt u' e' := by
  simp [State.cnt, State.count, h]

@[simp] theorem State.sl_setSl_same (s : State) (p : PhysSlice) (x : Slice) : (s.setSl p x).sl p = x := by
  simp [State.sl, State.setSl]

@[simp] theorem State.sl_setSl_ne (s : State) {p q : PhysSlice} (x : Slice) (h : q ≠ p) : (s.setSl p x).sl q = s.sl q := by
  have : q.val ≠ p.val := fun e => h (Fin.ext e)
  simp [State.sl, State.setSl, this]

@[simp] theorem State.sl_modSl_same (s : State) (p : PhysSlice) (f : Slice → Slice) : (s.modSl p f).sl p = f (s.sl p) := by
  simp [State.modSl]

@[simp] theorem State.sl_modSl_ne (s : State) {p q : PhysSlice} (f : Slice → Slice) (h : q ≠ p) : (s.modSl p f).sl q = s.sl q := by
  simp [State.modSl, h]

@[simp] theorem State.port_modPort_same (s : State) (h : HostId) (f : Port → Port) : (s.modPort h f).port h = f (s.port h) := by
  simp [State.port, State.modPort]

@[simp] theorem State.port_modPort_ne (s : State) {h g : HostId} (f : Port → Port) (n : g ≠ h) : (s.modPort h f).port g = s.port g := by
  have : g.val ≠ h.val := fun e => n (Fin.ext e)
  simp [State.port, State.modPort, this]

@[simp] theorem State.pq_modPq_same (s : State) (q : Nat) (f : PodQueue → PodQueue) : (s.modPq q f).pq q = f (s.pq q) := by
  simp [State.pq, State.modPq]

@[simp] theorem State.pq_modPq_ne (s : State) {q r : Nat} (f : PodQueue → PodQueue) (n : r ≠ q) : (s.modPq q f).pq r = s.pq r := by
  simp [State.pq, State.modPq, n]

end Sys2Proof.Machine
end

