-- ==== Sys2Proof/Laws/State.lean ====
section
/-! SUPPORT. One lemma per field per named update of State, true by rfl: what each update sets, and what it leaves. No later proof
unfolds a record update. -/

set_option Elab.async false

namespace Sys2Proof.Machine

namespace State

/-! ### setReg -/

@[simp] theorem setReg_pending (s : State) (o : Nat) (v : Word) : (s.setReg o v).pending = s.pending := rfl
@[simp] theorem setReg_regs (s : State) (o : Nat) (v : Word) : (s.setReg o v).regs = s.regs.put (regReset o) o v := rfl
@[simp] theorem setReg_ports (s : State) (o : Nat) (v : Word) : (s.setReg o v).ports = s.ports := rfl
@[simp] theorem setReg_slices (s : State) (o : Nat) (v : Word) : (s.setReg o v).slices = s.slices := rfl
@[simp] theorem setReg_fabric (s : State) (o : Nat) (v : Word) : (s.setReg o v).fabric = s.fabric := rfl
@[simp] theorem setReg_iaPark (s : State) (o : Nat) (v : Word) : (s.setReg o v).iaPark = s.iaPark := rfl
@[simp] theorem setReg_iaIngress (s : State) (o : Nat) (v : Word) : (s.setReg o v).iaIngress = s.iaIngress := rfl
@[simp] theorem setReg_iaHeld (s : State) (o : Nat) (v : Word) : (s.setReg o v).iaHeld = s.iaHeld := rfl
@[simp] theorem setReg_iaLastViolation (s : State) (o : Nat) (v : Word) : (s.setReg o v).iaLastViolation = s.iaLastViolation := rfl
@[simp] theorem setReg_mf (s : State) (o : Nat) (v : Word) : (s.setReg o v).mf = s.mf := rfl
@[simp] theorem setReg_media (s : State) (o : Nat) (v : Word) : (s.setReg o v).media = s.media := rfl
@[simp] theorem setReg_counters (s : State) (o : Nat) (v : Word) : (s.setReg o v).counters = s.counters := rfl
@[simp] theorem setReg_history (s : State) (o : Nat) (v : Word) : (s.setReg o v).history = s.history := rfl
@[simp] theorem setReg_minors (s : State) (o : Nat) (v : Word) : (s.setReg o v).minors = s.minors := rfl
@[simp] theorem setReg_queues (s : State) (o : Nat) (v : Word) : (s.setReg o v).queues = s.queues := rfl
@[simp] theorem setReg_mbxP (s : State) (o : Nat) (v : Word) : (s.setReg o v).mbxP = s.mbxP := rfl
@[simp] theorem setReg_mbxS (s : State) (o : Nat) (v : Word) : (s.setReg o v).mbxS = s.mbxS := rfl
@[simp] theorem setReg_cores (s : State) (o : Nat) (v : Word) : (s.setReg o v).cores = s.cores := rfl
@[simp] theorem setReg_sram (s : State) (o : Nat) (v : Word) : (s.setReg o v).sram = s.sram := rfl
@[simp] theorem setReg_sramReserved (s : State) (o : Nat) (v : Word) : (s.setReg o v).sramReserved = s.sramReserved := rfl
@[simp] theorem setReg_valid (s : State) (o : Nat) (v : Word) : (s.setReg o v).valid = s.valid := rfl
@[simp] theorem setReg_devErrors (s : State) (o : Nat) (v : Word) : (s.setReg o v).devErrors = s.devErrors := rfl
@[simp] theorem setReg_devRemap (s : State) (o : Nat) (v : Word) : (s.setReg o v).devRemap = s.devRemap := rfl
@[simp] theorem setReg_devCopying (s : State) (o : Nat) (v : Word) : (s.setReg o v).devCopying = s.devCopying := rfl
@[simp] theorem setReg_ownerLoss (s : State) (o : Nat) (v : Word) : (s.setReg o v).ownerLoss = s.ownerLoss := rfl
@[simp] theorem setReg_dma (s : State) (o : Nat) (v : Word) : (s.setReg o v).dma = s.dma := rfl
@[simp] theorem setReg_engines (s : State) (o : Nat) (v : Word) : (s.setReg o v).engines = s.engines := rfl
@[simp] theorem setReg_pmu (s : State) (o : Nat) (v : Word) : (s.setReg o v).pmu = s.pmu := rfl
@[simp] theorem setReg_snap (s : State) (o : Nat) (v : Word) : (s.setReg o v).snap = s.snap := rfl
@[simp] theorem setReg_samples (s : State) (o : Nat) (v : Word) : (s.setReg o v).samples = s.samples := rfl
@[simp] theorem setReg_store (s : State) (o : Nat) (v : Word) : (s.setReg o v).store = s.store := rfl
@[simp] theorem setReg_boot (s : State) (o : Nat) (v : Word) : (s.setReg o v).boot = s.boot := rfl
@[simp] theorem setReg_fw (s : State) (o : Nat) (v : Word) : (s.setReg o v).fw = s.fw := rfl
@[simp] theorem setReg_aon (s : State) (o : Nat) (v : Word) : (s.setReg o v).aon = s.aon := rfl
@[simp] theorem setReg_sweepActive (s : State) (o : Nat) (v : Word) : (s.setReg o v).sweepActive = s.sweepActive := rfl
@[simp] theorem setReg_sweepDue (s : State) (o : Nat) (v : Word) : (s.setReg o v).sweepDue = s.sweepDue := rfl
@[simp] theorem setReg_sweepUs (s : State) (o : Nat) (v : Word) : (s.setReg o v).sweepUs = s.sweepUs := rfl
@[simp] theorem setReg_urgentSet (s : State) (o : Nat) (v : Word) : (s.setReg o v).urgentSet = s.urgentSet := rfl
@[simp] theorem setReg_scrubStripe (s : State) (o : Nat) (v : Word) : (s.setReg o v).scrubStripe = s.scrubStripe := rfl
@[simp] theorem setReg_scrubSecond (s : State) (o : Nat) (v : Word) : (s.setReg o v).scrubSecond = s.scrubSecond := rfl
@[simp] theorem setReg_scrubVisits (s : State) (o : Nat) (v : Word) : (s.setReg o v).scrubVisits = s.scrubVisits := rfl
@[simp] theorem setReg_scrubWord (s : State) (o : Nat) (v : Word) : (s.setReg o v).scrubWord = s.scrubWord := rfl
@[simp] theorem setReg_out (s : State) (o : Nat) (v : Word) : (s.setReg o v).out = s.out := rfl
@[simp] theorem setReg_nextId (s : State) (o : Nat) (v : Word) : (s.setReg o v).nextId = s.nextId := rfl
@[simp] theorem setReg_freeTick (s : State) (o : Nat) (v : Word) : (s.setReg o v).freeTick = s.freeTick := rfl
@[simp] theorem setReg_sl (s : State) (o : Nat) (v : Word) (r : PhysSlice) : (s.setReg o v).sl r = s.sl r := rfl
@[simp] theorem setReg_port (s : State) (o : Nat) (v : Word) (r : HostId) : (s.setReg o v).port r = s.port r := rfl
@[simp] theorem setReg_pq (s : State) (o : Nat) (v : Word) (r : Nat) : (s.setReg o v).pq r = s.pq r := rfl
@[simp] theorem setReg_cnt (s : State) (o : Nat) (v : Word) (r t : Nat) : (s.setReg o v).cnt r t = s.cnt r t := rfl
@[simp] theorem setReg_now (s : State) (o : Nat) (v : Word) : (s.setReg o v).now = s.now := rfl

/-! ### wr -/

@[simp] theorem wr_pending (s : State) (f : Fld) (x : Nat) : (s.wr f x).pending = s.pending := rfl
@[simp] theorem wr_ports (s : State) (f : Fld) (x : Nat) : (s.wr f x).ports = s.ports := rfl
@[simp] theorem wr_slices (s : State) (f : Fld) (x : Nat) : (s.wr f x).slices = s.slices := rfl
@[simp] theorem wr_fabric (s : State) (f : Fld) (x : Nat) : (s.wr f x).fabric = s.fabric := rfl
@[simp] theorem wr_iaPark (s : State) (f : Fld) (x : Nat) : (s.wr f x).iaPark = s.iaPark := rfl
@[simp] theorem wr_iaIngress (s : State) (f : Fld) (x : Nat) : (s.wr f x).iaIngress = s.iaIngress := rfl
@[simp] theorem wr_iaHeld (s : State) (f : Fld) (x : Nat) : (s.wr f x).iaHeld = s.iaHeld := rfl
@[simp] theorem wr_iaLastViolation (s : State) (f : Fld) (x : Nat) : (s.wr f x).iaLastViolation = s.iaLastViolation := rfl
@[simp] theorem wr_mf (s : State) (f : Fld) (x : Nat) : (s.wr f x).mf = s.mf := rfl
@[simp] theorem wr_media (s : State) (f : Fld) (x : Nat) : (s.wr f x).media = s.media := rfl
@[simp] theorem wr_counters (s : State) (f : Fld) (x : Nat) : (s.wr f x).counters = s.counters := rfl
@[simp] theorem wr_history (s : State) (f : Fld) (x : Nat) : (s.wr f x).history = s.history := rfl
@[simp] theorem wr_minors (s : State) (f : Fld) (x : Nat) : (s.wr f x).minors = s.minors := rfl
@[simp] theorem wr_queues (s : State) (f : Fld) (x : Nat) : (s.wr f x).queues = s.queues := rfl
@[simp] theorem wr_mbxP (s : State) (f : Fld) (x : Nat) : (s.wr f x).mbxP = s.mbxP := rfl
@[simp] theorem wr_mbxS (s : State) (f : Fld) (x : Nat) : (s.wr f x).mbxS = s.mbxS := rfl
@[simp] theorem wr_cores (s : State) (f : Fld) (x : Nat) : (s.wr f x).cores = s.cores := rfl
@[simp] theorem wr_sram (s : State) (f : Fld) (x : Nat) : (s.wr f x).sram = s.sram := rfl
@[simp] theorem wr_sramReserved (s : State) (f : Fld) (x : Nat) : (s.wr f x).sramReserved = s.sramReserved := rfl
@[simp] theorem wr_valid (s : State) (f : Fld) (x : Nat) : (s.wr f x).valid = s.valid := rfl
@[simp] theorem wr_devErrors (s : State) (f : Fld) (x : Nat) : (s.wr f x).devErrors = s.devErrors := rfl
@[simp] theorem wr_devRemap (s : State) (f : Fld) (x : Nat) : (s.wr f x).devRemap = s.devRemap := rfl
@[simp] theorem wr_devCopying (s : State) (f : Fld) (x : Nat) : (s.wr f x).devCopying = s.devCopying := rfl
@[simp] theorem wr_ownerLoss (s : State) (f : Fld) (x : Nat) : (s.wr f x).ownerLoss = s.ownerLoss := rfl
@[simp] theorem wr_dma (s : State) (f : Fld) (x : Nat) : (s.wr f x).dma = s.dma := rfl
@[simp] theorem wr_engines (s : State) (f : Fld) (x : Nat) : (s.wr f x).engines = s.engines := rfl
@[simp] theorem wr_pmu (s : State) (f : Fld) (x : Nat) : (s.wr f x).pmu = s.pmu := rfl
@[simp] theorem wr_snap (s : State) (f : Fld) (x : Nat) : (s.wr f x).snap = s.snap := rfl
@[simp] theorem wr_samples (s : State) (f : Fld) (x : Nat) : (s.wr f x).samples = s.samples := rfl
@[simp] theorem wr_store (s : State) (f : Fld) (x : Nat) : (s.wr f x).store = s.store := rfl
@[simp] theorem wr_boot (s : State) (f : Fld) (x : Nat) : (s.wr f x).boot = s.boot := rfl
@[simp] theorem wr_fw (s : State) (f : Fld) (x : Nat) : (s.wr f x).fw = s.fw := rfl
@[simp] theorem wr_aon (s : State) (f : Fld) (x : Nat) : (s.wr f x).aon = s.aon := rfl
@[simp] theorem wr_sweepActive (s : State) (f : Fld) (x : Nat) : (s.wr f x).sweepActive = s.sweepActive := rfl
@[simp] theorem wr_sweepDue (s : State) (f : Fld) (x : Nat) : (s.wr f x).sweepDue = s.sweepDue := rfl
@[simp] theorem wr_sweepUs (s : State) (f : Fld) (x : Nat) : (s.wr f x).sweepUs = s.sweepUs := rfl
@[simp] theorem wr_urgentSet (s : State) (f : Fld) (x : Nat) : (s.wr f x).urgentSet = s.urgentSet := rfl
@[simp] theorem wr_scrubStripe (s : State) (f : Fld) (x : Nat) : (s.wr f x).scrubStripe = s.scrubStripe := rfl
@[simp] theorem wr_scrubSecond (s : State) (f : Fld) (x : Nat) : (s.wr f x).scrubSecond = s.scrubSecond := rfl
@[simp] theorem wr_scrubVisits (s : State) (f : Fld) (x : Nat) : (s.wr f x).scrubVisits = s.scrubVisits := rfl
@[simp] theorem wr_scrubWord (s : State) (f : Fld) (x : Nat) : (s.wr f x).scrubWord = s.scrubWord := rfl
@[simp] theorem wr_out (s : State) (f : Fld) (x : Nat) : (s.wr f x).out = s.out := rfl
@[simp] theorem wr_nextId (s : State) (f : Fld) (x : Nat) : (s.wr f x).nextId = s.nextId := rfl
@[simp] theorem wr_freeTick (s : State) (f : Fld) (x : Nat) : (s.wr f x).freeTick = s.freeTick := rfl
@[simp] theorem wr_sl (s : State) (f : Fld) (x : Nat) (r : PhysSlice) : (s.wr f x).sl r = s.sl r := rfl
@[simp] theorem wr_port (s : State) (f : Fld) (x : Nat) (r : HostId) : (s.wr f x).port r = s.port r := rfl
@[simp] theorem wr_pq (s : State) (f : Fld) (x : Nat) (r : Nat) : (s.wr f x).pq r = s.pq r := rfl
@[simp] theorem wr_cnt (s : State) (f : Fld) (x : Nat) (r t : Nat) : (s.wr f x).cnt r t = s.cnt r t := rfl
@[simp] theorem wr_now (s : State) (f : Fld) (x : Nat) : (s.wr f x).now = s.now := rfl

/-! ### wb -/

@[simp] theorem wb_pending (s : State) (f : Fld) (b : Bool) : (s.wb f b).pending = s.pending := rfl
@[simp] theorem wb_ports (s : State) (f : Fld) (b : Bool) : (s.wb f b).ports = s.ports := rfl
@[simp] theorem wb_slices (s : State) (f : Fld) (b : Bool) : (s.wb f b).slices = s.slices := rfl
@[simp] theorem wb_fabric (s : State) (f : Fld) (b : Bool) : (s.wb f b).fabric = s.fabric := rfl
@[simp] theorem wb_iaPark (s : State) (f : Fld) (b : Bool) : (s.wb f b).iaPark = s.iaPark := rfl
@[simp] theorem wb_iaIngress (s : State) (f : Fld) (b : Bool) : (s.wb f b).iaIngress = s.iaIngress := rfl
@[simp] theorem wb_iaHeld (s : State) (f : Fld) (b : Bool) : (s.wb f b).iaHeld = s.iaHeld := rfl
@[simp] theorem wb_iaLastViolation (s : State) (f : Fld) (b : Bool) : (s.wb f b).iaLastViolation = s.iaLastViolation := rfl
@[simp] theorem wb_mf (s : State) (f : Fld) (b : Bool) : (s.wb f b).mf = s.mf := rfl
@[simp] theorem wb_media (s : State) (f : Fld) (b : Bool) : (s.wb f b).media = s.media := rfl
@[simp] theorem wb_counters (s : State) (f : Fld) (b : Bool) : (s.wb f b).counters = s.counters := rfl
@[simp] theorem wb_history (s : State) (f : Fld) (b : Bool) : (s.wb f b).history = s.history := rfl
@[simp] theorem wb_minors (s : State) (f : Fld) (b : Bool) : (s.wb f b).minors = s.minors := rfl
@[simp] theorem wb_queues (s : State) (f : Fld) (b : Bool) : (s.wb f b).queues = s.queues := rfl
@[simp] theorem wb_mbxP (s : State) (f : Fld) (b : Bool) : (s.wb f b).mbxP = s.mbxP := rfl
@[simp] theorem wb_mbxS (s : State) (f : Fld) (b : Bool) : (s.wb f b).mbxS = s.mbxS := rfl
@[simp] theorem wb_cores (s : State) (f : Fld) (b : Bool) : (s.wb f b).cores = s.cores := rfl
@[simp] theorem wb_sram (s : State) (f : Fld) (b : Bool) : (s.wb f b).sram = s.sram := rfl
@[simp] theorem wb_sramReserved (s : State) (f : Fld) (b : Bool) : (s.wb f b).sramReserved = s.sramReserved := rfl
@[simp] theorem wb_valid (s : State) (f : Fld) (b : Bool) : (s.wb f b).valid = s.valid := rfl
@[simp] theorem wb_devErrors (s : State) (f : Fld) (b : Bool) : (s.wb f b).devErrors = s.devErrors := rfl
@[simp] theorem wb_devRemap (s : State) (f : Fld) (b : Bool) : (s.wb f b).devRemap = s.devRemap := rfl
@[simp] theorem wb_devCopying (s : State) (f : Fld) (b : Bool) : (s.wb f b).devCopying = s.devCopying := rfl
@[simp] theorem wb_ownerLoss (s : State) (f : Fld) (b : Bool) : (s.wb f b).ownerLoss = s.ownerLoss := rfl
@[simp] theorem wb_dma (s : State) (f : Fld) (b : Bool) : (s.wb f b).dma = s.dma := rfl
@[simp] theorem wb_engines (s : State) (f : Fld) (b : Bool) : (s.wb f b).engines = s.engines := rfl
@[simp] theorem wb_pmu (s : State) (f : Fld) (b : Bool) : (s.wb f b).pmu = s.pmu := rfl
@[simp] theorem wb_snap (s : State) (f : Fld) (b : Bool) : (s.wb f b).snap = s.snap := rfl
@[simp] theorem wb_samples (s : State) (f : Fld) (b : Bool) : (s.wb f b).samples = s.samples := rfl
@[simp] theorem wb_store (s : State) (f : Fld) (b : Bool) : (s.wb f b).store = s.store := rfl
@[simp] theorem wb_boot (s : State) (f : Fld) (b : Bool) : (s.wb f b).boot = s.boot := rfl
@[simp] theorem wb_fw (s : State) (f : Fld) (b : Bool) : (s.wb f b).fw = s.fw := rfl
@[simp] theorem wb_aon (s : State) (f : Fld) (b : Bool) : (s.wb f b).aon = s.aon := rfl
@[simp] theorem wb_sweepActive (s : State) (f : Fld) (b : Bool) : (s.wb f b).sweepActive = s.sweepActive := rfl
@[simp] theorem wb_sweepDue (s : State) (f : Fld) (b : Bool) : (s.wb f b).sweepDue = s.sweepDue := rfl
@[simp] theorem wb_sweepUs (s : State) (f : Fld) (b : Bool) : (s.wb f b).sweepUs = s.sweepUs := rfl
@[simp] theorem wb_urgentSet (s : State) (f : Fld) (b : Bool) : (s.wb f b).urgentSet = s.urgentSet := rfl
@[simp] theorem wb_scrubStripe (s : State) (f : Fld) (b : Bool) : (s.wb f b).scrubStripe = s.scrubStripe := rfl
@[simp] theorem wb_scrubSecond (s : State) (f : Fld) (b : Bool) : (s.wb f b).scrubSecond = s.scrubSecond := rfl
@[simp] theorem wb_scrubVisits (s : State) (f : Fld) (b : Bool) : (s.wb f b).scrubVisits = s.scrubVisits := rfl
@[simp] theorem wb_scrubWord (s : State) (f : Fld) (b : Bool) : (s.wb f b).scrubWord = s.scrubWord := rfl
@[simp] theorem wb_out (s : State) (f : Fld) (b : Bool) : (s.wb f b).out = s.out := rfl
@[simp] theorem wb_nextId (s : State) (f : Fld) (b : Bool) : (s.wb f b).nextId = s.nextId := rfl
@[simp] theorem wb_freeTick (s : State) (f : Fld) (b : Bool) : (s.wb f b).freeTick = s.freeTick := rfl
@[simp] theorem wb_sl (s : State) (f : Fld) (b : Bool) (r : PhysSlice) : (s.wb f b).sl r = s.sl r := rfl
@[simp] theorem wb_port (s : State) (f : Fld) (b : Bool) (r : HostId) : (s.wb f b).port r = s.port r := rfl
@[simp] theorem wb_pq (s : State) (f : Fld) (b : Bool) (r : Nat) : (s.wb f b).pq r = s.pq r := rfl
@[simp] theorem wb_cnt (s : State) (f : Fld) (b : Bool) (r t : Nat) : (s.wb f b).cnt r t = s.cnt r t := rfl
@[simp] theorem wb_now (s : State) (f : Fld) (b : Bool) : (s.wb f b).now = s.now := rfl

/-! ### inc -/

@[simp] theorem inc_pending (s : State) (f : Fld) (k : Nat) : (s.inc f k).pending = s.pending := rfl
@[simp] theorem inc_ports (s : State) (f : Fld) (k : Nat) : (s.inc f k).ports = s.ports := rfl
@[simp] theorem inc_slices (s : State) (f : Fld) (k : Nat) : (s.inc f k).slices = s.slices := rfl
@[simp] theorem inc_fabric (s : State) (f : Fld) (k : Nat) : (s.inc f k).fabric = s.fabric := rfl
@[simp] theorem inc_iaPark (s : State) (f : Fld) (k : Nat) : (s.inc f k).iaPark = s.iaPark := rfl
@[simp] theorem inc_iaIngress (s : State) (f : Fld) (k : Nat) : (s.inc f k).iaIngress = s.iaIngress := rfl
@[simp] theorem inc_iaHeld (s : State) (f : Fld) (k : Nat) : (s.inc f k).iaHeld = s.iaHeld := rfl
@[simp] theorem inc_iaLastViolation (s : State) (f : Fld) (k : Nat) : (s.inc f k).iaLastViolation = s.iaLastViolation := rfl
@[simp] theorem inc_mf (s : State) (f : Fld) (k : Nat) : (s.inc f k).mf = s.mf := rfl
@[simp] theorem inc_media (s : State) (f : Fld) (k : Nat) : (s.inc f k).media = s.media := rfl
@[simp] theorem inc_counters (s : State) (f : Fld) (k : Nat) : (s.inc f k).counters = s.counters := rfl
@[simp] theorem inc_history (s : State) (f : Fld) (k : Nat) : (s.inc f k).history = s.history := rfl
@[simp] theorem inc_minors (s : State) (f : Fld) (k : Nat) : (s.inc f k).minors = s.minors := rfl
@[simp] theorem inc_queues (s : State) (f : Fld) (k : Nat) : (s.inc f k).queues = s.queues := rfl
@[simp] theorem inc_mbxP (s : State) (f : Fld) (k : Nat) : (s.inc f k).mbxP = s.mbxP := rfl
@[simp] theorem inc_mbxS (s : State) (f : Fld) (k : Nat) : (s.inc f k).mbxS = s.mbxS := rfl
@[simp] theorem inc_cores (s : State) (f : Fld) (k : Nat) : (s.inc f k).cores = s.cores := rfl
@[simp] theorem inc_sram (s : State) (f : Fld) (k : Nat) : (s.inc f k).sram = s.sram := rfl
@[simp] theorem inc_sramReserved (s : State) (f : Fld) (k : Nat) : (s.inc f k).sramReserved = s.sramReserved := rfl
@[simp] theorem inc_valid (s : State) (f : Fld) (k : Nat) : (s.inc f k).valid = s.valid := rfl
@[simp] theorem inc_devErrors (s : State) (f : Fld) (k : Nat) : (s.inc f k).devErrors = s.devErrors := rfl
@[simp] theorem inc_devRemap (s : State) (f : Fld) (k : Nat) : (s.inc f k).devRemap = s.devRemap := rfl
@[simp] theorem inc_devCopying (s : State) (f : Fld) (k : Nat) : (s.inc f k).devCopying = s.devCopying := rfl
@[simp] theorem inc_ownerLoss (s : State) (f : Fld) (k : Nat) : (s.inc f k).ownerLoss = s.ownerLoss := rfl
@[simp] theorem inc_dma (s : State) (f : Fld) (k : Nat) : (s.inc f k).dma = s.dma := rfl
@[simp] theorem inc_engines (s : State) (f : Fld) (k : Nat) : (s.inc f k).engines = s.engines := rfl
@[simp] theorem inc_pmu (s : State) (f : Fld) (k : Nat) : (s.inc f k).pmu = s.pmu := rfl
@[simp] theorem inc_snap (s : State) (f : Fld) (k : Nat) : (s.inc f k).snap = s.snap := rfl
@[simp] theorem inc_samples (s : State) (f : Fld) (k : Nat) : (s.inc f k).samples = s.samples := rfl
@[simp] theorem inc_store (s : State) (f : Fld) (k : Nat) : (s.inc f k).store = s.store := rfl
@[simp] theorem inc_boot (s : State) (f : Fld) (k : Nat) : (s.inc f k).boot = s.boot := rfl
@[simp] theorem inc_fw (s : State) (f : Fld) (k : Nat) : (s.inc f k).fw = s.fw := rfl
@[simp] theorem inc_aon (s : State) (f : Fld) (k : Nat) : (s.inc f k).aon = s.aon := rfl
@[simp] theorem inc_sweepActive (s : State) (f : Fld) (k : Nat) : (s.inc f k).sweepActive = s.sweepActive := rfl
@[simp] theorem inc_sweepDue (s : State) (f : Fld) (k : Nat) : (s.inc f k).sweepDue = s.sweepDue := rfl
@[simp] theorem inc_sweepUs (s : State) (f : Fld) (k : Nat) : (s.inc f k).sweepUs = s.sweepUs := rfl
@[simp] theorem inc_urgentSet (s : State) (f : Fld) (k : Nat) : (s.inc f k).urgentSet = s.urgentSet := rfl
@[simp] theorem inc_scrubStripe (s : State) (f : Fld) (k : Nat) : (s.inc f k).scrubStripe = s.scrubStripe := rfl
@[simp] theorem inc_scrubSecond (s : State) (f : Fld) (k : Nat) : (s.inc f k).scrubSecond = s.scrubSecond := rfl
@[simp] theorem inc_scrubVisits (s : State) (f : Fld) (k : Nat) : (s.inc f k).scrubVisits = s.scrubVisits := rfl
@[simp] theorem inc_scrubWord (s : State) (f : Fld) (k : Nat) : (s.inc f k).scrubWord = s.scrubWord := rfl
@[simp] theorem inc_out (s : State) (f : Fld) (k : Nat) : (s.inc f k).out = s.out := rfl
@[simp] theorem inc_nextId (s : State) (f : Fld) (k : Nat) : (s.inc f k).nextId = s.nextId := rfl
@[simp] theorem inc_freeTick (s : State) (f : Fld) (k : Nat) : (s.inc f k).freeTick = s.freeTick := rfl
@[simp] theorem inc_sl (s : State) (f : Fld) (k : Nat) (r : PhysSlice) : (s.inc f k).sl r = s.sl r := rfl
@[simp] theorem inc_port (s : State) (f : Fld) (k : Nat) (r : HostId) : (s.inc f k).port r = s.port r := rfl
@[simp] theorem inc_pq (s : State) (f : Fld) (k : Nat) (r : Nat) : (s.inc f k).pq r = s.pq r := rfl
@[simp] theorem inc_cnt (s : State) (f : Fld) (k : Nat) (r t : Nat) : (s.inc f k).cnt r t = s.cnt r t := rfl
@[simp] theorem inc_now (s : State) (f : Fld) (k : Nat) : (s.inc f k).now = s.now := rfl

/-! ### draw -/

@[simp] theorem draw_pending (s : State) : (s.draw).pending = s.pending := rfl
@[simp] theorem draw_regs (s : State) : (s.draw).regs = s.regs := rfl
@[simp] theorem draw_ports (s : State) : (s.draw).ports = s.ports := rfl
@[simp] theorem draw_slices (s : State) : (s.draw).slices = s.slices := rfl
@[simp] theorem draw_fabric (s : State) : (s.draw).fabric = s.fabric := rfl
@[simp] theorem draw_iaPark (s : State) : (s.draw).iaPark = s.iaPark := rfl
@[simp] theorem draw_iaIngress (s : State) : (s.draw).iaIngress = s.iaIngress := rfl
@[simp] theorem draw_iaHeld (s : State) : (s.draw).iaHeld = s.iaHeld := rfl
@[simp] theorem draw_iaLastViolation (s : State) : (s.draw).iaLastViolation = s.iaLastViolation := rfl
@[simp] theorem draw_mf (s : State) : (s.draw).mf = s.mf := rfl
@[simp] theorem draw_media (s : State) : (s.draw).media = s.media := rfl
@[simp] theorem draw_counters (s : State) : (s.draw).counters = s.counters := rfl
@[simp] theorem draw_history (s : State) : (s.draw).history = s.history := rfl
@[simp] theorem draw_minors (s : State) : (s.draw).minors = s.minors := rfl
@[simp] theorem draw_queues (s : State) : (s.draw).queues = s.queues := rfl
@[simp] theorem draw_mbxP (s : State) : (s.draw).mbxP = s.mbxP := rfl
@[simp] theorem draw_mbxS (s : State) : (s.draw).mbxS = s.mbxS := rfl
@[simp] theorem draw_cores (s : State) : (s.draw).cores = s.cores := rfl
@[simp] theorem draw_sram (s : State) : (s.draw).sram = s.sram := rfl
@[simp] theorem draw_sramReserved (s : State) : (s.draw).sramReserved = s.sramReserved := rfl
@[simp] theorem draw_valid (s : State) : (s.draw).valid = s.valid := rfl
@[simp] theorem draw_devErrors (s : State) : (s.draw).devErrors = s.devErrors := rfl
@[simp] theorem draw_devRemap (s : State) : (s.draw).devRemap = s.devRemap := rfl
@[simp] theorem draw_devCopying (s : State) : (s.draw).devCopying = s.devCopying := rfl
@[simp] theorem draw_ownerLoss (s : State) : (s.draw).ownerLoss = s.ownerLoss := rfl
@[simp] theorem draw_dma (s : State) : (s.draw).dma = s.dma := rfl
@[simp] theorem draw_engines (s : State) : (s.draw).engines = s.engines := rfl
@[simp] theorem draw_pmu (s : State) : (s.draw).pmu = s.pmu := rfl
@[simp] theorem draw_snap (s : State) : (s.draw).snap = s.snap := rfl
@[simp] theorem draw_samples (s : State) : (s.draw).samples = s.samples := rfl
@[simp] theorem draw_store (s : State) : (s.draw).store = s.store := rfl
@[simp] theorem draw_boot (s : State) : (s.draw).boot = s.boot := rfl
@[simp] theorem draw_fw (s : State) : (s.draw).fw = s.fw := rfl
@[simp] theorem draw_aon (s : State) : (s.draw).aon = s.aon := rfl
@[simp] theorem draw_sweepActive (s : State) : (s.draw).sweepActive = s.sweepActive := rfl
@[simp] theorem draw_sweepDue (s : State) : (s.draw).sweepDue = s.sweepDue := rfl
@[simp] theorem draw_sweepUs (s : State) : (s.draw).sweepUs = s.sweepUs := rfl
@[simp] theorem draw_urgentSet (s : State) : (s.draw).urgentSet = s.urgentSet := rfl
@[simp] theorem draw_scrubStripe (s : State) : (s.draw).scrubStripe = s.scrubStripe := rfl
@[simp] theorem draw_scrubSecond (s : State) : (s.draw).scrubSecond = s.scrubSecond := rfl
@[simp] theorem draw_scrubVisits (s : State) : (s.draw).scrubVisits = s.scrubVisits := rfl
@[simp] theorem draw_scrubWord (s : State) : (s.draw).scrubWord = s.scrubWord := rfl
@[simp] theorem draw_out (s : State) : (s.draw).out = s.out := rfl
@[simp] theorem draw_nextId (s : State) : (s.draw).nextId = s.nextId := rfl
@[simp] theorem draw_freeTick (s : State) : (s.draw).freeTick = s.freeTick + 1 := rfl
@[simp] theorem draw_reg (s : State) (i : Nat) : (s.draw).reg i = s.reg i := rfl
@[simp] theorem draw_rd (s : State) (g : Fld) : (s.draw).rd g = s.rd g := rfl
@[simp] theorem draw_on (s : State) (g : Fld) : (s.draw).on g = s.on g := rfl
@[simp] theorem draw_mode (s : State) : (s.draw).mode = s.mode := rfl
@[simp] theorem draw_sl (s : State) (r : PhysSlice) : (s.draw).sl r = s.sl r := rfl
@[simp] theorem draw_port (s : State) (r : HostId) : (s.draw).port r = s.port r := rfl
@[simp] theorem draw_pq (s : State) (r : Nat) : (s.draw).pq r = s.pq r := rfl
@[simp] theorem draw_cnt (s : State) (r t : Nat) : (s.draw).cnt r t = s.cnt r t := rfl
@[simp] theorem draw_now (s : State) : (s.draw).now = s.now := rfl

/-! ### emit -/

@[simp] theorem emit_pending (s : State) (o : Out) : (s.emit o).pending = s.pending := rfl
@[simp] theorem emit_regs (s : State) (o : Out) : (s.emit o).regs = s.regs := rfl
@[simp] theorem emit_ports (s : State) (o : Out) : (s.emit o).ports = s.ports := rfl
@[simp] theorem emit_slices (s : State) (o : Out) : (s.emit o).slices = s.slices := rfl
@[simp] theorem emit_fabric (s : State) (o : Out) : (s.emit o).fabric = s.fabric := rfl
@[simp] theorem emit_iaPark (s : State) (o : Out) : (s.emit o).iaPark = s.iaPark := rfl
@[simp] theorem emit_iaIngress (s : State) (o : Out) : (s.emit o).iaIngress = s.iaIngress := rfl
@[simp] theorem emit_iaHeld (s : State) (o : Out) : (s.emit o).iaHeld = s.iaHeld := rfl
@[simp] theorem emit_iaLastViolation (s : State) (o : Out) : (s.emit o).iaLastViolation = s.iaLastViolation := rfl
@[simp] theorem emit_mf (s : State) (o : Out) : (s.emit o).mf = s.mf := rfl
@[simp] theorem emit_media (s : State) (o : Out) : (s.emit o).media = s.media := rfl
@[simp] theorem emit_counters (s : State) (o : Out) : (s.emit o).counters = s.counters := rfl
@[simp] theorem emit_history (s : State) (o : Out) : (s.emit o).history = s.history := rfl
@[simp] theorem emit_minors (s : State) (o : Out) : (s.emit o).minors = s.minors := rfl
@[simp] theorem emit_queues (s : State) (o : Out) : (s.emit o).queues = s.queues := rfl
@[simp] theorem emit_mbxP (s : State) (o : Out) : (s.emit o).mbxP = s.mbxP := rfl
@[simp] theorem emit_mbxS (s : State) (o : Out) : (s.emit o).mbxS = s.mbxS := rfl
@[simp] theorem emit_cores (s : State) (o : Out) : (s.emit o).cores = s.cores := rfl
@[simp] theorem emit_sram (s : State) (o : Out) : (s.emit o).sram = s.sram := rfl
@[simp] theorem emit_sramReserved (s : State) (o : Out) : (s.emit o).sramReserved = s.sramReserved := rfl
@[simp] theorem emit_valid (s : State) (o : Out) : (s.emit o).valid = s.valid := rfl
@[simp] theorem emit_devErrors (s : State) (o : Out) : (s.emit o).devErrors = s.devErrors := rfl
@[simp] theorem emit_devRemap (s : State) (o : Out) : (s.emit o).devRemap = s.devRemap := rfl
@[simp] theorem emit_devCopying (s : State) (o : Out) : (s.emit o).devCopying = s.devCopying := rfl
@[simp] theorem emit_ownerLoss (s : State) (o : Out) : (s.emit o).ownerLoss = s.ownerLoss := rfl
@[simp] theorem emit_dma (s : State) (o : Out) : (s.emit o).dma = s.dma := rfl
@[simp] theorem emit_engines (s : State) (o : Out) : (s.emit o).engines = s.engines := rfl
@[simp] theorem emit_pmu (s : State) (o : Out) : (s.emit o).pmu = s.pmu := rfl
@[simp] theorem emit_snap (s : State) (o : Out) : (s.emit o).snap = s.snap := rfl
@[simp] theorem emit_samples (s : State) (o : Out) : (s.emit o).samples = s.samples := rfl
@[simp] theorem emit_store (s : State) (o : Out) : (s.emit o).store = s.store := rfl
@[simp] theorem emit_boot (s : State) (o : Out) : (s.emit o).boot = s.boot := rfl
@[simp] theorem emit_fw (s : State) (o : Out) : (s.emit o).fw = s.fw := rfl
@[simp] theorem emit_aon (s : State) (o : Out) : (s.emit o).aon = s.aon := rfl
@[simp] theorem emit_sweepActive (s : State) (o : Out) : (s.emit o).sweepActive = s.sweepActive := rfl
@[simp] theorem emit_sweepDue (s : State) (o : Out) : (s.emit o).sweepDue = s.sweepDue := rfl
@[simp] theorem emit_sweepUs (s : State) (o : Out) : (s.emit o).sweepUs = s.sweepUs := rfl
@[simp] theorem emit_urgentSet (s : State) (o : Out) : (s.emit o).urgentSet = s.urgentSet := rfl
@[simp] theorem emit_scrubStripe (s : State) (o : Out) : (s.emit o).scrubStripe = s.scrubStripe := rfl
@[simp] theorem emit_scrubSecond (s : State) (o : Out) : (s.emit o).scrubSecond = s.scrubSecond := rfl
@[simp] theorem emit_scrubVisits (s : State) (o : Out) : (s.emit o).scrubVisits = s.scrubVisits := rfl
@[simp] theorem emit_scrubWord (s : State) (o : Out) : (s.emit o).scrubWord = s.scrubWord := rfl
@[simp] theorem emit_out (s : State) (o : Out) : (s.emit o).out = s.out ++ [o] := rfl
@[simp] theorem emit_nextId (s : State) (o : Out) : (s.emit o).nextId = s.nextId := rfl
@[simp] theorem emit_freeTick (s : State) (o : Out) : (s.emit o).freeTick = s.freeTick := rfl
@[simp] theorem emit_reg (s : State) (o : Out) (i : Nat) : (s.emit o).reg i = s.reg i := rfl
@[simp] theorem emit_rd (s : State) (o : Out) (g : Fld) : (s.emit o).rd g = s.rd g := rfl
@[simp] theorem emit_on (s : State) (o : Out) (g : Fld) : (s.emit o).on g = s.on g := rfl
@[simp] theorem emit_mode (s : State) (o : Out) : (s.emit o).mode = s.mode := rfl
@[simp] theorem emit_sl (s : State) (o : Out) (r : PhysSlice) : (s.emit o).sl r = s.sl r := rfl
@[simp] theorem emit_port (s : State) (o : Out) (r : HostId) : (s.emit o).port r = s.port r := rfl
@[simp] theorem emit_pq (s : State) (o : Out) (r : Nat) : (s.emit o).pq r = s.pq r := rfl
@[simp] theorem emit_cnt (s : State) (o : Out) (r t : Nat) : (s.emit o).cnt r t = s.cnt r t := rfl
@[simp] theorem emit_now (s : State) (o : Out) : (s.emit o).now = s.now := rfl

/-! ### count -/

@[simp] theorem count_pending (s : State) (u e k : Nat) : (s.count u e k).pending = s.pending := rfl
@[simp] theorem count_regs (s : State) (u e k : Nat) : (s.count u e k).regs = s.regs := rfl
@[simp] theorem count_ports (s : State) (u e k : Nat) : (s.count u e k).ports = s.ports := rfl
@[simp] theorem count_slices (s : State) (u e k : Nat) : (s.count u e k).slices = s.slices := rfl
@[simp] theorem count_fabric (s : State) (u e k : Nat) : (s.count u e k).fabric = s.fabric := rfl
@[simp] theorem count_iaPark (s : State) (u e k : Nat) : (s.count u e k).iaPark = s.iaPark := rfl
@[simp] theorem count_iaIngress (s : State) (u e k : Nat) : (s.count u e k).iaIngress = s.iaIngress := rfl
@[simp] theorem count_iaHeld (s : State) (u e k : Nat) : (s.count u e k).iaHeld = s.iaHeld := rfl
@[simp] theorem count_iaLastViolation (s : State) (u e k : Nat) : (s.count u e k).iaLastViolation = s.iaLastViolation := rfl
@[simp] theorem count_mf (s : State) (u e k : Nat) : (s.count u e k).mf = s.mf := rfl
@[simp] theorem count_media (s : State) (u e k : Nat) : (s.count u e k).media = s.media := rfl
@[simp] theorem count_counters (s : State) (u e k : Nat) : (s.count u e k).counters = s.counters := rfl
@[simp] theorem count_history (s : State) (u e k : Nat) : (s.count u e k).history = s.history := rfl
@[simp] theorem count_minors (s : State) (u e k : Nat) : (s.count u e k).minors = s.minors := rfl
@[simp] theorem count_queues (s : State) (u e k : Nat) : (s.count u e k).queues = s.queues := rfl
@[simp] theorem count_mbxP (s : State) (u e k : Nat) : (s.count u e k).mbxP = s.mbxP := rfl
@[simp] theorem count_mbxS (s : State) (u e k : Nat) : (s.count u e k).mbxS = s.mbxS := rfl
@[simp] theorem count_cores (s : State) (u e k : Nat) : (s.count u e k).cores = s.cores := rfl
@[simp] theorem count_sram (s : State) (u e k : Nat) : (s.count u e k).sram = s.sram := rfl
@[simp] theorem count_sramReserved (s : State) (u e k : Nat) : (s.count u e k).sramReserved = s.sramReserved := rfl
@[simp] theorem count_valid (s : State) (u e k : Nat) : (s.count u e k).valid = s.valid := rfl
@[simp] theorem count_devErrors (s : State) (u e k : Nat) : (s.count u e k).devErrors = s.devErrors := rfl
@[simp] theorem count_devRemap (s : State) (u e k : Nat) : (s.count u e k).devRemap = s.devRemap := rfl
@[simp] theorem count_devCopying (s : State) (u e k : Nat) : (s.count u e k).devCopying = s.devCopying := rfl
@[simp] theorem count_ownerLoss (s : State) (u e k : Nat) : (s.count u e k).ownerLoss = s.ownerLoss := rfl
@[simp] theorem count_dma (s : State) (u e k : Nat) : (s.count u e k).dma = s.dma := rfl
@[simp] theorem count_engines (s : State) (u e k : Nat) : (s.count u e k).engines = s.engines := rfl
@[simp] theorem count_snap (s : State) (u e k : Nat) : (s.count u e k).snap = s.snap := rfl
@[simp] theorem count_samples (s : State) (u e k : Nat) : (s.count u e k).samples = s.samples := rfl
@[simp] theorem count_store (s : State) (u e k : Nat) : (s.count u e k).store = s.store := rfl
@[simp] theorem count_boot (s : State) (u e k : Nat) : (s.count u e k).boot = s.boot := rfl
@[simp] theorem count_fw (s : State) (u e k : Nat) : (s.count u e k).fw = s.fw := rfl
@[simp] theorem count_aon (s : State) (u e k : Nat) : (s.count u e k).aon = s.aon := rfl
@[simp] theorem count_sweepActive (s : State) (u e k : Nat) : (s.count u e k).sweepActive = s.sweepActive := rfl
@[simp] theorem count_sweepDue (s : State) (u e k : Nat) : (s.count u e k).sweepDue = s.sweepDue := rfl
@[simp] theorem count_sweepUs (s : State) (u e k : Nat) : (s.count u e k).sweepUs = s.sweepUs := rfl
@[simp] theorem count_urgentSet (s : State) (u e k : Nat) : (s.count u e k).urgentSet = s.urgentSet := rfl
@[simp] theorem count_scrubStripe (s : State) (u e k : Nat) : (s.count u e k).scrubStripe = s.scrubStripe := rfl
@[simp] theorem count_scrubSecond (s : State) (u e k : Nat) : (s.count u e k).scrubSecond = s.scrubSecond := rfl
@[simp] theorem count_scrubVisits (s : State) (u e k : Nat) : (s.count u e k).scrubVisits = s.scrubVisits := rfl
@[simp] theorem count_scrubWord (s : State) (u e k : Nat) : (s.count u e k).scrubWord = s.scrubWord := rfl
@[simp] theorem count_out (s : State) (u e k : Nat) : (s.count u e k).out = s.out := rfl
@[simp] theorem count_nextId (s : State) (u e k : Nat) : (s.count u e k).nextId = s.nextId := rfl
@[simp] theorem count_freeTick (s : State) (u e k : Nat) : (s.count u e k).freeTick = s.freeTick := rfl
@[simp] theorem count_reg (s : State) (u e k : Nat) (i : Nat) : (s.count u e k).reg i = s.reg i := rfl
@[simp] theorem count_rd (s : State) (u e k : Nat) (g : Fld) : (s.count u e k).rd g = s.rd g := rfl
@[simp] theorem count_on (s : State) (u e k : Nat) (g : Fld) : (s.count u e k).on g = s.on g := rfl
@[simp] theorem count_mode (s : State) (u e k : Nat) : (s.count u e k).mode = s.mode := rfl
@[simp] theorem count_sl (s : State) (u e k : Nat) (r : PhysSlice) : (s.count u e k).sl r = s.sl r := rfl
@[simp] theorem count_port (s : State) (u e k : Nat) (r : HostId) : (s.count u e k).port r = s.port r := rfl
@[simp] theorem count_pq (s : State) (u e k : Nat) (r : Nat) : (s.count u e k).pq r = s.pq r := rfl
@[simp] theorem count_now (s : State) (u e k : Nat) : (s.count u e k).now = s.now := rfl

/-! ### bump -/

@[simp] theorem bump_pending (s : State) : (s.bump).pending = s.pending := rfl
@[simp] theorem bump_regs (s : State) : (s.bump).regs = s.regs := rfl
@[simp] theorem bump_ports (s : State) : (s.bump).ports = s.ports := rfl
@[simp] theorem bump_slices (s : State) : (s.bump).slices = s.slices := rfl
@[simp] theorem bump_fabric (s : State) : (s.bump).fabric = s.fabric := rfl
@[simp] theorem bump_iaPark (s : State) : (s.bump).iaPark = s.iaPark := rfl
@[simp] theorem bump_iaIngress (s : State) : (s.bump).iaIngress = s.iaIngress := rfl
@[simp] theorem bump_iaHeld (s : State) : (s.bump).iaHeld = s.iaHeld := rfl
@[simp] theorem bump_iaLastViolation (s : State) : (s.bump).iaLastViolation = s.iaLastViolation := rfl
@[simp] theorem bump_mf (s : State) : (s.bump).mf = s.mf := rfl
@[simp] theorem bump_media (s : State) : (s.bump).media = s.media := rfl
@[simp] theorem bump_counters (s : State) : (s.bump).counters = s.counters := rfl
@[simp] theorem bump_history (s : State) : (s.bump).history = s.history := rfl
@[simp] theorem bump_minors (s : State) : (s.bump).minors = s.minors := rfl
@[simp] theorem bump_queues (s : State) : (s.bump).queues = s.queues := rfl
@[simp] theorem bump_mbxP (s : State) : (s.bump).mbxP = s.mbxP := rfl
@[simp] theorem bump_mbxS (s : State) : (s.bump).mbxS = s.mbxS := rfl
@[simp] theorem bump_cores (s : State) : (s.bump).cores = s.cores := rfl
@[simp] theorem bump_sram (s : State) : (s.bump).sram = s.sram := rfl
@[simp] theorem bump_sramReserved (s : State) : (s.bump).sramReserved = s.sramReserved := rfl
@[simp] theorem bump_valid (s : State) : (s.bump).valid = s.valid := rfl
@[simp] theorem bump_devErrors (s : State) : (s.bump).devErrors = s.devErrors := rfl
@[simp] theorem bump_devRemap (s : State) : (s.bump).devRemap = s.devRemap := rfl
@[simp] theorem bump_devCopying (s : State) : (s.bump).devCopying = s.devCopying := rfl
@[simp] theorem bump_ownerLoss (s : State) : (s.bump).ownerLoss = s.ownerLoss := rfl
@[simp] theorem bump_dma (s : State) : (s.bump).dma = s.dma := rfl
@[simp] theorem bump_engines (s : State) : (s.bump).engines = s.engines := rfl
@[simp] theorem bump_pmu (s : State) : (s.bump).pmu = s.pmu := rfl
@[simp] theorem bump_snap (s : State) : (s.bump).snap = s.snap := rfl
@[simp] theorem bump_samples (s : State) : (s.bump).samples = s.samples := rfl
@[simp] theorem bump_store (s : State) : (s.bump).store = s.store := rfl
@[simp] theorem bump_boot (s : State) : (s.bump).boot = s.boot := rfl
@[simp] theorem bump_fw (s : State) : (s.bump).fw = s.fw := rfl
@[simp] theorem bump_aon (s : State) : (s.bump).aon = s.aon := rfl
@[simp] theorem bump_sweepActive (s : State) : (s.bump).sweepActive = s.sweepActive := rfl
@[simp] theorem bump_sweepDue (s : State) : (s.bump).sweepDue = s.sweepDue := rfl
@[simp] theorem bump_sweepUs (s : State) : (s.bump).sweepUs = s.sweepUs := rfl
@[simp] theorem bump_urgentSet (s : State) : (s.bump).urgentSet = s.urgentSet := rfl
@[simp] theorem bump_scrubStripe (s : State) : (s.bump).scrubStripe = s.scrubStripe := rfl
@[simp] theorem bump_scrubSecond (s : State) : (s.bump).scrubSecond = s.scrubSecond := rfl
@[simp] theorem bump_scrubVisits (s : State) : (s.bump).scrubVisits = s.scrubVisits := rfl
@[simp] theorem bump_scrubWord (s : State) : (s.bump).scrubWord = s.scrubWord := rfl
@[simp] theorem bump_out (s : State) : (s.bump).out = s.out := rfl
@[simp] theorem bump_nextId (s : State) : (s.bump).nextId = s.nextId + 1 := rfl
@[simp] theorem bump_freeTick (s : State) : (s.bump).freeTick = s.freeTick := rfl
@[simp] theorem bump_reg (s : State) (i : Nat) : (s.bump).reg i = s.reg i := rfl
@[simp] theorem bump_rd (s : State) (g : Fld) : (s.bump).rd g = s.rd g := rfl
@[simp] theorem bump_on (s : State) (g : Fld) : (s.bump).on g = s.on g := rfl
@[simp] theorem bump_mode (s : State) : (s.bump).mode = s.mode := rfl
@[simp] theorem bump_sl (s : State) (r : PhysSlice) : (s.bump).sl r = s.sl r := rfl
@[simp] theorem bump_port (s : State) (r : HostId) : (s.bump).port r = s.port r := rfl
@[simp] theorem bump_pq (s : State) (r : Nat) : (s.bump).pq r = s.pq r := rfl
@[simp] theorem bump_cnt (s : State) (r t : Nat) : (s.bump).cnt r t = s.cnt r t := rfl
@[simp] theorem bump_now (s : State) : (s.bump).now = s.now := rfl

/-! ### setSl -/

@[simp] theorem setSl_pending (s : State) (p : PhysSlice) (x : Slice) : (s.setSl p x).pending = s.pending := rfl
@[simp] theorem setSl_regs (s : State) (p : PhysSlice) (x : Slice) : (s.setSl p x).regs = s.regs := rfl
@[simp] theorem setSl_ports (s : State) (p : PhysSlice) (x : Slice) : (s.setSl p x).ports = s.ports := rfl
@[simp] theorem setSl_slices (s : State) (p : PhysSlice) (x : Slice) : (s.setSl p x).slices = s.slices.put Slice.empty p.val x := rfl
@[simp] theorem setSl_fabric (s : State) (p : PhysSlice) (x : Slice) : (s.setSl p x).fabric = s.fabric := rfl
@[simp] theorem setSl_iaPark (s : State) (p : PhysSlice) (x : Slice) : (s.setSl p x).iaPark = s.iaPark := rfl
@[simp] theorem setSl_iaIngress (s : State) (p : PhysSlice) (x : Slice) : (s.setSl p x).iaIngress = s.iaIngress := rfl
@[simp] theorem setSl_iaHeld (s : State) (p : PhysSlice) (x : Slice) : (s.setSl p x).iaHeld = s.iaHeld := rfl
@[simp] theorem setSl_iaLastViolation (s : State) (p : PhysSlice) (x : Slice) : (s.setSl p x).iaLastViolation = s.iaLastViolation := rfl
@[simp] theorem setSl_mf (s : State) (p : PhysSlice) (x : Slice) : (s.setSl p x).mf = s.mf := rfl
@[simp] theorem setSl_media (s : State) (p : PhysSlice) (x : Slice) : (s.setSl p x).media = s.media := rfl
@[simp] theorem setSl_counters (s : State) (p : PhysSlice) (x : Slice) : (s.setSl p x).counters = s.counters := rfl
@[simp] theorem setSl_history (s : State) (p : PhysSlice) (x : Slice) : (s.setSl p x).history = s.history := rfl
@[simp] theorem setSl_minors (s : State) (p : PhysSlice) (x : Slice) : (s.setSl p x).minors = s.minors := rfl
@[simp] theorem setSl_queues (s : State) (p : PhysSlice) (x : Slice) : (s.setSl p x).queues = s.queues := rfl
@[simp] theorem setSl_mbxP (s : State) (p : PhysSlice) (x : Slice) : (s.setSl p x).mbxP = s.mbxP := rfl
@[simp] theorem setSl_mbxS (s : State) (p : PhysSlice) (x : Slice) : (s.setSl p x).mbxS = s.mbxS := rfl
@[simp] theorem setSl_cores (s : State) (p : PhysSlice) (x : Slice) : (s.setSl p x).cores = s.cores := rfl
@[simp] theorem setSl_sram (s : State) (p : PhysSlice) (x : Slice) : (s.setSl p x).sram = s.sram := rfl
@[simp] theorem setSl_sramReserved (s : State) (p : PhysSlice) (x : Slice) : (s.setSl p x).sramReserved = s.sramReserved := rfl
@[simp] theorem setSl_valid (s : State) (p : PhysSlice) (x : Slice) : (s.setSl p x).valid = s.valid := rfl
@[simp] theorem setSl_devErrors (s : State) (p : PhysSlice) (x : Slice) : (s.setSl p x).devErrors = s.devErrors := rfl
@[simp] theorem setSl_devRemap (s : State) (p : PhysSlice) (x : Slice) : (s.setSl p x).devRemap = s.devRemap := rfl
@[simp] theorem setSl_devCopying (s : State) (p : PhysSlice) (x : Slice) : (s.setSl p x).devCopying = s.devCopying := rfl
@[simp] theorem setSl_ownerLoss (s : State) (p : PhysSlice) (x : Slice) : (s.setSl p x).ownerLoss = s.ownerLoss := rfl
@[simp] theorem setSl_dma (s : State) (p : PhysSlice) (x : Slice) : (s.setSl p x).dma = s.dma := rfl
@[simp] theorem setSl_engines (s : State) (p : PhysSlice) (x : Slice) : (s.setSl p x).engines = s.engines := rfl
@[simp] theorem setSl_pmu (s : State) (p : PhysSlice) (x : Slice) : (s.setSl p x).pmu = s.pmu := rfl
@[simp] theorem setSl_snap (s : State) (p : PhysSlice) (x : Slice) : (s.setSl p x).snap = s.snap := rfl
@[simp] theorem setSl_samples (s : State) (p : PhysSlice) (x : Slice) : (s.setSl p x).samples = s.samples := rfl
@[simp] theorem setSl_store (s : State) (p : PhysSlice) (x : Slice) : (s.setSl p x).store = s.store := rfl
@[simp] theorem setSl_boot (s : State) (p : PhysSlice) (x : Slice) : (s.setSl p x).boot = s.boot := rfl
@[simp] theorem setSl_fw (s : State) (p : PhysSlice) (x : Slice) : (s.setSl p x).fw = s.fw := rfl
@[simp] theorem setSl_aon (s : State) (p : PhysSlice) (x : Slice) : (s.setSl p x).aon = s.aon := rfl
@[simp] theorem setSl_sweepActive (s : State) (p : PhysSlice) (x : Slice) : (s.setSl p x).sweepActive = s.sweepActive := rfl
@[simp] theorem setSl_sweepDue (s : State) (p : PhysSlice) (x : Slice) : (s.setSl p x).sweepDue = s.sweepDue := rfl
@[simp] theorem setSl_sweepUs (s : State) (p : PhysSlice) (x : Slice) : (s.setSl p x).sweepUs = s.sweepUs := rfl
@[simp] theorem setSl_urgentSet (s : State) (p : PhysSlice) (x : Slice) : (s.setSl p x).urgentSet = s.urgentSet := rfl
@[simp] theorem setSl_scrubStripe (s : State) (p : PhysSlice) (x : Slice) : (s.setSl p x).scrubStripe = s.scrubStripe := rfl
@[simp] theorem setSl_scrubSecond (s : State) (p : PhysSlice) (x : Slice) : (s.setSl p x).scrubSecond = s.scrubSecond := rfl
@[simp] theorem setSl_scrubVisits (s : State) (p : PhysSlice) (x : Slice) : (s.setSl p x).scrubVisits = s.scrubVisits := rfl
@[simp] theorem setSl_scrubWord (s : State) (p : PhysSlice) (x : Slice) : (s.setSl p x).scrubWord = s.scrubWord := rfl
@[simp] theorem setSl_out (s : State) (p : PhysSlice) (x : Slice) : (s.setSl p x).out = s.out := rfl
@[simp] theorem setSl_nextId (s : State) (p : PhysSlice) (x : Slice) : (s.setSl p x).nextId = s.nextId := rfl
@[simp] theorem setSl_freeTick (s : State) (p : PhysSlice) (x : Slice) : (s.setSl p x).freeTick = s.freeTick := rfl
@[simp] theorem setSl_reg (s : State) (p : PhysSlice) (x : Slice) (i : Nat) : (s.setSl p x).reg i = s.reg i := rfl
@[simp] theorem setSl_rd (s : State) (p : PhysSlice) (x : Slice) (g : Fld) : (s.setSl p x).rd g = s.rd g := rfl
@[simp] theorem setSl_on (s : State) (p : PhysSlice) (x : Slice) (g : Fld) : (s.setSl p x).on g = s.on g := rfl
@[simp] theorem setSl_mode (s : State) (p : PhysSlice) (x : Slice) : (s.setSl p x).mode = s.mode := rfl
@[simp] theorem setSl_port (s : State) (p : PhysSlice) (x : Slice) (r : HostId) : (s.setSl p x).port r = s.port r := rfl
@[simp] theorem setSl_pq (s : State) (p : PhysSlice) (x : Slice) (r : Nat) : (s.setSl p x).pq r = s.pq r := rfl
@[simp] theorem setSl_cnt (s : State) (p : PhysSlice) (x : Slice) (r t : Nat) : (s.setSl p x).cnt r t = s.cnt r t := rfl
@[simp] theorem setSl_now (s : State) (p : PhysSlice) (x : Slice) : (s.setSl p x).now = s.now := rfl

/-! ### modSl -/

@[simp] theorem modSl_pending (s : State) (p : PhysSlice) (f : Slice → Slice) : (s.modSl p f).pending = s.pending := rfl
@[simp] theorem modSl_regs (s : State) (p : PhysSlice) (f : Slice → Slice) : (s.modSl p f).regs = s.regs := rfl
@[simp] theorem modSl_ports (s : State) (p : PhysSlice) (f : Slice → Slice) : (s.modSl p f).ports = s.ports := rfl
@[simp] theorem modSl_slices (s : State) (p : PhysSlice) (f : Slice → Slice) : (s.modSl p f).slices = s.slices.put Slice.empty p.val (f (s.sl p)) := rfl
@[simp] theorem modSl_fabric (s : State) (p : PhysSlice) (f : Slice → Slice) : (s.modSl p f).fabric = s.fabric := rfl
@[simp] theorem modSl_iaPark (s : State) (p : PhysSlice) (f : Slice → Slice) : (s.modSl p f).iaPark = s.iaPark := rfl
@[simp] theorem modSl_iaIngress (s : State) (p : PhysSlice) (f : Slice → Slice) : (s.modSl p f).iaIngress = s.iaIngress := rfl
@[simp] theorem modSl_iaHeld (s : State) (p : PhysSlice) (f : Slice → Slice) : (s.modSl p f).iaHeld = s.iaHeld := rfl
@[simp] theorem modSl_iaLastViolation (s : State) (p : PhysSlice) (f : Slice → Slice) : (s.modSl p f).iaLastViolation = s.iaLastViolation := rfl
@[simp] theorem modSl_mf (s : State) (p : PhysSlice) (f : Slice → Slice) : (s.modSl p f).mf = s.mf := rfl
@[simp] theorem modSl_media (s : State) (p : PhysSlice) (f : Slice → Slice) : (s.modSl p f).media = s.media := rfl
@[simp] theorem modSl_counters (s : State) (p : PhysSlice) (f : Slice → Slice) : (s.modSl p f).counters = s.counters := rfl
@[simp] theorem modSl_history (s : State) (p : PhysSlice) (f : Slice → Slice) : (s.modSl p f).history = s.history := rfl
@[simp] theorem modSl_minors (s : State) (p : PhysSlice) (f : Slice → Slice) : (s.modSl p f).minors = s.minors := rfl
@[simp] theorem modSl_queues (s : State) (p : PhysSlice) (f : Slice → Slice) : (s.modSl p f).queues = s.queues := rfl
@[simp] theorem modSl_mbxP (s : State) (p : PhysSlice) (f : Slice → Slice) : (s.modSl p f).mbxP = s.mbxP := rfl
@[simp] theorem modSl_mbxS (s : State) (p : PhysSlice) (f : Slice → Slice) : (s.modSl p f).mbxS = s.mbxS := rfl
@[simp] theorem modSl_cores (s : State) (p : PhysSlice) (f : Slice → Slice) : (s.modSl p f).cores = s.cores := rfl
@[simp] theorem modSl_sram (s : State) (p : PhysSlice) (f : Slice → Slice) : (s.modSl p f).sram = s.sram := rfl
@[simp] theorem modSl_sramReserved (s : State) (p : PhysSlice) (f : Slice → Slice) : (s.modSl p f).sramReserved = s.sramReserved := rfl
@[simp] theorem modSl_valid (s : State) (p : PhysSlice) (f : Slice → Slice) : (s.modSl p f).valid = s.valid := rfl
@[simp] theorem modSl_devErrors (s : State) (p : PhysSlice) (f : Slice → Slice) : (s.modSl p f).devErrors = s.devErrors := rfl
@[simp] theorem modSl_devRemap (s : State) (p : PhysSlice) (f : Slice → Slice) : (s.modSl p f).devRemap = s.devRemap := rfl
@[simp] theorem modSl_devCopying (s : State) (p : PhysSlice) (f : Slice → Slice) : (s.modSl p f).devCopying = s.devCopying := rfl
@[simp] theorem modSl_ownerLoss (s : State) (p : PhysSlice) (f : Slice → Slice) : (s.modSl p f).ownerLoss = s.ownerLoss := rfl
@[simp] theorem modSl_dma (s : State) (p : PhysSlice) (f : Slice → Slice) : (s.modSl p f).dma = s.dma := rfl
@[simp] theorem modSl_engines (s : State) (p : PhysSlice) (f : Slice → Slice) : (s.modSl p f).engines = s.engines := rfl
@[simp] theorem modSl_pmu (s : State) (p : PhysSlice) (f : Slice → Slice) : (s.modSl p f).pmu = s.pmu := rfl
@[simp] theorem modSl_snap (s : State) (p : PhysSlice) (f : Slice → Slice) : (s.modSl p f).snap = s.snap := rfl
@[simp] theorem modSl_samples (s : State) (p : PhysSlice) (f : Slice → Slice) : (s.modSl p f).samples = s.samples := rfl
@[simp] theorem modSl_store (s : State) (p : PhysSlice) (f : Slice → Slice) : (s.modSl p f).store = s.store := rfl
@[simp] theorem modSl_boot (s : State) (p : PhysSlice) (f : Slice → Slice) : (s.modSl p f).boot = s.boot := rfl
@[simp] theorem modSl_fw (s : State) (p : PhysSlice) (f : Slice → Slice) : (s.modSl p f).fw = s.fw := rfl
@[simp] theorem modSl_aon (s : State) (p : PhysSlice) (f : Slice → Slice) : (s.modSl p f).aon = s.aon := rfl
@[simp] theorem modSl_sweepActive (s : State) (p : PhysSlice) (f : Slice → Slice) : (s.modSl p f).sweepActive = s.sweepActive := rfl
@[simp] theorem modSl_sweepDue (s : State) (p : PhysSlice) (f : Slice → Slice) : (s.modSl p f).sweepDue = s.sweepDue := rfl
@[simp] theorem modSl_sweepUs (s : State) (p : PhysSlice) (f : Slice → Slice) : (s.modSl p f).sweepUs = s.sweepUs := rfl
@[simp] theorem modSl_urgentSet (s : State) (p : PhysSlice) (f : Slice → Slice) : (s.modSl p f).urgentSet = s.urgentSet := rfl
@[simp] theorem modSl_scrubStripe (s : State) (p : PhysSlice) (f : Slice → Slice) : (s.modSl p f).scrubStripe = s.scrubStripe := rfl
@[simp] theorem modSl_scrubSecond (s : State) (p : PhysSlice) (f : Slice → Slice) : (s.modSl p f).scrubSecond = s.scrubSecond := rfl
@[simp] theorem modSl_scrubVisits (s : State) (p : PhysSlice) (f : Slice → Slice) : (s.modSl p f).scrubVisits = s.scrubVisits := rfl
@[simp] theorem modSl_scrubWord (s : State) (p : PhysSlice) (f : Slice → Slice) : (s.modSl p f).scrubWord = s.scrubWord := rfl
@[simp] theorem modSl_out (s : State) (p : PhysSlice) (f : Slice → Slice) : (s.modSl p f).out = s.out := rfl
@[simp] theorem modSl_nextId (s : State) (p : PhysSlice) (f : Slice → Slice) : (s.modSl p f).nextId = s.nextId := rfl
@[simp] theorem modSl_freeTick (s : State) (p : PhysSlice) (f : Slice → Slice) : (s.modSl p f).freeTick = s.freeTick := rfl
@[simp] theorem modSl_reg (s : State) (p : PhysSlice) (f : Slice → Slice) (i : Nat) : (s.modSl p f).reg i = s.reg i := rfl
@[simp] theorem modSl_rd (s : State) (p : PhysSlice) (f : Slice → Slice) (g : Fld) : (s.modSl p f).rd g = s.rd g := rfl
@[simp] theorem modSl_on (s : State) (p : PhysSlice) (f : Slice → Slice) (g : Fld) : (s.modSl p f).on g = s.on g := rfl
@[simp] theorem modSl_mode (s : State) (p : PhysSlice) (f : Slice → Slice) : (s.modSl p f).mode = s.mode := rfl
@[simp] theorem modSl_port (s : State) (p : PhysSlice) (f : Slice → Slice) (r : HostId) : (s.modSl p f).port r = s.port r := rfl
@[simp] theorem modSl_pq (s : State) (p : PhysSlice) (f : Slice → Slice) (r : Nat) : (s.modSl p f).pq r = s.pq r := rfl
@[simp] theorem modSl_cnt (s : State) (p : PhysSlice) (f : Slice → Slice) (r t : Nat) : (s.modSl p f).cnt r t = s.cnt r t := rfl
@[simp] theorem modSl_now (s : State) (p : PhysSlice) (f : Slice → Slice) : (s.modSl p f).now = s.now := rfl

/-! ### modPort -/

@[simp] theorem modPort_pending (s : State) (p : HostId) (f : Port → Port) : (s.modPort p f).pending = s.pending := rfl
@[simp] theorem modPort_regs (s : State) (p : HostId) (f : Port → Port) : (s.modPort p f).regs = s.regs := rfl
@[simp] theorem modPort_ports (s : State) (p : HostId) (f : Port → Port) : (s.modPort p f).ports = s.ports.put Port.empty p.val (f (s.port p)) := rfl
@[simp] theorem modPort_slices (s : State) (p : HostId) (f : Port → Port) : (s.modPort p f).slices = s.slices := rfl
@[simp] theorem modPort_fabric (s : State) (p : HostId) (f : Port → Port) : (s.modPort p f).fabric = s.fabric := rfl
@[simp] theorem modPort_iaPark (s : State) (p : HostId) (f : Port → Port) : (s.modPort p f).iaPark = s.iaPark := rfl
@[simp] theorem modPort_iaIngress (s : State) (p : HostId) (f : Port → Port) : (s.modPort p f).iaIngress = s.iaIngress := rfl
@[simp] theorem modPort_iaHeld (s : State) (p : HostId) (f : Port → Port) : (s.modPort p f).iaHeld = s.iaHeld := rfl
@[simp] theorem modPort_iaLastViolation (s : State) (p : HostId) (f : Port → Port) : (s.modPort p f).iaLastViolation = s.iaLastViolation := rfl
@[simp] theorem modPort_mf (s : State) (p : HostId) (f : Port → Port) : (s.modPort p f).mf = s.mf := rfl
@[simp] theorem modPort_media (s : State) (p : HostId) (f : Port → Port) : (s.modPort p f).media = s.media := rfl
@[simp] theorem modPort_counters (s : State) (p : HostId) (f : Port → Port) : (s.modPort p f).counters = s.counters := rfl
@[simp] theorem modPort_history (s : State) (p : HostId) (f : Port → Port) : (s.modPort p f).history = s.history := rfl
@[simp] theorem modPort_minors (s : State) (p : HostId) (f : Port → Port) : (s.modPort p f).minors = s.minors := rfl
@[simp] theorem modPort_queues (s : State) (p : HostId) (f : Port → Port) : (s.modPort p f).queues = s.queues := rfl
@[simp] theorem modPort_mbxP (s : State) (p : HostId) (f : Port → Port) : (s.modPort p f).mbxP = s.mbxP := rfl
@[simp] theorem modPort_mbxS (s : State) (p : HostId) (f : Port → Port) : (s.modPort p f).mbxS = s.mbxS := rfl
@[simp] theorem modPort_cores (s : State) (p : HostId) (f : Port → Port) : (s.modPort p f).cores = s.cores := rfl
@[simp] theorem modPort_sram (s : State) (p : HostId) (f : Port → Port) : (s.modPort p f).sram = s.sram := rfl
@[simp] theorem modPort_sramReserved (s : State) (p : HostId) (f : Port → Port) : (s.modPort p f).sramReserved = s.sramReserved := rfl
@[simp] theorem modPort_valid (s : State) (p : HostId) (f : Port → Port) : (s.modPort p f).valid = s.valid := rfl
@[simp] theorem modPort_devErrors (s : State) (p : HostId) (f : Port → Port) : (s.modPort p f).devErrors = s.devErrors := rfl
@[simp] theorem modPort_devRemap (s : State) (p : HostId) (f : Port → Port) : (s.modPort p f).devRemap = s.devRemap := rfl
@[simp] theorem modPort_devCopying (s : State) (p : HostId) (f : Port → Port) : (s.modPort p f).devCopying = s.devCopying := rfl
@[simp] theorem modPort_ownerLoss (s : State) (p : HostId) (f : Port → Port) : (s.modPort p f).ownerLoss = s.ownerLoss := rfl
@[simp] theorem modPort_dma (s : State) (p : HostId) (f : Port → Port) : (s.modPort p f).dma = s.dma := rfl
@[simp] theorem modPort_engines (s : State) (p : HostId) (f : Port → Port) : (s.modPort p f).engines = s.engines := rfl
@[simp] theorem modPort_pmu (s : State) (p : HostId) (f : Port → Port) : (s.modPort p f).pmu = s.pmu := rfl
@[simp] theorem modPort_snap (s : State) (p : HostId) (f : Port → Port) : (s.modPort p f).snap = s.snap := rfl
@[simp] theorem modPort_samples (s : State) (p : HostId) (f : Port → Port) : (s.modPort p f).samples = s.samples := rfl
@[simp] theorem modPort_store (s : State) (p : HostId) (f : Port → Port) : (s.modPort p f).store = s.store := rfl
@[simp] theorem modPort_boot (s : State) (p : HostId) (f : Port → Port) : (s.modPort p f).boot = s.boot := rfl
@[simp] theorem modPort_fw (s : State) (p : HostId) (f : Port → Port) : (s.modPort p f).fw = s.fw := rfl
@[simp] theorem modPort_aon (s : State) (p : HostId) (f : Port → Port) : (s.modPort p f).aon = s.aon := rfl
@[simp] theorem modPort_sweepActive (s : State) (p : HostId) (f : Port → Port) : (s.modPort p f).sweepActive = s.sweepActive := rfl
@[simp] theorem modPort_sweepDue (s : State) (p : HostId) (f : Port → Port) : (s.modPort p f).sweepDue = s.sweepDue := rfl
@[simp] theorem modPort_sweepUs (s : State) (p : HostId) (f : Port → Port) : (s.modPort p f).sweepUs = s.sweepUs := rfl
@[simp] theorem modPort_urgentSet (s : State) (p : HostId) (f : Port → Port) : (s.modPort p f).urgentSet = s.urgentSet := rfl
@[simp] theorem modPort_scrubStripe (s : State) (p : HostId) (f : Port → Port) : (s.modPort p f).scrubStripe = s.scrubStripe := rfl
@[simp] theorem modPort_scrubSecond (s : State) (p : HostId) (f : Port → Port) : (s.modPort p f).scrubSecond = s.scrubSecond := rfl
@[simp] theorem modPort_scrubVisits (s : State) (p : HostId) (f : Port → Port) : (s.modPort p f).scrubVisits = s.scrubVisits := rfl
@[simp] theorem modPort_scrubWord (s : State) (p : HostId) (f : Port → Port) : (s.modPort p f).scrubWord = s.scrubWord := rfl
@[simp] theorem modPort_out (s : State) (p : HostId) (f : Port → Port) : (s.modPort p f).out = s.out := rfl
@[simp] theorem modPort_nextId (s : State) (p : HostId) (f : Port → Port) : (s.modPort p f).nextId = s.nextId := rfl
@[simp] theorem modPort_freeTick (s : State) (p : HostId) (f : Port → Port) : (s.modPort p f).freeTick = s.freeTick := rfl
@[simp] theorem modPort_reg (s : State) (p : HostId) (f : Port → Port) (i : Nat) : (s.modPort p f).reg i = s.reg i := rfl
@[simp] theorem modPort_rd (s : State) (p : HostId) (f : Port → Port) (g : Fld) : (s.modPort p f).rd g = s.rd g := rfl
@[simp] theorem modPort_on (s : State) (p : HostId) (f : Port → Port) (g : Fld) : (s.modPort p f).on g = s.on g := rfl
@[simp] theorem modPort_mode (s : State) (p : HostId) (f : Port → Port) : (s.modPort p f).mode = s.mode := rfl
@[simp] theorem modPort_sl (s : State) (p : HostId) (f : Port → Port) (r : PhysSlice) : (s.modPort p f).sl r = s.sl r := rfl
@[simp] theorem modPort_pq (s : State) (p : HostId) (f : Port → Port) (r : Nat) : (s.modPort p f).pq r = s.pq r := rfl
@[simp] theorem modPort_cnt (s : State) (p : HostId) (f : Port → Port) (r t : Nat) : (s.modPort p f).cnt r t = s.cnt r t := rfl
@[simp] theorem modPort_now (s : State) (p : HostId) (f : Port → Port) : (s.modPort p f).now = s.now := rfl

/-! ### modMf -/

@[simp] theorem modMf_pending (s : State) (f : MediaFront → MediaFront) : (s.modMf f).pending = s.pending := rfl
@[simp] theorem modMf_regs (s : State) (f : MediaFront → MediaFront) : (s.modMf f).regs = s.regs := rfl
@[simp] theorem modMf_ports (s : State) (f : MediaFront → MediaFront) : (s.modMf f).ports = s.ports := rfl
@[simp] theorem modMf_slices (s : State) (f : MediaFront → MediaFront) : (s.modMf f).slices = s.slices := rfl
@[simp] theorem modMf_fabric (s : State) (f : MediaFront → MediaFront) : (s.modMf f).fabric = s.fabric := rfl
@[simp] theorem modMf_iaPark (s : State) (f : MediaFront → MediaFront) : (s.modMf f).iaPark = s.iaPark := rfl
@[simp] theorem modMf_iaIngress (s : State) (f : MediaFront → MediaFront) : (s.modMf f).iaIngress = s.iaIngress := rfl
@[simp] theorem modMf_iaHeld (s : State) (f : MediaFront → MediaFront) : (s.modMf f).iaHeld = s.iaHeld := rfl
@[simp] theorem modMf_iaLastViolation (s : State) (f : MediaFront → MediaFront) : (s.modMf f).iaLastViolation = s.iaLastViolation := rfl
@[simp] theorem modMf_mf (s : State) (f : MediaFront → MediaFront) : (s.modMf f).mf = f s.mf := rfl
@[simp] theorem modMf_media (s : State) (f : MediaFront → MediaFront) : (s.modMf f).media = s.media := rfl
@[simp] theorem modMf_counters (s : State) (f : MediaFront → MediaFront) : (s.modMf f).counters = s.counters := rfl
@[simp] theorem modMf_history (s : State) (f : MediaFront → MediaFront) : (s.modMf f).history = s.history := rfl
@[simp] theorem modMf_minors (s : State) (f : MediaFront → MediaFront) : (s.modMf f).minors = s.minors := rfl
@[simp] theorem modMf_queues (s : State) (f : MediaFront → MediaFront) : (s.modMf f).queues = s.queues := rfl
@[simp] theorem modMf_mbxP (s : State) (f : MediaFront → MediaFront) : (s.modMf f).mbxP = s.mbxP := rfl
@[simp] theorem modMf_mbxS (s : State) (f : MediaFront → MediaFront) : (s.modMf f).mbxS = s.mbxS := rfl
@[simp] theorem modMf_cores (s : State) (f : MediaFront → MediaFront) : (s.modMf f).cores = s.cores := rfl
@[simp] theorem modMf_sram (s : State) (f : MediaFront → MediaFront) : (s.modMf f).sram = s.sram := rfl
@[simp] theorem modMf_sramReserved (s : State) (f : MediaFront → MediaFront) : (s.modMf f).sramReserved = s.sramReserved := rfl
@[simp] theorem modMf_valid (s : State) (f : MediaFront → MediaFront) : (s.modMf f).valid = s.valid := rfl
@[simp] theorem modMf_devErrors (s : State) (f : MediaFront → MediaFront) : (s.modMf f).devErrors = s.devErrors := rfl
@[simp] theorem modMf_devRemap (s : State) (f : MediaFront → MediaFront) : (s.modMf f).devRemap = s.devRemap := rfl
@[simp] theorem modMf_devCopying (s : State) (f : MediaFront → MediaFront) : (s.modMf f).devCopying = s.devCopying := rfl
@[simp] theorem modMf_ownerLoss (s : State) (f : MediaFront → MediaFront) : (s.modMf f).ownerLoss = s.ownerLoss := rfl
@[simp] theorem modMf_dma (s : State) (f : MediaFront → MediaFront) : (s.modMf f).dma = s.dma := rfl
@[simp] theorem modMf_engines (s : State) (f : MediaFront → MediaFront) : (s.modMf f).engines = s.engines := rfl
@[simp] theorem modMf_pmu (s : State) (f : MediaFront → MediaFront) : (s.modMf f).pmu = s.pmu := rfl
@[simp] theorem modMf_snap (s : State) (f : MediaFront → MediaFront) : (s.modMf f).snap = s.snap := rfl
@[simp] theorem modMf_samples (s : State) (f : MediaFront → MediaFront) : (s.modMf f).samples = s.samples := rfl
@[simp] theorem modMf_store (s : State) (f : MediaFront → MediaFront) : (s.modMf f).store = s.store := rfl
@[simp] theorem modMf_boot (s : State) (f : MediaFront → MediaFront) : (s.modMf f).boot = s.boot := rfl
@[simp] theorem modMf_fw (s : State) (f : MediaFront → MediaFront) : (s.modMf f).fw = s.fw := rfl
@[simp] theorem modMf_aon (s : State) (f : MediaFront → MediaFront) : (s.modMf f).aon = s.aon := rfl
@[simp] theorem modMf_sweepActive (s : State) (f : MediaFront → MediaFront) : (s.modMf f).sweepActive = s.sweepActive := rfl
@[simp] theorem modMf_sweepDue (s : State) (f : MediaFront → MediaFront) : (s.modMf f).sweepDue = s.sweepDue := rfl
@[simp] theorem modMf_sweepUs (s : State) (f : MediaFront → MediaFront) : (s.modMf f).sweepUs = s.sweepUs := rfl
@[simp] theorem modMf_urgentSet (s : State) (f : MediaFront → MediaFront) : (s.modMf f).urgentSet = s.urgentSet := rfl
@[simp] theorem modMf_scrubStripe (s : State) (f : MediaFront → MediaFront) : (s.modMf f).scrubStripe = s.scrubStripe := rfl
@[simp] theorem modMf_scrubSecond (s : State) (f : MediaFront → MediaFront) : (s.modMf f).scrubSecond = s.scrubSecond := rfl
@[simp] theorem modMf_scrubVisits (s : State) (f : MediaFront → MediaFront) : (s.modMf f).scrubVisits = s.scrubVisits := rfl
@[simp] theorem modMf_scrubWord (s : State) (f : MediaFront → MediaFront) : (s.modMf f).scrubWord = s.scrubWord := rfl
@[simp] theorem modMf_out (s : State) (f : MediaFront → MediaFront) : (s.modMf f).out = s.out := rfl
@[simp] theorem modMf_nextId (s : State) (f : MediaFront → MediaFront) : (s.modMf f).nextId = s.nextId := rfl
@[simp] theorem modMf_freeTick (s : State) (f : MediaFront → MediaFront) : (s.modMf f).freeTick = s.freeTick := rfl
@[simp] theorem modMf_reg (s : State) (f : MediaFront → MediaFront) (i : Nat) : (s.modMf f).reg i = s.reg i := rfl
@[simp] theorem modMf_rd (s : State) (f : MediaFront → MediaFront) (g : Fld) : (s.modMf f).rd g = s.rd g := rfl
@[simp] theorem modMf_on (s : State) (f : MediaFront → MediaFront) (g : Fld) : (s.modMf f).on g = s.on g := rfl
@[simp] theorem modMf_mode (s : State) (f : MediaFront → MediaFront) : (s.modMf f).mode = s.mode := rfl
@[simp] theorem modMf_sl (s : State) (f : MediaFront → MediaFront) (r : PhysSlice) : (s.modMf f).sl r = s.sl r := rfl
@[simp] theorem modMf_port (s : State) (f : MediaFront → MediaFront) (r : HostId) : (s.modMf f).port r = s.port r := rfl
@[simp] theorem modMf_pq (s : State) (f : MediaFront → MediaFront) (r : Nat) : (s.modMf f).pq r = s.pq r := rfl
@[simp] theorem modMf_cnt (s : State) (f : MediaFront → MediaFront) (r t : Nat) : (s.modMf f).cnt r t = s.cnt r t := rfl
@[simp] theorem modMf_now (s : State) (f : MediaFront → MediaFront) : (s.modMf f).now = s.now := rfl

/-! ### modAon -/

@[simp] theorem modAon_pending (s : State) (f : AlwaysOn → AlwaysOn) : (s.modAon f).pending = s.pending := rfl
@[simp] theorem modAon_regs (s : State) (f : AlwaysOn → AlwaysOn) : (s.modAon f).regs = s.regs := rfl
@[simp] theorem modAon_ports (s : State) (f : AlwaysOn → AlwaysOn) : (s.modAon f).ports = s.ports := rfl
@[simp] theorem modAon_slices (s : State) (f : AlwaysOn → AlwaysOn) : (s.modAon f).slices = s.slices := rfl
@[simp] theorem modAon_fabric (s : State) (f : AlwaysOn → AlwaysOn) : (s.modAon f).fabric = s.fabric := rfl
@[simp] theorem modAon_iaPark (s : State) (f : AlwaysOn → AlwaysOn) : (s.modAon f).iaPark = s.iaPark := rfl
@[simp] theorem modAon_iaIngress (s : State) (f : AlwaysOn → AlwaysOn) : (s.modAon f).iaIngress = s.iaIngress := rfl
@[simp] theorem modAon_iaHeld (s : State) (f : AlwaysOn → AlwaysOn) : (s.modAon f).iaHeld = s.iaHeld := rfl
@[simp] theorem modAon_iaLastViolation (s : State) (f : AlwaysOn → AlwaysOn) : (s.modAon f).iaLastViolation = s.iaLastViolation := rfl
@[simp] theorem modAon_mf (s : State) (f : AlwaysOn → AlwaysOn) : (s.modAon f).mf = s.mf := rfl
@[simp] theorem modAon_media (s : State) (f : AlwaysOn → AlwaysOn) : (s.modAon f).media = s.media := rfl
@[simp] theorem modAon_counters (s : State) (f : AlwaysOn → AlwaysOn) : (s.modAon f).counters = s.counters := rfl
@[simp] theorem modAon_history (s : State) (f : AlwaysOn → AlwaysOn) : (s.modAon f).history = s.history := rfl
@[simp] theorem modAon_minors (s : State) (f : AlwaysOn → AlwaysOn) : (s.modAon f).minors = s.minors := rfl
@[simp] theorem modAon_queues (s : State) (f : AlwaysOn → AlwaysOn) : (s.modAon f).queues = s.queues := rfl
@[simp] theorem modAon_mbxP (s : State) (f : AlwaysOn → AlwaysOn) : (s.modAon f).mbxP = s.mbxP := rfl
@[simp] theorem modAon_mbxS (s : State) (f : AlwaysOn → AlwaysOn) : (s.modAon f).mbxS = s.mbxS := rfl
@[simp] theorem modAon_cores (s : State) (f : AlwaysOn → AlwaysOn) : (s.modAon f).cores = s.cores := rfl
@[simp] theorem modAon_sram (s : State) (f : AlwaysOn → AlwaysOn) : (s.modAon f).sram = s.sram := rfl
@[simp] theorem modAon_sramReserved (s : State) (f : AlwaysOn → AlwaysOn) : (s.modAon f).sramReserved = s.sramReserved := rfl
@[simp] theorem modAon_valid (s : State) (f : AlwaysOn → AlwaysOn) : (s.modAon f).valid = s.valid := rfl
@[simp] theorem modAon_devErrors (s : State) (f : AlwaysOn → AlwaysOn) : (s.modAon f).devErrors = s.devErrors := rfl
@[simp] theorem modAon_devRemap (s : State) (f : AlwaysOn → AlwaysOn) : (s.modAon f).devRemap = s.devRemap := rfl
@[simp] theorem modAon_devCopying (s : State) (f : AlwaysOn → AlwaysOn) : (s.modAon f).devCopying = s.devCopying := rfl
@[simp] theorem modAon_ownerLoss (s : State) (f : AlwaysOn → AlwaysOn) : (s.modAon f).ownerLoss = s.ownerLoss := rfl
@[simp] theorem modAon_dma (s : State) (f : AlwaysOn → AlwaysOn) : (s.modAon f).dma = s.dma := rfl
@[simp] theorem modAon_engines (s : State) (f : AlwaysOn → AlwaysOn) : (s.modAon f).engines = s.engines := rfl
@[simp] theorem modAon_pmu (s : State) (f : AlwaysOn → AlwaysOn) : (s.modAon f).pmu = s.pmu := rfl
@[simp] theorem modAon_snap (s : State) (f : AlwaysOn → AlwaysOn) : (s.modAon f).snap = s.snap := rfl
@[simp] theorem modAon_samples (s : State) (f : AlwaysOn → AlwaysOn) : (s.modAon f).samples = s.samples := rfl
@[simp] theorem modAon_store (s : State) (f : AlwaysOn → AlwaysOn) : (s.modAon f).store = s.store := rfl
@[simp] theorem modAon_boot (s : State) (f : AlwaysOn → AlwaysOn) : (s.modAon f).boot = s.boot := rfl
@[simp] theorem modAon_fw (s : State) (f : AlwaysOn → AlwaysOn) : (s.modAon f).fw = s.fw := rfl
@[simp] theorem modAon_aon (s : State) (f : AlwaysOn → AlwaysOn) : (s.modAon f).aon = f s.aon := rfl
@[simp] theorem modAon_sweepActive (s : State) (f : AlwaysOn → AlwaysOn) : (s.modAon f).sweepActive = s.sweepActive := rfl
@[simp] theorem modAon_sweepDue (s : State) (f : AlwaysOn → AlwaysOn) : (s.modAon f).sweepDue = s.sweepDue := rfl
@[simp] theorem modAon_sweepUs (s : State) (f : AlwaysOn → AlwaysOn) : (s.modAon f).sweepUs = s.sweepUs := rfl
@[simp] theorem modAon_urgentSet (s : State) (f : AlwaysOn → AlwaysOn) : (s.modAon f).urgentSet = s.urgentSet := rfl
@[simp] theorem modAon_scrubStripe (s : State) (f : AlwaysOn → AlwaysOn) : (s.modAon f).scrubStripe = s.scrubStripe := rfl
@[simp] theorem modAon_scrubSecond (s : State) (f : AlwaysOn → AlwaysOn) : (s.modAon f).scrubSecond = s.scrubSecond := rfl
@[simp] theorem modAon_scrubVisits (s : State) (f : AlwaysOn → AlwaysOn) : (s.modAon f).scrubVisits = s.scrubVisits := rfl
@[simp] theorem modAon_scrubWord (s : State) (f : AlwaysOn → AlwaysOn) : (s.modAon f).scrubWord = s.scrubWord := rfl
@[simp] theorem modAon_out (s : State) (f : AlwaysOn → AlwaysOn) : (s.modAon f).out = s.out := rfl
@[simp] theorem modAon_nextId (s : State) (f : AlwaysOn → AlwaysOn) : (s.modAon f).nextId = s.nextId := rfl
@[simp] theorem modAon_freeTick (s : State) (f : AlwaysOn → AlwaysOn) : (s.modAon f).freeTick = s.freeTick := rfl
@[simp] theorem modAon_reg (s : State) (f : AlwaysOn → AlwaysOn) (i : Nat) : (s.modAon f).reg i = s.reg i := rfl
@[simp] theorem modAon_rd (s : State) (f : AlwaysOn → AlwaysOn) (g : Fld) : (s.modAon f).rd g = s.rd g := rfl
@[simp] theorem modAon_on (s : State) (f : AlwaysOn → AlwaysOn) (g : Fld) : (s.modAon f).on g = s.on g := rfl
@[simp] theorem modAon_mode (s : State) (f : AlwaysOn → AlwaysOn) : (s.modAon f).mode = s.mode := rfl
@[simp] theorem modAon_sl (s : State) (f : AlwaysOn → AlwaysOn) (r : PhysSlice) : (s.modAon f).sl r = s.sl r := rfl
@[simp] theorem modAon_port (s : State) (f : AlwaysOn → AlwaysOn) (r : HostId) : (s.modAon f).port r = s.port r := rfl
@[simp] theorem modAon_pq (s : State) (f : AlwaysOn → AlwaysOn) (r : Nat) : (s.modAon f).pq r = s.pq r := rfl
@[simp] theorem modAon_cnt (s : State) (f : AlwaysOn → AlwaysOn) (r t : Nat) : (s.modAon f).cnt r t = s.cnt r t := rfl

/-! ### modPq -/

@[simp] theorem modPq_pending (s : State) (q : Nat) (f : PodQueue → PodQueue) : (s.modPq q f).pending = s.pending := rfl
@[simp] theorem modPq_regs (s : State) (q : Nat) (f : PodQueue → PodQueue) : (s.modPq q f).regs = s.regs := rfl
@[simp] theorem modPq_ports (s : State) (q : Nat) (f : PodQueue → PodQueue) : (s.modPq q f).ports = s.ports := rfl
@[simp] theorem modPq_slices (s : State) (q : Nat) (f : PodQueue → PodQueue) : (s.modPq q f).slices = s.slices := rfl
@[simp] theorem modPq_fabric (s : State) (q : Nat) (f : PodQueue → PodQueue) : (s.modPq q f).fabric = s.fabric := rfl
@[simp] theorem modPq_iaPark (s : State) (q : Nat) (f : PodQueue → PodQueue) : (s.modPq q f).iaPark = s.iaPark := rfl
@[simp] theorem modPq_iaIngress (s : State) (q : Nat) (f : PodQueue → PodQueue) : (s.modPq q f).iaIngress = s.iaIngress := rfl
@[simp] theorem modPq_iaHeld (s : State) (q : Nat) (f : PodQueue → PodQueue) : (s.modPq q f).iaHeld = s.iaHeld := rfl
@[simp] theorem modPq_iaLastViolation (s : State) (q : Nat) (f : PodQueue → PodQueue) : (s.modPq q f).iaLastViolation = s.iaLastViolation := rfl
@[simp] theorem modPq_mf (s : State) (q : Nat) (f : PodQueue → PodQueue) : (s.modPq q f).mf = s.mf := rfl
@[simp] theorem modPq_media (s : State) (q : Nat) (f : PodQueue → PodQueue) : (s.modPq q f).media = s.media := rfl
@[simp] theorem modPq_counters (s : State) (q : Nat) (f : PodQueue → PodQueue) : (s.modPq q f).counters = s.counters := rfl
@[simp] theorem modPq_history (s : State) (q : Nat) (f : PodQueue → PodQueue) : (s.modPq q f).history = s.history := rfl
@[simp] theorem modPq_minors (s : State) (q : Nat) (f : PodQueue → PodQueue) : (s.modPq q f).minors = s.minors := rfl
@[simp] theorem modPq_queues (s : State) (q : Nat) (f : PodQueue → PodQueue) : (s.modPq q f).queues = s.queues.put PodQueue.empty q (f (s.pq q)) := rfl
@[simp] theorem modPq_mbxP (s : State) (q : Nat) (f : PodQueue → PodQueue) : (s.modPq q f).mbxP = s.mbxP := rfl
@[simp] theorem modPq_mbxS (s : State) (q : Nat) (f : PodQueue → PodQueue) : (s.modPq q f).mbxS = s.mbxS := rfl
@[simp] theorem modPq_cores (s : State) (q : Nat) (f : PodQueue → PodQueue) : (s.modPq q f).cores = s.cores := rfl
@[simp] theorem modPq_sram (s : State) (q : Nat) (f : PodQueue → PodQueue) : (s.modPq q f).sram = s.sram := rfl
@[simp] theorem modPq_sramReserved (s : State) (q : Nat) (f : PodQueue → PodQueue) : (s.modPq q f).sramReserved = s.sramReserved := rfl
@[simp] theorem modPq_valid (s : State) (q : Nat) (f : PodQueue → PodQueue) : (s.modPq q f).valid = s.valid := rfl
@[simp] theorem modPq_devErrors (s : State) (q : Nat) (f : PodQueue → PodQueue) : (s.modPq q f).devErrors = s.devErrors := rfl
@[simp] theorem modPq_devRemap (s : State) (q : Nat) (f : PodQueue → PodQueue) : (s.modPq q f).devRemap = s.devRemap := rfl
@[simp] theorem modPq_devCopying (s : State) (q : Nat) (f : PodQueue → PodQueue) : (s.modPq q f).devCopying = s.devCopying := rfl
@[simp] theorem modPq_ownerLoss (s : State) (q : Nat) (f : PodQueue → PodQueue) : (s.modPq q f).ownerLoss = s.ownerLoss := rfl
@[simp] theorem modPq_dma (s : State) (q : Nat) (f : PodQueue → PodQueue) : (s.modPq q f).dma = s.dma := rfl
@[simp] theorem modPq_engines (s : State) (q : Nat) (f : PodQueue → PodQueue) : (s.modPq q f).engines = s.engines := rfl
@[simp] theorem modPq_pmu (s : State) (q : Nat) (f : PodQueue → PodQueue) : (s.modPq q f).pmu = s.pmu := rfl
@[simp] theorem modPq_snap (s : State) (q : Nat) (f : PodQueue → PodQueue) : (s.modPq q f).snap = s.snap := rfl
@[simp] theorem modPq_samples (s : State) (q : Nat) (f : PodQueue → PodQueue) : (s.modPq q f).samples = s.samples := rfl
@[simp] theorem modPq_store (s : State) (q : Nat) (f : PodQueue → PodQueue) : (s.modPq q f).store = s.store := rfl
@[simp] theorem modPq_boot (s : State) (q : Nat) (f : PodQueue → PodQueue) : (s.modPq q f).boot = s.boot := rfl
@[simp] theorem modPq_fw (s : State) (q : Nat) (f : PodQueue → PodQueue) : (s.modPq q f).fw = s.fw := rfl
@[simp] theorem modPq_aon (s : State) (q : Nat) (f : PodQueue → PodQueue) : (s.modPq q f).aon = s.aon := rfl
@[simp] theorem modPq_sweepActive (s : State) (q : Nat) (f : PodQueue → PodQueue) : (s.modPq q f).sweepActive = s.sweepActive := rfl
@[simp] theorem modPq_sweepDue (s : State) (q : Nat) (f : PodQueue → PodQueue) : (s.modPq q f).sweepDue = s.sweepDue := rfl
@[simp] theorem modPq_sweepUs (s : State) (q : Nat) (f : PodQueue → PodQueue) : (s.modPq q f).sweepUs = s.sweepUs := rfl
@[simp] theorem modPq_urgentSet (s : State) (q : Nat) (f : PodQueue → PodQueue) : (s.modPq q f).urgentSet = s.urgentSet := rfl
@[simp] theorem modPq_scrubStripe (s : State) (q : Nat) (f : PodQueue → PodQueue) : (s.modPq q f).scrubStripe = s.scrubStripe := rfl
@[simp] theorem modPq_scrubSecond (s : State) (q : Nat) (f : PodQueue → PodQueue) : (s.modPq q f).scrubSecond = s.scrubSecond := rfl
@[simp] theorem modPq_scrubVisits (s : State) (q : Nat) (f : PodQueue → PodQueue) : (s.modPq q f).scrubVisits = s.scrubVisits := rfl
@[simp] theorem modPq_scrubWord (s : State) (q : Nat) (f : PodQueue → PodQueue) : (s.modPq q f).scrubWord = s.scrubWord := rfl
@[simp] theorem modPq_out (s : State) (q : Nat) (f : PodQueue → PodQueue) : (s.modPq q f).out = s.out := rfl
@[simp] theorem modPq_nextId (s : State) (q : Nat) (f : PodQueue → PodQueue) : (s.modPq q f).nextId = s.nextId := rfl
@[simp] theorem modPq_freeTick (s : State) (q : Nat) (f : PodQueue → PodQueue) : (s.modPq q f).freeTick = s.freeTick := rfl
@[simp] theorem modPq_reg (s : State) (q : Nat) (f : PodQueue → PodQueue) (i : Nat) : (s.modPq q f).reg i = s.reg i := rfl
@[simp] theorem modPq_rd (s : State) (q : Nat) (f : PodQueue → PodQueue) (g : Fld) : (s.modPq q f).rd g = s.rd g := rfl
@[simp] theorem modPq_on (s : State) (q : Nat) (f : PodQueue → PodQueue) (g : Fld) : (s.modPq q f).on g = s.on g := rfl
@[simp] theorem modPq_mode (s : State) (q : Nat) (f : PodQueue → PodQueue) : (s.modPq q f).mode = s.mode := rfl
@[simp] theorem modPq_sl (s : State) (q : Nat) (f : PodQueue → PodQueue) (r : PhysSlice) : (s.modPq q f).sl r = s.sl r := rfl
@[simp] theorem modPq_port (s : State) (q : Nat) (f : PodQueue → PodQueue) (r : HostId) : (s.modPq q f).port r = s.port r := rfl
@[simp] theorem modPq_cnt (s : State) (q : Nat) (f : PodQueue → PodQueue) (r t : Nat) : (s.modPq q f).cnt r t = s.cnt r t := rfl
@[simp] theorem modPq_now (s : State) (q : Nat) (f : PodQueue → PodQueue) : (s.modPq q f).now = s.now := rfl

/-! ### sramWrite -/

@[simp] theorem sramWrite_pending (s : State) (a : Nat) (l : List Byte) : (s.sramWrite a l).pending = s.pending := rfl
@[simp] theorem sramWrite_regs (s : State) (a : Nat) (l : List Byte) : (s.sramWrite a l).regs = s.regs := rfl
@[simp] theorem sramWrite_ports (s : State) (a : Nat) (l : List Byte) : (s.sramWrite a l).ports = s.ports := rfl
@[simp] theorem sramWrite_slices (s : State) (a : Nat) (l : List Byte) : (s.sramWrite a l).slices = s.slices := rfl
@[simp] theorem sramWrite_fabric (s : State) (a : Nat) (l : List Byte) : (s.sramWrite a l).fabric = s.fabric := rfl
@[simp] theorem sramWrite_iaPark (s : State) (a : Nat) (l : List Byte) : (s.sramWrite a l).iaPark = s.iaPark := rfl
@[simp] theorem sramWrite_iaIngress (s : State) (a : Nat) (l : List Byte) : (s.sramWrite a l).iaIngress = s.iaIngress := rfl
@[simp] theorem sramWrite_iaHeld (s : State) (a : Nat) (l : List Byte) : (s.sramWrite a l).iaHeld = s.iaHeld := rfl
@[simp] theorem sramWrite_iaLastViolation (s : State) (a : Nat) (l : List Byte) : (s.sramWrite a l).iaLastViolation = s.iaLastViolation := rfl
@[simp] theorem sramWrite_mf (s : State) (a : Nat) (l : List Byte) : (s.sramWrite a l).mf = s.mf := rfl
@[simp] theorem sramWrite_media (s : State) (a : Nat) (l : List Byte) : (s.sramWrite a l).media = s.media := rfl
@[simp] theorem sramWrite_counters (s : State) (a : Nat) (l : List Byte) : (s.sramWrite a l).counters = s.counters := rfl
@[simp] theorem sramWrite_history (s : State) (a : Nat) (l : List Byte) : (s.sramWrite a l).history = s.history := rfl
@[simp] theorem sramWrite_minors (s : State) (a : Nat) (l : List Byte) : (s.sramWrite a l).minors = s.minors := rfl
@[simp] theorem sramWrite_queues (s : State) (a : Nat) (l : List Byte) : (s.sramWrite a l).queues = s.queues := rfl
@[simp] theorem sramWrite_mbxP (s : State) (a : Nat) (l : List Byte) : (s.sramWrite a l).mbxP = s.mbxP := rfl
@[simp] theorem sramWrite_mbxS (s : State) (a : Nat) (l : List Byte) : (s.sramWrite a l).mbxS = s.mbxS := rfl
@[simp] theorem sramWrite_cores (s : State) (a : Nat) (l : List Byte) : (s.sramWrite a l).cores = s.cores := rfl
@[simp] theorem sramWrite_sramReserved (s : State) (a : Nat) (l : List Byte) : (s.sramWrite a l).sramReserved = s.sramReserved := rfl
@[simp] theorem sramWrite_valid (s : State) (a : Nat) (l : List Byte) : (s.sramWrite a l).valid = s.valid := rfl
@[simp] theorem sramWrite_devErrors (s : State) (a : Nat) (l : List Byte) : (s.sramWrite a l).devErrors = s.devErrors := rfl
@[simp] theorem sramWrite_devRemap (s : State) (a : Nat) (l : List Byte) : (s.sramWrite a l).devRemap = s.devRemap := rfl
@[simp] theorem sramWrite_devCopying (s : State) (a : Nat) (l : List Byte) : (s.sramWrite a l).devCopying = s.devCopying := rfl
@[simp] theorem sramWrite_ownerLoss (s : State) (a : Nat) (l : List Byte) : (s.sramWrite a l).ownerLoss = s.ownerLoss := rfl
@[simp] theorem sramWrite_dma (s : State) (a : Nat) (l : List Byte) : (s.sramWrite a l).dma = s.dma := rfl
@[simp] theorem sramWrite_engines (s : State) (a : Nat) (l : List Byte) : (s.sramWrite a l).engines = s.engines := rfl
@[simp] theorem sramWrite_pmu (s : State) (a : Nat) (l : List Byte) : (s.sramWrite a l).pmu = s.pmu := rfl
@[simp] theorem sramWrite_snap (s : State) (a : Nat) (l : List Byte) : (s.sramWrite a l).snap = s.snap := rfl
@[simp] theorem sramWrite_samples (s : State) (a : Nat) (l : List Byte) : (s.sramWrite a l).samples = s.samples := rfl
@[simp] theorem sramWrite_store (s : State) (a : Nat) (l : List Byte) : (s.sramWrite a l).store = s.store := rfl
@[simp] theorem sramWrite_boot (s : State) (a : Nat) (l : List Byte) : (s.sramWrite a l).boot = s.boot := rfl
@[simp] theorem sramWrite_fw (s : State) (a : Nat) (l : List Byte) : (s.sramWrite a l).fw = s.fw := rfl
@[simp] theorem sramWrite_aon (s : State) (a : Nat) (l : List Byte) : (s.sramWrite a l).aon = s.aon := rfl
@[simp] theorem sramWrite_sweepActive (s : State) (a : Nat) (l : List Byte) : (s.sramWrite a l).sweepActive = s.sweepActive := rfl
@[simp] theorem sramWrite_sweepDue (s : State) (a : Nat) (l : List Byte) : (s.sramWrite a l).sweepDue = s.sweepDue := rfl
@[simp] theorem sramWrite_sweepUs (s : State) (a : Nat) (l : List Byte) : (s.sramWrite a l).sweepUs = s.sweepUs := rfl
@[simp] theorem sramWrite_urgentSet (s : State) (a : Nat) (l : List Byte) : (s.sramWrite a l).urgentSet = s.urgentSet := rfl
@[simp] theorem sramWrite_scrubStripe (s : State) (a : Nat) (l : List Byte) : (s.sramWrite a l).scrubStripe = s.scrubStripe := rfl
@[simp] theorem sramWrite_scrubSecond (s : State) (a : Nat) (l : List Byte) : (s.sramWrite a l).scrubSecond = s.scrubSecond := rfl
@[simp] theorem sramWrite_scrubVisits (s : State) (a : Nat) (l : List Byte) : (s.sramWrite a l).scrubVisits = s.scrubVisits := rfl
@[simp] theorem sramWrite_scrubWord (s : State) (a : Nat) (l : List Byte) : (s.sramWrite a l).scrubWord = s.scrubWord := rfl
@[simp] theorem sramWrite_out (s : State) (a : Nat) (l : List Byte) : (s.sramWrite a l).out = s.out := rfl
@[simp] theorem sramWrite_nextId (s : State) (a : Nat) (l : List Byte) : (s.sramWrite a l).nextId = s.nextId := rfl
@[simp] theorem sramWrite_freeTick (s : State) (a : Nat) (l : List Byte) : (s.sramWrite a l).freeTick = s.freeTick := rfl
@[simp] theorem sramWrite_reg (s : State) (a : Nat) (l : List Byte) (i : Nat) : (s.sramWrite a l).reg i = s.reg i := rfl
@[simp] theorem sramWrite_rd (s : State) (a : Nat) (l : List Byte) (g : Fld) : (s.sramWrite a l).rd g = s.rd g := rfl
@[simp] theorem sramWrite_on (s : State) (a : Nat) (l : List Byte) (g : Fld) : (s.sramWrite a l).on g = s.on g := rfl
@[simp] theorem sramWrite_mode (s : State) (a : Nat) (l : List Byte) : (s.sramWrite a l).mode = s.mode := rfl
@[simp] theorem sramWrite_sl (s : State) (a : Nat) (l : List Byte) (r : PhysSlice) : (s.sramWrite a l).sl r = s.sl r := rfl
@[simp] theorem sramWrite_port (s : State) (a : Nat) (l : List Byte) (r : HostId) : (s.sramWrite a l).port r = s.port r := rfl
@[simp] theorem sramWrite_pq (s : State) (a : Nat) (l : List Byte) (r : Nat) : (s.sramWrite a l).pq r = s.pq r := rfl
@[simp] theorem sramWrite_cnt (s : State) (a : Nat) (l : List Byte) (r t : Nat) : (s.sramWrite a l).cnt r t = s.cnt r t := rfl
@[simp] theorem sramWrite_now (s : State) (a : Nat) (l : List Byte) : (s.sramWrite a l).now = s.now := rfl

/-! ### withPending -/

@[simp] theorem withPending_pending (s : State) (q : List Instr) : (s.withPending q).pending = q := rfl
@[simp] theorem withPending_regs (s : State) (q : List Instr) : (s.withPending q).regs = s.regs := rfl
@[simp] theorem withPending_ports (s : State) (q : List Instr) : (s.withPending q).ports = s.ports := rfl
@[simp] theorem withPending_slices (s : State) (q : List Instr) : (s.withPending q).slices = s.slices := rfl
@[simp] theorem withPending_fabric (s : State) (q : List Instr) : (s.withPending q).fabric = s.fabric := rfl
@[simp] theorem withPending_iaPark (s : State) (q : List Instr) : (s.withPending q).iaPark = s.iaPark := rfl
@[simp] theorem withPending_iaIngress (s : State) (q : List Instr) : (s.withPending q).iaIngress = s.iaIngress := rfl
@[simp] theorem withPending_iaHeld (s : State) (q : List Instr) : (s.withPending q).iaHeld = s.iaHeld := rfl
@[simp] theorem withPending_iaLastViolation (s : State) (q : List Instr) : (s.withPending q).iaLastViolation = s.iaLastViolation := rfl
@[simp] theorem withPending_mf (s : State) (q : List Instr) : (s.withPending q).mf = s.mf := rfl
@[simp] theorem withPending_media (s : State) (q : List Instr) : (s.withPending q).media = s.media := rfl
@[simp] theorem withPending_counters (s : State) (q : List Instr) : (s.withPending q).counters = s.counters := rfl
@[simp] theorem withPending_history (s : State) (q : List Instr) : (s.withPending q).history = s.history := rfl
@[simp] theorem withPending_minors (s : State) (q : List Instr) : (s.withPending q).minors = s.minors := rfl
@[simp] theorem withPending_queues (s : State) (q : List Instr) : (s.withPending q).queues = s.queues := rfl
@[simp] theorem withPending_mbxP (s : State) (q : List Instr) : (s.withPending q).mbxP = s.mbxP := rfl
@[simp] theorem withPending_mbxS (s : State) (q : List Instr) : (s.withPending q).mbxS = s.mbxS := rfl
@[simp] theorem withPending_cores (s : State) (q : List Instr) : (s.withPending q).cores = s.cores := rfl
@[simp] theorem withPending_sram (s : State) (q : List Instr) : (s.withPending q).sram = s.sram := rfl
@[simp] theorem withPending_sramReserved (s : State) (q : List Instr) : (s.withPending q).sramReserved = s.sramReserved := rfl
@[simp] theorem withPending_valid (s : State) (q : List Instr) : (s.withPending q).valid = s.valid := rfl
@[simp] theorem withPending_devErrors (s : State) (q : List Instr) : (s.withPending q).devErrors = s.devErrors := rfl
@[simp] theorem withPending_devRemap (s : State) (q : List Instr) : (s.withPending q).devRemap = s.devRemap := rfl
@[simp] theorem withPending_devCopying (s : State) (q : List Instr) : (s.withPending q).devCopying = s.devCopying := rfl
@[simp] theorem withPending_ownerLoss (s : State) (q : List Instr) : (s.withPending q).ownerLoss = s.ownerLoss := rfl
@[simp] theorem withPending_dma (s : State) (q : List Instr) : (s.withPending q).dma = s.dma := rfl
@[simp] theorem withPending_engines (s : State) (q : List Instr) : (s.withPending q).engines = s.engines := rfl
@[simp] theorem withPending_pmu (s : State) (q : List Instr) : (s.withPending q).pmu = s.pmu := rfl
@[simp] theorem withPending_snap (s : State) (q : List Instr) : (s.withPending q).snap = s.snap := rfl
@[simp] theorem withPending_samples (s : State) (q : List Instr) : (s.withPending q).samples = s.samples := rfl
@[simp] theorem withPending_store (s : State) (q : List Instr) : (s.withPending q).store = s.store := rfl
@[simp] theorem withPending_boot (s : State) (q : List Instr) : (s.withPending q).boot = s.boot := rfl
@[simp] theorem withPending_fw (s : State) (q : List Instr) : (s.withPending q).fw = s.fw := rfl
@[simp] theorem withPending_aon (s : State) (q : List Instr) : (s.withPending q).aon = s.aon := rfl
@[simp] theorem withPending_sweepActive (s : State) (q : List Instr) : (s.withPending q).sweepActive = s.sweepActive := rfl
@[simp] theorem withPending_sweepDue (s : State) (q : List Instr) : (s.withPending q).sweepDue = s.sweepDue := rfl
@[simp] theorem withPending_sweepUs (s : State) (q : List Instr) : (s.withPending q).sweepUs = s.sweepUs := rfl
@[simp] theorem withPending_urgentSet (s : State) (q : List Instr) : (s.withPending q).urgentSet = s.urgentSet := rfl
@[simp] theorem withPending_scrubStripe (s : State) (q : List Instr) : (s.withPending q).scrubStripe = s.scrubStripe := rfl
@[simp] theorem withPending_scrubSecond (s : State) (q : List Instr) : (s.withPending q).scrubSecond = s.scrubSecond := rfl
@[simp] theorem withPending_scrubVisits (s : State) (q : List Instr) : (s.withPending q).scrubVisits = s.scrubVisits := rfl
@[simp] theorem withPending_scrubWord (s : State) (q : List Instr) : (s.withPending q).scrubWord = s.scrubWord := rfl
@[simp] theorem withPending_out (s : State) (q : List Instr) : (s.withPending q).out = s.out := rfl
@[simp] theorem withPending_nextId (s : State) (q : List Instr) : (s.withPending q).nextId = s.nextId := rfl
@[simp] theorem withPending_freeTick (s : State) (q : List Instr) : (s.withPending q).freeTick = s.freeTick := rfl
@[simp] theorem withPending_reg (s : State) (q : List Instr) (i : Nat) : (s.withPending q).reg i = s.reg i := rfl
@[simp] theorem withPending_rd (s : State) (q : List Instr) (g : Fld) : (s.withPending q).rd g = s.rd g := rfl
@[simp] theorem withPending_on (s : State) (q : List Instr) (g : Fld) : (s.withPending q).on g = s.on g := rfl
@[simp] theorem withPending_mode (s : State) (q : List Instr) : (s.withPending q).mode = s.mode := rfl
@[simp] theorem withPending_sl (s : State) (q : List Instr) (r : PhysSlice) : (s.withPending q).sl r = s.sl r := rfl
@[simp] theorem withPending_port (s : State) (q : List Instr) (r : HostId) : (s.withPending q).port r = s.port r := rfl
@[simp] theorem withPending_pq (s : State) (q : List Instr) (r : Nat) : (s.withPending q).pq r = s.pq r := rfl
@[simp] theorem withPending_cnt (s : State) (q : List Instr) (r t : Nat) : (s.withPending q).cnt r t = s.cnt r t := rfl
@[simp] theorem withPending_now (s : State) (q : List Instr) : (s.withPending q).now = s.now := rfl

end State

end Sys2Proof.Machine
end

