-- ==== Sys2Proof/Laws/Notices.lean ====
section
/-! SUPPORT. What a notice, a write into a pod queue and the fault collector can do: a write into a queue touches the queues, their
registers and the interrupts that go out, and nothing else. -/

set_option Elab.async false

namespace Sys2Proof.Machine

/-- Between the two states only the pod queues, the registers of the PQ windows and the boundary log differ. -/
def QueueWork (s t : State) : Prop :=
  t = { s with regs := t.regs, queues := t.queues, out := t.out } ∧
    ∀ off, off < 0x58000 ∨ 0x5CC00 ≤ off → t.reg off = s.reg off

theorem QueueWork.refl (s : State) : QueueWork s s := ⟨rfl, fun _ _ => rfl⟩

theorem QueueWork.trans {s t u : State} (h : QueueWork s t) (k : QueueWork t u) : QueueWork s u := by
  obtain ⟨h1, h2⟩ := h
  obtain ⟨k1, k2⟩ := k
  refine ⟨?_, fun o ho => (k2 o ho).trans (h2 o ho)⟩
  rw [k1, h1]

theorem QueueWork.wr {s t : State} (h : QueueWork s t) (f : Fld) (x : Nat)
    (hf : 0x58000 ≤ f.off ∧ f.off < 0x5CC00) : QueueWork s (t.wr f x) := by
  refine h.trans ⟨rfl, fun o ho => ?_⟩
  exact State.reg_wr_ne _ _ _ (by omega)

theorem QueueWork.inc {s t : State} (h : QueueWork s t) (f : Fld) (x : Nat)
    (hf : 0x58000 ≤ f.off ∧ f.off < 0x5CC00) : QueueWork s (t.inc f x) :=
  h.wr f _ hf

theorem QueueWork.emit {s t : State} (h : QueueWork s t) (o : Out) : QueueWork s (t.emit o) := h.trans ⟨rfl, fun _ _ => rfl⟩

theorem QueueWork.modPq {s t : State} (h : QueueWork s t) (q : Nat) (f : PodQueue → PodQueue) : QueueWork s (t.modPq q f) :=
  h.trans ⟨rfl, fun _ _ => rfl⟩

theorem QueueWork.interrupt {s t : State} (h : QueueWork s t) (q : Nat) : QueueWork s (t.pqInterrupt q) := by
  unfold State.pqInterrupt
  split
  · exact h.emit _
  · exact h

theorem QueueWork.level {s t : State} (h : QueueWork s t) (q n : Nat) (hq : q < 76) : QueueWork s (t.pqLevel q n) := by
  unfold State.pqLevel
  extract_lets l
  split
  · exact (h.wr _ _ (by simp only [PQ_STATUS.LEVEL_HIT, PQ_STATUS.reg]; omega)).interrupt _
  · exact h

theorem QueueWork.swap {s t : State} (h : QueueWork s t) (q : Nat) (hq : q < 76) : QueueWork s (t.pqSwap q) := by
  unfold State.pqSwap
  extract_lets x
  split
  · exact (h.modPq _ _).wr _ _ (by simp only [PQ_STATUS.FILL_BANK, PQ_STATUS.reg]; omega)
  · exact h

/-- A write into a queue. -/
theorem QueueWork.pqWrite {s t : State} (h : QueueWork s t) (q : Nat) (l : List PqItem) (hq : q < 76) : QueueWork s (t.pqWrite q l) := by
  unfold State.pqWrite
  extract_lets n s' x
  have hs : QueueWork s s' := by
    show QueueWork s (if _ then _ else _)
    split
    · exact h.swap _ hq
    · exact h
  split
  · exact ((hs.wr _ _ (by simp only [PQ_STATUS.OVERRUN, PQ_STATUS.reg]; omega)).inc _ _
      (by simp only [PQ_STATUS.OVERRUN_COUNT, PQ_STATUS.reg]; omega)).interrupt _
  · exact (hs.modPq _ _).level _ _ hq

/-- A notice. -/
theorem QueueWork.notice {s t : State} (h : QueueWork s t) (k typ prio src info payload : Nat) (more : List Native) (hk : k < 6) :
    QueueWork s (t.notice k typ prio src info payload more) := by
  unfold State.notice
  exact h.pqWrite _ _ (by omega)

/-- A queue's interrupt, which for a crossing is a notice (13 R404). -/
theorem QueueWork.queueInterrupt {s t : State} (h : QueueWork s t) (q : Nat) : QueueWork s (t.queueInterrupt q) := by
  unfold State.queueInterrupt
  split
  · exact h.interrupt q
  · split
    · exact h.notice _ _ _ _ _ _ _ (by omega)
    · exact h

/-- A crossing's occupancy rises through its level (13 R404). -/
theorem QueueWork.crossRise {s t : State} (h : QueueWork s t) (q before : Nat) (hq : q < 76) : QueueWork s (t.crossRise q before) := by
  unfold State.crossRise
  extract_lets l
  split
  · exact (h.wr _ _ (by simp only [PQ_STATUS.LEVEL_HIT, PQ_STATUS.reg]; omega)).queueInterrupt q
  · exact h

end Sys2Proof.Machine
end

