-- ==== Sys2Proof/Laws/Faults.lean ====
section
/-! SUPPORT. What the fault collector's recording of an event can do: a minor event, a major one and a fatal declaration touch the
collector's registers and history, its notices, and, where a severe record ends DORMANT, the mode sequence; nothing else. -/

set_option Elab.async false

namespace Sys2Proof.Machine

/-- What a recorded event leaves as it was. `dormantWays` alone of a slice may change. -/
structure FaultWork (s t : State) : Prop where
  rest : t = { s with
    regs := t.regs, queues := t.queues, out := t.out, history := t.history, minors := t.minors, fw := t.fw, aon := t.aon,
    slices := t.slices }
  regs : ∀ off, off ≠ GLB_MODE.reg → off < 0x50000 ∨ 0x51000 ≤ off ∧ off < 0x58000 ∨ 0x5CC00 ≤ off → t.reg off = s.reg off
  mode : t.mode = s.mode
  fw : t.fw = { s.fw with arrayEvents := t.fw.arrayEvents }
  time : t.aon.time = s.aon.time
  slice : ∀ p, t.sl p = { s.sl p with dormantWays := (t.sl p).dormantWays }

theorem FaultWork.refl (s : State) : FaultWork s s := ⟨rfl, fun _ _ _ => rfl, rfl, rfl, rfl, fun _ => rfl⟩

theorem FaultWork.trans {s t u : State} (h : FaultWork s t) (k : FaultWork t u) : FaultWork s u := by
  refine ⟨?_, fun o a b => (k.regs o a b).trans (h.regs o a b), k.mode.trans h.mode, ?_, k.time.trans h.time, fun p => ?_⟩
  · rw [k.rest, h.rest]
  · rw [k.fw, h.fw]
  · rw [k.slice p, h.slice p]

/-- A write of a register of the fault collector. -/
theorem FaultWork.wr {s t : State} (h : FaultWork s t) (f : Fld) (x : Nat) (hf : 0x50000 ≤ f.off ∧ f.off < 0x51000) :
    FaultWork s (t.wr f x) := by
  refine h.trans ⟨rfl, fun o _ b => State.reg_wr_ne _ _ _ (by omega), ?_, rfl, rfl, fun _ => rfl⟩
  show (t.wr f x).rd GLB_MODE.MODE = t.rd GLB_MODE.MODE
  exact State.rd_wr_off _ _ _ _ (by simp only [GLB_MODE.MODE, GLB_MODE.reg]; omega)

theorem FaultWork.inc {s t : State} (h : FaultWork s t) (f : Fld) (x : Nat) (hf : 0x50000 ≤ f.off ∧ f.off < 0x51000) :
    FaultWork s (t.inc f x) := h.wr f _ hf

theorem FaultWork.setReg {s t : State} (h : FaultWork s t) (o : Nat) (v : Word) (hf : 0x50000 ≤ o ∧ o < 0x51000) :
    FaultWork s (t.setReg o v) := by
  refine h.trans ⟨rfl, fun i _ b => State.reg_setReg_ne _ _ (by omega), ?_, rfl, rfl, fun _ => rfl⟩
  show getBits ((t.setReg o v).reg GLB_MODE.reg) _ _ = _
  rw [State.reg_setReg_ne _ _ (by simp only [GLB_MODE.reg]; omega)]
  rfl

/-- A notice is part of it. -/
theorem FaultWork.queue {s t u : State} (h : FaultWork s t) (k : QueueWork t u) : FaultWork s u := by
  refine h.trans ⟨?_, fun o _ b => k.2 o (by omega), ?_, ?_, ?_, fun p => ?_⟩
  · rw [k.1]
  · show getBits (u.reg GLB_MODE.reg) _ _ = getBits (t.reg GLB_MODE.reg) _ _
    rw [k.2 _ (Or.inl (Nat.le_of_ble_eq_true rfl))]
  · rw [k.1]
  · rw [k.1]
  · rw [k.1]; rfl

theorem FaultWork.history {s t : State} (h : FaultWork s t) (i : Nat) (v : Native) :
    FaultWork s { t with history := t.history.put 0#128 i v } :=
  h.trans ⟨rfl, fun _ _ _ => rfl, rfl, rfl, rfl, fun _ => rfl⟩

theorem FaultWork.faultNotice {s t : State} (h : FaultWork s t) (i : Nat) : FaultWork s (t.faultNotice i) := by
  unfold State.faultNotice
  extract_lets r c p
  exact h.queue ((QueueWork.refl _).notice _ _ _ _ _ _ _ (by omega))

theorem FaultWork.ways {s t : State} (h : FaultWork s t) (l : List PhysSlice) :
    FaultWork s (l.foldl (fun s p => s.modSl p fun x => { x with dormantWays := false }) t) :=
  holds_of_foldl (fun u p k => k.trans ⟨rfl, fun _ _ _ => rfl, rfl, rfl, rfl, fun q => by by_cases e : q = p <;> simp [e]⟩) l t h

/-- A trigger of the exit from DORMANT is part of it. -/
theorem FaultWork.trigger {s t : State} (h : FaultWork s t) (c p : Nat) : FaultWork s (t.dormTrigger c p) := by
  have go (x : Nat) (f : AlwaysOn → AlwaysOn) (hf : ∀ a, (f a).time = a.time) : FaultWork t ((t.wr GLB_MODE.CHANGING x).modAon f) := by
    refine ⟨rfl, fun o a _ => ?_, ?_, rfl, hf _, fun _ => rfl⟩
    · show (t.wr GLB_MODE.CHANGING x).reg o = t.reg o
      exact State.reg_wr_ne _ _ _ a
    · show (t.wr GLB_MODE.CHANGING x).rd GLB_MODE.MODE = t.rd GLB_MODE.MODE
      exact State.rd_wr_disjoint _ _ _ _ (by decide)
  unfold State.dormTrigger
  extract_lets s1
  have h1 : FaultWork s s1 := h.trans (go _ _ fun _ => rfl)
  clear_value s1
  split
  · split
    · exact h.trans (go _ _ fun _ => rfl)
    · exact h
  · split
    · split
      · exact h1.ways _
      · exact h.trans ⟨rfl, fun _ _ _ => rfl, rfl, rfl, rfl, fun _ => rfl⟩
    · exact h

theorem FaultWork.stopPip {s t : State} (h : FaultWork s t) (c : Nat) : FaultWork s (t.stopPip c) := by
  unfold State.stopPip
  split
  · exact (h.wr _ _ (by decide)).wr _ _ (by decide)
  · exact h

theorem FaultWork.setMerged {s t : State} (h : FaultWork s t) (src : Nat) : FaultWork s (t.setMerged src) := by
  unfold State.setMerged
  split
  · exact h.setReg _ _ (by decide)
  · exact h.setReg _ _ (by decide)

/-- A record opened or merged. -/
theorem FaultWork.openRecord {s t : State} (h : FaultWork s t) (src cls : Nat) (perm : Bool) (info : BitVec 40) :
    FaultWork s (t.openRecord src cls perm info) := by
  unfold State.openRecord
  split
  · exact h
  · extract_lets i r old new merge r' s1 j q u1 u2 a b
    have h1 : FaultWork s s1 := (h.history _ _).setMerged _
    have hu1 : FaultWork s u1 := h.history _ _
    have h2 : FaultWork s u2 := ((hu1.wr _ _ (by decide)).wr _ _ (by decide)).wr _ _ (by decide)
    clear_value s1 u1 u2
    have ha : FaultWork s a := by
      show FaultWork s (if _ then (if _ then _ else _) else _)
      split
      · split
        · exact h1.faultNotice _
        · exact h1
      · exact ((h2.setReg _ _ (by decide)).setReg _ _ (by decide)).faultNotice _
    clear_value a
    have hb : FaultWork s b := by
      show FaultWork s (if _ then _ else _)
      split
      · exact ha.trigger _ _
      · exact ha
    clear_value b
    split
    · exact (hb.wr _ _ (by decide)).stopPip _
    · exact hb

/-- An escalation. The sources have numbers below 96. -/
theorem FaultWork.escalate {s t : State} (h : FaultWork s t) (src : Nat) (minor : Bool) (info : BitVec 40) (hs : src < 96) :
    FaultWork s (t.escalate src minor info) := by
  unfold State.escalate
  extract_lets a f
  have ha : FaultWork s a := ((h.wr _ _ (by simp only [FLT_SRC_COUNT.PERM, FLT_SRC_COUNT.reg]; omega)).wr _ _
    (by simp only [FLT_SRC_COUNT.CNT_A, FLT_SRC_COUNT.reg]; omega)).wr _ _ (by simp only [FLT_SRC_COUNT.CNT_B, FLT_SRC_COUNT.reg]; omega)
  exact ha.openRecord _ _ _ _

theorem FaultWork.windowCount {s t : State} (h : FaultWork s t) (src : Nat) (hs : src < 96) : FaultWork s (t.windowCount src) := by
  unfold State.windowCount
  exact (h.inc _ _ (by simp only [FLT_SRC_COUNT.CNT_A, FLT_SRC_COUNT.reg]; omega)).inc _ _
    (by simp only [FLT_SRC_COUNT.CNT_B, FLT_SRC_COUNT.reg]; omega)

/-- A major event. -/
theorem FaultWork.major {s t : State} (h : FaultWork s t) (src : Nat) (info : BitVec 40) (hs : src < 96) :
    FaultWork s (t.major src info) := by
  unfold State.major
  split
  · exact h
  · extract_lets s1 s2
    have h0 : FaultWork s (t.noteArray src info) := by
      unfold State.noteArray
      split
      · exact h.trans ⟨rfl, fun _ _ _ => rfl, rfl, rfl, rfl, fun _ => rfl⟩
      · exact h
    have h1 : FaultWork s s1 := h0.inc _ _ (by simp only [FLT_SRC_COUNT.UE_TOTAL, FLT_SRC_COUNT.reg]; omega)
    split
    · exact h1
    · split
      · exact h1.openRecord _ _ _ _
      · have h2 : FaultWork s s2 := h1.windowCount _ hs
        split
        · exact h2.escalate _ _ _ hs
        · exact h2.openRecord _ _ _ _

/-- A minor event. -/
theorem FaultWork.minor {s t : State} (h : FaultWork s t) (src : Nat) (info : BitVec 40) (hs : src < 96) :
    FaultWork s (t.minor src info) := by
  unfold State.minor
  split
  · exact h
  · extract_lets n s0 s1 k s2
    have h0 : FaultWork s s0 := h.inc _ _ (by simp only [FLT_SRC_COUNT.CE_TOTAL, FLT_SRC_COUNT.reg]; omega)
    have h1 : FaultWork s s1 := h0.trans ⟨rfl, fun _ _ _ => rfl, rfl, rfl, rfl, fun _ => rfl⟩
    split
    · exact h1
    · have h2 : FaultWork s s2 := h1.windowCount _ hs
      split
      · exact h2.escalate _ _ _ hs
      · exact h2

/-- A fatal declaration. -/
theorem FaultWork.fatal {s t : State} (h : FaultWork s t) (src : Nat) (info : BitVec 40) (hs : src < 96) :
    FaultWork s (t.fatal src info) := by
  unfold State.fatal
  split
  · exact h
  · exact ((h.inc _ _ (by simp only [FLT_SRC_COUNT.UE_TOTAL, FLT_SRC_COUNT.reg]; omega)).wr _ _
      (by simp only [FLT_SRC_COUNT.FATAL, FLT_SRC_COUNT.reg]; omega)).openRecord _ _ _ _

end Sys2Proof.Machine
end

