-- ==== Sys2Proof/WellFormed.lean ====
section
/-! DEFINITION. Which commands the surfaces of Cesal can bring: the bounds that the spec puts on their operands. The meanings are total;
a term that is not well formed stands for no event. -/

namespace Sys2Proof

/-- A host's message names a line: it carries Address[51:6] (02 R52). -/
def lineAddress (a : Word) : Bool := a.toNat % 64 == 0 && decide (a.toNat < 2 ^ 52)

/-- An access of an internal agent lies within one line and holds at least one byte (03 R103). -/
def withinLine (a : Word) (len : Nat) : Bool := decide (0 < len) && decide (a.toNat % 64 + len ≤ 64)

/-- The sizes of a control core's accesses (08 R271, 16 R471). -/
def accessSize (n : Nat) : Bool := [1, 2, 4, 8, 16].contains n

/-- A firmware image is at most 256 KiB in blocks of 4 KiB, of which block 0 is the header, which holds a hash of each other block and an
entry offset inside the image (12 R384). -/
def FwImage.fits (i : FwImage) : Bool :=
  !i.valid || (decide (1 ≤ i.blocks) && decide (i.blocks ≤ 64) && i.hashes.length + 1 == i.blocks && decide (i.entry < i.blocks * 4096))

/-- Whether a command is one that a surface of Cesal can bring. -/
def Instr.wellFormed : Instr → Bool
  | .rdShared _ a _ | .rdOwn _ a _ | .rdCur _ a _ | .invOwn _ a _ | .invFlush _ a _ | .clnEvct _ a _ => lineAddress a
  | .wrFull _ a _ _ _ _ | .wrPtl _ a _ _ _ _ _ | .spec _ a | .unsupportedRequest _ _ _ a _ => lineAddress a
  | .birsp _ _ _ _ a | .biconflict _ a => lineAddress a
  | .iaRd _ a len => withinLine a len
  | .iaWr _ a _ be => a.toNat % 64 == 0 && be != 0#64
  | .acquireLoad _ _ n | .releaseStore _ _ n _ | .reservedLoad _ _ n _ | .conditionalStore _ _ n _ _ => accessSize n
  | .coalesceWindowExpiry _ stripe => decide (stripe < 2 ^ 37)
  | .ringEnumeration answers => decide (answers.length ≤ 18)
  | .mailboxDoorbell _ _ input => decide (input.length ≤ 4096)
  | .transferFw _ _ image => image.fits
  | .registerWrite off _ => decide (off < 2 ^ 20)
  | .hostCreditAdvertised _ _ n => decide (0 < n)
  | .spdmGetCertificate _ _ offset len => decide (offset < 2 ^ 16) && decide (len < 2 ^ 16)
  | .biWarnExpiry _ _ | .biFenceExpiry _ _ | .snoopReoffer _ | .linkUp _ | .linkDown _ | .hotReset _ | .biEnableChange _ _
  | .widthReport _ _ _ | .l0pRefused _ | .gpfPhase1 _ | .gpfPhase2 _ | .gpfPhase2Ack _ | .hpHuskWrite _ | .hpEnableClear _
  | .huskClear _ | .forgetHostWalkStep _ | .urgentPassLineVisit _ | .trackerFree _ _ | .filterWayRetry _ _ | .hcWayRetry _ _
  | .budgetWaitProceed _ | .requestAged _ _ | .spillMapSet _ | .spillMapSetAck _ | .spillMapQuery _ | .spillTokenTick
  | .completionBarrier _ | .fabricTimeout _ _ | .mediaReadRequest _ | .mediaLineWrite _ | .metadataOnlyWrite _
  | .dispatchPlaceFree _ | .mediaReadStatus _ _ | .busyMigratingReissue _ | .hedgeDeadline _ | .mediaWriteStatus _ _
  | .writeRetry _ | .hedgeTraining | .channelLightSleep _ | .minorCounterExhausted _ | .rekeyStep | .macFailure _
  | .counterUnreadable _ _ | .channelRetire _ | .mfGroupMapWrite _ _ | .rebuildResume _ | .apertureRead _ _ _
  | .apertureWrite _ _ _ _ _ | .resyncStart | .resyncStripeCheck | .mfHedgeTableLatch _ | .mediaDataReturn _ | .mediaWriteAck _
  | .cleanerStep _ | .dirtyBudgetWrite _ | .persistModeWrite _ | .rangeClean _ _ | .rangeInvalidate _ _
  | .rangeCleanInvalidate _ _ | .rangeLock _ _ | .rangeUnlock _ _ | .rangeAgentLine _ | .pfwNAssert | .drainHostPhaseEnd
  | .drainSnoopTimeout _ _ | .cipherFlushDone | .recordCloseAck | .automaticRestart | .blockResetAssert | .blockResetRelease _
  | .modeReqServe | .modeReqDormant | .modeReqRepair | .modeReqHold | .dormantIdleDwell | .dormantEntryStepEnd
  | .dormantEntryTimeout | .dormantExitCount | .dormantExitStepEnd | .controlComplexLoss | .repairCauseRelease | .repairTimeout
  | .resetInvalidationDone | .acornRomSequence _ | .measuredLoadBlock _ | .oppTargetWrite _ _ | .regulatorSettled _
  | .regulatorTimeout _ | .thermalReading _ | .clockMonitorCheck _ | .minorEvent _ _ | .majorEvent _ _ | .fatalDeclaration _ _
  | .wiringFault _ _ | .windowRestart _ _ | .handlingClose | .permClear _ | .watchdogFeed | .watchdogExpiry | .pipToggle
  | .hcMove _ _ | .sfMove _ _ | .moveSetStep _ | .sfDrain _ | .sfDrainStep _ | .sliceHuskWrite _ | .sliceRetirement _
  | .wayRetirement _ | .channelRetirement _ | .controlCoreRetirement _ | .wordRemap _ _ _ _ | .remapReadEntry _ _ _
  | .installWithCopy _ _ _ _ | .remapCopyExecute _ | .installZeroed _ _ _ _ | .eccTestUnlockKey _ _ | .eccUnlockExpiry _
  | .eccTestArm _ _ | .scrubStartPass _ | .scrubStop | .scrubVisit _ _ _ _ | .scrubMediaStripeVisit _ | .scrubRevisit _ _
  | .patrolPeriod | .sweeperChunkVisit | .sweeperLine _ | .sweeperChunkVisitEnd | .progressCommit | .regionPortRead _
  | .regionPortWrite _ _ | .sliceMapWrite _ _ | .hashCtrlWrite _ | .slLogicalIdWrite _ _ | .bootCoreMapWrite _ | .pqDataRead _ _
  | .pqFillWrite _ | .pqReset _ | .pointerMismatchReset _ | .crossingReplay _ | .pComplete | .sComplete | .pBgDone | .sBgDone
  | .getHomeStatus _ | .setDirtyBudget _ | .setPersistenceMode _ | .requestMode _ | .startRangeOperation _ | .getRangeSummary _
  | .startScrubPass _ | .getScrubSummary _ | .getFaultHistory _ | .setFaultPolicy _ | .getSpareInventory _ | .retireUnit _
  | .setOwnerLossPolicy _ | .getOwnerLossList _ | .setHedgePolicy _ | .readCounterSnapshot _ | .configureSampling _
  | .readSampleBuffer _ | .getOwnerSetting _ | .setOwnerSetting _ | .resealRegion _ | .setRegionEntry _ | .getRegionEntry _
  | .getFwInfo _ | .activateFwOffline _ _ | .activateFwOnline _ _ | .getEventRecords _ _ | .clearEventRecords _ _ _
  | .spdmGetVersion _ | .spdmGetCapabilities _ | .spdmNegotiateAlgorithms _ | .spdmGetDigests _ | .spdmChallenge _ _ _
  | .spdmGetMeasurements _ _ _ _ | .bootLoad _ | .bootSwitch | .bootConfirm | .trialExpiry | .configProgramAck | .dmaGo _
  | .dmaPause _ | .dmaResume _ | .dmaDisable _ | .dmaDrainDone _ | .dmaChannelStart _ | .descriptorFetch _ _
  | .dmaReadResponse _ _ _ | .descriptorComplete _ | .dmaBusError _ _ _ | .pmuSnap | .peakClr _ | .sampleCtrlWrite _
  | .sampleSeedWrite _ | .sampleClear | .sampleDataRead | .powerLoss | .powerOnReset | .pfwNDeassert
  | .standardMemoryDeviceCommand _ _ => true

end Sys2Proof
end

