-- ==== Sys2Proof/Tests/Slice0.lean ====
section
/-! SUPPORT. Tests: each check of WellFormed refuses an ill-formed term, states that meet the hypotheses of the statements, and small
tests of single commands against values worked out from the spec. -/

set_option Elab.async false

namespace Sys2Proof.Tests

open Machine
open Host (Outcome)

/-! ### Each check of WellFormed refuses a term -/

theorem test_wf_host_line : Instr.wellFormed (.rdShared 0 1#64 0#16) = false ∧ Instr.wellFormed (.rdShared 0 64#64 0#16) = true := by
  decide
theorem test_wf_write_line : Instr.wellFormed (.wrFull 0 (2 ^ 52) 0#16 0#512 false false) = false := by decide
theorem test_wf_response_line : Instr.wellFormed (.biconflict 0 8#64) = false := by decide
theorem test_wf_agent_read : Instr.wellFormed (.iaRd 0#6 60#64 5) = false ∧ Instr.wellFormed (.iaRd 0#6 60#64 4) = true := by decide
theorem test_wf_agent_write : Instr.wellFormed (.iaWr 0#6 0#64 0#512 0#64) = false := by decide
theorem test_wf_access_size : Instr.wellFormed (.acquireLoad 0 0#64 3) = false := by decide
theorem test_wf_stripe : Instr.wellFormed (.coalesceWindowExpiry 0 (2 ^ 37)) = false := by decide
theorem test_wf_answers : Instr.wellFormed (.ringEnumeration (List.replicate 19 0)) = false := by decide
theorem test_wf_image : Instr.wellFormed (.transferFw .primary 1#2 { FwImage.none with valid := true, blocks := 65 }) = false := by decide
theorem test_wf_offset : Instr.wellFormed (.registerWrite (2 ^ 20) 0#64) = false := by decide
theorem test_wf_credits : Instr.wellFormed (.hostCreditAdvertised 0 .ndr 0) = false := by decide
theorem test_wf_certificate : Instr.wellFormed (.spdmGetCertificate .mctp 0#8 (2 ^ 16) 0) = false := by decide

/-! ### What the hypotheses of the statements are met by -/

/-- A state of a mode with fields written. -/
def sv (m : Nat) (l : List (Fld × Nat)) : State := l.foldl (fun s e => s.wr e.1 e.2) (State.reset.wr GLB_MODE.MODE m)

/-- A live port, and the home of line 0. -/
def live (m : Nat) : State :=
  sv m [(HP_CTRL.ENABLE 0, 1), (HP_STATUS.LINK 0, 1), (HP_STATUS.BI_EN 0, 1), (SL_LOGICAL_ID.VALID 0, 1), (GLB_CAPS.DPA_REGIONS, 1)]

theorem witness_idle : (sv 2 []).pending = [] ∧ (State.reset.modAon fun a => { a with power := false }).pending = [] ∧
    ((State.reset.modAon fun a => { a with power := false }).aon.power && State.reset.aon.porDone) = false := by decide

theorem canonical_reset : State.reset.Canonical := by constructor <;> decide

theorem canonical_wr (s : State) (h : s.Canonical) (f : Fld) (x : Nat) : (s.wr f x).Canonical :=
  { h with regs := Tbl.wf_put regReset _ _ h.regs }

theorem canonical_sv (m : Nat) (l : List (Fld × Nat)) : (sv m l).Canonical :=
  holds_of_foldl (fun s e h => canonical_wr s h e.1 e.2) l _ (canonical_wr _ canonical_reset _ _)

/-- Two states with a step between them, the first with canonical tables: an idle one, and one with commands waiting. -/
theorem witness_step : (∃ t, step (sv 2 []) = .next t) ∧ (sv 2 []).Canonical ∧
    ∃ t, step ((sv 2 []).withPending [.gpfPhase1 0, .gpfPhase1 1]) = .next t ∧ t.pending = [.gpfPhase1 1] :=
  ⟨⟨_, rfl⟩, canonical_sv _ _, ⟨_, rfl, rfl⟩⟩

/-- The SPEC of line 0 that host 0 sends to `live 2`. -/
def rqSpec (a : Word) : Request :=
  ⟨(live 2).nextId, .spec, .host 0, lineOf a, 0#16, 0#512, BitVec.allOnes 64, false, false, none, (live 2).now, (live 2).inc12 0⟩

theorem witness_request_takes_tracker : ∃ (s : State) (c : Instr) (h : HostId) (r : Request), hostRequestOf s c = some (h, r) ∧
    s.mode = 2 ∧ s.portLive h = true ∧ addrFits (hostAddress c) = true ∧ s.openWay r ∧
    (r.cls = .spec → ((s.bump.countHost h r.cls).sl (s.homeOf r.line)).trkUsed ≤ 384 ∧
      rgMode ((s.bump.countHost h r.cls).region (s.homeOf r.line) r.line) ≠ 3) ∧
    (s.bump.countHost h r.cls).bypass (s.homeOf r.line) r = none ∧ (s.bump.countHost h r.cls).eccIdle (s.homeOf r.line) = true ∧
    (s.bump.countHost h r.cls).mayAllocate (s.homeOf r.line) r = true :=
  have way : (live 2).openWay (rqSpec 0) := by constructor <;> decide +kernel
  ⟨live 2, .spec 0 0#64, 0, _, rfl, by decide +kernel, by decide +kernel, by decide +kernel, way, by decide +kernel⟩

/-- A read of host 0, and a tracker of it in a phase. -/
def rq (i l : Nat) (c : ReqClass) : Request := ⟨i, c, .host 0, l, 7#16, 0#512, BitVec.allOnes 64, false, false, none, 0, 0#12⟩
def tk (i : Nat) (r : Request) (ph : Phase) (ended : Bool) : Tracker :=
  ⟨i, r, r.cls.tracker, ph, .i, .i, false, none, false, false, false, [], none, none, false, none, none, 0, [], [], none, ended, ended,
    false, 0#16, 0, 0#32, false⟩
/-- A snoop for a line of PS0, owned by tracker 1 there, and its entry. -/
def sq (n : Nat) : SnoopReq := ⟨.tracker 0 1, .inv, 0, n⟩
def se (n : Nat) : SnoopEntry := ⟨sq n, 0, false, []⟩
/-- States at clause ends: ports, trackers, messages. -/
def portOf (s : State) (f : Port → Port) : State := s.modPort 0 f
def slOf (s : State) (f : Slice → Slice) : State := s.modSl 0 f
def timed (s : State) (t : Nat) : State := s.modAon fun a => { a with time := t }

theorem witness_closed_port : (sv 2 [(HP_CTRL.HUSK 0, 1)]).portLive 0 = false ∧ (sv 2 [(HP_CTRL.HUSK 0, 1)]).on (HP_CTRL.HUSK 0) = true ∧
    2 ≤ (sv 2 [(HP_CTRL.HUSK 0, 1)]).mode ∧ (sv 2 []).portLive 0 = false ∧ (sv 2 []).on (HP_CTRL.HUSK 0) = false ∧ (live 1).mode < 2 ∧
    hostRequestOf (live 1) (.rdOwn 0 0#64 1#16) = some (0, ⟨(live 1).nextId, .rdOwn, .host 0, 0, 1#16, 0#512, BitVec.allOnes 64, false, false,
      none, (live 1).now, (live 1).inc12 0⟩) := by decide +kernel

theorem witness_link_reports : (sv 1 []).mode ≠ 0 ∧ ((sv 1 []).on (HP_STATUS.BI_EN 0) = false) ∧
    ¬(true = true ∧ (sv 1 []).rd (HP_STATUS.WIDTH 0) = 2 ∧ widthCode .x16 < 2) ∧ (sv 1 []).mode = 1 ∧
    ((sv 2 [(HP_CTRL.HUSK 0, 1)]).on (HP_CTRL.HUSK 0) = true ∧ (sv 2 [(HP_CTRL.HUSK 0, 1)]).on (HP_STATUS.LINK 0) = false) ∧
    (portOf (sv 2 [(HP_CTRL.HUSK 0, 1), (HP_STATUS.LINK 0, 1)]) fun x => { x with linkReset := true }).on (HP_CTRL.HUSK 0) = true ∧
    ((portOf (sv 2 [(HP_CTRL.HUSK 0, 1), (HP_STATUS.LINK 0, 1)]) fun x => { x with linkReset := true }).port 0).linkReset = true := by
  decide +kernel

/-- Host 0 has a snoop out under BITag 3. -/
def snooped (s : State) : State := portOf s fun x => { x with table := [(3, some (se 1))] }

theorem witness_departure : (live 2).mayDepart 0 ∧ (live 2).on (HP_STATUS.BI_EN 0) = true ∧ (live 2).on (FLT_SRC_COUNT.PERM 0) = false ∧
    ((timed (snooped (live 2)) 200000).port 0).table.look none 3 = some (se 1) ∧
    (se 1).since + (timed (snooped (live 2)) 200000).fenceUs 0 ≤ (timed (snooped (live 2)) 200000).now := by
  unfold State.mayDepart
  decide +kernel

/-- A live port of a state of SERVE that holds an NDR credit, and one that GPF phase 2 has reached. -/
def credited : State := portOf (live 2) fun x => { x with ndr := 1, bisnp := 1, offered := [sq 1] }
def phase2 : State := portOf (live 2) fun x => { x with gpf2 := true }

theorem witness_gpf : 2 ≤ (live 2).mode ∧ (live 2).mergedAway 0 = false ∧ (live 2).on (HP_CTRL.GPF_DRAIN 0) = false ∧
    (sv 2 [(HP_CTRL.GPF_DRAIN 0, 1)]).on (HP_CTRL.GPF_DRAIN 0) = true ∧ (sv 2 [(HP_CTRL.GPF_DRAIN 0, 1)]).mode ≠ 4 ∧
    2 ≤ (sv 2 [(HP_CTRL.GPF_DRAIN 0, 1)]).mode ∧ (sv 2 [(HP_CTRL.GPF_DRAIN 0, 1)]).mergedAway 0 = false ∧
    (phase2.port 0).gpf2 = true ∧ phase2.portWrites 0 = false ∧ (phase2.on (HP_CTRL.GPF_DRAIN 0) = true → phase2.mode = 4) ∧
    credited.portLive 0 = true ∧ 2 ≤ credited.mode ∧ 0 < (credited.port 0).ndr ∧ (credited.port 0).egress = [] := by decide +kernel

/-- A snoop warned of after 5 us, of two chances. -/
def warning : State :=
  timed (snooped (sv 2 [(HP_BI_TIMERS.WARN_US 0, 5), (HP_BI_TIMERS.FENCE_MS 0, 1), (HP_CREDITS.BISNP_MAX 0, 1)])) 5

theorem witness_snoops : (live 2).portLive 0 = true ∧ 2 ≤ (live 2).mode ∧ ((live 2).port 0).table.look none 0 = none ∧
    ((live 2).port 0).drained.contains 0 = false ∧ (snooped (live 2)).portLive 0 = true ∧
    ((snooped (live 2)).port 0).table.look none 3 = some (se 1) ∧ (se 1).req.lines = 1 ∧ (se 1).answered = [] ∧
    (warning.port 0).table.look none 3 = some (se 1) ∧ warning.rd (HP_BI_TIMERS.WARN_US 0) ≠ 0 ∧
    warning.rd (HP_BI_TIMERS.WARN_US 0) < warning.fenceUs 0 ∧ (se 1).warned = false ∧
    (se 1).since + warning.rd (HP_BI_TIMERS.WARN_US 0) ≤ warning.now ∧
    (credited.port 0).offered = [sq 1] ∧ (credited.wr (HP_CREDITS.BISNP_MAX 0) 1).freeBiTag 0 = some 0 ∧
    ((credited.wr (HP_CREDITS.BISNP_MAX 0) 1).port 0).offered = [sq 1] ∧ 0 < (credited.port 0).bisnp := by decide +kernel

/-- A slice with one tracker, with requests that wait, and with a tracker that waits for the budget. -/
def tracked (t : Tracker) (w : List Waiting) : State := slOf (live 2) fun x => { x with trackers := [t], waitq := w, budgetQ := [1] }
def doneTk : Tracker := tk 1 (rq 1 0 .rdShared) .done true
def wt : Waiting := ⟨rq 2 0 .rdShared, false, false, 0⟩

/-- PS0 with a number of Dirty lines, under the smallest budget. -/
def fullOf (n : Nat) : State :=
  let t : TagWord := { TagWord.empty with valid := true, dirty := true }
  slOf (tracked doneTk []) fun x => { x with cache := (List.range n).map fun i => (i, ⟨t, t, 0#512⟩) }
/-- What TRACKER_FREE leaves of `tracked`. -/
def freed (w : List Waiting) : State := ((tracked doneTk w).count 16 1).modSl 0 fun x => { x with trackers := x.trackers.filter fun u => u.id != 1 }

theorem stops_empty : (tracked doneTk []).StopsEmpty := by
  unfold State.StopsEmpty
  decide +kernel

theorem witness_trackers : (tracked doneTk []).trk 0 1 = some doneTk ∧ doneTk.complete = true ∧ doneTk.req.cls ≠ .sweep ∧
    doneTk.req.cls ≠ .urgent ∧ doneTk.classed = false ∧ ((tracked doneTk []).sl 0).waitq = [] ∧
    ((tracked doneTk [wt]).sl 0).waitq.find? (fun v => v.req.line == doneTk.req.line) = some wt ∧
    (freed [wt]).lineFree 0 0 = true ∧ (freed [wt]).classLimit 0 wt.req = true ∧
    (tk 1 (rq 1 0 .rdShared) .done false).toRecord = true ∧ (tk 1 (rq 1 0 .rdShared) .data false).toRecord = false ∧
    (tk 1 (rq 1 0 .wrFull) .hcWay false).phase = .hcWay ∧
    ((tracked doneTk []).sl 0).budgetQ = [1] ∧ (tracked doneTk []).atQuota 0 = false ∧
    (fullOf 1024).atQuota 0 = true ∧ ((fullOf 1024).sl 0).budgetQ = [1] ∧
    ((tracked doneTk [wt]).sl 0).waitq = [wt] ∧ ((tracked doneTk [wt]).sl 0).held wt.req.line = true ∧ wt.aged = false ∧
    (let s := timed ((tracked doneTk [wt]).wr (SL_WAITQ_AGING.AGE_US 0) 1)
     (s 1).rd (SL_WAITQ_AGING.AGE_US 0) ≠ 0 ∧ wt.since + (s 1).rd (SL_WAITQ_AGING.AGE_US 0) ≤ (s 1).now ∧
       (s 0).now < wt.since + (s 0).rd (SL_WAITQ_AGING.AGE_US 0)) ∧
    (tracked doneTk [wt]).rd (SL_WAITQ_AGING.AGE_US 0) = 0 := by
  decide +kernel

def setMsg (q : SpillMsg) : State := { live 2 with fabric := [(4, some q)] }
def query : State :=
  { slOf (live 2) fun x => { x with trackers := [tk 1 (rq 1 0 .rdShared) .query false], regions := [(0, 0x10001#32)] } with
    fabric := [(4, some ⟨false, 0, 0, .tracker 0 1, false⟩)] }

theorem witness_spill : (setMsg ⟨true, 0, 0, .tracker 0 1, false⟩).fabric.look none 4 = some ⟨true, 0, 0, .tracker 0 1, false⟩ ∧
    (setMsg ⟨true, 0, 0, .tracker 0 1, false⟩).slHusked 0 = false ∧
    (setMsg ⟨true, 0, 0, .victim 0 1, true⟩).fabric.look none 4 = some ⟨true, 0, 0, .victim 0 1, true⟩ ∧
    ((setMsg ⟨true, 0, 0, .tracker 0 1, false⟩).wr (SL_CTRL.HUSK 0) 1).slHusked 0 = true ∧
    query.fabric.look none 4 = some ⟨false, 0, 0, .tracker 0 1, false⟩ ∧ query.slHusked 0 = false ∧
    query.trk 0 1 = some (tk 1 (rq 1 0 .rdShared) .query false) ∧ query.derive 0 (rgMask 0#32) 0 = .needMap ∧ (sv 1 []).mode ≠ 0 := by
  decide +kernel

/-- A state in which core 0 runs. -/
def coreUp (m : Nat) (f : Core → Core) : State := (sv m []).modCore 0 fun c => f { c with halted := false }

theorem canonical_core (s : State) (h : s.Canonical) (k : LogicalCore) (f : Core → Core) : (s.modCore k f).Canonical :=
  { h with cores := Tbl.wf_put (fun _ => Core.idle) _ _ h.cores }

theorem core_ready (m : Nat) (f : Core → Core) (hm : (coreUp m f).mode ≠ 0) (hq : ∀ j, ((coreUp m f).core j).queue = [])
    (hc : ((coreUp m f).core 0).halted = false ∧ ((coreUp m f).core 0).husked = false ∧ ((coreUp m f).core 0).acquire = none ∧
      ((coreUp m f).core 0).busErrAddr = none) : (coreUp m f).CoreReady 0 where
  canonical := canonical_core _ (canonical_sv _ _) _ _
  mode := hm
  halted := hc.1
  husked := hc.2.1
  queues := hq
  acquire := hc.2.2.1
  error := hc.2.2.2

theorem ready_idle : (coreUp 2 id).CoreReady 0 := core_ready 2 id (by decide +kernel) (by decide +kernel) (by decide +kernel)
theorem ready_busy : (coreUp 2 fun c => { c with loads := [1], releases := [1] }).CoreReady 0 :=
  core_ready 2 _ (by decide +kernel) (by decide +kernel) (by decide +kernel)
theorem ready_storing : (coreUp 2 fun c => { c with stores := [⟨5, 0, 0, [1#8, 2#8, 3#8, 4#8]⟩] }).CoreReady (coreOf 16#6) :=
  core_ready 2 _ (by decide +kernel) (by decide +kernel) (by decide +kernel)

/-- A core that runs comes to an access: one that may issue, and one that an outstanding load holds back. -/
theorem witness_core_ready : coreAccessOf (.completionBarrier 0) = some 0 ∧ (∃ u, (coreUp 2 id).play 0 (.completionBarrier 0) = some u) ∧
    (coreUp 2 fun c => { c with loads := [1], releases := [1] }).play 0 (.completionBarrier 0) = none :=
  ⟨rfl, ⟨_, rfl⟩, by decide +kernel⟩

theorem witness_ordered : ((coreUp 2 fun c => { c with loads := [1], releases := [1] }).core 0).loads ≠ [] ∧ aligned 8#64 8 = true ∧
    ((coreUp 2 id).core 0).loads = [] ∧ ((coreUp 2 id).core 0).stores = [] ∧
    ((coreUp 2 fun c => { c with loads := [1], releases := [1] }).core 0).releases ≠ [] ∧ ((sv 2 []).core 0).halted = true ∧
    (let s := coreUp 2 fun c => { c with busErrAddr := some 64#64, busErrCount := 1 }
     (s.core 0).busErrAddr = some 64#64 ∧ s.mode ≠ 0 ∧ (s.core 0).halted = false ∧ (s.core 0).husked = false) := by decide +kernel

/-- Misaligned, of a size that is not one, and at the last aligned address. -/
theorem witness_misaligned : ((4 : Nat) ≠ 4 ∧ (4 : Nat) ≠ 8 ∧ (4 : Nat) ≠ 16 ∨ (2#64 : Word).toNat % 4 ≠ 0) ∧
    ((2 : Nat) ≠ 4 ∧ (2 : Nat) ≠ 8 ∧ (2 : Nat) ≠ 16 ∨ (0#64 : Word).toNat % 2 ≠ 0) := by decide

/-- The first word of the data SRAM is sound; it is reserved, and none of its valid bits is set. -/
theorem sound_word : (coreUp 2 id).dataGood 0 4 := by
  intro j hj m w up h
  have hj : j = 0 := by simpa [halvesOf] using hj
  subst hj
  have h : (16, 0, false) = (m, w, up) := Option.some.inj h
  cases h
  have clear : (coreUp 2 id).wordValid 16 0 = false ∧ ((coreUp 2 id).validCopy 16 0).getLsbD 0 = false ∧
      ((coreUp 2 id).validCopy 16 1).getLsbD 0 = false ∧ ((coreUp 2 id).validCopy 16 2).getLsbD 0 = false := by decide +kernel
  refine ⟨?_, fun w => absurd (clear.1.symm.trans w) (by decide)⟩
  unfold State.readValid
  simp only [clear]
  rfl

theorem witness_data_sram : isControl 0x8000000000200000#64 = true ∧ spaceOf (0x8000000000200000#64 : Word).toNat = (.data, 0) ∧
    aligned 0x8000000000200000#64 4 = true ∧ ((coreUp 2 id).core 0).releases = [] ∧ ((coreUp 2 id).core 0).stores = [] ∧
    ((coreUp 2 id).core 0).loads = [] ∧ ({ coreUp 2 id with sramReserved := [(0, 1)] } : State).sramReserved.look 0 0 = 0 / 256 + 1 := by
  decide +kernel

/-- A store of core 0 in the ingress of a slice, which does not answer. -/
def lateStore : State :=
  slOf (coreUp 2 fun c => { c with stores := [⟨5, 0, 0, [1#8]⟩] }) fun x => { x with
    ingress := [⟨5, .iaWr, .ia 16, 0, 0#16, 0#512, 1#64, false, false, some 0, 0, 0#12⟩] }

theorem witness_agents : (3#6 : BitVec 6).toNat < 16 ∧ (sv 2 []).mode ≠ 0 ∧ (sv 2 []).mode ≠ 1 ∧ (sv 2 []).mode ≠ 5 ∧ (sv 5 []).mode = 5 ∧
    isControl 0#64 = false ∧ isControl (1#64 <<< 63) = true ∧ 16 ≤ (16#6 : BitVec 6).toNat ∧ streamUsed 16#6 = true ∧
    16 ≤ (63#6 : BitVec 6).toNat ∧ streamUsed 63#6 = false ∧
    ((coreUp 2 fun c => { c with stores := [⟨5, 0, 0, [1#8, 2#8, 3#8, 4#8]⟩] }).core (coreOf 16#6)).forward 0 (inLine 0#64 4)
      = some (some [1#8, 2#8, 3#8, 4#8]) ∧
    (timed lateStore 10).mode ≠ 0 ∧
    ((timed lateStore 10).core 0).stores.find? (fun h => h.addr == 0 && (timed lateStore 10).unanswered h.id) = some ⟨5, 0, 0, [1#8]⟩ := by
  decide +kernel

/-- Line operations on their way, channel operations, and a media front that holds them over a normal group map. -/
def mo (k : OpKind) (st : OpState) (cls : Nat) : MediaOp := ⟨k, 0, .directory 0, cls, st, 0#512, 0#32, 0, 0, 0, false, none, 0⟩
def co (use : ChanUse) (write queued : Bool) : ChanOp := ⟨0, 0, write, false, Stored.zero, use, 1, queued, false, !queued, 0, false, false⟩
def mapped (m : Nat) (l : List (Fld × Nat)) : State :=
  sv m ((List.range 36).map (fun k => (slotFld (k / 9) (k % 9), k)) ++ (GLB_CAPS.DPA_REGIONS, 1) :: l)
def front (m : Nat) (l : List (Fld × Nat)) (f : MediaFront → MediaFront) : State := (mapped m l).modMf f
def ops (l : List (Nat × Option MediaOp)) (m : MediaFront) : MediaFront := { m with ops := l }
def chops (l : List (Nat × Option ChanOp)) (m : MediaFront) : MediaFront := { m with chops := l }
def rd1 : MediaOp := mo .readSealed .wire 1
def wr1 : MediaOp := mo .writeLine .wire 1

def reading (hedged : Bool) : MediaOp := { mo .readSealed .reading 1 with hedged := hedged }
def migrating : ChanOp := { co (.primary 1) false false with migrating := true }
def oneRead (l : List (Fld × Nat)) (f : MediaFront → MediaFront) : State := front 2 l fun m => f (ops [(1, some rd1)] m)
def readOn (hedged : Bool) (o : ChanOp) : State := front 2 [] fun m => ops [(1, some (reading hedged))] (chops [(3, some o)] m)

theorem witness_media_reads : rd1.isWrite = false ∧ (oneRead [] id).op 1 = some rd1 ∧ rd1.state = .wire ∧
    (oneRead [] fun m => { m with unknown := [(0, 0)] }).op 1 = some rd1 ∧
    (oneRead [] fun m => { m with unknown := [(0, 0)] }).unknownFor rd1 = true ∧ (oneRead [] id).unknownFor rd1 = false ∧
    (let s := front 2 [] (ops [(1, some (mo .writeLine .waiting 1)), (2, some rd1)])
     s.op 2 = some rd1 ∧ s.unknownFor rd1 = false ∧
       ((s.queuedWrites 0 2).filter fun y => y.kind == .writeLine).getLast? = some (mo .writeLine .waiting 1)) ∧
    (oneRead [] id).queuedWrites 0 1 = [] ∧ ((oneRead [] id).lostSlots 0 0).contains (slotOf 0) = false ∧
    (let s := oneRead [(MF_GROUP_MAP.GSTATE 0, 1), (MF_GROUP_MAP.LOST_SLOT 0, 1)] id
     s.op 1 = some rd1 ∧ s.unknownFor rd1 = false ∧ s.queuedWrites 0 1 = [] ∧ s.lostSlots 0 0 = [slotOf 0]) ∧
    (let s := oneRead [(MF_GROUP_MAP.GSTATE 0, 3), (MF_GROUP_MAP.LOST_SLOT 0, 1)] fun m => { m with lostMore := [(0, [2])] }
     s.op 1 = some rd1 ∧ s.unknownFor rd1 = false ∧ s.queuedWrites 0 1 = [] ∧ 2 ≤ (s.lostSlots 0 0).length ∧
       (s.lostSlots 0 0).contains (slotOf 0) = true) ∧
    (readOn false migrating).chop 3 = some migrating ∧ (readOn false migrating).op 1 = some (reading false) ∧
    (reading false).recon = none ∧ (3, some (co (.primary 1) false true)) ∈ (readOn false (co (.primary 1) false true)).mf.chops ∧
    (front 2 [] (chops [(3, some (co (.primary 1) false false))])).room 0 1 = some false := by decide +kernel

theorem witness_channel_answers : (readOn true (co (.primary 1) false false)).chop 3 = some (co (.primary 1) false false) ∧
    (co (.primary 1) false false).write = false ∧ (co (.primary 1) false false).issued = true ∧
    (co (.primary 1) false false).migrating = false ∧ ReadStatus.ok ≠ .busyMigrating ∧
    (readOn true (co (.primary 1) false false)).op 1 = some (reading true) ∧
    (readOn false (co (.primary 1) false false)).op 1 = some (reading false) ∧ (reading true).kind = .readSealed ∧
    (reading true).state = .reading ∧ (reading true).hedged = true ∧ (reading false).hedged = false ∧
    ({ readOn true (co (.primary 1) false false) with media := [(0, some Stored.zero)] }).mediaAt 0 0 = some Stored.zero ∧
    (front 2 [] (ops [(1, some (mo .readSealed (.answered .uncorrectable) 1))])).op 1 = some (mo .readSealed (.answered .uncorrectable) 1) ∧
    (front 2 [] (ops [(1, some (mo .readSealed (.answered .ok) 1))])).op 1 = some (mo .readSealed (.answered .ok) 1) := by decide +kernel

/-- A media front with one write on its way, and one with a channel write. -/
def arriving (l : List (Fld × Nat)) (o : MediaOp) : State := front 2 l (ops [(1, some o)])
def batch5 : Batch := ⟨0, 0, [1], false, [], [], [], true, [], [1], [], []⟩
def landing (use : ChanUse) (st : Nat) (f : ChanOp → ChanOp) : State :=
  front 2 [(MF_CH_STATE.STATE 0, st)] fun m => { chops [(3, some (f (co use true false)))] m with batches := [(5, some batch5)] }

theorem nothing_held (l : List (Fld × Nat)) :
    ∀ e ∈ (arriving l wr1).mf.ops, ∀ x, e.2 = some x → x.state ≠ .held := by
  intro e he x hx
  have : e = (1, some wr1) := by simpa [arriving, front, State.modMf, ops] using he
  subst this
  cases hx
  decide

theorem witness_media_writes : (arriving [] wr1).op 1 = some wr1 ∧ wr1.state = .wire ∧ wr1.kind = .writeLine ∧
    (arriving [] wr1).behindOnRing 0 1 = false ∧ (arriving [] wr1).arriveDropped 1 wr1 = none ∧
    (arriving [] wr1).on MF_CTRL.COALESCE_EN = false ∧
    (let s := arriving [(MF_CTRL.COALESCE_EN, 1), (MF_CTRL.COALESCE_WIN, 1)] wr1
     s.op 1 = some wr1 ∧ s.behindOnRing 0 1 = false ∧ s.arriveDropped 1 wr1 = none ∧ s.on MF_CTRL.COALESCE_EN = true ∧
       s.rd MF_CTRL.COALESCE_WIN ≠ 0 ∧ wr1.cls ≠ 3 ∧ s.mode ≠ 4) ∧
    (let o := mo .writeMeta .wire 1
     let s := arriving [] o
     s.op 1 = some o ∧ s.behindOnRing 0 1 = false ∧ s.arriveDropped 1 o = none ∧ (s.heldLines 0 0).contains 0 = false) ∧
    (arriving [] (mo .writeLine (.acked true) 1)).op 1 = some (mo .writeLine (.acked true) 1) ∧
    (landing (.batchWrite 5 1) 1 id).chop 3 = some (co (.batchWrite 5 1) true false) ∧ (landing (.batchWrite 5 1) 1 id).batch 5 = some batch5 ∧
    (co (.batchWrite 5 1) true false).issued = true ∧ (co (.batchWrite 5 1) true false).failed = false ∧
    (landing .repair 1 id).chState 0 ≠ 3 ∧ (co .repair true false).tries < 3 ∧
    (landing .repair 1 fun o => { o with tries := 3 }).chop 3 = some { co .repair true false with tries := 3 } ∧
    (landing .aperture 3 id).chState 0 = 3 ∧ (landing .aperture 3 id).chop 3 = some (co .aperture true false) ∧
    (landing .repair 1 fun o => { o with failed := true }).chop 3 = some { co .repair true false with failed := true } := by decide +kernel

theorem witness_hedging : (timed (mapped 2 []) 1000000).now % 1000000 = 0 ∧ (sv 3 []).mode = 3 ∧
    (timed (mapped 3 []) 200).mf.sleeping.contains 0 = false ∧ (timed (mapped 3 []) 200).chopCount 0 (fun _ => true) = 0 ∧
    (timed (mapped 3 []) 200).mf.lastOp.look 0 0 + 200 ≤ (timed (mapped 3 []) 200).now ∧ getBits 0x100#64 8 1 = 1 := by decide +kernel

def rekeying : State := front 2 [(SL_LOGICAL_ID.VALID 0, 1)] fun m => { m with rekey := ⟨[], some 0, 0, 63, []⟩ }

theorem witness_rekey : (arriving [] (mo .writeLine .waiting 1)).op 1 = some (mo .writeLine .waiting 1) ∧
    (arriving [] (mo .writeLine .waiting 1)).mf.batches = [] ∧ rekeying.mode ≠ 5 ∧ rekeying.rekeyHeld = none ∧
    rekeying.mf.rekey.page = some 0 ∧ rekeying.mf.rekey.next < 64 ∧ rekeying.rekeySteps < 8 ∧ rekeying.eccIdle (rekeying.homeOf 63) = true ∧
    rekeying.mayAllocate (rekeying.homeOf 63) (agentReq rekeying.nextId .rekey 63 rekeying.now) = true ∧ rekeying.mf.ops = [] ∧
    (mapped 2 []).mf.rekey.page = none ∧ (mapped 2 []).mf.rekey.queue = [] ∧ (mapped 2 []).rekeyHeld = none ∧ (mapped 5 []).mode = 5 ∧
    (front 2 [] fun m => { m with rekey := ⟨[7], none, 0, 0, []⟩ }).mf.rekey.queue = [7] ∧
    (readOn false (co (.primary 1) false false)).mf.chops = [(3, some (co (.primary 1) false false))] ∧
    (readOn false (co (.primary 1) false false)).op 1 = some (reading false) ∧ (mapped 2 []).mf.unknown.length < 64 := by decide +kernel

/-- Group 0 degraded in slot 1; its rebuild; a word that puts channel 36, a spare, into slot 1. -/
def degraded : State := mapped 2 [(MF_GROUP_MAP.GSTATE 0, 1), (MF_GROUP_MAP.LOST_SLOT 0, 1)]
def spareWord : Word := putBits (degraded.reg (MF_GROUP_MAP.reg 0)) 6 6 36
def rebuilding : State := front 2 [(MF_REBUILD_STATUS.ACTIVE, 1), (MF_REBUILD_STATUS.SLOT, 1)] fun m => { m with window := [(0, false)] }

theorem sound_buffer : rebuilding.readMfBuffer 11 0 = (rebuilding, false) := by
  have good : rebuilding.devFound (bufferKey 11 0) = .good := by decide +kernel
  simp [State.readMfBuffer, good, State.devFinding]

theorem witness_groups : (sv 1 []).mode = 1 ∧ (∀ k < 9, getBits spareWord (6 * k) 6 ≤ 37) ∧ (degraded.mode ≠ 0 ∧ degraded.mode ≠ 1) ∧
    ((List.range 9).filter fun k => getBits spareWord (6 * k) 6 ≠ degraded.rd (slotFld 0 k)) = [1] ∧
    degraded.rd (MF_GROUP_MAP.LOST_SLOT 0) = 1 ∧ degraded.rd (MF_GROUP_MAP.GSTATE 0) = 1 ∧ degraded.rd (MF_CH_STATE.STATE 36) = 0 ∧
    rebuilding.mode ≠ 5 ∧ rebuilding.apertureIndex 0x8000100000000000#64 64 0 = some 0 ∧
    rebuilding.apertureIndex 0x8000100000000040#64 64 7 = some 1 ∧
    rebuilding.rd MF_REBUILD_STATUS.LINE = 0 ∧ rebuilding.apertureBusy = false ∧ rebuilding.mf.window.contains (0, false) = true ∧
    rebuilding.openBatch 0 0 = none ∧ (mapped 2 []).on MF_REBUILD_STATUS.ACTIVE = false ∧ 8 ≤ (8 : DmaChannel).val ∧
    (mapped 5 []).mode = 5 := by decide +kernel

def resyncing : State := front 2 [] fun m => { m with resyncAt := some 0 }

theorem witness_resync : resyncing.mf.resyncAt = some 0 ∧ resyncing.mode = 2 ∧ resyncing.rd GLB_CAPS.DPA_REGIONS ≤ 16384 ∧
    0 + 1 < 4 * max 1 resyncing.channelLines ∧ resyncing.openBatch 0 0 = none ∧ resyncing.lostSlots 0 0 = [] ∧
    (∀ i < 9, ∀ j < 9, resyncing.chanOf 0 i = resyncing.chanOf 0 j → i = j) ∧
    ((resyncing.wr (MF_GROUP_MAP.GSTATE 0) 1).lostSlots 0 0 ≠ []) := by decide +kernel

theorem witness_range : (sv 1 []).mode ≠ 0 ∧ (sv 1 []).on HC_RANGE_STATUS.BUSY = false ∧
    (sv 1 [(HC_RANGE_STATUS.BUSY, 1)]).on HC_RANGE_STATUS.BUSY = true ∧ (sv 2 []).rangeError 1 true false ≠ 0 ∧
    (mapped 2 [(HC_RANGE_LIMIT.LINE, 2 ^ 28 - 1)]).rangeError 5 false false = 0 ∧ (mapped 2 []).activeSlices ≠ [] := by decide +kernel

/-- A state with always-on values set. -/
def aon (s : State) (f : AlwaysOn → AlwaysOn) : State := s.modAon f
def way0 (valid dirty : Bool) : CacheWay := ⟨{ TagWord.empty with valid := valid, dirty := dirty }, { TagWord.empty with valid := valid, dirty := dirty }, 0#512⟩
/-- The range agent of PS0 at a point of its walk, in a tracked region. -/
def ranging (op : Nat) (ways : List (Nat × CacheWay)) (buffer : Option (List Nat)) : State :=
  slOf (mapped 2 [(HC_RANGE_STATUS.BUSY, 1), (HC_RANGE_OP.OP, op), (SL_LOGICAL_ID.VALID 0, 1), (SL_HC_CTRL.SPARE_FOR 0, 16)]) fun x => { x with
    range := some ⟨0, buffer, false, [], []⟩, cache := ways, regions := [(0, 0x10001#32)] }
def dirty0 : State := ranging 1 [(0, way0 true true)] none
def lineAt (e : Nat × CacheWay) : Nat := e.2.tagA.tag * 8192 + e.1 / 17
def found (s : State) (pos : Nat) : Option (Nat × CacheWay) := (s.sl 0).cache.find? fun e => decide (pos ≤ e.1) && e.2.tagA.valid &&
  ((waysInService (s.hcSpare 0 (e.1 / 17))).map (·.2)).contains (e.1 % 17) && s.inRange 0 (lineAt e)

theorem witness_cache_settings : (sv 1 []).mode ≠ 0 ∧ getBits 128#64 0 8 ≤ 128 ∧ 128 < getBits 129#64 0 8 ∧ getBits 1#64 0 1 = 1 ∧
    (sv 1 []).on GLB_PERSIST_CTRL.WT = false ∧ (sv 2 [(GLB_PERSIST_CTRL.WT, 1)]).cleanerActive 0 = true ∧
    (sv 2 [(SL_HC_CTRL.CLEAN_HI 0, 80)]).cleanerActive 0 = false ∧ (sv 2 [(GLB_PERSIST_CTRL.WT, 1)]).cleansOut 0 < 64 ∧
    (sv 2 []).aon.entryStep ≠ 1 ∧ (dirty0.sl 0).range = some ⟨0, none, false, [], []⟩ ∧ dirty0.mode ≠ 5 ∧
    dirty0.on HC_RANGE_STATUS.BUSY = true ∧ dirty0.agentRoom 0 .range = true ∧ dirty0.rd HC_RANGE_OP.OP ≠ 4 ∧
    found dirty0 0 = some (0, way0 true true) ∧ found (ranging 1 [] none) 0 = none ∧
    ((ranging 1 [] (some [])).sl 0).range = some ⟨0, some [], false, [], []⟩ ∧
    ((ranging 1 [] (some [0])).sl 0).range = some ⟨0, some [0], false, [], []⟩ ∧ (ranging 4 [] none).rd HC_RANGE_OP.OP = 4 ∧
    (ranging 4 [] none).nextHomed 0 0 1 = some 0 ∧ rgMode ((ranging 4 [] none).region 0 0) ≠ 0 ∧
    (ranging 4 [] none).nextHomed 0 1 1 = none := by
  decide +kernel

def powered (m : Nat) (f : AlwaysOn → AlwaysOn) : State := aon (sv m []) fun a => f { a with power := true, porDone := true, blockReset := false }

theorem witness_hold : (powered 1 id).aon.porDone = true ∧ (powered 1 id).mode = 1 ∧
    (powered 4 fun a => { a with drain := some .record }).aon.drain = some .record ∧ (powered 4 id).mode = 4 ∧ (powered 2 id).mode ≠ 0 ∧
    (powered 2 id).issuedWrites = [] ∧ (powered 2 id).store.programs = [] ∧ (powered 0 id).mode = 0 := by decide +kernel

theorem witness_sprout : (powered 0 fun a => { a with blockReset := true, pfwLow := false }).aon.blockReset = true ∧
    (powered 0 fun a => { a with blockReset := true, pfwLow := true }).aon.pfwLow = true ∧
    (timed (powered 0 fun a => { a with pfwLow := false, highSince := some 0, mayRestart := true }) 10000).aon.highSince = some 0 ∧
    0 + 10000 ≤ (timed (powered 0 id) 10000).now ∧ (powered 0 id).aon.blockReset = false ∧
    (aon (sv 0 []) fun a => { a with porDone := false }).aon.porDone = false ∧ (powered 0 id).aon.porDone = true := by decide +kernel

/-- SPROUT with every condition of SERVE met, and with the last one unmet. -/
def ready (cleared : Nat) : State :=
  { mapped 1 ((GLB_HASH_CTRL.LOCK, 1) :: (List.range 16).map (fun j => (mapPs j, j)) ++
      (List.range cleared).map fun p => (SL_STATUS.CLEARED p, 1)) with boot := { State.reset.boot with epochWritten := true } }

theorem nothing_held_back : (ready 18).NothingHeld ∧ (sv 5 []).NothingHeld := by
  unfold State.NothingHeld
  decide +kernel

theorem witness_mode_requests : (sv 2 [(GLB_MODE.CHANGING, 1)]).on GLB_MODE.CHANGING = true ∧ (sv 2 []).on GLB_MODE.CHANGING = false ∧
    (sv 4 []).mode = 4 ∧ (ready 17).mode = 1 ∧ (ready 17).serveCode ≠ 0 ∧ (ready 17).on GLB_MODE.CHANGING = false ∧
    (ready 18).serveCode = 0 ∧ (ready 18).mode = 1 ∧ (ready 18).on GLB_MODE.CHANGING = false ∧ (sv 1 []).mode ≠ 2 ∧
    (mapped 2 [(MF_GROUP_MAP.GSTATE 0, 1)]).dormBlocked = true ∧ (mapped 2 []).dormBlocked = false ∧
    (timed (aon (sv 2 []) fun a => { a with repairEnd := some 0 }) 999).repairTooSoon = true ∧
    (timed (aon (sv 2 []) fun a => { a with repairEnd := some 0 }) 1000).repairTooSoon = false ∧ (sv 3 []).aon.exitStep = 0 ∧
    (aon (sv 4 []) fun a => { a with drain := some .flush }).aon.drain = some .flush := by decide +kernel

def draining (st : DrainStep) : State :=
  timed (aon (portOf (live 4) fun x => { x with table := [(3, some (se 1))] }) fun a => { a with drain := some st, closeAt := 0 }) 20

theorem witness_drain : (powered 3 id).mode = 3 ∧ (aon (sv 4 []) fun a => { a with drain := some .flush }).hostPhaseOver = true ∧
    (draining .close).aon.drain ≠ some .flush ∧ (draining .close).aon.closeAt + 20 ≤ (draining .close).now ∧
    ((draining .close).port 0).table.look none (3#8 : BitVec 8).toNat = some (se 1) ∧ (draining .cipher).aon.drain = some .cipher := by
  decide +kernel

/-- In the entry to DORMANT at a step, or in the exit from it. -/
def entering (n : Nat) : State := aon (mapped 2 []) fun a => { a with entryStep := n }
def leaving (n : Nat) : State := aon (sv 3 []) fun a => { a with exitStep := n }

theorem witness_dormant :
    (let s := aon (mapped 2 [(PWR_DORM.AUTO, 1)]) fun a => { a with idleMs := 1 }
     s.mode = 2 ∧ s.on GLB_MODE.CHANGING = false ∧ s.on PWR_DORM.AUTO = true ∧ max 1 (s.rd PWR_DORM.ENTRY_MS) ≤ s.aon.idleMs ∧
       s.dormBlocked = false) ∧
    (entering 1).mode = 2 ∧ (entering 1).aon.entryStep = 1 ∧ (∀ p, (entering 1).highWaysClean p = true) ∧
    (∀ p : PhysSlice, (entering 3).rd (SL_DVFS.OPP_NOW p.val) = 0 ∧ ((entering 3).sl p).ramp = none) ∧
    (entering 4).aon.exitCause = none ∧ (timed (entering 1) 1000).aon.entryAt + 1000 ≤ (timed (entering 1) 1000).now ∧
    (let s := (sv 3 [(PWR_DORM.EXIT_COUNT, 1)]).modAon fun a => { a with allocs10 := [(0, 64)] }
     s.mode = 3 ∧ s.aon.exitStep = 0 ∧ s.exitCount ≤ ((s.aon.allocs10.filter fun e => decide (s.now < e.1 + 10)).map (·.2)).sum) ∧
    (leaving 2).mode = 3 ∧ (∀ p, ((leaving 2).sl p).ramp = none) ∧ (leaving 3).aon.repairAfterExit = false := by decide +kernel

theorem witness_repair : (sv 2 []).aon.entryStep = 0 ∧ (sv 2 []).repairTooSoon = false ∧
    (timed (aon (sv 2 []) fun a => { a with repairEnd := some 0 }) 999).aon.entryStep = 0 ∧
    (aon (sv 2 []) fun a => { a with heldCause := true }).aon.heldCause = true ∧
    (aon (sv 2 []) fun a => { a with heldCause := true }).repairTooSoon = false ∧ (sv 3 []).aon.exitStep = 0 ∧
    (timed (sv 5 []) 5000).aon.repairAt + 5000 ≤ (timed (sv 5 []) 5000).now ∧ (timed (sv 5 []) 4999).now < (sv 5 []).aon.repairAt + 5000 := by
  decide +kernel

theorem witness_invalidation : (sv 1 []).mode = 1 ∧ (sv 1 []).boot.invalidated = false ∧
    ({ sv 1 [] with boot := { State.reset.boot with invalidated := true } }).boot.invalidated = true := by decide +kernel

def sweepAt (pos : Nat) (active : Bool) : State :=
  { slOf (mapped 2 []) fun x => { x with sweep := some ⟨0, pos, true, []⟩ } with sweepActive := active }
def walking (n : Nat) : State := slOf (sv 2 []) fun x => { x with walk := some ⟨32767, [(3, n)], []⟩ }
def urgentAt (l : List Nat) (r : List Nat) : State :=
  { slOf (sv 2 [(GLB_PASS_EPOCH.URGENT, 1)]) fun x => { x with urgentRetry := r } with urgentSet := l }

theorem witness_sweeper : (sv 2 [(GLB_PASS_EPOCH.PAUSE, 1)]).on GLB_PASS_EPOCH.PAUSE = true ∧
    (mapped 2 []).on GLB_PASS_EPOCH.PAUSE = false ∧ (mapped 2 []).shareOver = true ∧
    ({ mapped 2 [] with sweepUs := some 0 }).shareOver = false ∧ (mapped 2 []).sweepActive = false ∧
    (sweepAt 0 true).mode = 2 ∧ (sweepAt 0 true).shareOver = true ∧ (sweepAt 0 true).sweepActive = true ∧
    ((sweepAt 0 true).sl 0).sweep = some ⟨0, 0, true, []⟩ ∧ (sweepAt 0 true).on GLB_PASS_EPOCH.PAUSE = false ∧
    (sweepAt 0 true).opsOf (fun o => match o with | .sweeper q _ => q == 0 | _ => false) < 32 ∧
    (sweepAt 0 true).nextHomed 0 0 (2 ^ 20) = some 0 ∧
    (∀ q ∈ (sweepAt (2 ^ 20) true).activeSlices, (sweepAt (2 ^ 20) true).sweepEnded q = true) ∧
    (sweepAt (2 ^ 20) true).rd GLB_PASS_EPOCH.NEXT_CHUNK + 1 < (sweepAt (2 ^ 20) true).chunks ∧
    (sweepAt (2 ^ 20) true).sweepDue = false ∧ (sv 2 []).store.stopped = false ∧ (sv 2 []).on MF_REBUILD_STATUS.ACTIVE = false ∧
    ((walking 1).sl 0).walk = some ⟨32767, [(3, 1)], []⟩ ∧ (walking 1).mode ≠ 4 ∧
    ((walking 0).sl 0).walk = some ⟨32767, [(3, 0)], []⟩ ∧ ((sv 2 []).sl 0).walk = none ∧
    (urgentAt [7] []).urgentLine ((urgentAt [7] []).sl 0).urgentPos = some (7 * 2 ^ 20) ∧
    (urgentAt [] [5]).urgentLine ((urgentAt [] [5]).sl 0).urgentPos = none ∧ ((urgentAt [] [5]).sl 0).urgentRetry = [5] ∧
    ((urgentAt [] []).sl 0).urgentRetry = [] ∧ (urgentAt [] []).on GLB_PASS_EPOCH.URGENT = true ∧ (urgentAt [] []).mode = 2 := by
  decide +kernel

theorem witness_operating_points : (sv 2 []).aon.entryStep = 0 ∧ (sv 2 []).slHusked 0 = false ∧ ((sv 2 []).sl 0).ramp = none ∧
    ((slOf (sv 2 []) fun x => { x with ramp := some ⟨5, true⟩ }).sl 0).ramp = some ⟨5, true⟩ ∧
    min 2 ((sv 2 [(PWR_STATUS.CEIL, 7)]).rd PWR_STATUS.CEIL) = 2 ∧ (sv 1 []).mode ≠ 0 := by decide +kernel

theorem witness_fault_events : (sv 1 []).takesEvents 0x10 = true ∧ (sv 1 []).srcIgnored 0x10 = false ∧
    (sv 1 [(FLT_SRC_CFG.N 0x10, 2)]).rd (FLT_SRC_COUNT.CNT_A 0x10) + 1 < faultThreshold (sv 1 [(FLT_SRC_CFG.N 0x10, 2)]) 0x10 ∧
    (sv 1 [(FLT_SRC_CFG.N 0x10, 2)]).rd (FLT_SRC_COUNT.CNT_B 0x10) + 1 < faultThreshold (sv 1 [(FLT_SRC_CFG.N 0x10, 2)]) 0x10 ∧
    (sv 1 [(FLT_SRC_CFG.MASK 0x10, 1)]).on (FLT_SRC_CFG.MASK 0x10) = true ∧ (sv 1 []).on (FLT_SRC_CFG.MASK 0x10) = false ∧
    (sv 1 []).on (FLT_SRC_COUNT.PERM 0x10) = false ∧ (sv 1 []).on (FLT_SRC_COUNT.FATAL 0x10) = false ∧
    (sv 1 []).on FLT_HANDLING.FROZEN = false ∧ (sv 1 []).on FLT_HANDLING.HANDLING = false ∧
    (sv 1 [(FLT_SRC_CFG.MASK 0x10, 1)]).takesEvents 0x10 = true ∧ (sv 1 [(FLT_SRC_CFG.N 0x10, 2)]).takesEvents 0x10 = true := by
  decide +kernel

theorem witness_sources : (sv 1 []).takesEvents 3 = true ∧ (sv 1 []).srcIgnored 3 = false ∧
    (timed (sv 1 [(FLT_SRC_CFG.W_US 3, 1000)]) 500).now % max 1 ((sv 1 [(FLT_SRC_CFG.W_US 3, 1000)]).rd (FLT_SRC_CFG.W_US 3)) =
      max 1 ((sv 1 [(FLT_SRC_CFG.W_US 3, 1000)]).rd (FLT_SRC_CFG.W_US 3)) / 2 ∧
    (timed (sv 1 [(FLT_SRC_CFG.W_US 3, 1000)]) 2000).now % max 1 ((sv 1 [(FLT_SRC_CFG.W_US 3, 1000)]).rd (FLT_SRC_CFG.W_US 3)) = 0 := by
  decide +kernel

def pip (t : Nat) : State := timed (sv 1 [(FLT_PIP_CTRL.RUNNING, 1), (FLT_PIP_CTRL.PERIOD, 1), (FLT_PIP_CTRL.WD_MS, 5)]) t

theorem witness_pip : (pip 0).on FLT_PIP_CTRL.RUNNING = true ∧ (sv 1 []).on FLT_PIP_CTRL.RUNNING = false ∧
    (sv 1 []).rd FLT_PIP_CTRL.STOP_CAUSE = 0 ∧ (sv 1 []).on FLT_HANDLING.FROZEN = false ∧
    (pip 100).aon.lastEdge + (pip 100).pipPeriod ≤ (pip 100).now ∧ (aon (pip 5000) fun a => { a with fed := true }).aon.fed = true ∧
    (pip 5000).aon.wdStart + (pip 5000).wdTime ≤ (pip 5000).now / 1000 ∧ (pip 5000).rd FLT_PIP_CTRL.STOP_CAUSE = 0 ∧
    (pip 5000).on FLT_HANDLING.FROZEN = false := by decide +kernel

def moving (set : Nat) : State := slOf (sv 2 [(SL_CTRL.MOVE_BUSY 0, 1)]) fun x => { x with move := some ⟨false, 5, set⟩ }

theorem witness_ways : (moving 0).on (SL_CTRL.MOVE_BUSY 0) = true ∧ (sv 2 []).on (SL_CTRL.MOVE_BUSY 0) = false ∧
    16 ≤ (sv 2 [(SL_CTRL.SF_SPARE_FOR 0, 16)]).rd (SL_CTRL.SF_SPARE_FOR 0) ∧
    16 ≤ (sv 2 [(SL_HC_CTRL.SPARE_FOR 0, 16)]).rd (SL_HC_CTRL.SPARE_FOR 0) ∧ ((moving 0).sl 0).move = some ⟨false, 5, 0⟩ ∧
    ((moving 8190).sl 0).move = some ⟨false, 5, 8190⟩ ∧ 8190 + 1 < 8192 ∧ (moving 8190).hcBusy 0 8190 5 = false ∧ (moving 0).mode ≠ 4 ∧
    (moving 8190).eccIdle 0 = true ∧ ((moving 8190).sl 0).tagLost = [] ∧ (sv 2 []).on (SL_CTRL.SF_DRAIN 0) = false ∧
    ((slOf (sv 2 [(SL_CTRL.SF_DRAIN 0, 1)]) fun x => { x with drainSet := some 32767 }).sl 0).drainSet = some 32767 ∧
    (∀ v ∈ waysInService ((sv 2 [(SL_CTRL.SF_DRAIN 0, 1)]).sfSpare 0 32767),
      ((sv 2 [(SL_CTRL.SF_DRAIN 0, 1)]).sfWay 0 32767 v.2).entry.valid = false) := by decide +kernel

/-- A state of SERVE with a permanent escalation of a source whose action is retirement, and a firmware state. -/
def failing (src : Nat) (l : List (Fld × Nat)) (f : Firmware → Firmware) : State :=
  let s := sv 2 ((FLT_SRC_COUNT.PERM src, 1) :: (FLT_SRC_CFG.ACTION src, 1) :: (BOOT_CORE_MAP.HEALTHY, 31) :: l)
  { s with fw := f s.fw }
def lists (r : Retire) (f : Firmware) : Firmware := { f with retiring := [r] }
def word5 (f : Firmware) : Firmware := { f with arrayEvents := [(0, 0x10, 80#40)] }
def spares : List (Fld × Nat) := [(SL_LOGICAL_ID.VALID 0, 1), (SL_HC_CTRL.SPARE_FOR 0, 16)]

theorem witness_retirements : (failing 0x10 [] (lists ⟨0, 0, 1, 0⟩)).retire 0 0 = some ⟨0, 0, 1, 0⟩ ∧
    (failing 0x10 spares id).retire 0 0 = none ∧ (failing 0x10 spares id).active 0 = true ∧ (failing 0x10 spares id).slHusked 0 = false ∧
    (failing 0x10 spares id).retireAsked (0x10 + 0) = true ∧
    ((failing 0x10 [] (lists ⟨4, 0, 1, 5⟩)).fw.retiring.find? fun x => (x.unit == 3 || x.unit == 4) && x.number == 0) = some ⟨4, 0, 1, 5⟩ ∧
    (failing 0x10 [] (lists ⟨4, 0, 1, 5⟩)).on (SL_CTRL.MOVE_BUSY 0) = false ∧
    ((failing 0x10 spares word5).fw.retiring.find? fun x => (x.unit == 3 || x.unit == 4) && x.number == 0) = none ∧
    (failing 0x10 spares word5).faultyWay 0 = some (false, 5) ∧ 16 ≤ (failing 0x10 spares word5).rd (SL_HC_CTRL.SPARE_FOR 0) ∧
    (failing 0x22 [] (lists ⟨1, 0, 1, 0⟩)).retire 1 0 = some ⟨1, 0, 1, 0⟩ ∧ (failing 0x22 [(MF_CH_STATE.STATE 0, 3)] id).retire 1 0 = none ∧
    (failing 0x22 [(MF_CH_STATE.STATE 0, 3)] id).chState 0 = 3 ∧
    (failing 0x22 [(MF_CH_STATE.STATE 0, 3)] id).on (FLT_SRC_COUNT.RETIRED (0x22 + 0)) = false ∧
    (failing 0x4A [(BOOT_CORE_MAP.CORES, 0x688)] id).retire 2 0 = none ∧
    (failing 0x4A [(BOOT_CORE_MAP.CORES, 0x688)] id).retireAsked (0x4A + 0) = true ∧
    ((List.finRange 4).find? fun j => (failing 0x4A [(BOOT_CORE_MAP.CORES, 0x688)] id).physCore j.val == 0) = some (0 : LogicalCore) ∧
    (failing 0x4A [(BOOT_CORE_MAP.CORES, 0x688)] id).spareCore = some 4 := by decide +kernel

theorem witness_remaps : (sv 2 []).remapOpen (.slice 0) = true ∧ (sv 2 []).installRefused (.slice 0) 1023 0 0 false = true ∧
    (sv 2 []).installRefused (.slice 0) 0 0 5 false = false ∧
    (slOf (sv 2 []) fun x => { x with copying := some (0, 1, 5) }).copying (.slice 0) = some (0, 1, 5) ∧ (sv 1 []).remapOpen .device = true ∧
    (sv 1 []).installRefused .device 32 0 1023 true = false ∧ (sv 1 []).mode = 1 ∧ 32 < 33 ∧ macroWords .device 16 ≠ 0 ∧
    2 ≤ (sv 2 []).mode ∧ 5 < macroWords .device 16 := by decide +kernel

def unlocked : State := slOf (sv 2 [(SL_ECC_TEST_UNLOCK.UNLOCKED 0, 1)]) fun x => { x with eccUntil := some 0 }

theorem witness_test_mode : (sv 2 []).mode ≠ 0 ∧ (0xC0DE#16) ≠ 0x5EED#16 ∧
    ((slOf (timed (sv 2 []) 1) fun x => { x with ecc := some 0 }).sl 0).ecc = some 0 ∧ (timed (sv 2 []) 1).now ≤ 0 + 1 ∧
    (unlocked.sl 0).eccUntil = some 0 ∧ 0 ≤ unlocked.now ∧ unlocked.on (SL_ECC_TEST_UNLOCK.UNLOCKED 0) = true ∧
    (sv 2 []).on (SL_ECC_TEST_UNLOCK.UNLOCKED 0) = false ∧ getBits (0x20000000#64) 29 1 = 1 := by decide +kernel

def scrub (l : List (Fld × Nat)) (f : Slice → Slice) : State := slOf (sv 2 ((SCRUB_STATUS.BUSY, 1) :: l)) f
def medium : List (Fld × Nat) := [(SCRUB_TARGET.MEDIA, 1), (SCRUB_STATUS.MEDIA_PENDING, 1)]

/-- The scrub agent holds the tracker of line 0 for a deferred finding. -/
def revisiting : State :=
  scrub [] fun x => { x with deferred := [(.hcData, 0)], trackers := [tk 1 (agentReq 1 .scrub 0 0) .data false] }

theorem witness_scrub : (sv 2 []).on SCRUB_STATUS.BUSY = false ∧ (sv 2 []).scrubError ≠ 0 ∧
    (sv 2 [(SCRUB_TARGET.MEDIA, 1), (GLB_CAPS.DPA_REGIONS, 16)]).scrubError = 0 ∧ (scrub [] id).on SCRUB_STATUS.BUSY = true ∧
    (let s := scrub [(SCRUB_TARGET.SF, 1), (SCRUB_STATUS.PENDING, 1)] id
     s.mode = 2 ∧ s.on SCRUB_STATUS.BUSY = true ∧ s.scrubbing 0 = true ∧ s.nextPlace 0 = some (rankOf .filter, 0) ∧ s.eccIdle 0 = true) ∧
    (scrub [(SCRUB_STATUS.CTRL_PENDING, 1)] id).on SCRUB_STATUS.CTRL_PENDING = true ∧
    (scrub [(SCRUB_STATUS.CTRL_PENDING, 1)] id).scrubWord = 0 ∧ 0 + 1 < controlWords ∧
    (∀ j < 3, ((scrub [(SCRUB_STATUS.CTRL_PENDING, 1)] id).validCopy 0 j).getLsbD 0 = false) ∧
    (let s := scrub ((MF_GROUP_MAP.GSTATE 0, 1) :: medium) id
     s.on SCRUB_STATUS.MEDIA_PENDING = true ∧ s.scrubPaced = true ∧ s.openBatch 0 0 = none ∧ s.abnormal 0 = true ∧
       s.scrubStripe + 1 < (s.rd SCRUB_RANGE.LIMIT_CHUNK + 1 - s.rd SCRUB_RANGE.BASE_CHUNK) * 2 ^ 17) ∧
    ({ scrub medium id with scrubSecond := 0, scrubVisits := 1024 }).scrubPaced = false ∧
    revisiting.scrubHeld 0 = some (tk 1 (agentReq 1 .scrub 0 0) .data false) ∧ (revisiting.sl 0).deferred = [(.hcData, 0)] ∧
    revisiting.placeLine 0 0 0 = (agentReq 1 .scrub 0 0).line ∧ (revisiting.way 0 (0 / 17) (0 % 17)).tagA.valid = false ∧
    (scrub [] id).scrubHeld 0 = none ∧ ((scrub [] id).sl 0).deferred = [] ∧ (sv 2 []).settingNat 0x0058 ≠ 0 ∧
    ({ sv 2 [] with store := { State.reset.store with factory := [] } }).settingNat 0x0058 = 0 := by decide +kernel

theorem witness_regions : (sv 1 []).regionRefused 0 0x10002#32 = true ∧ (sv 1 [(GLB_CAPS.DPA_REGIONS, 1)]).regionRefused 0 0x10001#32 = false ∧
    (sv 1 []).mode = 1 ∧ (∀ j < 16, (sv 1 []).on (mapHold j) = false) ∧ (sv 1 []).slHusked 0 = false ∧
    ((List.range 8).all fun j => decide (getBits (0x0706050403020100#64) (8 * j) 5 ≤ 17) &&
      !(sv 1 []).on (SL_CTRL.HUSK (getBits (0x0706050403020100#64) (8 * j) 5))) = true ∧
    ((List.range 8).all fun j => decide (getBits (0x1F#64) (8 * j) 5 ≤ 17)) = false ∧ getBits (0x1F#64) 0 5 ≠ (sv 1 []).rd (mapPs 0) ∧
    (∀ j < 8, getBits 0x80#64 (8 * j) 5 = (sv 1 []).rd (mapPs j)) ∧
    (sv 1 [(GLB_HASH_CTRL.LOCK, 1)]).on GLB_HASH_CTRL.LOCK = true ∧ (sv 1 []).on GLB_HASH_CTRL.LOCK = false ∧
    (sv 1 [(SL_CTRL.HUSK 0, 1)]).slHusked 0 = true ∧ (sv 1 []).rd (SL_LOGICAL_ID.HEALTH 0) = 0 ∧ ((sv 1 []).sl 0).ingress = [] ∧
    ((List.range 4).map fun k => getBits (0x688#64) (3 * k) 3).Nodup ∧
    (∀ c ∈ (List.range 4).map fun k => getBits (0x688#64) (3 * k) 3, (sv 1 [(BOOT_CORE_MAP.HEALTHY, 31)]).rd BOOT_CORE_MAP.HEALTHY / 2 ^ c % 2 = 1) := by
  decide +kernel

def queue (q : Nat) (f : PodQueue → PodQueue) : State := (sv 1 []).modPq q f
def item : PqItem := ⟨5#128, 0, 16, true⟩

theorem witness_queues : 70 ≤ (75 : QueueId).val ∧ ((sv 1 []).pq 70).drain = [] ∧ ((sv 1 []).pq 70).fill = [] ∧
    ((queue 75 fun y => { y with drain := [item] }).pq 75).drain = [item] ∧ (sv 1 []).on (PQ_CTRL.ORDER 75) = false ∧ item.vbc ≤ 16 ∧
    (69 : QueueId).val < 70 ∧ (sv 1 []).captureOpen = true ∧ (sv 2 []).captureOpen = false ∧ getBits (0x800000000#64) 35 1 = 1 ∧
    getBits (0x341424344#64) 35 1 = 0 ∧ getBits (0x341424344#64) 34 1 = 0 ∧
    ((sv 1 []).pq 75).openBytes.length + getBits (0x341424344#64) 32 2 + 1 < 16 ∧ (75 : QueueId).val ≠ 74 ∧
    (sv 1 [(PQ_STATUS.RESET_SEEN 3, 1)]).on (PQ_STATUS.RESET_SEEN 3) = true := by decide +kernel

/-- The secondary mailbox with a command's opcode and input, rung, firmware running. -/
def mail (m : Nat) (opcode : Nat) (input : List Byte) (l : List (Fld × Nat)) (f : State → State) : State :=
  f ((sv m ((MBX_CTRL.S_DOORBELL, 1) :: (BOOT_STATUS.ROM_DONE, 1) :: l)).modMbx .secondary fun x =>
    { x with opcode := BitVec.ofNat 16 opcode, len := input.length, payload := input })

def workOf (op arg arg2 : Nat) (s : State) : State :=
  { s with fw := { s.fw with bg := some ⟨.secondary, BitVec.ofNat 16 op, arg, arg2⟩ } }

theorem witness_mailbox : (sv 0 []).mbxReachable .secondary = false ∧ (mail 2 0 [] [] id).on (bellFld .secondary) = true ∧
    (sv 2 []).mbxReachable .secondary = true ∧ (sv 2 []).on (bellFld .secondary) = false ∧
    (sv 2 [(MBX_CTRL.S_CLOSED, 1)]).on (closedFld .secondary) = true ∧ (sv 2 []).on (closedFld .secondary) = false ∧
    (sv 2 []).fw.bg = none ∧ (workOf 0xC103 3 0 (sv 2 [(GLB_MODE.CHANGING, 1)])).fw.bg = some ⟨.secondary, 0xC103#16, 3, 0⟩ ∧
    (workOf 0xC103 3 0 (sv 2 [(GLB_MODE.CHANGING, 1)])).bgEnded ⟨.secondary, 0xC103#16, 3, 0⟩ = none ∧
    (0xC103#16 ≠ 0xC1A0#16) ∧ (workOf 0xC103 3 0 (sv 2 [])).bgEnded ⟨.secondary, 0xC103#16, 3, 0⟩ = some 0 ∧
    mailboxForm (.getHomeStatus .secondary) = some (.secondary, 0xC100, some 0) ∧
    (mail 2 0xC100 [] [] id).mayAnswer .secondary = true ∧ ((mail 2 0xC100 [] [] id).mbx .secondary).opcode.toNat = 0xC100 ∧
    (mail 4 0xC100 [] [] fun s => aon s fun a => { a with drain := some .close }).drainClosing = true ∧
    (mail 2 0xC100 [1#8] [] id).drainClosing = false ∧ ((mail 2 0xC100 [1#8] [] id).ctrlRead (.payload .secondary) 0 1).2.2 = false ∧
    (0 : Nat) ≠ ((mail 2 0xC100 [1#8] [] id).mbx .secondary).len := by decide +kernel

/-- What `State.Holds` says, checked. -/
def holds (s : State) (mb : Mailbox) (op : Nat) (input : List Byte) : Bool :=
  decide (s.mayAnswer mb = true ∧ (s.mbx mb).opcode.toNat = op ∧ s.drainClosing = false ∧ (s.mbx mb).len = input.length ∧
    input.length ≤ 4096 ∧ s.devErrors = [] ∧ ((List.range input.length).map fun i => s.ctrlData (.payload mb) (0 + i)) = input)

theorem holds_of {s : State} {mb : Mailbox} {op : Nat} {input : List Byte} (h : holds s mb op input = true) : s.Holds mb op input := by
  obtain ⟨may, code, open_, len, small, clean, bytes⟩ := of_decide_eq_true h
  exact ⟨may, code, open_, len, small, by rw [s.ctrlRead_payload mb 0 _ clean, bytes]⟩

def m2 (op : Nat) (input : List Byte) : State := mail 2 op input [] id

/-- The inputs of reading commands, well formed. -/
def readInputs : List (Nat × List Byte) :=
  [0xC100, 0xC111, 0xC121, 0xC130, 0xC140, 0x0200, 0x0100, 0x4000, 0x1234].map (·, []) ++
  [(0xC170, [1#8, 0#8, 1#8, 0#8]), (0xC172, leBytes 4 127), (0xC172, leBytes 4 128), (0xC180, leBytes 2 0x20),
    (0xC1A1, leBytes 2 16383), (0xC151, leBytes 2 0 ++ 1#8 :: List.replicate 5 0#8), (0xC151, leBytes 2 0 ++ List.replicate 6 0#8)]

theorem witness_read_inputs : ∀ e ∈ readInputs, (m2 e.1 e.2).Holds .secondary e.1 e.2 :=
  have all : readInputs.all (fun e => holds (m2 e.1 e.2) .secondary e.1 e.2) = true := by decide +kernel
  fun e h => holds_of (List.all_eq_true.mp all e h)

/-- A list with one loss, in a sound word. -/
def lossy : State :=
  { m2 0xC151 (leBytes 2 0 ++ 1#8 :: List.replicate 5 0#8) with ownerLoss := [7#64], valid := [(96, 1#2048), (97, 1#2048), (98, 1#2048)] }

theorem witness_losses : lossy.Holds .secondary 0xC151 (leBytes 2 0 ++ 1#8 :: List.replicate 5 0#8) ∧ lossy.ownerLoss = [7#64] ∧
    (∀ j < 1, lossy.lossBad j = false) ∧ (lossy.ctrlRead .loss 0 8).1 = lossy ∧ (lossy.ctrlRead .loss 0 8).2.2 = false := by
  have sound := lossy.ctrlRead_sound .loss 0 8 fun k hk m w up h => by
    have hk : k = 0 := by simpa [halvesOf] using hk
    subst hk
    have h : (32, 0, false) = (m, w, up) := Option.some.inj h
    cases h
    have valid : lossy.wordValid 32 0 = true ∧ (lossy.validCopy 32 0).getLsbD 0 = true ∧ (lossy.validCopy 32 1).getLsbD 0 = true ∧
        (lossy.validCopy 32 2).getLsbD 0 = true := by decide +kernel
    exact ⟨by simp [State.readValid, valid], fun _ => by decide +kernel⟩
  exact ⟨holds_of (by decide +kernel), rfl, by decide +kernel, by rw [sound], by rw [sound]⟩

/-- No mailbox command names the opcode of an Unsupported one. -/
theorem witness_no_command (c : Instr) (mb : Mailbox) (n : Option Nat) : mailboxForm c ≠ some (mb, 0x1234, n) := by
  cases c <;> simp [mailboxForm]

/-- SERVE with a mailbox command held, every region installed and an entry of region 0. -/
def regionOf (op : Nat) (input : List Byte) (k : Word) : State :=
  slOf (mail 2 op input [(GLB_CAPS.DPA_REGIONS, 16384), (SL_LOGICAL_ID.VALID 0, 1)] id) fun x => { x with regions := [(0, k.setWidth 32)] }

/-- The inputs of writing commands, well formed or of the kind a clause refuses. -/
def writeInputs : List (Nat × List Byte) :=
  [(0xC101, leBytes 1 1), (0xC101, leBytes 1 128), (0xC101, leBytes 1 129), (0xC101, [0#8]), (0xC102, [0#8]), (0xC102, [1#8]),
    (0xC103, [4#8]), (0xC103, [3#8]), (0xC103, [5#8]), (0xC110, leBytes 8 0 ++ leBytes 8 (64 * (2 ^ 42 - 1)) ++ leBytes 8 1),
    (0xC120, leBytes 8 0x40 ++ leBytes 4 0 ++ leBytes 4 0 ++ leBytes 8 1), (0xC131, leBytes 8 0x5C ++ leBytes 8 0x1001),
    (0xC141, [1#8, 0#8, 0#8, 1#8, 0#8, 0#8, 0#8, 0#8])] ++
  [(0xC150, leBytes 2 0 ++ leBytes 1 1), (0xC160, 1#8 :: List.replicate 15 0#8), (0xC171, leBytes 8 1 ++ leBytes 8 2),
    (0xC171, leBytes 8 0x11 ++ leBytes 8 2), (0xC181, leBytes 8 0x10 ++ leBytes 8 1), (0xC181, leBytes 8 0x20 ++ leBytes 8 1),
    (0xC190, leBytes 2 0 ++ 1#8 :: List.replicate 5 0#8), (0xC1A0, leBytes 4 0 ++ leBytes 4 0), (0x0201, []), (0x0202, []), (0x0101, [])]

theorem witness_write_inputs : ∀ e ∈ writeInputs, (m2 e.1 e.2).Holds .secondary e.1 e.2 :=
  have all : writeInputs.all (fun e => holds (m2 e.1 e.2) .secondary e.1 e.2) = true := by decide +kernel
  fun e h => holds_of (List.all_eq_true.mp all e h)

theorem witness_writing :
    (m2 0xC101 []).fw.bg = none ∧ (m2 0xC103 []).mode = 2 ∧ (m2 0xC103 []).on GLB_MODE.CHANGING = false ∧
    (m2 0xC103 []).dormBlocked = false ∧ (m2 0xC110 []).on HC_RANGE_STATUS.BUSY = false ∧ (m2 0xC120 []).on SCRUB_STATUS.BUSY = false ∧
    (0x1001#64) &&& 0xFFFF8000#64 = 0#64 ∧ (mail 2 0xC141 [] [(MF_CH_STATE.STATE 0, 1)] id).rd (MF_CH_STATE.STATE 0) = 1 ∧
    (mail 2 0xC141 [] [(MF_CH_STATE.STATE 0, 1)] id).spareChannel.isSome = true ∧ (m2 0xC141 []).fw.retiring = [] ∧
    rgTracked ((regionOf 0xC150 [] 0x10002#64).regionEntry 0) = true ∧ sampleRefused 1#64 = false ∧ sampleRefused 0x11#64 = true ∧
    ownerKey 0x10 = true ∧ ownerKey 0x20 = false ∧
    ((m2 0xC190 []).modMf fun m => { m with unknownRegions := [0] }).mf.unknownRegions = [0] ∧
    (m2 0xC1A0 []).regionRefused 0 0#32 = false ∧ (1#2).toNat ≠ (m2 0x0201 []).boot.slot ∧ (m2 0x0201 []).store.stopped = false ∧
    ((m2 0x0202 []).store.image (1#2).toNat).valid = true ∧ (m2 0x0202 []).on BOOT_ACT.TRIAL = false ∧
    ((m2 0x0202 []).store.image 1).oldestLayout ≤
      ({ m2 0x0202 [] with boot := { State.reset.boot with running := FwImage.factory } }).boot.running.train ∧
    0 ≤ ((m2 0x0101 []).fw.logs.look [] 0).length := by decide +kernel

theorem witness_spdm : (sv 0 []).mode = 0 ∧ (sv 2 []).on BOOT_STATUS.ROM_DONE = false ∧ (m2 0 []).on BOOT_STATUS.ROM_DONE = true ∧
    (m2 0 []).mode ≠ 0 ∧ (m2 0 []).on BOOT_STATUS.MISMATCH = false ∧ (sv 2 [(BOOT_STATUS.MISMATCH, 1)]).on BOOT_STATUS.MISMATCH = true ∧
    5 < (254#8).toNat ∧ (254#8).toNat < 255 := by decide +kernel

def booting (step : Nat) (l : List (Fld × Nat)) (f : Boot → Boot) : State :=
  { sv 1 l with boot := f { State.reset.boot with step := step } }
def loadAt (block failures : Nat) (boot : Bool) (s : State) : State :=
  { s with boot := { s.boot with load := some ⟨1, false, block, failures, boot⟩ } }
def enforced : OwnerCopy := ⟨true, 1, [⟨0x0070, 1#64, true⟩]⟩

/-- Every block of the factory image has the hash that its header gives. -/
theorem factory_good (k : Nat) (h : k < 60) : blockGood FwImage.factory k = true := by
  cases k with
  | zero => rfl
  | succ k =>
    have hk : k < 59 := by omega
    simp [blockGood, blockDigest, blockNumber, FwImage.factory, hk]

theorem loading_at (block : Nat) (boot : Bool) (m : Nat) : (loadAt block 0 boot (sv m [])).loading ⟨1, false, block, 0, boot⟩ := by
  have image : (loadAt block 0 boot (sv m [])).store.image 1 = FwImage.factory := rfl
  refine ⟨rfl, ?_⟩
  simp only [image]
  exact ⟨rfl, by decide, fun k hk => factory_good k hk⟩

theorem witness_boot : (booting 0 [] id).mode = 1 ∧ (booting 0 [] id).boot.halted = false ∧ (booting 7 [] id).boot.load = none ∧
    ((booting 6 [] id).store.setting 0x0070).getD 0#64 = 0#64 ∧
    ({ booting 6 [] id with store := { State.reset.store with copyA := enforced } }).store.setting 0x0070 = some 1#64 ∧
    ({ booting 6 [] id with store := { State.reset.store with copyA := enforced } }).store.owner = some enforced ∧
    (booting 7 [] id).rd BOOT_LOG.NEXT = (booting 7 [] id).boot.log.length ∧ (booting 7 [] id).boot.log.length < 251 ∧
    (booting 8 [] id).on BOOT_STATUS.MISMATCH = false ∧ (booting 8 [] fun b => { b with invalidated := true }).boot.invalidated = true ∧
    0 + 1 < ((sv 1 []).store.image 1).blocks ∧ ((sv 1 []).store.image 1).blocks ≤ 59 + 1 ∧
    (loadAt 3 3 true (sv 1 [])).boot.load = some ⟨1, false, 3, 3, true⟩ ∧
    (booting 3 [] fun b => { b with triedOther := true }).boot.triedOther = true := by decide +kernel

theorem witness_activation : (sv 2 [(BOOT_ACT.BUSY, 1)]).on BOOT_ACT.BUSY = true ∧ (sv 2 []).on BOOT_ACT.BUSY = false ∧
    (sv 2 [(BOOT_ACT.STANDBY_VALID, 1), (BOOT_ACT.STANDBY_SLOT, 1)]).on BOOT_ACT.STANDBY_VALID = true ∧
    (sv 2 [(BOOT_ACT.STANDBY_VALID, 1), (BOOT_ACT.STANDBY_SLOT, 1)]).rd BOOT_ACT.STANDBY_SLOT = (1#2).toNat ∧
    (sv 2 []).on BOOT_ACT.STANDBY_VALID = false ∧ (sv 2 [(BOOT_STATUS.ROM_DONE, 1)]).on BOOT_STATUS.ROM_DONE = true ∧
    (sv 4 []).mode = 4 ∧ (sv 2 [(BOOT_ACT.TRIAL, 1)]).on BOOT_ACT.TRIAL = true ∧ (sv 2 []).store.stopped = false ∧
    (sv 2 []).on BOOT_ACT.TRIAL = false ∧ (timed { sv 2 [] with boot := { State.reset.boot with trialUntil := some 5 } } 5).boot.trialUntil = some 5 ∧
    5 ≤ (timed (sv 2 []) 5).now ∧ (timed (sv 2 []) 4).now < 5 ∧
    ({ sv 2 [] with store := { State.reset.store with programs := [.repair .close] } }).store.programs = [.repair .close] ∧
    (sv 2 []).store.programs = [] := by decide +kernel

theorem witness_activation_canonical : (sv 2 [(BOOT_STATUS.ROM_DONE, 1)]).Canonical ∧
    (timed { sv 2 [] with boot := { State.reset.boot with trialUntil := some 5 } } 5).Canonical :=
  ⟨canonical_sv _ _, { canonical_sv 2 [] with }⟩

/-- A descriptor that copies 64 bytes from DPA 0 to DPA 64, last of its list, and the words of one with the reserved operation 3. -/
def copy64 : Descriptor := ⟨true, 0#64, 0#2, false, false, false, false, 0#64, 64#64, 64, 1, 0, 64, 1, 0, 0#128⟩
def dmaAt (st : Nat) (l : List (Fld × Nat)) (f : DmaState → DmaState) : State :=
  { sv 2 ((DC_STATUS.STATE 0, st) :: (GLB_CAPS.DPA_REGIONS, 1) :: l) with dma := [(0, f DmaState.idle)] }

theorem witness_dma : (dmaAt 0 [] id).dcState 0 = 0 ∧ (dmaAt 4 [] id).dcState 0 = 4 ∧ (sv 2 []).on (DC_CTRL.DISABLE 8) = false ∧
    (dmaAt 1 [] id).dcState 0 = 1 ∧ (dmaAt 2 [] id).dcState 0 = 2 ∧ (dmaAt 2 [] id).dmaClosed = false ∧ ((dmaAt 2 [] id).chan 0).desc = none ∧
    ((dmaAt 2 [] id).chan 0).reading = none ∧ (dmaAt 3 [] id).dcState 0 = 3 ∧ (sv 2 [(DC_STATUS.STATE 8, 1)]).dcState 8 = 1 ∧
    (sv 2 [(DC_STATUS.STATE 8, 5)]).dcState 8 = 5 ∧ ((sv 2 []).chan 8).writesOut = [] ∧
    ((dmaAt 1 [] id).engine 0).running = none ∧ ((dmaAt 1 [] id).engine 0).stopped = false ∧ (dmaAt 1 [] id).engineBusy 0 = false ∧
    (dmaAt 1 [] id).nextReady 0 = some 0 ∧ (dmaAt 1 [] id).on (DC_CTRL.PAUSE 0) = false ∧
    2 ^ 63 ≤ (dmaAt 1 [(DC_DESC_PTR.ADDR 0, 2 ^ 56 + 0x4000)] id).descAddr 0 ∧
    (dmaAt 1 [(DC_DESC_PTR.ADDR 0, 2 ^ 56 + 0x4000)] id).descPlace ((dmaAt 1 [(DC_DESC_PTR.ADDR 0, 2 ^ 56 + 0x4000)] id).descAddr 0) = true ∧
    ((dmaAt 2 [] fun x => { x with reading := some .descriptor }).chan 0).reading = some .descriptor ∧
    (dmaAt 2 [] id).descAddr 0 < 2 ^ 63 ∧ (dmaAt 2 [] id).descBad 0 (BitVec.allOnes 1024) = true ∧ (dmaAt 2 [] id).descBad 0 0#1024 = false ∧
    (dmaAt 2 [] id).rangeFault 0 (descOf 0#1024) = none ∧
    ((dmaAt 2 [] fun x => { x with reading := some .source, desc := some copy64 }).chan 0).desc = some copy64 ∧
    (copy64.srcAt 0).1 < 2 ^ 63 ∧ ((dmaAt 2 [] fun x => { x with desc := some copy64, wr := 64 }).chan 0).wr = 64 ∧ copy64.length ≤ 64 ∧
    (copy64.op ≠ 2#2 ∧ copy64.last = true) ∧ ((dmaAt 2 [] fun x => { x with writesOut := [0] }).chan 0).writesOut ≠ [] := by decide +kernel

theorem witness_counters : (sv 0 []).mode = 0 ∧ (sv 1 []).mode ≠ 0 ∧ (sv 1 []).slHusked 0 = false ∧ sampleRefused 0x11#64 = true ∧
    sampleRefused 0x500000001#64 = false ∧ (sv 1 []).on PMU_SAMPLE_CTRL.EN = false ∧ getBits (0x500000001#64) 0 1 = 1 ∧
    getBits (0x500000001#64) 2 1 = 0 ∧ getBits (0x500000001#64) 4 5 = 0 ∧ ({ sv 1 [] with samples := [1#256] }).samples = [1#256] ∧
    (sv 1 []).samples = [] ∧ 0x4C004 % 8 ≠ 0 ∧ (0x18 % 8 = 0 ∧ 0x18 < 0x1000 ∧ 0x10 < 0x18) ∧ (sv 1 [(SL_CTRL.HUSK 0, 1)]).slHusked 0 = true ∧
    (0x14000 % 8 = 0 ∧ 0x14000 < 0x20000) ∧ (sv 1 [(HC_RANGE_STATUS.BUSY, 1)]).on HC_RANGE_STATUS.BUSY = true ∧
    getBits (1#64) 0 1 = 1 := by decide +kernel

/-! ### Values of the spec's examples -/

/-- 01, the example under R26 and its table of fields: DPA 0x1234_5678_9A00. -/
theorem test_home_hash : (sv 2 []).lsOf (lineOf 0x123456789A00#64) = 11 ∧ (sv 2 []).lsOf (lineOf 0x123456789B00#64) = 10 ∧
    hcSet (lineOf 0x123456789A00#64) = 0x268 ∧ hcTag (lineOf 0x123456789A00#64) = 0x2468ACF ∧ sfSet (lineOf 0x123456789A00#64) = 0x789A ∧
    sfTag (lineOf 0x123456789A00#64) = 0x2468AC ∧ chunkOf (lineOf 0x123456789A00#64) = 0x48D15 := by decide +kernel

/-- 06, the example under R182: groups, slots and parity slots. -/
theorem test_stripes : Machine.groupOf (lineOf 0x123456789A00#64) = 1 ∧ paritySlot (stripeOf (lineOf 0x123456789A00#64)) = 1 ∧
    slotOf (lineOf 0x123456789A00#64) = 2 ∧ slotOf (lineOf 0x123456789BC0#64) = 0 ∧ slotOf (lineOf 0x12345678A200#64) = 3 ∧
    64 * stripeOf (lineOf 0x123456789A00#64) = 0x91A2B3C4C0 := by decide +kernel

/-- 03, the entry written at step 3 of the example. -/
theorem test_directory_entry : deOwned 2#2 0x02A#12 5 0x003#12 false = 0x000D40AA#32 := by decide +kernel

/-- 16, the example's register addresses. -/
theorem test_register_addresses : HP_STATUS.reg 5 = 0x11408 ∧ HP_STATUS.reg 2 = 0x10808 ∧ FLT_SRC_CFG.reg 0x49 = 0x50248 ∧
    SL_DVFS.reg 16 = 0x30018 ∧ PQ_STATUS.reg 72 = 0x5C808 ∧ SL_ECC_TEST.reg 11 = 0x2B048 := by decide +kernel

/-- 13, the example under R420: FENCE from HP5 at incarnation 4, and BI_WARN. -/
theorem test_notice_words : noticeWord 0x11 3 1 5 4 0x400000040 = 0x00000004000000400000000004050311#128 ∧
    (noticeWord 0x10 1 1 5 0 0).extractLsb' 0 64 = 0x50110#64 := by decide +kernel

/-- 05, the example under R163. -/
theorem test_quota : (sv 2 [(GLB_DIRTY_BUDGET.BUDGET_MIB, 64)]).quota = 65536 ∧ (sv 2 [(GLB_DIRTY_BUDGET.BUDGET_MIB, 18)]).quota = 18432 := by
  decide +kernel

/-- What a check sees of a next state; false of a fault and of a refusal. -/
def after (o : Outcome State Fault Refusal) (f : State → Bool) : Bool :=
  match o with
  | .next t => f t
  | _ => false

/-- 03, step 1 of the example: L0 in S of hosts 1 and 2, Clean in the home cache, read by host 5 with SnpData. -/
def example3 : State :=
  let line := 0x800000100 / 64
  let hp (h : Nat) : List (Fld × Nat) := [(HP_CTRL.ENABLE h, 1), (HP_STATUS.LINK h, 1), (HP_STATUS.BI_EN h, 1)]
  let s := sv 2 (hp 1 ++ hp 2 ++ hp 5 ++ [(SL_LOGICAL_ID.VALID 9, 1), (SL_LOGICAL_ID.LS 9, 9), (mapPs 9, 9), (GLB_CAPS.DPA_REGIONS, 16),
    (GLB_EPOCH.EPOCH, 0x2A), (SL_HC_CTRL.SPARE_FOR 9, 16), (SL_CTRL.SF_SPARE_FOR 9, 16)])
  let e : FilterEntry := ⟨sfTag line, true, 0x6#16, 0b1001#8, 2, 7#4⟩
  let t : TagWord := { TagWord.empty with tag := hcTag line, valid := true }
  let s1 := s.modSl 9 fun x => { x with
    regions := [(2, 0x260001#32)], cache := [(hcSet line * 17, ⟨t, t, 3#512⟩)],
    filter := [(sfSet line * 17, ⟨e, sfTag line, true⟩)] }
  s1.modPort 5 fun x => { x with ndr := 4, drs := 4 }
theorem test_read_shared : after (exec (.rdShared 5 0x800000100#64 9#16) example3) (fun t =>
    (t.sfEntry 9 (0x800000100 / 64)).any (fun e => e.presence == 0x26#16 && e.lst 0 == 1) &&
    t.out.any (fun o => o == .s2m 5 (.cmp 9#16 .cmpS .light) 0 .noOp) &&
    t.out.any (fun o => o == .s2m 5 (.memData 9#16 3#512 false .light) 0 .noOp)) = true := by
  decide +kernel

/-- 01, the example under R32: LS11 is held, then moved from PS11 to PS16 with HOLD_3 still 1. -/
theorem test_slice_map : after (exec (.sliceMapWrite true 0x0F0E0D0C8B0A0908#64) (sv 2 ((List.range 16).map fun j => (mapPs j, j)))) (fun t =>
    t.on (mapHold 11) && t.psOf 11 == 11 && after (exec (.sliceMapWrite true 0x0F0E0D0C900A0908#64) t) fun u =>
      u.psOf 11 == 16 && u.on (mapHold 11)) = true := by decide +kernel

/-- 11, the example's last row: CNT_B of source 0x17 reaches N; PERM is set in the source and both counters are cleared. -/
theorem test_threshold : after (exec (.majorEvent 0x17 94#40) (sv 2 [(FLT_SRC_CFG.N 0x17, 4), (FLT_SRC_COUNT.CNT_A 0x17, 1),
      (FLT_SRC_COUNT.CNT_B 0x17, 3)])) (fun t =>
    t.on (FLT_SRC_COUNT.PERM 0x17) && t.rd (FLT_SRC_COUNT.CNT_A 0x17) == 0 && t.rd (FLT_SRC_COUNT.CNT_B 0x17) == 0) = true := by decide +kernel

/-- 13, steps 2 and 6 of the example: the drain bank is empty, the banks swap, the item of higher priority is read; then the idle item. -/
theorem test_queue_swap : after (exec (.pqDataRead 72 .full) ((sv 2 []).modPq 72 fun y => { y with
      fill := [⟨noticeWord 0x12 0 1 3 0 0, 0, 16, true⟩, ⟨noticeWord 0x10 1 1 5 0 0, 1, 16, true⟩] })) (fun t =>
    t.out == [.pqItem 72 0x50110#128] && (t.pq 72).fill.isEmpty && (t.pq 72).drain.length == 1) = true := by decide +kernel
theorem test_idle_item : after (exec (.pqDataRead 72 .full) (sv 2 [])) (fun t => t.out == [.pqItem 72 0#128]) = true := by decide +kernel

/-- 05 R160: a budget above 128 MiB is ignored. -/
theorem test_budget : after (exec (.dirtyBudgetWrite 129#64) (sv 2 [(GLB_DIRTY_BUDGET.BUDGET_MIB, 64)])) (fun t =>
    t.rd GLB_DIRTY_BUDGET.BUDGET_MIB == 64) = true := by decide +kernel

/-- 16, the example under R475: an arming write while UNLOCKED is 0 changes nothing. -/
theorem test_arm : after (exec (.eccTestArm 11 0x20000000#64) (sv 2 [])) (fun t => !t.on (SL_ECC_TEST.ARM 11)) = true ∧
    after (exec (.eccTestArm 11 0x20000000#64) (sv 2 [(SL_ECC_TEST_UNLOCK.UNLOCKED 11, 1)])) (fun t => t.on (SL_ECC_TEST.ARM 11)) = true := by
  decide +kernel

/-- 13, the example under R428: a disabled region 5 becomes tracked-private for host 9, its entry 0x0200_0032. -/
theorem test_region_entry : leBytes 4 5 ++ leBytes 4 0x02000032 = [5#8, 0#8, 0#8, 0#8, 0x32#8, 0#8, 0#8, 2#8] ∧
    (sv 2 [(GLB_CAPS.DPA_REGIONS, 16384)]).regionRefused 5 0x02000032#32 = false ∧
    rgMode 0x02000032#32 = 2 ∧ rgKey 0x02000032#32 = 3 ∧ needsRecall 0#32 0x02000032#32 = false := by decide +kernel

/-- 14, the example's descriptor: accepted; row 700 is read at 0x0010_0000_AF08. -/
def gather : BitVec 1024 :=
  BitVec.ofNat 1024 (1 + 0x900 * 2 ^ 64 + 0x1000000008 * 2 ^ 128 + 0x8000000000204000 * 2 ^ 192 + 0x40000000030 * 2 ^ 256 +
    0x40 * 2 ^ 320 + 0x10000C000 * 2 ^ 384)
theorem test_descriptor : (sv 2 [(GLB_CAPS.DPA_REGIONS, 16384)]).descBad 0x8000000000200000 gather = false ∧
    (descOf gather).length = 49152 ∧ (sv 2 [(GLB_CAPS.DPA_REGIONS, 16384)]).rangeFault 1 (descOf gather) = none ∧
    ((descOf gather).srcAt (700 * 48)).1 = 0x100000AF08 ∧ ((descOf gather).dstAt (700 * 48)).1 = 0x800000000020C340 := by decide +kernel

/-- 04, the example of a host reset: no urgent pass at B_3 0, and one at B_3 0x100. -/
theorem test_urgent_incarnation : (0x0FF#12 - 0x000#12).toNat = 255 ∧ (0x0FF#12 - 0x100#12).toNat = 4095 ∧
    after (exec (.hotReset 3) (sv 2 [(HP_CTRL.ENABLE 3, 1), (HP_STATUS.LINK 3, 1), (GLB_HOST_INCARN.INCARN 3, 0xFE)])) (fun t =>
      t.rd (GLB_HOST_INCARN.INCARN 3) == 0xFF && t.on (HP_STATUS.SWEEP 3) && t.on (HP_STATUS.HUSKED 3)) = true := by decide +kernel

/-- 08, the example under R271: an 8-byte access at 0x0010_0000_000C is not naturally aligned. -/
theorem test_alignment : aligned 0x10_0000_000C#64 8 = false ∧ aligned 0x10_0000_0008#64 8 = true := by decide +kernel

/-- 17 R499: a release before the rails have been in tolerance for 100 us leaves the state undefined. -/
theorem test_early_release : exec (.blockResetRelease false) (powered 0 fun a => { a with blockReset := true }) = .fault .stateUndefined := by
  rfl

/-- 15 R463: a jitter not below the interval is refused; a countdown of 5 is loaded. -/
theorem test_sampling : after (exec (.sampleCtrlWrite 0x500000041#64) (sv 2 [])) (fun t => t.on PMU_SAMPLE_CTRL.ERR) = true ∧
    after (exec (.sampleCtrlWrite 0x500000001#64) (sv 2 [])) (fun t => (t.sl 17).countdown == 5) = true := by decide +kernel

/-- 09 R290: a loss of power enters HOLD with PIP low. -/
theorem test_power_loss : after (exec .powerLoss (powered 2 fun a => { a with pip := true })) (fun t => t.mode == 0 && !t.aon.pip) = true := by
  decide +kernel

/-- 13 R423: Get Region Entry at a mailbox whose doorbell is 0 changes nothing. -/
theorem test_no_doorbell : exec (.getRegionEntry .secondary) (sv 2 []) = .next (sv 2 []) := by rfl

/-- 14 R437: a copy upwards by 16 bytes leaves its first 48 bytes undefined; one downwards is exact. Rows of a gather lie apart. -/
theorem test_overlap : ({ copy64 with dstBase := 16#64 } : Descriptor).loose = true ∧
    ((List.range 64).map fun i => copy64.inSource (16 + i)) = List.replicate 48 true ++ List.replicate 16 false ∧
    ({ copy64 with srcBase := 16#64, dstBase := 0#64 } : Descriptor).loose = false ∧
    (descOf gather).inSource 0x1000000037 = true ∧ (descOf gather).inSource 0x1000000038 = false ∧ (descOf gather).inSource 0x100000FFF7 = true ∧
    (descOf gather).inSource 0x1000010008 = false := by decide +kernel

end Sys2Proof.Tests
end

section
/-! PROOFS. The statements of chapter 1: how a host's request comes from its port to its home (02 R51; 01 R29, R30; 07 R221), and what a
write through the region port does where an injection is armed (01 R38; 10 R314, R341). -/

namespace Sys2Proof.Machine

/-! ### The way of a host's request to its home -/

/-- Each of the nine messages enters its port as the request that stands for it, at the address it carries. -/
theorem exec_of_hostRequestOf {s : State} {c : Instr} {h : HostId} {r : Request} (hr : hostRequestOf s c = some (h, r)) :
    exec c s = .next (s.hostRequest h r.cls (hostAddress c) r.tag r.data r.be r.poison r.shared) ∧
      r = ⟨s.nextId, r.cls, .host h, lineOf (hostAddress c), r.tag, r.data, r.be, r.poison, r.shared, none, s.now, s.inc12 h⟩ := by
  unfold hostRequestOf at hr
  split at hr
  all_goals cases hr
  all_goals exact ⟨rfl, rfl⟩

/-- In SERVE a live port numbers a message whose address fits, counts the data of a write, and sends it on its way. -/
theorem State.hostRequest_serve {s : State} {h : HostId} {addr : Word} (cls : ReqClass) (tag : BitVec 16) (data : LineData)
    (be : ByteMask) (poison shared : Bool) (hm : s.mode = 2) (hl : s.portLive h = true) (ha : addrFits addr = true) :
    s.hostRequest h cls addr tag data be poison shared =
      (if cls = .wrFull ∨ cls = .wrPtl then s.bump.count h.val 5 else s.bump).route
        ⟨s.nextId, cls, .host h, lineOf addr, tag, data, be, poison, shared, none, s.now, s.inc12 h⟩ := by
  have taken : ∀ r, s.bump.discards r = false := fun r => by simp [State.discards, hm]
  have serve : ∀ c : Prop, ∀ [Decidable c], (if c then s.bump.count h.val 5 else s.bump).mode ≠ 5 := fun c _ =>
    holds_of_ite (P := fun t : State => t.mode ≠ 5) (by simp [hm]) (by simp [hm])
  simp [State.hostRequest, hl, ha, taken, serve]

/-- Two states that differ in nothing but the performance counters and the number of the next message. -/
def State.Counted (s t : State) : Prop := t = { s with pmu := t.pmu, nextId := t.nextId }

theorem State.Counted.trans {s t u : State} (h : s.Counted t) (k : t.Counted u) : s.Counted u := by
  rw [State.Counted, k, h]

theorem State.counted_bump (s : State) : s.Counted s.bump := rfl

theorem State.Counted.count {s t : State} (h : s.Counted t) (u e k : Nat) : s.Counted (t.count u e k) := h.trans rfl

theorem State.Counted.countHost {s t : State} (h : s.Counted t) (p : HostId) (c : ReqClass) : s.Counted (t.countHost p c) :=
  h.trans (by cases c <;> rfl)

/-- What is counted has no part in where a request's home is. -/
theorem State.Counted.homeOf {s t : State} (h : s.Counted t) (line : Nat) : t.homeOf line = s.homeOf line := by
  rw [h]; rfl

/-- What is counted has no part in whether a request's way is open. -/
theorem State.Counted.openWay {s t : State} (h : s.Counted t) {r : Request} (w : s.openWay r) : t.openWay r := by
  rw [h]
  exact ⟨w.crossing, w.drains, w.hold, w.order, w.husk, w.front, w.takes⟩

/-- A host's request whose way is open leaves its ingress crossing, counted at its port. -/
theorem State.route_of_openWay {s : State} {r : Request} {h : HostId} (ha : r.agent = .host h) (w : s.openWay r) :
    s.route r = (s.countHost h r.cls).leaveStop r := by
  have free : ((s.crossing r.agent).isEmpty && !s.stopFull r) = true := by simp [w.crossing, w.drains]
  rw [State.route, if_pos free]
  simp only [ha]

/-- A request whose way is open is neither parked nor fenced off, and does not wait in the crossing of its home. -/
theorem State.leaveStop_of_openWay {s : State} {r : Request} (w : s.openWay r) :
    s.leaveStop r = s.atSlice (s.homeOf r.line) r := by
  obtain ⟨-, -, hold, order, husk, front, takes⟩ := w
  unfold State.homeOf at order husk front takes ⊢
  simp [State.leaveStop, State.deliver, hold, order, husk, front, takes]

/-- A request that answers no snoop, and finds its home's arrays idle and a tracker it may take, takes it; in SERVE a SPEC does so where
at most 384 trackers are in use and its region is not untracked-private. -/
theorem State.atSlice_startsTracker {s : State} {p : PhysSlice} {r : Request} (hm : s.mode = 2) (hb : s.bypass p r = none)
    (he : s.eccIdle p = true) (ha : s.mayAllocate p r = true)
    (hs : r.cls = .spec → (s.sl p).trkUsed ≤ 384 ∧ rgMode (s.region p r.line) ≠ 3) :
    s.atSlice p r = s.startTracker p r false := by
  have kept : ¬(r.cls = .spec ∧ (s.specDropped p r.line = true ∨ (!s.mayAllocate p r) = true)) := by
    rintro ⟨spec, dropped⟩
    obtain ⟨used, mode⟩ := hs spec
    have : s.specDropped p r.line = false := by simp [State.specDropped, hm, used, mode]
    simp [this, ha] at dropped
  have reached : s.atSlice p r = s.arrive p r := by simp [State.atSlice, hb]
  have found : s.lookupCheck p r.line = (s, true) := by simp [State.lookupCheck, he]
  simp only [reached, State.arrive, found]
  rw [if_neg (by simp), if_neg kept, if_pos ha]

/-- A host's request that takes a tracker at once has its link credit returned, of the data class exactly for a write (07 R224). -/
theorem State.startTracker_returnsCredit (s : State) (p : PhysSlice) {r : Request} {h : HostId} (ha : r.agent = .host h) (waited : Bool) :
    Out.creditReturn h (r.cls == .wrFull || r.cls == .wrPtl) ∈ (s.startTracker p r waited).out := by
  have kept : (s.returnCredit r).out <+: (s.startTracker p r waited).out := (State.beginTracker_evolves (Evolves.refl _)).out
  refine kept.subset ?_
  simp [State.returnCredit, ha]

/-- Settles O10: the message enters its port, leaves its stop, reaches its home and takes a tracker there, each by its own lemma. -/
theorem hostRequestTakesATracker : Obligations.HostRequestTakesATracker := by
  unfold Obligations.HostRequestTakesATracker
  intro s c h r hr hm hl hf w s1 p hs hb he ha
  obtain ⟨run, shape⟩ := exec_of_hostRequestOf hr
  have agent : r.agent = .host h := by rw [shape]
  have c0 : s.Counted (if r.cls = .wrFull ∨ r.cls = .wrPtl then s.bump.count h.val 5 else s.bump) :=
    holds_of_ite (s.counted_bump.count _ _ _) s.counted_bump
  have c1 : s.Counted s1 := c0.countHost h r.cls
  have mode : s1.mode = 2 := by rw [c1]; exact hm
  have taken : s.hostRequest h r.cls (hostAddress c) r.tag r.data r.be r.poison r.shared = s1.startTracker p r false :=
    calc
      _ = (if r.cls = .wrFull ∨ r.cls = .wrPtl then s.bump.count h.val 5 else s.bump).route r := by
        rw [State.hostRequest_serve _ _ _ _ _ _ hm hl hf, ← shape]
      _ = s1.leaveStop r := State.route_of_openWay agent (c0.openWay w)
      _ = s1.atSlice p r := by rw [State.leaveStop_of_openWay (c1.openWay w), c1.homeOf]
      _ = s1.startTracker p r false := State.atSlice_startsTracker mode hb he ha hs
  exact ⟨_, run, taken, taken ▸ s1.startTracker_returnsCredit p agent false⟩

/-! ### A region entry is half a code word -/

/-- Outside HOLD, a write through the region port of an entry that is not refused writes the entry's copies and its owner record. -/
theorem exec_regionPortWrite_accepted {s : State} {i : BitVec 14} {e : BitVec 32} (hm : s.mode ≠ 0)
    (ha : s.regionRefused i.toNat e = false) : exec (.regionPortWrite i e) s = .next (s.regionDone i.toNat e) := by
  simp [exec, execRegionPortWrite, hm, ha]

/-- SERVE, with the checker test mode of slice 0 unlocked and a write injection armed there for any lower code word of the region
table (10 R340, R341). -/
def regionInjectionArmed : State :=
  [(GLB_MODE.MODE, 2), (SL_ECC_TEST_UNLOCK.UNLOCKED 0, 1), (SL_ECC_TEST.ARRAY 0, 5), (SL_ECC_TEST.ON_WRITE 0, 1),
    (SL_ECC_TEST.MATCH_ANY 0, 1), (SL_ECC_TEST.LOWER_WORD 0, 1), (SL_ECC_TEST.ARM 0, 1)].foldl (fun s e => s.wr e.1 e.2) State.reset

theorem regionInjectionArmed_on_arm : regionInjectionArmed.on (SL_ECC_TEST.ARM 0) = true := by decide +kernel

/-- The write of region 0's entry is the first access that matches the injection, which clears ARM as it fires (10 R341). -/
theorem regionDone_disarms : (regionInjectionArmed.regionDone 0 0#32).on (SL_ECC_TEST.ARM 0) = false := by decide +kernel

/-- Refutes O50: the statement leaves every register but the region port's as it was, for every state. An accepted write of a region
entry writes half a code word of each slice's copy (10 R314), so an injection armed for it fires and changes SL_ECC_TEST. -/
theorem not_regionsAndMapsAreWritten : ¬ Obligations.RegionsAndMapsAreWritten := by
  unfold Obligations.RegionsAndMapsAreWritten
  intro all
  have serve : regionInjectionArmed.mode ≠ 0 := by decide +kernel
  have accepted : regionInjectionArmed.regionRefused (0#14).toNat 0#32 = false := by decide +kernel
  obtain ⟨-, write, -⟩ := all regionInjectionArmed 0#14 0#32 false 0#64 0 serve
  rw [accepted, if_neg Bool.false_ne_true] at write
  obtain ⟨t, run, -, -, -, frame, -⟩ := write
  have done : regionInjectionArmed.regionDone 0 0#32 = t := by
    rw [exec_regionPortWrite_accepted serve accepted] at run
    exact Host.Outcome.next.inj run
  have armed : t.on (SL_ECC_TEST.ARM 0) = regionInjectionArmed.on (SL_ECC_TEST.ARM 0) := by
    have same : t.reg (SL_ECC_TEST.ARM 0).off = regionInjectionArmed.reg (SL_ECC_TEST.ARM 0).off := frame _ (by decide)
    simp only [State.on, State.rd, same]
  rw [← done, regionDone_disarms, regionInjectionArmed_on_arm] at armed
  exact absurd armed (by decide)

end Sys2Proof.Machine
end

section
/-! PROOFS. The statements of chapter 2: what a port that takes no message does (02 R47, R71, R72; 07 R224), its link reports and its husk
(02 R48, R71, R74, R79), GPF and credits (02 R69, R78; 07 R232), the snoop table and its timers (02 R55 to R68), and the departure of a
host (02 R71, R72). -/

namespace Sys2Proof.Machine

/-! ### Fields that do not meet -/

/-- Two fields with no bit in common: in different registers, or one above the other. -/
def Fld.Apart (f g : Fld) : Prop := g.off ≠ f.off ∨ g.lo + g.w ≤ f.lo ∨ f.lo + f.w ≤ g.lo

theorem Fld.Apart.symm {f g : Fld} : f.Apart g → g.Apart f := .imp Ne.symm Or.symm

/-- A field written leaves a field apart from it alone. -/
theorem State.rd_wr_apart (s : State) {f g : Fld} (x : Nat) (a : f.Apart g) : (s.wr f x).rd g = s.rd g :=
  a.elim (s.rd_wr_off f g x) (s.rd_wr_disjoint f g x)

theorem State.on_wr_apart (s : State) {f g : Fld} (x : Nat) (a : f.Apart g) : (s.wr f x).on g = s.on g :=
  congrArg (· != 0) (s.rd_wr_apart x a)

/-- A one-bit field holds the Boolean last written to it. -/
theorem State.on_wb_same (s : State) (f : Fld) (b : Bool) (w : f.w = 1) (fits : f.lo + f.w ≤ 64) : (s.wb f b).on f = b := by
  rw [State.on, State.wb, State.rd_wr_same _ _ _ fits, w]
  cases b <;> rfl

theorem State.on_wr_one (s : State) (f : Fld) (w : f.w = 1) (fits : f.lo + f.w ≤ 64) : (s.wr f 1).on f = true :=
  s.on_wb_same f true w fits

theorem State.on_wr_zero (s : State) (f : Fld) (w : f.w = 1) (fits : f.lo + f.w ≤ 64) : (s.wr f 0).on f = false :=
  s.on_wb_same f false w fits

/-- A field written changes its own register and nothing else. -/
theorem State.onlyRegs_wr (s : State) (f : Fld) (x : Nat) : s.OnlyRegs (s.wr f x) [f.off] :=
  ⟨rfl, fun _ ho => s.reg_wr_ne f x (List.ne_of_not_mem_cons ho)⟩

/-- The fields of a list written in order. -/
def State.wrAll (s : State) (l : List (Fld × Nat)) : State := l.foldl (fun s e => s.wr e.1 e.2) s

theorem State.wrAll_port (s : State) (l : List (Fld × Nat)) (h : HostId) : (s.wrAll l).port h = s.port h := by
  induction l generalizing s with
  | nil => rfl
  | cons e l ih => exact (ih (s.wr e.1 e.2)).trans (s.wr_port e.1 e.2 h)

/-- Fields written leave a field apart from each of them alone. -/
theorem State.rd_wrAll_apart (f : Fld) : ∀ (l : List (Fld × Nat)) (s : State), (∀ e ∈ l, e.1.Apart f) → (s.wrAll l).rd f = s.rd f
  | [], _, _ => rfl
  | e :: l, s, apart => by
    obtain ⟨first, rest⟩ := List.forall_mem_cons.mp apart
    exact (rd_wrAll_apart f l (s.wr e.1 e.2) rest).trans (s.rd_wr_apart e.2 first)

/-- Of fields no two of which meet, each holds what was written to it. -/
theorem State.rd_wrAll_mem {f : Fld} {x : Nat} (fits : f.lo + f.w ≤ 64) {l : List (Fld × Nat)} (s : State)
    (apart : l.Pairwise fun a b => b.1.Apart a.1) (mem : (f, x) ∈ l) : (s.wrAll l).rd f = x % 2 ^ f.w := by
  induction l generalizing s with
  | nil => exact absurd mem List.not_mem_nil
  | cons e l ih =>
    obtain ⟨first, rest⟩ := List.pairwise_cons.mp apart
    rcases List.mem_cons.mp mem with here | later
    · subst here
      exact (State.rd_wrAll_apart f l _ first).trans (s.rd_wr_same f x fits)
    · exact ih (s.wr e.1 e.2) rest later

/-! ### What a port's own work touches -/

/-- Between the two states only ports, pod queues, the registers of the PQ windows, the boundary log and the performance counters
differ. -/
def PortWork (s t : State) : Prop :=
  t = { s with regs := t.regs, ports := t.ports, queues := t.queues, out := t.out, pmu := t.pmu } ∧
    ∀ off, off < 0x58000 ∨ 0x5CC00 ≤ off → t.reg off = s.reg off

theorem PortWork.refl (s : State) : PortWork s s := ⟨rfl, fun _ _ => rfl⟩

theorem PortWork.trans {s t u : State} (h : PortWork s t) (k : PortWork t u) : PortWork s u := by
  obtain ⟨h1, h2⟩ := h
  obtain ⟨k1, k2⟩ := k
  refine ⟨?_, fun o ho => (k2 o ho).trans (h2 o ho)⟩
  rw [k1, h1]

theorem QueueWork.portWork {s t : State} (h : QueueWork s t) : PortWork s t := by
  obtain ⟨frame, regs⟩ := h
  exact ⟨by rw [frame], regs⟩

theorem PortWork.modPort {s t : State} (h : PortWork s t) (p : HostId) (f : Port → Port) : PortWork s (t.modPort p f) :=
  h.trans ⟨rfl, fun _ _ => rfl⟩

theorem PortWork.emit {s t : State} (h : PortWork s t) (o : Out) : PortWork s (t.emit o) := h.trans ⟨rfl, fun _ _ => rfl⟩

theorem PortWork.count {s t : State} (h : PortWork s t) (u e k : Nat) : PortWork s (t.count u e k) := h.trans ⟨rfl, fun _ _ => rfl⟩

/-- A field outside the PQ windows reads as before. -/
theorem PortWork.on {s t : State} (h : PortWork s t) (f : Fld) (outside : f.off < 0x58000) : t.on f = s.on f := by
  rw [State.on, State.on, State.rd, State.rd, h.2 _ (.inl outside)]

/-- One more count after others changes the counters only. -/
theorem State.count_pmu {s t : State} (w : t = { s with pmu := t.pmu }) (u e k : Nat) :
    t.count u e k = { s with pmu := (t.count u e k).pmu } := by
  rw [w]; rfl

/-- What a message that leaves adds to the counters is all that counting it changes. -/
theorem State.countS2m_eq (s : State) (h : HostId) (m : S2m) : s.countS2m h m = { s with pmu := (s.countS2m h m).pmu } := by
  unfold State.countS2m
  refine State.count_pmu ?_ h.val 17 _
  split
  · exact State.count_pmu rfl h.val 14 _
  · split <;> rfl
  · rfl

theorem State.countS2m_port (s : State) (h : HostId) (m : S2m) (g : HostId) : (s.countS2m h m).port g = s.port g := by
  rw [countS2m_eq]; rfl

/-- A message that leaves spends a credit of its class, and is counted. -/
theorem State.s2mGo_eq (s : State) (h : HostId) (m : S2m) :
    s.s2mGo h m =
      { (s.modPort h fun x => x.setCredits m.cls (x.credits m.cls - 1)).emit (.s2m h m 0#4 .noOp) with pmu := (s.s2mGo h m).pmu } :=
  State.countS2m_eq _ h m

theorem State.s2mGo_out (s : State) (h : HostId) (m : S2m) : (s.s2mGo h m).out = s.out ++ [.s2m h m 0#4 .noOp] := by
  rw [s2mGo_eq]; rfl

theorem State.s2mGo_port (s : State) (h : HostId) (m : S2m) :
    (s.s2mGo h m).port h = (s.port h).setCredits m.cls ((s.port h).credits m.cls - 1) := by
  rw [s2mGo, countS2m_port, emit_port, port_modPort_same]

theorem State.s2mGo_frame {s t : State} (w : t = { s with ports := t.ports, out := t.out, pmu := t.pmu }) (h : HostId) (m : S2m) :
    t.s2mGo h m = { s with ports := (t.s2mGo h m).ports, out := (t.s2mGo h m).out, pmu := (t.s2mGo h m).pmu } := by
  have own : t.s2mGo h m = { t with ports := (t.s2mGo h m).ports, out := (t.s2mGo h m).out, pmu := (t.s2mGo h m).pmu } := by
    rw [s2mGo_eq]; rfl
  rw [own, w]

/-- A message goes at once where a credit of its class is held and nothing waits to leave. -/
theorem State.sendS2m_of_credit {s : State} {h : HostId} {m : S2m} (credit : 0 < (s.port h).credits m.cls)
    (free : (s.port h).egress = []) : s.sendS2m h m = s.s2mGo h m := by
  simp [State.sendS2m, credit, free]

theorem PortWork.s2mGo {s t : State} (w : PortWork s t) (h : HostId) (m : S2m) : PortWork s (t.s2mGo h m) := by
  refine w.trans ⟨?_, fun _ _ => ?_⟩ <;> rw [State.s2mGo_eq] <;> rfl

theorem PortWork.sendS2m {s t : State} (w : PortWork s t) (h : HostId) (m : S2m) : PortWork s (t.sendS2m h m) := by
  unfold State.sendS2m
  exact holds_of_ite (w.s2mGo h m) ((w.modPort h _).trans ((QueueWork.refl _).crossRise _ _ (by omega)).portWork)

theorem PortWork.answerHost {s t : State} (w : PortWork s t) (h : HostId) (m : S2m) : PortWork s (t.answerHost h m) :=
  holds_of_ite w (w.sendS2m h m)

/-- A protocol error sets PROTO_ERR; what else it does is its counter and its notice (02 R55). -/
theorem State.protoErr_work (s : State) (h : HostId) (opcode cls addr : Nat) :
    PortWork (s.wr (HP_STATUS.PROTO_ERR h.val) 1) (s.protoErr h opcode cls addr) := by
  have counted : PortWork (s.wr (HP_STATUS.PROTO_ERR h.val) 1) ((s.wr (HP_STATUS.PROTO_ERR h.val) 1).count h.val 13) :=
    (PortWork.refl _).count _ _ _
  exact holds_of_ite counted
    ((counted.modPort h _).trans ((QueueWork.refl _).notice _ _ _ _ _ _ _ (by decide)).portWork)

/-- After a protocol error PROTO_ERR is 1, whatever the port does then. -/
theorem State.protoErr_sets {s t : State} {h : HostId} {opcode cls addr : Nat} (w : PortWork (s.protoErr h opcode cls addr) t) :
    t.on (HP_STATUS.PROTO_ERR h.val) = true ∧
      t = { s with regs := t.regs, ports := t.ports, queues := t.queues, out := t.out, pmu := t.pmu } := by
  have work := (s.protoErr_work h opcode cls addr).trans w
  refine ⟨?_, work.1⟩
  rw [work.on _ (by simp only [HP_STATUS.PROTO_ERR, HP_STATUS.reg]; omega)]
  exact s.on_wr_one _ rfl (Nat.le_of_ble_eq_true rfl)

/-! ### A port that takes no message (O11) -/

theorem State.portClosed_of_not_live {s : State} {h : HostId} (hl : s.portLive h = false) : s.portClosed h = true := by
  simp [State.portClosed, hl]

theorem State.portClosed_of_mode {s : State} (h : HostId) (hm : s.mode < 2) : s.portClosed h = true := by
  simp [State.portClosed, hm]

theorem State.portClosed_eq_false {s : State} {h : HostId} (hl : s.portLive h = true) (hm : 2 ≤ s.mode) : s.portClosed h = false := by
  simp only [State.portClosed, hl, Bool.not_true, Bool.false_or, decide_eq_false_iff_not]
  omega

/-- A port that is not live returns a request's link credit where it is husked and the mode takes messages, and does nothing else. -/
theorem State.hostRequest_not_live {s : State} {h : HostId} (hl : s.portLive h = false) (cls : ReqClass) (addr : Word) (tag : BitVec 16)
    (data : LineData) (be : ByteMask) (poison shared : Bool) :
    s.hostRequest h cls addr tag data be poison shared =
      if s.on (HP_CTRL.HUSK h.val) = true ∧ 2 ≤ s.mode then s.emit (.creditReturn h (cls == .wrFull || cls == .wrPtl)) else s := by
  simp [State.hostRequest, hl, State.returnCredit]

/-- In HOLD and SPROUT a request is at most numbered. -/
theorem State.hostRequest_discarded {s : State} (hm : s.mode < 2) (h : HostId) (cls : ReqClass) (addr : Word) (tag : BitVec 16)
    (data : LineData) (be : ByteMask) (poison shared : Bool) :
    s.hostRequest h cls addr tag data be poison shared = s ∨ s.hostRequest h cls addr tag data be poison shared = s.bump := by
  cases hl : s.portLive h with
  | false => exact .inl (by rw [State.hostRequest_not_live hl, if_neg fun husk => by omega])
  | true =>
    have discarded : ∀ r, s.bump.discards r = true := fun r => by
      have : s.mode = 0 ∨ s.mode = 1 := by omega
      rcases this with mode | mode <;> simp [State.discards, mode]
    exact .inr (by simp [State.hostRequest, hl, discarded])

/-- What a port that takes no message does with a response, a conflict message and an unsupported request. -/
theorem exec_birsp_closed {s : State} {h : HostId} (closed : s.portClosed h = true) (b : BitVec 8) (x : SnoopRsp) (blk : Bool) (a : Word) :
    exec (.birsp h b x blk a) s = .next s := if_pos closed

theorem exec_biconflict_closed {s : State} {h : HostId} (closed : s.portClosed h = true) (a : Word) :
    exec (.biconflict h a) s = .next s := if_pos closed

theorem exec_unsupportedRequest_closed {s : State} {h : HostId} (closed : s.portClosed h = true) (rwd : Bool) (op : BitVec 4) (a : Word)
    (tag : BitVec 16) :
    exec (.unsupportedRequest h rwd op a tag) s =
      .next (if s.on (HP_CTRL.HUSK h.val) = true ∧ 2 ≤ s.mode then s.emit (.creditReturn h rwd) else s) := if_pos closed

/-- Settles O11: a port that is not live, and a mode below SERVE, close the port; each kind of message by its own lemma. -/
theorem closedPortTakesNoMessage : Obligations.ClosedPortTakesNoMessage := by
  unfold Obligations.ClosedPortTakesNoMessage
  intro s h tag a op rwd blk b x husk
  refine ⟨fun hl => ?_, fun hm => ?_⟩
  · have closed := State.portClosed_of_not_live hl
    refine ⟨fun c r hr => ?_, fun hh => ?_, fun hh => ?_, exec_birsp_closed closed b x blk a, exec_biconflict_closed closed a⟩
    · rw [(exec_of_hostRequestOf hr).1, State.hostRequest_not_live hl]
      exact ⟨fun hh => by rw [if_pos hh], fun hh => by rw [if_neg hh]⟩
    · rw [exec_unsupportedRequest_closed closed, if_pos hh]
    · rw [exec_unsupportedRequest_closed closed, if_neg hh]
  · have closed := State.portClosed_of_mode h hm
    refine ⟨fun c r hr => ?_, ?_, exec_birsp_closed closed b x blk a, exec_biconflict_closed closed a⟩
    · rw [(exec_of_hostRequestOf hr).1]
      exact (State.hostRequest_discarded hm _ _ _ _ _ _ _ _).imp (congrArg _) (congrArg _)
    · rw [exec_unsupportedRequest_closed closed, if_neg fun husked => by omega]

/-! ### Link reports and the end of a husk (O12) -/

theorem exec_linkUp {s : State} (h : HostId) (hm : s.mode ≠ 0) : exec (.linkUp h) s = .next (s.wr (HP_STATUS.LINK h.val) 1) := if_neg hm

/-- A report of BI enable that takes none away is recorded. -/
theorem exec_biEnableChange_kept {s : State} {h : HostId} {en : Bool} (hm : s.mode ≠ 0)
    (kept : ¬(s.on (HP_STATUS.BI_EN h.val) = true ∧ en = false)) :
    exec (.biEnableChange h en) s = .next (s.wb (HP_STATUS.BI_EN h.val) en) := by
  have stays : (s.on (HP_STATUS.BI_EN h.val) && !en) = false := by simpa using kept
  simp [exec, execBiEnableChange, hm, stays]

/-- A width that its host does not raise from partial width is recorded. -/
theorem exec_widthReport_kept {s : State} {h : HostId} {w : LinkWidth} {hostInitiated : Bool} (hm : s.mode ≠ 0)
    (kept : ¬(hostInitiated = true ∧ s.rd (HP_STATUS.WIDTH h.val) = 2 ∧ widthCode w < 2)) :
    exec (.widthReport h w hostInitiated) s = .next (s.wr (HP_STATUS.WIDTH h.val) (widthCode w)) := by
  have stays : (hostInitiated && s.rd (HP_STATUS.WIDTH h.val) == 2 && decide (widthCode w < 2)) = false := by
    simpa [and_assoc] using kept
  simp only [exec, execWidthReport, if_neg hm, stays, Bool.false_eq_true, if_false]

theorem exec_l0pRefused {s : State} (h : HostId) (hm : s.mode ≠ 0) :
    exec (.l0pRefused h) s =
      .next ((s.wr (HP_STATUS.L0P_REFUSED h.val) 1).modPort h fun x => { x with narrowed := false }) := if_neg hm

/-- A write of 0 to HUSK of a husked port (02 R74). -/
theorem exec_huskClear {s : State} {h : HostId} (husk : s.on (HP_CTRL.HUSK h.val) = true) :
    exec (.huskClear h) s = .next (
      if s.on (HP_STATUS.SWEEP h.val) = false ∧ s.on (HP_STATUS.LINK h.val) = true ∧ (s.port h).linkReset = true then
        ((s.wr (HP_CTRL.HUSK h.val) 0).wr (HP_STATUS.HUSKED h.val) 0).modPort h fun x => { x with linkReset := false }
      else s) := by
  simp only [exec, execHuskClear, husk, true_and, Bool.not_eq_true']
  split <;> rfl

theorem widthCode_lt (w : LinkWidth) : widthCode w < 2 ^ 2 := by cases w <;> decide

/-- Settles O12: each report is one field written; a husk is cleared by three writes, or not at all. -/
theorem linkReportsAndHusks : Obligations.LinkReportsAndHusks := by
  unfold Obligations.LinkReportsAndHusks
  refine ⟨fun s h en hostInitiated w hm => ⟨?_, fun kept => ?_, fun kept => ?_, ?_⟩, fun s h husk => ?_⟩
  · exact ⟨_, exec_linkUp h hm, s.on_wr_one _ rfl (Nat.le_of_ble_eq_true rfl), s.onlyRegs_wr _ _⟩
  · exact ⟨_, exec_biEnableChange_kept hm kept, s.on_wb_same _ en rfl (Nat.le_of_ble_eq_true rfl), s.onlyRegs_wr _ _⟩
  · refine ⟨_, exec_widthReport_kept hm kept, ?_, s.onlyRegs_wr _ _⟩
    rw [State.rd_wr_same _ _ _ (Nat.le_of_ble_eq_true rfl)]
    exact Nat.mod_eq_of_lt (widthCode_lt w)
  · refine ⟨_, exec_l0pRefused h hm, ?_, ?_, fun g hg => ?_, fun o ho => ?_, rfl⟩
    · rw [State.modPort_on]
      exact s.on_wr_one _ rfl (Nat.le_of_ble_eq_true rfl)
    · rw [State.port_modPort_same]
    · rw [State.port_modPort_ne _ _ hg, State.wr_port]
    · rw [State.modPort_reg, s.reg_wr_ne _ _ ho]
  · rw [exec_huskClear husk]
    split
    next may =>
      refine ⟨_, rfl, ?_, ?_, fun o hc hs => ?_, rfl⟩
      · have apart : (HP_STATUS.HUSKED h.val).Apart (HP_CTRL.HUSK h.val) :=
          .inl (by simp only [HP_CTRL.HUSK, HP_CTRL.reg, HP_STATUS.HUSKED, HP_STATUS.reg]; omega)
        rw [State.modPort_on, State.on_wr_apart _ 0 apart]
        exact s.on_wr_zero _ rfl (Nat.le_of_ble_eq_true rfl)
      · rw [State.modPort_on]
        exact State.on_wr_zero _ _ rfl (Nat.le_of_ble_eq_true rfl)
      · rw [State.modPort_reg, State.reg_wr_ne _ _ _ hs, State.reg_wr_ne _ _ _ hc]
    next => rfl

/-! ### GPF and credits (O14) -/

/-- GPF_PHASE2 at a port that is there, in a mode that takes messages. -/
theorem exec_gpfPhase2 {s : State} {h : HostId} (hm : 2 ≤ s.mode) (there : s.mergedAway h = false) :
    exec (.gpfPhase2 h) s = .next (
      let noted := s.modPort h fun x => { x with gpf2 := true, gpfAcked := false }
      if s.on (HP_CTRL.GPF_DRAIN h.val) = true ∧ s.mode ≠ 4 then noted.enterDrain 4 h.val else noted) := by
  have taken : ¬(s.mode < 2 ∨ s.mergedAway h = true) := by
    rintro (low | away)
    · omega
    · exact Bool.false_ne_true (there.symm.trans away)
  simp only [exec, execGpfPhase2, if_neg taken]

/-- The acknowledgement of GPF phase 2 goes out once nothing holds it back. -/
theorem exec_gpfPhase2Ack {s : State} {h : HostId} (noted : (s.port h).gpf2 = true) (idle : s.portWrites h = false)
    (drain : s.on (HP_CTRL.GPF_DRAIN h.val) = true → s.mode = 4) :
    exec (.gpfPhase2Ack h) s = .next ((s.modPort h fun x => { x with gpf2 := false, gpfAcked := true }).emit (.gpfAck h)) := by
  have ready : ¬((!(s.port h).gpf2) = true ∨ s.portWrites h = true ∨ s.on (HP_CTRL.GPF_DRAIN h.val) = true ∧ s.mode ≠ 4) := by
    simpa [noted, idle] using drain
  simp only [exec, execGpfPhase2Ack, if_neg ready]

/-- A live port is not husked. -/
theorem State.not_husk_of_portLive {s : State} {h : HostId} (hl : s.portLive h = true) : s.on (HP_CTRL.HUSK h.val) = false := by
  simp only [State.portLive, Bool.and_eq_true, Bool.not_eq_true'] at hl
  obtain ⟨⟨-, notHusked⟩, -⟩ := hl
  exact notHusked

/-- A conflict message at a live port is counted and answered at once. -/
theorem exec_biconflict_live {s : State} {h : HostId} (hl : s.portLive h = true) (hm : 2 ≤ s.mode) (a : Word) :
    exec (.biconflict h a) s =
      .next ((s.count h.val 10).sendS2m h (.biConflictAck (lineOf a) (s.devLoad (s.homeOf (lineOf a))))) := by
  have husk : (s.count h.val 10).on (HP_CTRL.HUSK h.val) = false := State.not_husk_of_portLive hl
  simp only [exec, execBiconflict, State.portClosed_eq_false hl hm, State.answerHost, husk, Bool.false_eq_true, if_false]

/-- Credits advertised with nothing waiting to leave are held. -/
theorem exec_hostCreditAdvertised_idle {s : State} {h : HostId} (hm : s.mode ≠ 0) (free : (s.port h).egress = []) (c : S2mClass) (n : Nat) :
    exec (.hostCreditAdvertised h c n) s = .next (s.modPort h fun x => x.setCredits c (x.credits c + n)) := by
  simp [exec, execHostCreditAdvertised, hm, free, State.release]

theorem Port.credits_setCredits_same (x : Port) (c : S2mClass) (n : Nat) : (x.setCredits c n).credits c = n := by cases c <;> rfl

theorem Port.credits_setCredits_ne (x : Port) {c d : S2mClass} (n : Nat) (ne : d ≠ c) : (x.setCredits c n).credits d = x.credits d := by
  cases c <;> cases d <;> simp [Port.setCredits, Port.credits] at ne ⊢

/-- Settles O14: GPF by the two phases' equations; a conflict message leaves by the credit it finds. -/
theorem gpfPhasesAndCredits : Obligations.GpfPhasesAndCredits := by
  unfold Obligations.GpfPhasesAndCredits
  refine ⟨fun s h => ⟨rfl, fun hm there => ⟨fun drain outside => ?_, fun drain => ?_⟩, fun noted idle drain => ?_⟩,
    fun s h a c n => ⟨fun hl hm credit free => ?_, fun hm free => ?_⟩⟩
  · rw [exec_gpfPhase2 hm there]
    exact congrArg _ (if_pos ⟨drain, outside⟩)
  · rw [exec_gpfPhase2 hm there]
    exact congrArg _ (if_neg (by simp [drain]))
  · refine ⟨_, exec_gpfPhase2Ack noted idle drain, rfl, ?_, ?_, rfl⟩ <;> rw [State.emit_port, State.port_modPort_same]
  · have gone : (s.count h.val 10).sendS2m h (.biConflictAck (lineOf a) (s.devLoad (s.homeOf (lineOf a)))) = _ :=
      State.sendS2m_of_credit credit free
    refine ⟨_, (exec_biconflict_live hl hm a).trans (congrArg _ gone), State.s2mGo_out _ _ _, State.s2mGo_port _ _ _,
      State.s2mGo_frame rfl _ _⟩
  · refine ⟨_, exec_hostCreditAdvertised_idle hm free c n, ?_, fun d ne => ?_, rfl⟩ <;> rw [State.port_modPort_same]
    · exact Port.credits_setCredits_same _ c _
    · exact Port.credits_setCredits_ne _ _ ne

/-! ### The snoop table (O15) -/

/-- A response that no entry of the snoop table awaits, and no resolution by DRAIN explains, is a protocol error (02 R63). -/
theorem exec_birsp_unknown {s : State} {h : HostId} {b : BitVec 8} (hl : s.portLive h = true) (hm : 2 ≤ s.mode)
    (unknown : (s.port h).table.look none b.toNat = none) (fresh : (s.port h).drained.contains b.toNat = false) (x : SnoopRsp) (blk : Bool)
    (a : Word) : exec (.birsp h b x blk a) s = .next ((s.count h.val 9).protoErr h (rspOpcode x blk) 2 0) := by
  simp only [exec, execBirsp, State.portClosed_eq_false hl hm, unknown, fresh, Bool.false_eq_true, if_false]

/-- The lines that a one-line snoop awaits before its answer. -/
theorem SnoopEntry.open_oneLine {e : SnoopEntry} (one : e.req.lines = 1) (unanswered : e.answered = []) : e.open_ = [e.req.line] := by
  simp [SnoopEntry.open_, one, unanswered]

/-- The answer to a one-line snoop frees its entry. -/
theorem State.entryAnswered_oneLine (s : State) (h : HostId) (i : Nat) {e : SnoopEntry} (one : e.req.lines = 1) (unanswered : e.answered = []) :
    s.entryAnswered h i e [e.req.line] = s.freeSnoop h i := by
  simp [State.entryAnswered, SnoopEntry.open_, one, unanswered]

/-- An answer I of a one-line snoop: the entry frees, and the holder takes it and moves on (02 R63, 03 Table 3.5). -/
theorem exec_birsp_invalid {s : State} {h : HostId} {b : BitVec 8} {e : SnoopEntry} (hl : s.portLive h = true) (hm : 2 ≤ s.mode)
    (entry : (s.port h).table.look none b.toNat = some e) (one : e.req.lines = 1) (unanswered : e.answered = []) (a : Word) :
    exec (.birsp h b .i false a) s =
      .next (((((s.count h.val 9).freeSnoop h b.toNat).passDone e.req.owner.slice).setAnswer e.req.owner h e.req.line .i).moveOwner
        e.req.owner) := by
  simp [exec, execBirsp, State.portClosed_eq_false hl hm, entry, one, SnoopEntry.open_oneLine one unanswered, State.takeAnswer,
    State.entryAnswered_oneLine _ _ _ one unanswered]

/-- A port where the warning of a snoop has been given: BI_WARN is 1 and the entry marked, and what has changed besides is that port, its
queue of notices and what goes out (02 R67). -/
def State.Warned (s t : State) (h : HostId) (i : Nat) (e : SnoopEntry) : Prop :=
  t.on (HP_STATUS.BI_WARN h.val) = true ∧ (t.port h).table.look none i = some { e with warned := true } ∧
    t = { s with regs := t.regs, ports := t.ports, queues := t.queues, out := t.out }

theorem State.warned_mark (s : State) (h : HostId) (i : Nat) (e : SnoopEntry) :
    s.Warned ((s.wr (HP_STATUS.BI_WARN h.val) 1).modPort h fun x =>
      { x with table := x.table.put none i (some { e with warned := true }) }) h i e := by
  refine ⟨s.on_wr_one _ rfl (Nat.le_of_ble_eq_true rfl), ?_, rfl⟩
  rw [State.port_modPort_same]
  exact Tbl.look_put_same none i (some { e with warned := true }) (s.port h).table

theorem State.Warned.lastWarn {s t : State} {h : HostId} {i : Nat} {e : SnoopEntry} (w : s.Warned t h i e) (l : Option Nat) :
    s.Warned (t.modPort h fun x => { x with lastWarn := l }) h i e := by
  obtain ⟨set, mark, frame⟩ := w
  refine ⟨set, ?_, by rw [frame]; rfl⟩
  rw [State.port_modPort_same]
  exact mark

theorem State.Warned.queueWork {s t u : State} {h : HostId} {i : Nat} {e : SnoopEntry} (w : s.Warned t h i e) (q : QueueWork t u) :
    s.Warned u h i e := by
  obtain ⟨set, mark, frame⟩ := w
  have outside : (HP_STATUS.BI_WARN h.val).off < 0x58000 := by simp only [HP_STATUS.BI_WARN, HP_STATUS.reg]; omega
  refine ⟨(q.portWork.on _ outside).trans set, ?_, ?_⟩
  · rw [q.1]; exact mark
  · rw [q.1, frame]

/-- The warning of a snoop that is due is given, with at most a notice beside it (02 R67). -/
theorem exec_biWarnExpiry_due {s : State} {h : HostId} {b : BitVec 8} {e : SnoopEntry}
    (entry : (s.port h).table.look none b.toNat = some e) (set : s.rd (HP_BI_TIMERS.WARN_US h.val) ≠ 0)
    (before : s.rd (HP_BI_TIMERS.WARN_US h.val) < s.fenceUs h) (fresh : e.warned = false)
    (due : e.since + s.rd (HP_BI_TIMERS.WARN_US h.val) ≤ s.now) :
    ∃ t, exec (.biWarnExpiry h b) s = .next t ∧ s.Warned t h b.toNat e := by
  have now : ¬(s.rd (HP_BI_TIMERS.WARN_US h.val) = 0 ∨ s.fenceUs h ≤ s.rd (HP_BI_TIMERS.WARN_US h.val) ∨ e.warned = true ∨
      s.now < e.since + s.rd (HP_BI_TIMERS.WARN_US h.val)) := by
    simp only [fresh, Bool.false_eq_true, false_or]
    omega
  have mark := s.warned_mark h b.toNat e
  simp only [exec, execBiWarnExpiry, entry, if_neg now]
  refine ⟨_, rfl, holds_of_ite (P := fun t => s.Warned t h b.toNat e) mark ?_⟩
  exact (mark.lastWarn _).queueWork ((QueueWork.refl _).notice _ _ _ _ _ _ _ (by decide))

/-- The snoops that wait for a port's table have no part in which entry is free. -/
theorem State.freeBiTag_offered (s : State) (h : HostId) (l : List SnoopReq) :
    (s.modPort h fun x => { x with offered := l }).freeBiTag h = s.freeBiTag h := by
  rw [State.freeBiTag, State.port_modPort_same]
  rfl

/-- The first snoop offered takes the entry that freed, and goes at once where a credit lets it (02 R61). -/
theorem exec_snoopReoffer {s : State} {h : HostId} {r : SnoopReq} {rest : List SnoopReq} {i : Nat} (first : (s.port h).offered = r :: rest)
    (tag : s.freeBiTag h = some i) (credit : 0 < (s.port h).bisnp) (free : (s.port h).egress = []) :
    exec (.snoopReoffer h) s = .next (
      ((s.modPort h fun x => { x with offered := rest }).modPort h fun x =>
        { x with table := x.table.put none i (some ⟨r, s.now, false, []⟩) }).s2mGo h (.biSnp i r.kind r.line r.lines)) := by
  have tag' : (s.modPort h fun x => { x with offered := rest }).freeBiTag h = some i := (s.freeBiTag_offered h rest).trans tag
  simp only [exec, execSnoopReoffer, first, tag, State.enterSnoop, tag']
  rw [State.sendS2m_of_credit]
  · rfl
  · rw [State.port_modPort_same, State.port_modPort_same]
    exact credit
  · rw [State.port_modPort_same, State.port_modPort_same]
    exact free

/-- An unsupported request at a port that takes messages, before step 3 of any DRAIN (02 R55). -/
theorem exec_unsupportedRequest_live {s : State} {h : HostId} (hl : s.portLive h = true) (hm : s.mode = 2 ∨ s.mode = 3 ∨ s.mode = 5)
    (rwd : Bool) (op : BitVec 4) (a : Word) (tag : BitVec 16) :
    exec (.unsupportedRequest h rwd op a tag) s = .next (s.unsupported h op.toNat rwd a.toNat tag) := by
  have drain : ¬(s.mode = 4 ∧ s.aon.drain ≠ some .flush) := fun d => by omega
  simp only [exec, execUnsupportedRequest, State.portClosed_eq_false hl (by omega), Bool.false_eq_true, if_false, if_neg drain]

/-- An unsupported request is a protocol error, and what its port does then. -/
theorem State.unsupported_work (s : State) (h : HostId) (opcode : Nat) (rwd : Bool) (addr : Nat) (tag : BitVec 16) :
    PortWork (s.protoErr h opcode rwd.toNat addr) (s.unsupported h opcode rwd addr tag) :=
  (((PortWork.refl _).count h.val 5 rwd.toNat).emit (.creditReturn h rwd)).answerHost h _

/-- The link credit of an unsupported request is returned (02 R55, 07 R224). -/
theorem State.unsupported_returnsCredit (s : State) (h : HostId) (opcode : Nat) (rwd : Bool) (addr : Nat) (tag : BitVec 16) :
    Out.creditReturn h rwd ∈ (s.unsupported h opcode rwd addr tag).out := by
  have kept : (((s.protoErr h opcode rwd.toNat addr).count h.val 5 rwd.toNat).emit (.creditReturn h rwd)).out <+:
      (s.unsupported h opcode rwd addr tag).out := (State.answerHost_evolves (Evolves.refl _)).out
  exact kept.subset (by simp)

/-- Settles O15: each command by its equation; a protocol error, and a warning, by what they leave. -/
theorem snoopsAreAnsweredAndTimed : Obligations.SnoopsAreAnsweredAndTimed := by
  unfold Obligations.SnoopsAreAnsweredAndTimed
  intro s h b a x blk rwd e r rest op tag i
  refine ⟨fun hl hm unknown fresh => ?_, fun hl hm entry one unanswered => exec_birsp_invalid hl hm entry one unanswered a,
    fun entry set before fresh due => exec_biWarnExpiry_due entry set before fresh due, fun first free credit empty => ?_,
    fun hl hm => ?_⟩
  · obtain ⟨set, frame⟩ := State.protoErr_sets (PortWork.refl ((s.count h.val 9).protoErr h (rspOpcode x blk) 2 0))
    exact ⟨_, exec_birsp_unknown hl hm unknown fresh x blk a, set, by rw [frame]; rfl⟩
  · refine ⟨_, exec_snoopReoffer first free credit empty, ?_, ?_, State.s2mGo_out _ _ _, State.s2mGo_frame rfl _ _⟩
    · rw [State.s2mGo_port, State.port_modPort_same, State.port_modPort_same]; rfl
    · rw [State.s2mGo_port, State.port_modPort_same, State.port_modPort_same]
      exact Tbl.look_put_same none i (some ⟨r, s.now, false, []⟩) (s.port h).table
  · obtain ⟨set, frame⟩ := State.protoErr_sets (s.unsupported_work h op.toNat rwd a.toNat tag)
    exact ⟨_, exec_unsupportedRequest_live hl hm rwd op a tag, set, s.unsupported_returnsCredit h op.toNat rwd a.toNat tag, frame⟩

/-! ### Departure (O13) -/

/-- The registers below the slices' windows, the global ones and those of the host ports, and the port of a host are as in `s`
(16 Table 16.1). -/
def SameAtPort (h : HostId) (s t : State) : Prop := (∀ off, off < 0x20000 → t.reg off = s.reg off) ∧ t.port h = s.port h

theorem SameAtPort.refl (h : HostId) (s : State) : SameAtPort h s s := ⟨fun _ _ => rfl, rfl⟩

theorem SameAtPort.trans {h : HostId} {s t u : State} (a : SameAtPort h s t) (b : SameAtPort h t u) : SameAtPort h s u :=
  ⟨fun o ho => (b.1 o ho).trans (a.1 o ho), b.2.trans a.2⟩

theorem SameAtPort.rd {h : HostId} {s t : State} (a : SameAtPort h s t) {f : Fld} (low : f.off < 0x20000) : t.rd f = s.rd f := by
  rw [State.rd, State.rd, a.1 _ low]

theorem SameAtPort.on {h : HostId} {s t : State} (a : SameAtPort h s t) {f : Fld} (low : f.off < 0x20000) : t.on f = s.on f :=
  congrArg (· != 0) (a.rd low)

/-- The same field written in both. -/
theorem SameAtPort.wr {h : HostId} {s t : State} (a : SameAtPort h s t) (f : Fld) (x : Nat) : SameAtPort h (s.wr f x) (t.wr f x) := by
  refine ⟨fun o ho => ?_, a.2⟩
  by_cases e : o = f.off
  · rw [e, State.reg_wr_same, State.reg_wr_same, a.1 _ (e ▸ ho)]
  · rw [State.reg_wr_ne _ _ _ e, State.reg_wr_ne _ _ _ e, a.1 o ho]

/-- A field of a slice written. -/
theorem SameAtPort.wr_above {h : HostId} {s t : State} (a : SameAtPort h s t) {f : Fld} (above : 0x20000 ≤ f.off) (x : Nat) :
    SameAtPort h s (t.wr f x) :=
  a.trans ⟨fun o ho => State.reg_wr_ne _ _ _ (by omega), rfl⟩

theorem QueueWork.sameAtPort {s t : State} (h : HostId) (q : QueueWork s t) : SameAtPort h s t :=
  ⟨fun o ho => q.2 o (.inl (by omega)), by rw [q.1]; rfl⟩

/-- Returning a request's credit is a message at most. -/
theorem SameAtPort.returnCredit {h : HostId} {s t : State} (a : SameAtPort h s t) (r : Request) : SameAtPort h s (t.returnCredit r) := by
  unfold State.returnCredit
  split
  · exact a.trans ⟨fun _ _ => rfl, rfl⟩
  · exact a

/-- What a port holds or has not taken is discarded (02 R72 step 1). -/
theorem State.discardPort_sameAtPort (s : State) (h : HostId) :
    SameAtPort h (s.modPort h fun x => { x with held := [], ingress := [], egress := [] }) (s.discardPort h) :=
  holds_of_foldl (P := SameAtPort h _) (fun _ r a => a.returnCredit r) _ _ (SameAtPort.refl _ _)

/-- One change of a port after another is one change. -/
theorem State.modPort_modPort_sameAtPort (s : State) (h : HostId) (f g : Port → Port) :
    SameAtPort h (s.modPort h fun x => g (f x)) ((s.modPort h f).modPort h g) :=
  ⟨fun _ _ => rfl, by simp only [State.port_modPort_same]⟩

theorem State.flushParked_of_nil {s : State} {h : HostId} (empty : (s.port h).park = []) : s.flushParked h = s := by
  simp [State.flushParked, empty]

/-- With no snoop outstanding or offered, there is none to resolve. -/
theorem State.resolveAll_sameAtPort {s : State} {h : HostId} (table : (s.port h).table = []) (offered : (s.port h).offered = []) :
    SameAtPort h s (s.resolveAll h) := by
  have still : s.resolveAll h = s.modPort h fun x => { x with table := [], offered := [] } := by
    simp [State.resolveAll, table, offered]
  rw [still]
  refine ⟨fun _ _ => rfl, ?_⟩
  rw [State.port_modPort_same, ← table, ← offered]

/-- The walks that a departure starts in the slices touch no port and no register of one. -/
theorem State.startWalks_sameAtPort (s : State) (h : HostId) (l : List PhysSlice) :
    SameAtPort h s (l.foldl (fun s p => (s.modSl p fun x => x.startWalk h).wr (SL_SF_CTRL.FORGET p.val)
      ((s.rd (SL_SF_CTRL.FORGET p.val)) ||| 2 ^ h.val)) s) := by
  refine holds_of_foldl (P := SameAtPort h s) (fun t p a => ?_) l s (SameAtPort.refl _ _)
  exact (a.trans ⟨fun _ _ => rfl, rfl⟩ : SameAtPort h s (t.modSl p fun x => x.startWalk h)).wr_above
    (by simp only [SL_SF_CTRL.FORGET, SL_SF_CTRL.reg]; omega) _

theorem State.listUrgent_of_ne {s : State} {h : HostId} (ne : s.inc12 h - (s.port h).baseInc ≠ 4095#12) : s.listUrgent h = s :=
  if_neg ne

/-- What a departure with nothing outstanding writes at its port: it is husked, has one incarnation and one departure more, and its sweep
has begun (02 R72). -/
def State.departWrites (s : State) (h : HostId) : List (Fld × Nat) :=
  [(HP_CTRL.HUSK h.val, 1), (HP_STATUS.HUSKED h.val, 1),
    (GLB_HOST_INCARN.INCARN h.val, (s.rd (GLB_HOST_INCARN.INCARN h.val) + 1) % 4096),
    (HP_OWNER_LOSS.DEPARTURES h.val, min (s.rd (HP_OWNER_LOSS.DEPARTURES h.val) + 1) 65535), (HP_STATUS.SWEEP h.val, 1)]

theorem State.departWrites_pairwise (s : State) (h : HostId) : (s.departWrites h).Pairwise fun a b => b.1.Apart a.1 := by
  simp [departWrites, Fld.Apart, HP_CTRL.HUSK, HP_CTRL.reg, HP_STATUS.HUSKED, HP_STATUS.SWEEP, HP_STATUS.reg, GLB_HOST_INCARN.INCARN,
    GLB_HOST_INCARN.reg, HP_OWNER_LOSS.DEPARTURES, HP_OWNER_LOSS.reg]
  omega

/-- The port of a host after its departure with nothing outstanding: those writes, and nothing held, in its ingress crossing or waiting to
leave. -/
def State.departMarks (s : State) (h : HostId) (cause : Nat) : State :=
  (s.wrAll (s.departWrites h)).modPort h fun x =>
    { x with linkReset := cause == 0 || cause == 1, held := [], ingress := [], egress := [] }

theorem State.departMarks_port (s : State) (h : HostId) (cause : Nat) :
    (s.departMarks h cause).port h =
      { s.port h with linkReset := cause == 0 || cause == 1, held := [], ingress := [], egress := [] } := by
  rw [departMarks, port_modPort_same, wrAll_port]

theorem State.wr_modPort (s : State) (h : HostId) (f : Port → Port) (g : Fld) (x : Nat) :
    (s.modPort h f).wr g x = (s.wr g x).modPort h f := rfl

/-- The same in the order in which a departure does it. -/
theorem State.departMarks_eq (s : State) (h : HostId) (cause : Nat) :
    s.departMarks h cause =
      ((((((s.wr (HP_CTRL.HUSK h.val) 1).wr (HP_STATUS.HUSKED h.val) 1).modPort h fun x =>
        { x with linkReset := cause == 0 || cause == 1, held := [], ingress := [], egress := [] }).wr
          (GLB_HOST_INCARN.INCARN h.val) ((s.rd (GLB_HOST_INCARN.INCARN h.val) + 1) % 4096)).wr
          (HP_OWNER_LOSS.DEPARTURES h.val) (min (s.rd (HP_OWNER_LOSS.DEPARTURES h.val) + 1) 65535)).wr (HP_STATUS.SWEEP h.val) 1) := by
  rw [State.wr_modPort, State.wr_modPort, State.wr_modPort]
  rfl

theorem State.departMarks_rd_mem (s : State) {h : HostId} (cause : Nat) {f : Fld} {x : Nat} (fits : f.lo + f.w ≤ 64)
    (mem : (f, x) ∈ s.departWrites h) : (s.departMarks h cause).rd f = x % 2 ^ f.w :=
  (State.modPort_rd _ h _ f).trans (State.rd_wrAll_mem fits s (s.departWrites_pairwise h) mem)

theorem State.departMarks_incarn (s : State) (h : HostId) (cause : Nat) :
    (s.departMarks h cause).rd (GLB_HOST_INCARN.INCARN h.val) = (s.rd (GLB_HOST_INCARN.INCARN h.val) + 1) % 4096 := by
  have mem : (GLB_HOST_INCARN.INCARN h.val, (s.rd (GLB_HOST_INCARN.INCARN h.val) + 1) % 4096) ∈ s.departWrites h := by simp [departWrites]
  have width : (GLB_HOST_INCARN.INCARN h.val).w = 12 := rfl
  rw [s.departMarks_rd_mem cause (Nat.le_of_ble_eq_true rfl) mem, width]
  exact Nat.mod_eq_of_lt (Nat.mod_lt _ (by decide))

/-- Each mark stands, with nothing held at the port. -/
theorem State.departMarks_departed (s : State) (h : HostId) (cause : Nat) : s.Departed (s.departMarks h cause) h := by
  have set {f : Fld} (w : f.w = 1) (fits : f.lo + f.w ≤ 64) (mem : (f, 1) ∈ s.departWrites h) : (s.departMarks h cause).on f = true := by
    rw [State.on, s.departMarks_rd_mem cause fits mem, w]
    rfl
  have saturated : min (s.rd (HP_OWNER_LOSS.DEPARTURES h.val) + 1) 65535 < 2 ^ 16 := by omega
  refine ⟨set rfl (Nat.le_of_ble_eq_true rfl) (by simp [departWrites]), set rfl (Nat.le_of_ble_eq_true rfl) (by simp [departWrites]),
    set rfl (Nat.le_of_ble_eq_true rfl) (by simp [departWrites]), s.departMarks_incarn h cause, ?_, ?_, ?_, ?_⟩
  · have mem : (HP_OWNER_LOSS.DEPARTURES h.val, min (s.rd (HP_OWNER_LOSS.DEPARTURES h.val) + 1) 65535) ∈ s.departWrites h := by
      simp [departWrites]
    have width : (HP_OWNER_LOSS.DEPARTURES h.val).w = 16 := rfl
    rw [s.departMarks_rd_mem cause (Nat.le_of_ble_eq_true rfl) mem, width]
    exact Nat.mod_eq_of_lt saturated
  all_goals rw [departMarks_port]

/-- The incarnation after a departure, as it is compared (02 R73). -/
theorem State.departMarks_inc12 (s : State) (h : HostId) (cause : Nat) :
    (s.departMarks h cause).inc12 h = BitVec.ofNat 12 (s.rd (GLB_HOST_INCARN.INCARN h.val) + 1) := by
  rw [State.inc12, s.departMarks_incarn h cause]
  exact BitVec.eq_of_toNat_eq (by simp)

/-- The incarnation and the departure that a husked port counts are those of before, one more (02 R72 step 2). -/
theorem State.departCount_eq {s t : State} {h : HostId} {f : Port → Port}
    (a : SameAtPort h (((s.wr (HP_CTRL.HUSK h.val) 1).wr (HP_STATUS.HUSKED h.val) 1).modPort h f) t) :
    (t.wr (GLB_HOST_INCARN.INCARN h.val) ((t.rd (GLB_HOST_INCARN.INCARN h.val) + 1) % 4096)).inc (HP_OWNER_LOSS.DEPARTURES h.val) =
      (t.wr (GLB_HOST_INCARN.INCARN h.val) ((s.rd (GLB_HOST_INCARN.INCARN h.val) + 1) % 4096)).wr
        (HP_OWNER_LOSS.DEPARTURES h.val) (min (s.rd (HP_OWNER_LOSS.DEPARTURES h.val) + 1) 65535) := by
  have read {g : Fld} (low : g.off < 0x20000) (husk : g.Apart (HP_CTRL.HUSK h.val)) (husked : g.Apart (HP_STATUS.HUSKED h.val)) :
      t.rd g = s.rd g := by
    rw [a.rd low, modPort_rd, rd_wr_apart _ _ husked.symm, rd_wr_apart _ _ husk.symm]
  have apart := s.departWrites_pairwise h
  simp only [departWrites, List.pairwise_cons, List.forall_mem_cons] at apart
  obtain ⟨⟨-, incarnHusk, departuresHusk, -⟩, ⟨incarnHusked, departuresHusked, -⟩, ⟨departuresIncarn, -⟩, -⟩ := apart
  have widest : 2 ^ (HP_OWNER_LOSS.DEPARTURES h.val).w - 1 = 65535 := by simp [HP_OWNER_LOSS.DEPARTURES]
  have incarn := read (by simp only [GLB_HOST_INCARN.INCARN, GLB_HOST_INCARN.reg]; omega) incarnHusk incarnHusked
  have departures := read (by simp only [HP_OWNER_LOSS.DEPARTURES, HP_OWNER_LOSS.reg]; omega) departuresHusk departuresHusked
  rw [State.inc, rd_wr_apart _ _ departuresIncarn.symm, incarn, departures, widest]

/-- What a departure with nothing outstanding leaves of its port and of the registers below the slices'. -/
theorem State.depart_sameAtPort {s : State} {h : HostId} (m : s.mayDepart h) (cause : Nat) :
    SameAtPort h (s.departMarks h cause) (s.depart h cause) := by
  obtain ⟨notHusked, mode, table, offered, park, notUrgent⟩ := m
  have departs : ¬(s.on (HP_CTRL.HUSK h.val) = true ∨ s.mode = 0) := by
    rintro (husked | hold)
    · exact Bool.false_ne_true (notHusked.symm.trans husked)
    · omega
  unfold State.depart
  rw [if_neg departs]
  extract_lets quiet s1 s2 s3 s4 s5 s6 s7
  -- no mode of `mayDepart` is DRAIN, so no step is left out (08 R283)
  have awake : quiet = false := by
    have : s.mode ≠ 4 := by omega
    simp [quiet, this]
  clear_value quiet
  subst awake
  -- step 1: the port's messages are discarded, and it has parked none
  have discarded := (s1.modPort_modPort_sameAtPort h (fun x => { x with linkReset := cause == 0 || cause == 1 })
    (fun x => { x with held := [], ingress := [], egress := [] })).trans (State.discardPort_sameAtPort _ h)
  have port2 := discarded.2.trans (s1.port_modPort_same h _)
  have flushed : s2 = (s1.modPort h fun x => { x with linkReset := cause == 0 || cause == 1 }).discardPort h :=
    State.flushParked_of_nil (by rw [port2]; exact park)
  rw [← flushed] at discarded port2
  clear_value s2
  -- step 2: what is counted; the sweep's bit is written after the walks, which is all one
  have same3 : SameAtPort h (s.departMarks h cause) (s3.wr (HP_STATUS.SWEEP h.val) 1) := by
    have counted : s3 = _ := State.departCount_eq discarded
    rw [counted, State.departMarks_eq]
    exact ((discarded.wr _ _).wr _ _).wr _ _
  -- steps 4 and 5: there is no snoop to resolve, and the walks run in the slices
  have port3 : s3.port h = s2.port h := rfl
  have same6 : SameAtPort h (s3.wr (HP_STATUS.SWEEP h.val) 1) s6 :=
    ((State.resolveAll_sameAtPort (by rw [port3, port2]; exact table) (by rw [port3, port2]; exact offered)).trans
      (s4.startWalks_sameAtPort h s4.activeSlices)).wr _ _
  have same := same3.trans same6
  have quiet7 : s7 = s6 := by
    refine State.listUrgent_of_ne ?_
    have incs := s.departMarks_inc12 h cause
    rw [State.inc12] at incs
    rw [State.inc12, same.rd (by simp only [GLB_HOST_INCARN.INCARN, GLB_HOST_INCARN.reg]; omega), same.2, incs, State.departMarks_port]
    exact notUrgent
  rw [← quiet7] at same
  rw [if_neg Bool.false_ne_true]
  refine holds_of_ite (P := SameAtPort h (s.departMarks h cause)) same ?_
  exact same.trans (((QueueWork.refl _).notice _ _ _ _ _ _ _ (by decide)).sameAtPort h)

/-- The fields that decide whether a host may depart, and those that its departure writes at its port. -/
def departFields (h : HostId) : List Fld :=
  [GLB_MODE.MODE, HP_CTRL.HUSK h.val, HP_STATUS.HUSKED h.val, GLB_HOST_INCARN.INCARN h.val, HP_OWNER_LOSS.DEPARTURES h.val,
    HP_STATUS.SWEEP h.val]

/-- A field of the global registers or of a port with no part in the departure of a host. -/
def Fld.FreeOfDeparture (f : Fld) (h : HostId) : Prop := f.off < 0x20000 ∧ ∀ g ∈ departFields h, f.Apart g

theorem departFields_eq (h : HostId) :
    departFields h = [⟨0x10, 0, 3⟩, ⟨0x10000 + 0x400 * h.val, 4, 1⟩, ⟨0x10008 + 0x400 * h.val, 2, 1⟩, ⟨0x100 + 8 * h.val, 0, 12⟩,
      ⟨0x10018 + 0x400 * h.val, 32, 16⟩, ⟨0x10008 + 0x400 * h.val, 7, 1⟩] := rfl

theorem departFields_low (h : HostId) : ∀ f ∈ departFields h, f.off < 0x20000 := by
  simp only [departFields_eq, List.forall_mem_cons]
  refine ⟨?_, ?_, ?_, ?_, ?_, ?_, fun _ mem => absurd mem List.not_mem_nil⟩ <;> omega

/-- Of HP_STATUS, all but HUSKED and SWEEP. -/
theorem Fld.freeOfDeparture_status {f : Fld} {h : HostId} (reg : f.off = HP_STATUS.reg h.val) (husked : f.lo + f.w ≤ 2 ∨ 3 ≤ f.lo)
    (sweep : f.lo + f.w ≤ 7 ∨ 8 ≤ f.lo) : f.FreeOfDeparture h := by
  simp only [FreeOfDeparture, Apart, departFields_eq, List.forall_mem_cons, reg, HP_STATUS.reg]
  refine ⟨?_, ?_, ?_, ?_, ?_, ?_, ?_, fun _ mem => absurd mem List.not_mem_nil⟩ <;> omega

/-- Of HP_CTRL, all but HUSK. -/
theorem Fld.freeOfDeparture_ctrl {f : Fld} {h : HostId} (reg : f.off = HP_CTRL.reg h.val) (husk : f.lo + f.w ≤ 4 ∨ 5 ≤ f.lo) :
    f.FreeOfDeparture h := by
  simp only [FreeOfDeparture, Apart, departFields_eq, List.forall_mem_cons, reg, HP_CTRL.reg]
  refine ⟨?_, ?_, ?_, ?_, ?_, ?_, ?_, fun _ mem => absurd mem List.not_mem_nil⟩ <;> omega

theorem link_freeOfDeparture (h : HostId) : (HP_STATUS.LINK h.val).FreeOfDeparture h :=
  Fld.freeOfDeparture_status rfl (.inl (Nat.le_of_ble_eq_true rfl)) (.inl (Nat.le_of_ble_eq_true rfl))

theorem biEn_freeOfDeparture (h : HostId) : (HP_STATUS.BI_EN h.val).FreeOfDeparture h :=
  Fld.freeOfDeparture_status rfl (.inl (Nat.le_of_ble_eq_true rfl)) (.inl (Nat.le_of_ble_eq_true rfl))

theorem width_freeOfDeparture (h : HostId) : (HP_STATUS.WIDTH h.val).FreeOfDeparture h :=
  Fld.freeOfDeparture_status rfl (.inr (Nat.le_of_ble_eq_true rfl)) (.inl (Nat.le_of_ble_eq_true rfl))

theorem enable_freeOfDeparture (h : HostId) : (HP_CTRL.ENABLE h.val).FreeOfDeparture h :=
  Fld.freeOfDeparture_ctrl rfl (.inl (Nat.le_of_ble_eq_true rfl))

theorem State.mayDepart.wr {s : State} {h : HostId} (m : s.mayDepart h) {f : Fld} (free : f.FreeOfDeparture h) (x : Nat) :
    (s.wr f x).mayDepart h := by
  obtain ⟨-, apart⟩ := free
  simp only [departFields, List.forall_mem_cons] at apart
  obtain ⟨mode, husk, -, incarn, -⟩ := apart
  unfold State.mayDepart State.mode
  rw [State.on_wr_apart _ _ husk, State.rd_wr_apart _ _ mode, State.rd_wr_apart _ _ incarn]
  exact m

/-- What a field written beforehand has no part in. -/
theorem State.Departed.of_wr {s t : State} {h : HostId} {f : Fld} {x : Nat} (d : (s.wr f x).Departed t h) (free : f.FreeOfDeparture h) :
    s.Departed t h := by
  obtain ⟨-, apart⟩ := free
  simp only [departFields, List.forall_mem_cons] at apart
  obtain ⟨-, -, -, incarn, departures, -⟩ := apart
  unfold State.Departed at d
  rw [State.rd_wr_apart _ _ incarn, State.rd_wr_apart _ _ departures] at d
  exact d

theorem SameAtPort.departed {s t u : State} {h : HostId} (a : SameAtPort h t u) (d : s.Departed t h) : s.Departed u h := by
  have low := departFields_low h
  simp only [departFields, List.forall_mem_cons] at low
  obtain ⟨-, husk, husked, incarn, departures, sweep, -⟩ := low
  unfold State.Departed
  rw [a.on husk, a.on husked, a.on sweep, a.rd incarn, a.rd departures, a.2]
  exact d

/-- A departure with nothing outstanding leaves what 02 R72 says of it. -/
theorem State.depart_departed {s : State} {h : HostId} (m : s.mayDepart h) (cause : Nat) : s.Departed (s.depart h cause) h :=
  (s.depart_sameAtPort m cause).departed (s.departMarks_departed h cause)

/-- A departure with nothing outstanding leaves a field that it has no part in as it was. -/
theorem State.depart_on {s : State} {h : HostId} (m : s.mayDepart h) (cause : Nat) {f : Fld} (free : f.FreeOfDeparture h) :
    (s.depart h cause).on f = s.on f := by
  obtain ⟨low, apart⟩ := free
  simp only [departFields, List.forall_mem_cons] at apart
  obtain ⟨-, husk, husked, incarn, departures, sweep, -⟩ := apart
  have kept : (s.departMarks h cause).rd f = s.rd f := by
    rw [departMarks, modPort_rd]
    refine State.rd_wrAll_apart f _ s ?_
    simp only [departWrites, List.forall_mem_cons]
    exact ⟨husk.symm, husked.symm, incarn.symm, departures.symm, sweep.symm, fun _ mem => absurd mem List.not_mem_nil⟩
  exact ((s.depart_sameAtPort m cause).on low).trans (congrArg (· != 0) kept)

/-- A departure that a field of its port reports. -/
theorem State.depart_after_wr {s : State} {h : HostId} (m : s.mayDepart h) {f : Fld} (free : f.FreeOfDeparture h) (w : f.w = 1)
    (fits : f.lo + f.w ≤ 64) (cause : Nat) :
    s.Departed ((s.wr f 0).depart h cause) h ∧ ((s.wr f 0).depart h cause).on f = false :=
  ⟨(State.depart_departed (m.wr free 0) cause).of_wr free,
    (State.depart_on (m.wr free 0) cause free).trans (s.on_wr_zero f w fits)⟩

/-- A mode in which a host may depart is not HOLD. -/
theorem State.mayDepart.mode_ne {s : State} {h : HostId} (m : s.mayDepart h) : s.mode ≠ 0 := by
  obtain ⟨-, mode, -⟩ := m
  omega

/-- A link reset of a port that is not husked is a departure. -/
theorem State.mayDepart.linkReset {s : State} {h : HostId} (m : s.mayDepart h) (cause : Nat) : s.linkReset h cause = s.depart h cause :=
  if_neg fun husked => Bool.false_ne_true (m.1.symm.trans husked)

theorem exec_linkDown {s : State} (h : HostId) (hm : s.mode ≠ 0) :
    exec (.linkDown h) s = .next (((s.wr (HP_STATUS.LINK h.val) 0).wr (HP_STATUS.WIDTH h.val) 3).linkReset h 0) := if_neg hm

theorem exec_hotReset {s : State} (h : HostId) (hm : s.mode ≠ 0) : exec (.hotReset h) s = .next (s.linkReset h 1) := if_neg hm

theorem exec_biEnableChange_lost {s : State} {h : HostId} (hm : s.mode ≠ 0) (en : s.on (HP_STATUS.BI_EN h.val) = true) :
    exec (.biEnableChange h false) s = .next ((s.wr (HP_STATUS.BI_EN h.val) 0).depart h 2) := by
  simp only [exec, execBiEnableChange, if_neg hm, en, Bool.not_false, Bool.and_self, if_true]
  rfl

/-- A husk that firmware writes with no permanent escalation of the port is a departure alone. -/
theorem exec_hpHuskWrite_unasked {s : State} {h : HostId} (hm : s.mode ≠ 0) (perm : s.on (FLT_SRC_COUNT.PERM h.val) = false) :
    exec (.hpHuskWrite h) s = .next (s.depart h 5) := by
  simp only [exec, execHpHuskWrite, perm, Bool.false_and, Bool.false_eq_true, if_false]

theorem exec_hpEnableClear {s : State} (h : HostId) (hm : s.mode ≠ 0) :
    exec (.hpEnableClear h) s = .next ((s.wr (HP_CTRL.ENABLE h.val) 0).depart h 6) := if_neg hm

/-- A fence that is due is a departure, with its own notice (02 R68). -/
theorem exec_biFenceExpiry_due {s : State} {h : HostId} {b : BitVec 8} {e : SnoopEntry}
    (entry : (s.port h).table.look none b.toNat = some e) (due : e.since + s.fenceUs h ≤ s.now) :
    exec (.biFenceExpiry h b) s = .next (
      let t := (s.wr (HP_STATUS.BI_FENCE h.val) 1).depart h 3
      t.notice 2 0x11 3 h.val ((t.inc12 h).toNat + b.toNat * 2 ^ 12) (dpaOf e.req.line)) := by
  simp only [exec, execBiFenceExpiry, entry, if_neg (Nat.not_lt.mpr due)]

/-- Settles O13: each command is a departure after its own write, which the departure leaves as it is. -/
theorem departureHusksThePort : Obligations.DepartureHusksThePort := by
  unfold Obligations.DepartureHusksThePort
  refine fun s h b e => ⟨fun m => ⟨?_, ?_, fun en => ?_, fun perm => ?_, ?_⟩, exec_biFenceExpiry_due⟩
  · have link := link_freeOfDeparture h
    have m1 := m.wr link 0
    have m2 := m1.wr (width_freeOfDeparture h) 3
    refine ⟨_, exec_linkDown h m.mode_ne, ?_⟩
    rw [m2.linkReset]
    refine ⟨((State.depart_departed m2 0).of_wr (width_freeOfDeparture h)).of_wr link, ?_⟩
    have apart : (HP_STATUS.WIDTH h.val).Apart (HP_STATUS.LINK h.val) := .inr (.inl (Nat.le_of_ble_eq_true rfl))
    rw [State.depart_on m2 0 link, State.on_wr_apart _ 3 apart]
    exact s.on_wr_zero _ rfl (Nat.le_of_ble_eq_true rfl)
  · exact ⟨_, exec_hotReset h m.mode_ne, m.linkReset 1 ▸ State.depart_departed m 1⟩
  · exact ⟨_, exec_biEnableChange_lost m.mode_ne en,
      State.depart_after_wr m (biEn_freeOfDeparture h) rfl (Nat.le_of_ble_eq_true rfl) 2⟩
  · exact ⟨_, exec_hpHuskWrite_unasked m.mode_ne perm, State.depart_departed m 5⟩
  · exact ⟨_, exec_hpEnableClear h m.mode_ne, State.depart_after_wr m (enable_freeOfDeparture h) rfl (Nat.le_of_ble_eq_true rfl) 6⟩

end Sys2Proof.Machine
end

section
/-! PROOFS. The statements of chapter 8: the requests of internal agents at the IA stop (03 R103; 08 R265, R266, R270, R277; 09 R297,
R304), and a core that comes to an access with nothing before it. -/

namespace Sys2Proof.Machine

/-! ### Requests at the IA stop -/

/-- A request of an internal agent counted by its class, where it is a plain one. -/
def State.countAgent (s : State) (cls : ReqClass) : State :=
  match cls with
  | .iaRd => s.count 78 0
  | .iaWr => s.count 78 1
  | _ => s

/-- A mode other than HOLD, SPROUT and REPAIR counts a request of an agent and routes it, under the next number. -/
theorem State.iaIssue_routed {s : State} (hm : s.mode ≠ 0) (sprout : s.mode ≠ 1) (repair : s.mode ≠ 5) (cls : ReqClass)
    (stream line : Nat) (data : LineData) (be : ByteMask) (core : Option LogicalCore) :
    s.iaIssue cls stream line data be core =
      (s.bump.countAgent cls).route ⟨s.nextId, cls, .ia stream, line, 0#16, data, be, false, false, core, s.now, 0#12⟩ :=
  calc s.iaIssue cls stream line data be core
    _ = s.bump.iaSend s.nextId cls stream line data be core := if_neg hm
    _ = _ := (if_neg hm).trans (if_neg (not_or.mpr ⟨sprout, repair⟩))

/-- SPROUT and REPAIR count it and hold it at the stop (09 R297, R304; log 69). -/
theorem State.iaIssue_held {s : State} (held : s.mode = 1 ∨ s.mode = 5) (cls : ReqClass) (stream line : Nat) (data : LineData)
    (be : ByteMask) (core : Option LogicalCore) :
    s.iaIssue cls stream line data be core =
      { s.bump.countAgent cls with
        iaHeld := (s.bump.countAgent cls).iaHeld ++
          [⟨s.nextId, cls, .ia stream, line, 0#16, data, be, false, false, core, s.now, 0#12⟩] } :=
  have hm : s.mode ≠ 0 := by omega
  calc s.iaIssue cls stream line data be core
    _ = s.bump.iaSend s.nextId cls stream line data be core := if_neg hm
    _ = _ := (if_neg hm).trans (if_pos held)

theorem exec_iaRd_dma {st : BitVec 6} (dma : st.toNat < 16) (a : Word) (n : Nat) (s : State) :
    exec (.iaRd st a n) s = .next (s.dmaRequest .iaRd st a 0#512 (accessMask a (inLine a n))) := if_neg (Nat.not_le.mpr dma)

theorem exec_iaWr_dma {st : BitVec 6} (dma : st.toNat < 16) (a : Word) (d : LineData) (be : ByteMask) (s : State) :
    exec (.iaWr st a d be) s = .next (s.dmaRequest .iaWr st a d be) := if_neg (Nat.not_le.mpr dma)

/-- A DMA stream's access to device memory is a request of that stream. -/
theorem State.dmaRequest_device {s : State} {a : Word} (hm : s.mode ≠ 0) (device : isControl a = false) (cls : ReqClass) (st : BitVec 6)
    (d : LineData) (be : ByteMask) : s.dmaRequest cls st a d be = s.iaIssue cls st.toNat (a.toNat / 64) d be none := by
  rw [dmaRequest, if_neg hm, if_neg (device ▸ Bool.false_ne_true)]

/-- The control space answers a DMA stream with an error. -/
theorem State.dmaRequest_control {s : State} {a : Word} (hm : s.mode ≠ 0) (control : isControl a = true) (cls : ReqClass) (st : BitVec 6)
    (d : LineData) (be : ByteMask) : s.dmaRequest cls st a d be = s.emit (.iaError st.toNat (a.toNat / 64) false) := by
  rw [dmaRequest, if_neg hm, if_pos control]

/-! ### The cores' tables and queues -/

theorem State.core_modCore_same (s : State) (k : LogicalCore) (f : Core → Core) : (s.modCore k f).core k = f (s.core k) :=
  Tbl.look_put_same ..

theorem State.core_modCore_ne (s : State) {j k : LogicalCore} (ne : j ≠ k) (f : Core → Core) : (s.modCore k f).core j = s.core j :=
  Tbl.look_put_ne _ _ _ _ fun same => ne (Fin.ext same)

/-- A change of a core after another one, which together leave the core as it was, leaves the state as it was. -/
theorem State.modCore_undone {s : State} (canonical : s.Canonical) (k : LogicalCore) (f g : Core → Core)
    (undone : g (f (s.core k)) = s.core k) : (s.modCore k f).modCore k g = s := by
  have cores : ((s.cores.put Core.idle k.val (f (s.core k))).put Core.idle k.val (g ((s.modCore k f).core k))) = s.cores := by
    rw [core_modCore_same, undone, Tbl.put_put (fun _ => Core.idle) _ _ _ canonical.cores]
    exact Tbl.put_look (fun _ => Core.idle) _ canonical.cores
  exact congrArg (fun c => { s with cores := c }) cores

/-- Cores with empty queues have nothing to go on with. -/
theorem State.foldl_playAll_idle {s : State} : ∀ {l : List LogicalCore}, (∀ j ∈ l, (s.core j).queue = []) →
    l.foldl (fun s j => State.playAll j (s.core j).queue.length s) s = s
  | [], _ => rfl
  | j :: l, idle => by
    have first : State.playAll j (s.core j).queue.length s = s := by rw [idle j List.mem_cons_self]; rfl
    rw [List.foldl_cons, first]
    exact foldl_playAll_idle fun i member => idle i (List.mem_cons_of_mem _ member)

/-- The cores in order: those before one, that one, those after it. -/
theorem finRange_split (k : LogicalCore) :
    List.finRange 4 = (List.finRange 4).filter (fun j => decide (j < k)) ++ k :: (List.finRange 4).filter (fun j => decide (k < j)) := by
  decide +revert

/-- Where no core before this one holds an access back, the cores go on from this one. -/
theorem State.coresGo_from {s : State} {k : LogicalCore} (idle : ∀ j < k, (s.core j).queue = []) :
    s.coresGo = (State.playAll k (s.core k).queue.length s).laterCores k := by
  rw [coresGo, finRange_split k, List.foldl_append, List.foldl_cons,
    foldl_playAll_idle fun j member => idle j (of_decide_eq_true (List.mem_filter.mp member).2)]
  rfl

/-- A core with one access in its queue, which may issue, issues it. -/
theorem State.playAll_one {s u : State} {k : LogicalCore} {i : Instr} (one : (s.core k).queue = [i]) (free : (s.core k).acquire = none)
    (issued : (s.modCore k fun c => { c with queue := [] }).play k i = some u) : State.playAll k 1 s = u := by
  simp only [playAll, one, free, issued, Option.isSome_none, Bool.false_eq_true, if_false]

/-- The state in which a core holds back one access alone. -/
def State.holding (s : State) (k : LogicalCore) (i : Instr) : State := s.modCore k fun c => { c with queue := [i] }

theorem State.holding_core_same (s : State) (k : LogicalCore) (i : Instr) : (s.holding k i).core k = { s.core k with queue := [i] } :=
  core_modCore_same ..

theorem State.holding_core_ne (s : State) {j k : LogicalCore} (ne : j ≠ k) (i : Instr) : (s.holding k i).core j = s.core j :=
  core_modCore_ne s ne _

/-- A ready core that comes to an access has it alone in its queue, and the cores go on. -/
theorem State.CoreReady.coreAccess_eq {s : State} {k : LogicalCore} (ready : s.CoreReady k) (i : Instr) :
    s.coreAccess k i = (s.holding k i).coresGo := by
  obtain ⟨-, mode, halted, husked, queues, -, error⟩ := ready
  simp [coreAccess, takeImprecise, mode, halted, husked, error, holding, modCore, queues k]

/-- The access taken from the queue of a core that was ready leaves the state before it came. -/
theorem State.CoreReady.holding_popped {s : State} {k : LogicalCore} (ready : s.CoreReady k) (i : Instr) :
    ((s.holding k i).modCore k fun c => { c with queue := [] }) = s :=
  modCore_undone ready.canonical k _ _ (by rw [← ready.queues k])

/-- A ready core that comes to an access which may issue issues it, and the cores after it go on. -/
theorem State.CoreReady.coreAccess_issues {s u : State} {k : LogicalCore} {i : Instr} (ready : s.CoreReady k)
    (issued : s.play k i = some u) : s.coreAccess k i = u.laterCores k := by
  have own := s.holding_core_same k i
  have before : ∀ j < k, ((s.holding k i).core j).queue = [] := fun j lt => (s.holding_core_ne lt.ne i).symm ▸ ready.queues j
  have plays : State.playAll k 1 (s.holding k i) = u :=
    playAll_one (congrArg Core.queue own) ((congrArg Core.acquire own).trans ready.acquire) ((ready.holding_popped i).symm ▸ issued)
  rw [ready.coreAccess_eq, coresGo_from before, own, List.length_singleton, plays]

/-- The cores after one do nothing where none holds an access back. -/
theorem State.laterCores_idle {s : State} (k : LogicalCore) (idle : ∀ j, (s.core j).queue = []) : s.laterCores k = s :=
  foldl_playAll_idle fun j _ => idle j

/-! ### Plain accesses on a core's stream -/

theorem exec_iaRd_core {st : BitVec 6} (core : 16 ≤ st.toNat) (a : Word) (n : Nat) (s : State) :
    exec (.iaRd st a n) s = .next (s.plainAccess st (.iaRd st a n)) := if_pos core

theorem exec_iaWr_core {st : BitVec 6} (core : 16 ≤ st.toNat) (a : Word) (d : LineData) (be : ByteMask) (s : State) :
    exec (.iaWr st a d be) s = .next (s.plainAccess st (.iaWr st a d be)) := if_pos core

theorem State.plainAccess_used {st : BitVec 6} (used : streamUsed st = true) (s : State) (i : Instr) :
    s.plainAccess st i = s.coreAccess (coreOf st) i := if_pos used

/-- An access on a stream that no core uses is none (log 118). -/
theorem State.plainAccess_unused {st : BitVec 6} (unused : streamUsed st = false) (s : State) (i : Instr) : s.plainAccess st i = s :=
  if_neg (unused ▸ Bool.false_ne_true)

/-- A plain load of device memory whose bytes the write buffer holds is answered from it (08 R266). -/
theorem State.play_iaRd_forwarded {s : State} {k : LogicalCore} {a : Word} {n : Nat} {bs : List Byte} (st : BitVec 6)
    (device : isControl a = false) (found : (s.core k).forward a.toNat (inLine a n) = some (some bs)) :
    s.play k (.iaRd st a n) = some (s.emit (.coreData k a (BitVec.ofNat 128 (leAt bs 0 bs.length)))) := by
  simp only [play, device, found, Bool.false_eq_true, if_false]

/-- A forwarded load of a ready core is its answer and nothing else. -/
theorem State.CoreReady.coreAccess_forwarded {s : State} {k : LogicalCore} {a : Word} {n : Nat} {bs : List Byte} (ready : s.CoreReady k)
    (st : BitVec 6) (device : isControl a = false) (found : (s.core k).forward a.toNat (inLine a n) = some (some bs)) :
    s.coreAccess k (.iaRd st a n) = s.emit (.coreData k a (BitVec.ofNat 128 (leAt bs 0 bs.length))) :=
  (ready.coreAccess_issues (State.play_iaRd_forwarded st device found)).trans (State.laterCores_idle k ready.queues)

/-! ### A store that no unit answers -/

/-- FABRIC_TIMEOUT of a held store to device memory that a slice has kept for 10 us (08 R277; log 80). -/
theorem exec_fabricTimeout_device {s : State} {k : LogicalCore} {a : Word} {x : HeldStore} (hm : s.mode ≠ 0)
    (device : isControl a = false) (found : (s.core k).stores.find? (fun h => h.addr == a.toNat && s.unanswered h.id) = some x) :
    exec (.fabricTimeout k a) s = .next (((s.discard x.id).count 78 6).iaFail x.id (lineOf a)).coresGo := by
  simp only [exec, execFabricTimeout, if_neg hm, device, found, Bool.false_eq_true, if_false]

theorem exec_fabricTimeout_control {s : State} {a : Word} (hm : s.mode ≠ 0) (control : isControl a = true) (k : LogicalCore) :
    exec (.fabricTimeout k a) s = .next (s.impreciseError k a).coresGo := (if_neg hm).trans (if_pos control)

/-- Settles O23: a DMA stream's access by the kind of its address and the mode, a core's by its stream, and a timeout by the kind of its
address. -/
theorem agentRequestsReachTheStop : Obligations.AgentRequestsReachTheStop := by
  unfold Obligations.AgentRequestsReachTheStop
  refine fun s st a n d be bs k x => ⟨fun dma hm device => ?_, fun dma hm control => ?_, fun core used ready device found => ?_,
    fun core unused => ?_, exec_fabricTimeout_device, fun hm control => exec_fabricTimeout_control hm control k⟩
  · rw [exec_iaRd_dma dma, exec_iaWr_dma dma, State.dmaRequest_device hm device, State.dmaRequest_device hm device]
    refine ⟨fun sprout repair => ?_, fun held => ?_⟩
    · rw [State.iaIssue_routed hm sprout repair, State.iaIssue_routed hm sprout repair]
      exact ⟨rfl, rfl⟩
    · rw [State.iaIssue_held held, State.iaIssue_held held]
      exact ⟨rfl, rfl⟩
  · rw [exec_iaRd_dma dma, exec_iaWr_dma dma, State.dmaRequest_control hm control, State.dmaRequest_control hm control]
    exact ⟨rfl, rfl⟩
  · rw [exec_iaRd_core core, State.plainAccess_used used, ready.coreAccess_forwarded st device found]
  · rw [exec_iaRd_core core, exec_iaWr_core core, State.plainAccess_unused unused, State.plainAccess_unused unused]
    exact ⟨rfl, rfl⟩

end Sys2Proof.Machine
end

section
/-! PROOFS. The statements of chapter 4 on the spill map: its messages (04 R125, R126, R128; 01 R21) and the spill limiter's tokens
(04 R119, R120). -/

namespace Sys2Proof.Machine

/-! ### What reading and writing code words leaves -/

/-- Reading and writing the code words of a slice leaves every segment of the spill map, and whether a visit is due, as they were; what a
checker finds changes the collector, and what an injection leaves changes the stored errors (10 R312 to R315, R341). -/
structure WordWork (s t : State) : Prop where
  segment : ∀ q, (t.sl q).segment = (s.sl q).segment
  segOnes : ∀ q, (t.sl q).segOnes = (s.sl q).segOnes
  sweepDue : t.sweepDue = s.sweepDue

theorem WordWork.refl (s : State) : WordWork s s := ⟨fun _ => rfl, fun _ => rfl, rfl⟩

theorem WordWork.trans {s t u : State} (h : WordWork s t) (k : WordWork t u) : WordWork s u :=
  ⟨fun q => (k.segment q).trans (h.segment q), fun q => (k.segOnes q).trans (h.segOnes q), k.sweepDue.trans h.sweepDue⟩

theorem WordWork.wr {s t : State} (h : WordWork s t) (f : Fld) (x : Nat) : WordWork s (t.wr f x) :=
  h.trans ⟨fun _ => rfl, fun _ => rfl, rfl⟩

/-- A change of a slice that its segment has no part in. -/
theorem WordWork.modSl {s t : State} (h : WordWork s t) (p : PhysSlice) {f : Slice → Slice} (segment : ∀ x, (f x).segment = x.segment)
    (segOnes : ∀ x, (f x).segOnes = x.segOnes) : WordWork s (t.modSl p f) := by
  refine h.trans ⟨fun q => ?_, fun q => ?_, rfl⟩ <;> by_cases e : q = p
  · rw [e, State.sl_modSl_same, segment]
  · rw [State.sl_modSl_ne _ _ e]
  · rw [e, State.sl_modSl_same, segOnes]
  · rw [State.sl_modSl_ne _ _ e]

/-- What the collector records of a finding is such work. -/
theorem FaultWork.wordWork {s t : State} (h : FaultWork s t) : WordWork s t :=
  ⟨fun q => by rw [h.slice q], fun q => by rw [h.slice q], by rw [h.rest]⟩

theorem State.finding_faultWork (s : State) (p : PhysSlice) (c : CodeWord) (f : Found) (injected quiet : Bool) :
    FaultWork s (s.finding p c f injected quiet) := by
  have source : 0x10 + p.val < 96 := by omega
  have total : 0x50000 ≤ FLT_SRC_COUNT.reg (0x10 + p.val) ∧ FLT_SRC_COUNT.reg (0x10 + p.val) < 0x51000 := by
    simp only [FLT_SRC_COUNT.reg]; omega
  unfold State.finding
  extract_lets src unspared info
  split
  · exact FaultWork.refl s
  · exact (FaultWork.refl s).inc _ _ total
  · exact (FaultWork.refl s).minor _ _ source
  · exact ((FaultWork.refl s).inc _ _ total).openRecord _ _ _ _
  · exact (FaultWork.refl s).major _ _ source

theorem State.injected_wordWork (s : State) (p : PhysSlice) : WordWork s (s.injected p) :=
  ((((WordWork.refl s).wr _ _).wr _ _).wr _ _).modSl p (fun _ => rfl) fun _ => rfl

theorem State.readKey_wordWork (s : State) (p : PhysSlice) (c : CodeWord) (k : Nat) (anyWord : Bool) :
    WordWork s (s.readKey p c k anyWord).1 := by
  unfold State.readKey
  split
  · exact (s.injected_wordWork p).trans (State.finding_faultWork _ p c _ _ _).wordWork
  · exact (s.finding_faultWork p c _ _ _).wordWork

theorem State.writeKey_wordWork (s : State) (p : PhysSlice) (c : CodeWord) (k : Nat) (anyWord : Bool) :
    WordWork s (s.writeKey p c k anyWord) := by
  unfold State.writeKey
  split
  · exact (s.injected_wordWork p).modSl p (fun _ => rfl) fun _ => rfl
  · exact (WordWork.refl s).modSl p (fun _ => rfl) fun _ => rfl

theorem State.readWords_wordWork (s : State) (p : PhysSlice) (l : List CodeWord) : WordWork s (s.readWords p l).1 := by
  unfold State.readWords
  split
  · exact WordWork.refl s
  · exact holds_of_foldl (P := fun acc : State × Bool => WordWork s acc.1)
      (fun acc _ h => h.trans (acc.1.readKey_wordWork p _ _ _)) l _ (WordWork.refl s)

theorem State.writeWords_wordWork (s : State) (p : PhysSlice) (l : List CodeWord) : WordWork s (s.writeWords p l) :=
  holds_of_ite (WordWork.refl s)
    (holds_of_foldl (P := WordWork s) (fun t _ h => h.trans (t.writeKey_wordWork p _ _ _)) l s (WordWork.refl s))

/-! ### The bits of the spill map -/

theorem WordWork.spillBit {s t : State} (h : WordWork s t) (q : PhysSlice) (chunk : Nat) :
    (t.sl q).spillBit chunk = (s.sl q).spillBit chunk := by
  rw [Slice.spillBit, Slice.spillBit, h.segment, h.segOnes]

/-- The bit written reads back. -/
theorem State.setSpillBit_spillBit (s : State) (p : PhysSlice) (chunk : Nat) (b : Bool) :
    ((s.setSpillBit p chunk b).sl p).spillBit chunk = b := by
  rw [State.setSpillBit, (State.writeWords_wordWork _ p _).spillBit, State.sl_modSl_same]
  exact Tbl.look_put_same ..

theorem State.checkSpill_sweepDue (s : State) (p : PhysSlice) (chunk : Nat) : (s.checkSpill p chunk).sweepDue = s.sweepDue := by
  have read := (s.readWords_wordWork p (spillWords chunk)).sweepDue
  exact holds_of_ite (P := fun t : State => t.sweepDue = s.sweepDue) ((State.writeWords_wordWork _ p _).sweepDue.trans read) read

theorem State.setSpillBit_sweepDue (s : State) (p : PhysSlice) (chunk : Nat) (b : Bool) :
    (s.setSpillBit p chunk b).sweepDue = s.sweepDue :=
  (State.writeWords_wordWork _ p _).sweepDue.trans (s.checkSpill_sweepDue p chunk)

/-- A set message acted on leaves the chunk's bit set (04 R125). -/
theorem State.holderSet_spillBit (s : State) (p : PhysSlice) (chunk : Nat) : ((s.holderSet p chunk).sl p).spillBit chunk = true := by
  rw [State.holderSet, State.sl_modSl_same]
  exact s.setSpillBit_spillBit p chunk true

/-! ### Spill map messages (O17) -/

theorem State.setMsg_look (s : State) (n : Nat) (m : Option SpillMsg) : (s.setMsg n m).fabric.look none n = m := Tbl.look_put_same ..

/-- The messages under way have no part in a derivation. -/
theorem State.setMsg_derive (s : State) (n : Nat) (m : Option SpillMsg) (p : PhysSlice) (mask : HostSet) (line : Nat) :
    (s.setMsg n m).derive p mask line = s.derive p mask line := rfl

section Messages

variable {s : State} {n id : Nat} {m : SpillMsg} {p : PhysSlice} (msg : s.fabric.look none n = some m)
include msg

/-- A set message at its holder (04 R125). -/
theorem exec_spillMapSet_held (live : s.slHusked m.holder = false) (set : m.set = true) (fresh : m.acked = false) :
    exec (.spillMapSet n) s = .next ((s.holderSet m.holder m.chunk).setMsg n (some { m with acked := true })) := by
  simp only [exec, execSpillMapSet, msg, live, set, fresh, Bool.not_true, Bool.false_eq_true, or_self, if_false]

/-- The acknowledgement that a tracker waits for. -/
theorem exec_spillMapSetAck_tracker (acked : m.acked = true) (owner : m.owner = .tracker p id) :
    exec (.spillMapSetAck n) s = .next ((s.setMsg n none).modTrk p id fun t => { t with setAcks := t.setAcks - 1 }) := by
  simp only [exec, execSpillMapSetAck, msg, acked, owner, Bool.not_true, Bool.false_eq_true, if_false]

/-- The acknowledgement that a victim way waits for. -/
theorem exec_spillMapSetAck_victim (acked : m.acked = true) (owner : m.owner = .victim p id) :
    exec (.spillMapSetAck n) s =
      .next (((s.setMsg n none).modVictim p id fun v => { v with setAck := false }).finishVictim p id) := by
  simp only [exec, execSpillMapSetAck, msg, acked, owner, Bool.not_true, Bool.false_eq_true, if_false]

/-- The answer to a query that a derivation waits for (04 R126; 03 R82). -/
theorem exec_spillMapQuery_needed {t : Tracker} (live : s.slHusked m.holder = false) (query : m.set = false)
    (owner : m.owner = .tracker p id) (found : s.trk p id = some t) (phase : t.phase = .query)
    (need : s.derive p (rgMask t.region) t.req.line = .needMap) :
    exec (.spillMapQuery n) s = .next (
      let u := (s.setMsg n none).checkSpill m.holder m.chunk
      (u.mapKnown p t ((u.sl m.holder).spillBit m.chunk)).advance p id) := by
  have found' : (s.setMsg n none).trk p id = some t := found
  simp only [exec, execSpillMapQuery, msg, live, query, owner, found', phase, s.setMsg_derive, need, Bool.false_eq_true, if_false]

/-- A message at a husked slice is sent again (01 R21; 04 R128). -/
theorem exec_spillMap_husked (husked : s.slHusked m.holder = true) (fresh : m.acked = false) :
    exec (if m.set then .spillMapSet n else .spillMapQuery n) s = .next (s.resendMsg n m) := by
  cases set : m.set with
  | true =>
    simp only [if_true, exec, execSpillMapSet, msg, husked, set, fresh, Bool.not_true, Bool.false_eq_true, or_self, if_false]
  | false =>
    simp only [if_true, exec, execSpillMapQuery, msg, husked, set, Bool.false_eq_true, if_false]

end Messages

/-! ### Spill tokens (O17) -/

/-- Registers changed each by its own value alone, no two of them the same: each has its change, and nothing else changes. -/
theorem State.foldl_setReg (f : Word → Word) : ∀ (l : List Nat) (s : State), l.Nodup →
    s.OnlyRegs (l.foldl (fun s o => s.setReg o (f (s.reg o))) s) l ∧
      ∀ o ∈ l, (l.foldl (fun s o => s.setReg o (f (s.reg o))) s).reg o = f (s.reg o)
  | [], s, _ => ⟨⟨rfl, fun _ _ => rfl⟩, fun _ mem => absurd mem List.not_mem_nil⟩
  | a :: l, s, distinct => by
    obtain ⟨fresh, distinct⟩ := List.nodup_cons.mp distinct
    obtain ⟨⟨frame, others⟩, changed⟩ := foldl_setReg f l (s.setReg a (f (s.reg a))) distinct
    rw [List.foldl_cons]
    refine ⟨⟨frame, fun o out => ?_⟩, fun o mem => ?_⟩
    · obtain ⟨ne, out⟩ := not_or.mp (mt List.mem_cons.mpr out)
      rw [others o out, State.reg_setReg_ne _ _ ne]
    · rcases List.mem_cons.mp mem with here | later
      · rw [here, others a fresh, State.reg_setReg_same]
      · rw [changed o later, State.reg_setReg_ne _ _ (ne_of_mem_of_not_mem later fresh)]

/-- SL_SF_CTRL after the limiter's tick: TOKENS has risen by SPILL_RATE, up to SPILL_BURST, 0 of which acts as 1 (04 R119, R120). -/
def refilled (v : Word) : Word :=
  putBits v 20 12 (max (getBits v 20 12) (min (max 1 (getBits v 8 12)) (getBits v 20 12 + getBits v 0 8)))

theorem exec_spillTokenTick {s : State} (hm : s.mode ≠ 0) :
    exec .spillTokenTick s =
      .next ((allSlices.map fun p => SL_SF_CTRL.reg p.val).foldl (fun s o => s.setReg o (refilled (s.reg o))) s) := by
  rw [List.foldl_map]
  exact if_neg hm

theorem slSfCtrl_nodup : (allSlices.map fun p => SL_SF_CTRL.reg p.val).Nodup :=
  (List.nodup_finRange 18).map fun p q same => Fin.ext (by simp only [SL_SF_CTRL.reg] at same; omega)

/-- The tick touches no other field of the register. -/
theorem getBits_refilled_apart (v : Word) {lo w : Nat} (apart : lo + w ≤ 20 ∨ 20 + 12 ≤ lo) : getBits (refilled v) lo w = getBits v lo w :=
  getBits_putBits_disjoint v 20 12 _ lo w apart

theorem getBits_refilled_tokens (v : Word) :
    getBits (refilled v) 20 12 = max (getBits v 20 12) (min (max 1 (getBits v 8 12)) (getBits v 20 12 + getBits v 0 8)) := by
  have tokens : getBits v 20 12 < 2 ^ 12 := BitVec.isLt _
  have burst : getBits v 8 12 < 2 ^ 12 := BitVec.isLt _
  rw [refilled, getBits_putBits_same _ _ _ _ (by decide)]
  exact Nat.mod_eq_of_lt (by omega)

/-- Settles O17: each message by its holder and owner, the tick by what it does to one register. -/
theorem spillMapAndSpillTokens : Obligations.SpillMapAndSpillTokens := by
  unfold Obligations.SpillMapAndSpillTokens
  refine ⟨fun s n id m p t msg => ⟨fun live set fresh => ?_, exec_spillMapSetAck_tracker msg, exec_spillMapSetAck_victim msg,
    exec_spillMapQuery_needed msg, fun husked fresh => ?_⟩, fun s hm => ?_⟩
  · exact ⟨_, exec_spillMapSet_held msg live set fresh, State.setMsg_look _ _ _, s.holderSet_spillBit _ _⟩
  · exact ⟨_, exec_spillMap_husked msg husked fresh, State.setMsg_look _ _ _, rfl, rfl⟩
  · obtain ⟨frame, ticked⟩ := State.foldl_setReg refilled _ s slSfCtrl_nodup
    refine ⟨_, exec_spillTokenTick hm, frame, fun p => ?_⟩
    have own := ticked (SL_SF_CTRL.reg p.val) (List.mem_map_of_mem (List.mem_finRange p))
    have apart := fun {lo w : Nat} => getBits_refilled_apart (s.reg (SL_SF_CTRL.reg p.val)) (lo := lo) (w := w)
    simp only [State.rd, SL_SF_CTRL.SPILL_RATE, SL_SF_CTRL.SPILL_BURST, SL_SF_CTRL.FORGET, SL_SF_CTRL.TOKENS, own]
    exact ⟨apart (by decide), apart (by decide), apart (by decide), getBits_refilled_tokens _⟩

end Sys2Proof.Machine
end

section
/-! PROOFS. The statements of chapter 4 on the agents of the directory: the sweeper (04 R132 to R135, R511), the forget-host walk
(04 R137, R138) and the urgent directed pass (04 R140). -/

namespace Sys2Proof.Machine

/-! ### The same change in several slices -/

/-- The same change made in each of some slices is made once in each of them, and in no other. -/
theorem State.sl_foldl_modSl (f : Slice → Slice) (q : PhysSlice) : ∀ (l : List PhysSlice) (s : State), l.Nodup →
    (l.foldl (fun s p => s.modSl p f) s).sl q = if q ∈ l then f (s.sl q) else s.sl q
  | [], _, _ => (if_neg List.not_mem_nil).symm
  | p :: l, s, distinct => by
    obtain ⟨fresh, distinct⟩ := List.nodup_cons.mp distinct
    rw [List.foldl_cons, sl_foldl_modSl f q l _ distinct]
    by_cases e : q = p
    · rw [e, if_neg fresh, if_pos List.mem_cons_self, State.sl_modSl_same]
    · simp only [State.sl_modSl_ne _ _ e, List.mem_cons, e, false_or]

/-- Changes of slices leave every other part of the machine as it was. -/
theorem State.foldl_modSl_frame (f : Slice → Slice) (l : List PhysSlice) (s : State) :
    l.foldl (fun s p => s.modSl p f) s = { s with slices := (l.foldl (fun s p => s.modSl p f) s).slices } :=
  holds_of_foldl (P := fun t : State => t = { s with slices := t.slices }) (fun _ _ h => by rw [h]; rfl) l s rfl

theorem allSlices_nodup : allSlices.Nodup := List.nodup_finRange 18

theorem State.activeSlices_nodup (s : State) : s.activeSlices.Nodup := allSlices_nodup.filter _

/-! ### A chunk visit begins (04 R132, R511) -/

/-- Where no new share may begin, SWEEPER_CHUNK_VISIT does nothing. -/
theorem exec_sweeperChunkVisit_idle {s : State} (idle : s.mode ≠ 2 ∨ s.on GLB_PASS_EPOCH.PAUSE = true ∨ s.shareOver = false) :
    exec .sweeperChunkVisit s = .next s := if_pos (by simpa using idle)

theorem exec_sweeperChunkVisit_over {s : State} (hm : s.mode = 2) (running : s.on GLB_PASS_EPOCH.PAUSE = false)
    (passed : s.shareOver = true) :
    exec .sweeperChunkVisit s = .next (if s.sweepActive then { s with sweepDue := true } else s.beginVisit) := by
  have may : ¬(s.mode ≠ 2 ∨ s.on GLB_PASS_EPOCH.PAUSE = true ∨ (!s.shareOver) = true) := by simp [hm, running, passed]
  refine (if_neg may).trans ?_
  cases s.sweepActive <;> rfl

/-- The state in which a visit of chunk 0 has begun a pass: its epoch is noted, and each port's incarnation (04 R132, R139). -/
def State.passBegun (s : State) : State :=
  allHosts.foldl (fun t h => t.modPort h fun x => { x with passInc := t.inc12 h })
    (s.wr GLB_PASS_EPOCH.START_EPOCH (s.rd GLB_EPOCH.EPOCH))

/-- Of the registers a new pass writes START_EPOCH alone. -/
theorem State.passBegun_regs (s : State) : s.passBegun.regs = (s.wr GLB_PASS_EPOCH.START_EPOCH (s.rd GLB_EPOCH.EPOCH)).regs :=
  holds_of_foldl (P := fun t : State => t.regs = (s.wr GLB_PASS_EPOCH.START_EPOCH (s.rd GLB_EPOCH.EPOCH)).regs)
    (fun _ _ h => h) allHosts _ rfl

/-- Fields read the same of the same registers. -/
theorem State.rd_congr {s t : State} (regs : t.regs = s.regs) (f : Fld) : t.rd f = s.rd f := by
  rw [State.rd, State.rd, State.reg, State.reg, regs]

theorem mapPs_off (j : Nat) : (mapPs j).off ≠ GLB_PASS_EPOCH.reg := by
  unfold mapPs mapByte
  split
  · exact (by decide : GLB_SLICE_MAP0.reg ≠ GLB_PASS_EPOCH.reg)
  · exact (by decide : GLB_SLICE_MAP1.reg ≠ GLB_PASS_EPOCH.reg)

/-- Which slices are active is in the slice map and the slices' HUSK bits alone. -/
theorem State.activeSlices_congr {s t : State} (map : ∀ j, t.rd (mapPs j) = s.rd (mapPs j))
    (husk : ∀ p : PhysSlice, t.on (SL_CTRL.HUSK p.val) = s.on (SL_CTRL.HUSK p.val)) : t.activeSlices = s.activeSlices := by
  simp only [State.activeSlices, State.active, State.slHusked, map, husk]

/-- What a visit of NEXT_CHUNK begins from: of chunk 0, a new pass. -/
def State.visitBase (s : State) : State := if s.rd GLB_PASS_EPOCH.NEXT_CHUNK = 0 then s.passBegun else s

theorem State.visitBase_activeSlices (s : State) : s.visitBase.activeSlices = s.activeSlices := by
  refine holds_of_ite (P := fun t : State => t.activeSlices = s.activeSlices) ?_ rfl
  refine State.activeSlices_congr (fun j => ?_) fun p => congrArg (· != 0) ?_
  · exact (State.rd_congr s.passBegun_regs _).trans (s.rd_wr_off _ _ _ (mapPs_off j))
  · refine (State.rd_congr s.passBegun_regs _).trans (s.rd_wr_off _ _ _ ?_)
    simp only [SL_CTRL.HUSK, SL_CTRL.reg, GLB_PASS_EPOCH.START_EPOCH, GLB_PASS_EPOCH.reg]
    omega

/-- The slices' parts of a visit of a chunk, before any line. -/
def State.partsBegun (s : State) : State :=
  s.visitBase.activeSlices.foldl (fun t p => t.modSl p fun x => { x with sweep := some ⟨s.rd GLB_PASS_EPOCH.NEXT_CHUNK, 0, true, []⟩ })
    s.visitBase

theorem State.beginVisit_eq (s : State) :
    s.beginVisit =
      { s.partsBegun.modSl (s.holderOf (s.rd GLB_PASS_EPOCH.NEXT_CHUNK)) (fun x => { x with setInVisit := false }) with
        sweepActive := true, sweepDue := false, sweepUs := some 0 } := rfl

theorem State.beginVisit_sl (s : State) (q : PhysSlice) :
    s.beginVisit.sl q =
      (s.partsBegun.modSl (s.holderOf (s.rd GLB_PASS_EPOCH.NEXT_CHUNK)) fun x => { x with setInVisit := false }).sl q := rfl

/-- Every active slice has its part of the visit. -/
theorem State.beginVisit_sweep {s : State} {q : PhysSlice} (active : q ∈ s.activeSlices) :
    (s.beginVisit.sl q).sweep = some ⟨s.rd GLB_PASS_EPOCH.NEXT_CHUNK, 0, true, []⟩ := by
  have part : (s.partsBegun.sl q).sweep = some ⟨s.rd GLB_PASS_EPOCH.NEXT_CHUNK, 0, true, []⟩ := by
    rw [partsBegun, sl_foldl_modSl _ q _ _ (State.activeSlices_nodup _), if_pos (s.visitBase_activeSlices ▸ active)]
  rw [beginVisit_sl]
  by_cases holder : q = s.holderOf (s.rd GLB_PASS_EPOCH.NEXT_CHUNK)
  · rw [← holder, State.sl_modSl_same]
    exact part
  · rw [State.sl_modSl_ne _ _ holder]
    exact part

/-- No set message has come yet in the visit. -/
theorem State.beginVisit_setInVisit (s : State) :
    (s.beginVisit.sl (s.holderOf (s.rd GLB_PASS_EPOCH.NEXT_CHUNK))).setInVisit = false := by
  rw [beginVisit_sl, State.sl_modSl_same]

theorem State.beginVisit_regs (s : State) : s.beginVisit.regs = s.visitBase.regs := by
  have parts : s.partsBegun = { s.visitBase with slices := s.partsBegun.slices } := State.foldl_modSl_frame _ _ _
  rw [beginVisit_eq, parts]
  rfl

/-- A visit of chunk 0 notes the epoch as its pass's. -/
theorem State.beginVisit_startEpoch {s : State} (first : s.rd GLB_PASS_EPOCH.NEXT_CHUNK = 0) :
    s.beginVisit.rd GLB_PASS_EPOCH.START_EPOCH = s.rd GLB_EPOCH.EPOCH := by
  have regs : s.beginVisit.regs = (s.wr GLB_PASS_EPOCH.START_EPOCH (s.rd GLB_EPOCH.EPOCH)).regs := by
    rw [beginVisit_regs, visitBase, if_pos first, passBegun_regs]
  exact ((State.rd_congr regs _).trans (s.rd_wr_same _ _ (by decide))).trans (Nat.mod_eq_of_lt (s.rd_lt GLB_EPOCH.EPOCH))

theorem State.beginVisit_regs_kept {s : State} (later : s.rd GLB_PASS_EPOCH.NEXT_CHUNK ≠ 0) : s.beginVisit.regs = s.regs := by
  rw [beginVisit_regs, visitBase, if_neg later]

/-! ### A slice takes its next line (04 R132, R511) -/

theorem exec_sweeperLine_next {s : State} {p : PhysSlice} {v : SweepPart} {l : Nat} (hm : s.mode = 2)
    (running : s.on GLB_PASS_EPOCH.PAUSE = false) (part : (s.sl p).sweep = some v)
    (room : s.opsOf (fun o => match o with | .sweeper q _ => q == p | _ => false) < 32)
    (next : s.nextHomed p (v.chunk * 2 ^ 20 + v.pos) ((v.chunk + 1) * 2 ^ 20) = some l) :
    exec (.sweeperLine p) s =
      .next ((s.modSl p fun x => { x with sweep := some { v with pos := l + 1 - v.chunk * 2 ^ 20 } }).sweepLine p l) := by
  simp only [exec, execSweeperLine, part, next]
  refine if_neg ?_
  rintro (other | paused | full)
  · exact other hm
  · exact Bool.false_ne_true (running.symm.trans paused)
  · exact absurd room (Nat.not_lt.mpr full)

theorem State.sl_sweepActive (s : State) (b : Bool) (q : PhysSlice) : ({ s with sweepActive := b } : State).sl q = s.sl q := rfl

/-! ### A chunk visit ends (04 R133, R135) -/

/-- Every active slice's part of the visit is clean. -/
def State.visitClean (s : State) : Bool := s.activeSlices.all fun p => match (s.sl p).sweep with | some v => v.clean | none => true

theorem State.visitClean_iff (s : State) :
    s.visitClean = true ↔ ∀ q ∈ s.activeSlices, ∀ v, (s.sl q).sweep = some v → v.clean = true := by
  rw [visitClean, List.all_eq_true]
  refine forall₂_congr fun q _ => ?_
  cases (s.sl q).sweep <;> simp

/-- The holder clears the bit of the chunk just visited where every part was clean and no set message came. -/
def State.visitMarked (s : State) : State :=
  let c := s.rd GLB_PASS_EPOCH.NEXT_CHUNK
  if s.visitClean && !(s.sl (s.holderOf c)).setInVisit then s.setSpillBit (s.holderOf c) c false else s

theorem State.visitMarked_sweepDue (s : State) : s.visitMarked.sweepDue = s.sweepDue :=
  holds_of_ite (P := fun t : State => t.sweepDue = s.sweepDue) (s.setSpillBit_sweepDue _ _ _) rfl

/-- No slice has a part of a visit any more. -/
def State.partsEnded (s : State) : State := allSlices.foldl (fun t p => t.modSl p fun x => { x with sweep := none }) s.visitMarked

theorem State.partsEnded_sl (s : State) (q : PhysSlice) : s.partsEnded.sl q = { s.visitMarked.sl q with sweep := none } := by
  rw [partsEnded, sl_foldl_modSl _ q _ _ allSlices_nodup]
  exact if_pos (List.mem_finRange q)

theorem State.partsEnded_sweepDue (s : State) : s.partsEnded.sweepDue = s.sweepDue := by
  rw [partsEnded, foldl_modSl_frame]
  exact s.visitMarked_sweepDue

/-- The state after a visit that is not the last of its pass. -/
def State.visitEnded (s : State) : State :=
  ({ s.partsEnded with sweepActive := false } : State).wr GLB_PASS_EPOCH.NEXT_CHUNK (s.rd GLB_PASS_EPOCH.NEXT_CHUNK + 1)

theorem State.visitEnded_sl (s : State) (q : PhysSlice) : s.visitEnded.sl q = { s.visitMarked.sl q with sweep := none } := by
  rw [visitEnded, wr_sl, sl_sweepActive, partsEnded_sl]

theorem State.visitEnded_sweepDue (s : State) : s.visitEnded.sweepDue = s.sweepDue := by
  simp only [visitEnded, wr_sweepDue, partsEnded_sweepDue]

theorem State.visitEnded_spillBit (s : State) (q : PhysSlice) (d : Nat) :
    (s.visitEnded.sl q).spillBit d = (s.visitMarked.sl q).spillBit d := by
  rw [visitEnded_sl]; rfl

/-- With every part ended, no share due and chunks left, the visit ends and NEXT_CHUNK moves on. -/
theorem exec_sweeperChunkVisitEnd_moves {s : State} (active : s.sweepActive = true) (ended : ∀ q ∈ s.activeSlices, s.sweepEnded q = true)
    (more : s.rd GLB_PASS_EPOCH.NEXT_CHUNK + 1 < s.chunks) (due : s.sweepDue = false) :
    exec .sweeperChunkVisitEnd s = .next s.visitEnded := by
  have finished : ¬((!s.sweepActive) = true ∨ (!s.activeSlices.all fun p => s.sweepEnded p) = true) := by
    rw [active, List.all_eq_true.mpr ended]
    decide
  have run : exec .sweeperChunkVisitEnd s = .next (
      let t := if s.chunks ≤ s.rd GLB_PASS_EPOCH.NEXT_CHUNK + 1 then
          ({ s.partsEnded with sweepActive := false } : State).passComplete
        else s.visitEnded
      if t.sweepDue then t.beginVisit else t) := if_neg finished
  rw [run, if_neg (Nat.not_le.mpr more)]
  exact congrArg _ (if_neg (by rw [s.visitEnded_sweepDue, due]; decide))

/-! ### Progress is committed (04 R135) -/

theorem exec_progressCommit_alone {s : State} (hm : s.mode = 2) (accepts : s.store.stopped = false)
    (rebuild : s.on MF_REBUILD_STATUS.ACTIVE = false) :
    exec .progressCommit s = .next
      ({ s with store := { s.store with programs := s.store.programs ++ [StoreWrite.repair s.passEntry] } }.emit .storeProgram) := by
  have serve : ¬(s.mode ≠ 2) := not_not.mpr hm
  simp only [exec, execProgressCommit, if_neg serve, rebuild, State.commit, accepts, Bool.false_eq_true, if_false]

/-! ### The forget-host walk (04 R137, R138) -/

theorem exec_forgetHostWalkStep_none {s : State} {p : PhysSlice} (still : (s.sl p).walk = none) :
    exec (.forgetHostWalkStep p) s = .next s := by
  simp only [exec, execForgetHostWalkStep, still]

theorem exec_forgetHostWalkStep_some {s : State} {p : PhysSlice} {w : Walk} (walk : (s.sl p).walk = some w) (hm : s.mode ≠ 4) :
    exec (.forgetHostWalkStep p) s =
      .next (((s.walkStep p w).1.modSl p fun x => { x with walk := some (s.walkStep p w).2 }).walkCovered p) := by
  have runs : (s.mode == 4 && s.aon.drain != some .flush) = false := by simp [hm]
  simp only [exec, execForgetHostWalkStep, walk, runs, Bool.false_eq_true, if_false]

/-- A walk's step at its next set, for one host that it still has to cover. -/
theorem State.walkStep_oneHost (s : State) (p : PhysSlice) {w : Walk} {h : HostId} {n : Nat} (one : w.hosts = [(h, n + 1)]) :
    s.walkStep p w =
      let u := s.walkSet p w.pos h
      let again := if u.2.2 && !w.revisit.contains (w.pos, h) then w.revisit ++ [(w.pos, h)] else w.revisit
      (u.1, if u.2.1 then w else ⟨(w.pos + 1) % 32768, [(h, n)], again⟩) := by
  have live : (w.hosts.filter fun e => e.2 != 0).map (·.1) = [h] := by simp [one]
  have hosts : s.walkHosts p w.pos [h] =
      ((s.walkSet p w.pos h).1, (s.walkSet p w.pos h).2.1, if (s.walkSet p w.pos h).2.2 then [h] else []) := by
    rw [walkHosts, List.foldl_cons, List.foldl_nil]
    generalize s.walkSet p w.pos h = u
    rfl
  simp only [State.walkStep, live, hosts]
  generalize s.walkSet p w.pos h = u
  obtain ⟨s1, full, again⟩ := u
  cases full
  · cases again with
    | false => simp [one]
    | true => by_cases seen : (w.pos, h) ∈ w.revisit <;> simp [one, seen]
  · simp

/-- A host whose sets are all covered leaves the walk, FORGET, and, with the last slice, SWEEP. -/
theorem State.walkCovered_oneHost {s : State} {p : PhysSlice} {n : Nat} {h : HostId} (walk : (s.sl p).walk = some ⟨n, [(h, 0)], []⟩) :
    s.walkCovered p = ((s.modSl p fun x => { x with walk := none }).wr (SL_SF_CTRL.FORGET p.val)
      (s.rd (SL_SF_CTRL.FORGET p.val) &&& (0xFFFF - 2 ^ h.val))).sweepDone h := by
  simp [State.walkCovered, walk]

/-! ### The urgent directed pass (04 R140) -/

theorem exec_urgentPassLineVisit_off {s : State} (off : s.mode ≠ 2 ∨ s.on GLB_PASS_EPOCH.URGENT = false) (p : PhysSlice) :
    exec (.urgentPassLineVisit p) s = .next s := if_pos (by simpa using off)

section UrgentPass

variable {s : State} (hm : s.mode = 2) (urgent : s.on GLB_PASS_EPOCH.URGENT = true) {p : PhysSlice}
include hm urgent

theorem exec_urgentPassLineVisit_next {l : Nat} (line : s.urgentLine (s.sl p).urgentPos = some l) :
    exec (.urgentPassLineVisit p) s = .next (s.urgentNext p (s.sl p).urgentPos l) := by
  simp [exec, execUrgentPassLineVisit, hm, urgent, line]

theorem exec_urgentPassLineVisit_retry {l : Nat} {r : List Nat} (visited : s.urgentLine (s.sl p).urgentPos = none)
    (retry : (s.sl p).urgentRetry = l :: r) :
    exec (.urgentPassLineVisit p) s = .next (((s.modSl p fun x => { x with urgentRetry := r }).urgentVisit p l).urgentEnd) := by
  simp [exec, execUrgentPassLineVisit, hm, urgent, visited, retry]

theorem exec_urgentPassLineVisit_end (visited : s.urgentLine (s.sl p).urgentPos = none) (settled : (s.sl p).urgentRetry = []) :
    exec (.urgentPassLineVisit p) s = .next s.urgentEnd := by
  simp [exec, execUrgentPassLineVisit, hm, urgent, visited, settled]

end UrgentPass

/-! ### The statement (O40) -/

/-- The visit that SWEEPER_CHUNK_VISIT begins where no other runs. -/
theorem sweeperChunkVisit_begins {s : State} (hm : s.mode = 2) (running : s.on GLB_PASS_EPOCH.PAUSE = false) (passed : s.shareOver = true)
    (idle : s.sweepActive = false) : exec .sweeperChunkVisit s = .next s.beginVisit := by
  rw [exec_sweeperChunkVisit_over hm running passed, idle, if_neg Bool.false_ne_true]

/-- The holder has cleared the chunk's bit, unless the visit was not clean or a set message came. -/
theorem State.visitEnded_clears (s : State) :
    let c := s.rd GLB_PASS_EPOCH.NEXT_CHUNK
    (s.visitEnded.sl (s.holderOf c)).spillBit c = false ∨
      ¬((∀ q ∈ s.activeSlices, ∀ v, (s.sl q).sweep = some v → v.clean = true) ∧ (s.sl (s.holderOf c)).setInVisit = false) := by
  intro c
  refine or_not_of_imp fun ⟨clean, quiet⟩ => ?_
  have clears : (s.visitClean && !(s.sl (s.holderOf c)).setInVisit) = true := by rw [s.visitClean_iff.mpr clean, quiet]; rfl
  rw [visitEnded_spillBit, visitMarked, if_pos clears]
  exact s.setSpillBit_spillBit _ c false

/-- After a visit that was not clean, or in which a set message came, every bit of the map is as it was. -/
theorem State.visitEnded_keeps {s : State}
    (marked : (∃ q ∈ s.activeSlices, ∃ v, (s.sl q).sweep = some v ∧ v.clean = false) ∨
      (s.sl (s.holderOf (s.rd GLB_PASS_EPOCH.NEXT_CHUNK))).setInVisit = true) (q : PhysSlice) (d : Nat) :
    (s.visitEnded.sl q).spillBit d = (s.sl q).spillBit d := by
  have keeps : ¬(s.visitClean && !(s.sl (s.holderOf (s.rd GLB_PASS_EPOCH.NEXT_CHUNK))).setInVisit) = true := by
    rw [Bool.and_eq_true, Bool.not_eq_true', s.visitClean_iff]
    rintro ⟨clean, quiet⟩
    rcases marked with ⟨q, active, v, part, dirty⟩ | came
    · exact Bool.false_ne_true (dirty.symm.trans (clean q active v part))
    · exact Bool.false_ne_true (quiet.symm.trans came)
  rw [visitEnded_spillBit, visitMarked, if_neg keeps]

/-- Settles O40: each command by its equation; a visit begun and one ended by what they leave. -/
theorem sweeperPassesWalksAndUrgentPasses : Obligations.SweeperPassesWalksAndUrgentPasses := by
  unfold Obligations.SweeperPassesWalksAndUrgentPasses
  refine ⟨fun s p v l => ⟨exec_sweeperChunkVisit_idle, fun hm running passed => ⟨fun active => ?_, fun idle => ?_⟩, exec_sweeperLine_next,
    fun active ended more due => ?_, fun hm accepts rebuild => ?_⟩, fun s p w h n l r => ⟨fun walk hm one => ?_,
    State.walkCovered_oneHost, exec_forgetHostWalkStep_none, fun hm urgent => ⟨exec_urgentPassLineVisit_next hm urgent,
      exec_urgentPassLineVisit_retry hm urgent, exec_urgentPassLineVisit_end hm urgent⟩, fun off => exec_urgentPassLineVisit_off off p⟩⟩
  · rw [exec_sweeperChunkVisit_over hm running passed, if_pos active]
  · exact ⟨_, sweeperChunkVisit_begins hm running passed idle, rfl, rfl, rfl, fun q active => State.beginVisit_sweep active,
      s.beginVisit_setInVisit, State.beginVisit_startEpoch, State.beginVisit_regs_kept⟩
  · refine ⟨_, exec_sweeperChunkVisitEnd_moves active ended more due, rfl, fun q => ?_, ?_, s.visitEnded_clears,
      State.visitEnded_keeps⟩
    · rw [s.visitEnded_sl]
    · exact State.rd_wr_same _ _ _ (by decide)
  · exact ⟨_, exec_progressCommit_alone hm accepts rebuild, rfl, rfl, rfl⟩
  · rw [exec_forgetHostWalkStep_some walk hm, s.walkStep_oneHost p one]

end Sys2Proof.Machine
end

section
/-! PROOFS. The statement of chapter 5 on the start of a range operation (05 R170, R172 to R175): its registers, and the slices' parts. -/

namespace Sys2Proof.Machine

/-! ### The registers of a START -/

/-- Between the two states only registers differ. -/
def State.RegsOnly (s t : State) : Prop := t = { s with regs := t.regs }

theorem State.RegsOnly.refl (s : State) : s.RegsOnly s := rfl

theorem State.RegsOnly.setReg {s t : State} (h : s.RegsOnly t) (o : Nat) (v : Word) : s.RegsOnly (t.setReg o v) := by
  unfold RegsOnly at *
  rw [h]
  rfl

theorem State.RegsOnly.wr {s t : State} (h : s.RegsOnly t) (f : Fld) (x : Nat) : s.RegsOnly (t.wr f x) := h.setReg _ _

/-- What a START leaves in the registers of its operation, whether it begins or is refused: the operation, the error code, summary counts
of zero, and ABORTED 0 (05 R172, R173, R177). -/
structure State.RangeNoted (t : State) (op code : Nat) : Prop where
  code : t.rd HC_RANGE_STATUS.ERR_CODE = code
  op : t.rd HC_RANGE_OP.OP = op
  summary : ∀ k < 4, t.reg (HC_RANGE_SUMMARY.reg k) = 0#64
  aborted : t.on HC_RANGE_STATUS.ABORTED = false

/-- All of it is said of the registers of the range engine. -/
theorem State.RangeNoted.congr {t u : State} {op code : Nat} (n : t.RangeNoted op code)
    (same : ∀ o, o < 0x38040 → u.reg o = t.reg o) : u.RangeNoted op code where
  code := by rw [State.rd, same _ (by decide)]; exact n.code
  op := by rw [State.rd, same _ (by decide)]; exact n.op
  summary k hk := (same _ (by simp only [HC_RANGE_SUMMARY.reg]; omega)).trans (n.summary k hk)
  aborted := by rw [State.on, State.rd, same _ (by decide)]; exact n.aborted

/-- A field of HC_RANGE_STATUS that is neither ERR_CODE nor ABORTED has no part in it. -/
theorem State.RangeNoted.wr {t : State} {op code : Nat} (n : t.RangeNoted op code) {f : Fld} (x : Nat)
    (own : f.off = HC_RANGE_STATUS.reg) (fromCode : f.Apart HC_RANGE_STATUS.ERR_CODE) (fromAborted : f.Apart HC_RANGE_STATUS.ABORTED) :
    (t.wr f x).RangeNoted op code where
  code := (t.rd_wr_apart x fromCode).trans n.code
  op := (t.rd_wr_off f _ x (by rw [own]; decide)).trans n.op
  summary k hk := by
    refine (t.reg_wr_ne f x ?_).trans (n.summary k hk)
    rw [own, HC_RANGE_SUMMARY.reg, HC_RANGE_STATUS.reg]
    omega
  aborted := (t.on_wr_apart x fromAborted).trans n.aborted

/-- Every code of 05 Table 5.8 fits its field. -/
theorem State.rangeError_lt (s : State) (op : Nat) (force discard : Bool) : s.rangeError op force discard < 2 ^ 4 := by
  unfold State.rangeError
  extract_lets base limit
  split_ifs <;> decide

/-- The summary counts cleared (05 R177). -/
def State.summaryCleared (s : State) : State := (List.range 4).foldl (fun s k => s.setReg (HC_RANGE_SUMMARY.reg k) 0#64) s

theorem State.summaryCleared_eq (s : State) :
    s.summaryCleared = (((s.setReg (HC_RANGE_SUMMARY.reg 0) 0#64).setReg (HC_RANGE_SUMMARY.reg 1) 0#64).setReg
      (HC_RANGE_SUMMARY.reg 2) 0#64).setReg (HC_RANGE_SUMMARY.reg 3) 0#64 := rfl

theorem State.summaryCleared_reg (s : State) {k : Nat} (hk : k < 4) : s.summaryCleared.reg (HC_RANGE_SUMMARY.reg k) = 0#64 := by
  rw [summaryCleared_eq]
  interval_cases k <;> simp [HC_RANGE_SUMMARY.reg]

/-- The registers below the summary's stay. -/
theorem State.summaryCleared_reg_lt (s : State) {o : Nat} (ho : o < 0x38020) : s.summaryCleared.reg o = s.reg o := by
  have ne (k : Nat) : o ≠ HC_RANGE_SUMMARY.reg k := by rw [HC_RANGE_SUMMARY.reg]; omega
  simp [summaryCleared_eq, ne]

/-- The registers of a START as it is taken, before it begins or is refused (05 R172, R173). -/
def State.rangeTaken (s : State) (op : Nat) (force discard : Bool) : State :=
  (((((((s.wr HC_RANGE_OP.OP op).wb HC_RANGE_OP.FORCE force).wb HC_RANGE_OP.DISCARD discard).summaryCleared).wr
    HC_RANGE_STATUS.DONE 0).wr HC_RANGE_STATUS.ERR 0).wr HC_RANGE_STATUS.ABORTED 0).wr HC_RANGE_STATUS.ERR_CODE
    (s.rangeError op force discard)

theorem State.rangeTaken_frame (s : State) (op : Nat) (force discard : Bool) : s.RegsOnly (s.rangeTaken op force discard) := by
  have named : s.RegsOnly (((s.wr HC_RANGE_OP.OP op).wb HC_RANGE_OP.FORCE force).wb HC_RANGE_OP.DISCARD discard) :=
    (((State.RegsOnly.refl s).wr _ _).wr _ _).wr _ _
  have cleared := holds_of_foldl (P := s.RegsOnly) (fun _ k h => h.setReg (HC_RANGE_SUMMARY.reg k) 0#64) (List.range 4) _ named
  exact (((cleared.wr _ _).wr _ _).wr _ _).wr _ _

theorem State.rangeTaken_noted (s : State) {op : Nat} (known : op < 8) (force discard : Bool) :
    (s.rangeTaken op force discard).RangeNoted op (s.rangeError op force discard) where
  code := by
    rw [rangeTaken, State.rd_wr_same _ _ _ (by decide)]
    exact Nat.mod_eq_of_lt (s.rangeError_lt op force discard)
  op := by
    have status (t : State) (f : Fld) (x : Nat) (own : f.off = HC_RANGE_STATUS.reg) : (t.wr f x).rd HC_RANGE_OP.OP = t.rd HC_RANGE_OP.OP :=
      t.rd_wr_off f _ x (by rw [own]; decide)
    rw [rangeTaken, status _ _ _ rfl, status _ _ _ rfl, status _ _ _ rfl, status _ _ _ rfl, State.rd, summaryCleared_reg_lt _ (by decide)]
    have flag (t : State) (f : Fld) (b : Bool) (apart : HC_RANGE_OP.OP.lo + HC_RANGE_OP.OP.w ≤ f.lo) :
        (t.wb f b).rd HC_RANGE_OP.OP = t.rd HC_RANGE_OP.OP := t.rd_wr_disjoint f _ _ (.inl apart)
    have kept := (flag ((s.wr HC_RANGE_OP.OP op).wb HC_RANGE_OP.FORCE force) HC_RANGE_OP.DISCARD discard (by decide)).trans
      (flag _ _ _ (by decide))
    exact kept.trans ((s.rd_wr_same _ _ (by decide)).trans (Nat.mod_eq_of_lt known))
  summary k hk := by
    have status (t : State) (f : Fld) (x : Nat) (own : f.off = HC_RANGE_STATUS.reg) :
        (t.wr f x).reg (HC_RANGE_SUMMARY.reg k) = t.reg (HC_RANGE_SUMMARY.reg k) :=
      t.reg_wr_ne f x (by rw [own, HC_RANGE_SUMMARY.reg, HC_RANGE_STATUS.reg]; omega)
    rw [rangeTaken, status _ _ _ rfl, status _ _ _ rfl, status _ _ _ rfl, status _ _ _ rfl, summaryCleared_reg _ hk]
  aborted := by rw [rangeTaken, State.on_wr_apart _ _ (.inr (by decide)), State.on_wr_zero _ _ rfl (by decide)]

theorem State.rangeTaken_err (s : State) (op : Nat) (force discard : Bool) :
    (s.rangeTaken op force discard).on HC_RANGE_STATUS.ERR = false := by
  rw [rangeTaken, State.on_wr_apart _ _ (.inr (by decide)), State.on_wr_apart _ _ (.inr (by decide)), State.on_wr_zero _ _ rfl (by decide)]

theorem State.rangeTaken_busy (s : State) (op : Nat) (force discard : Bool) :
    (s.rangeTaken op force discard).on HC_RANGE_STATUS.BUSY = s.on HC_RANGE_STATUS.BUSY := by
  have status (t : State) (f : Fld) (x : Nat) (apart : f.Apart HC_RANGE_STATUS.BUSY) :
      (t.wr f x).on HC_RANGE_STATUS.BUSY = t.on HC_RANGE_STATUS.BUSY := t.on_wr_apart x apart
  rw [rangeTaken, status _ _ _ (.inr (by decide)), status _ _ _ (.inr (by decide)), status _ _ _ (.inr (by decide)),
    status _ _ _ (.inr (by decide)), State.on, State.rd, summaryCleared_reg_lt _ (by decide)]
  exact (status _ _ _ (.inl (by decide))).trans ((status _ _ _ (.inl (by decide))).trans (status _ _ _ (.inl (by decide))))

/-! ### What comes of a START (O31) -/

/-- The slices' parts of an operation, each at its first set (05 R174). -/
def State.rangeParts (s : State) (ps : List PhysSlice) : State :=
  ps.foldl (fun s p => s.modSl p fun x => { x with range := some ⟨0, none, false, [], []⟩ }) s

/-- A START that is accepted, before the slices' parts begin. -/
def State.rangeBusy (s : State) (op : Nat) (force discard : Bool) : State :=
  ((s.rangeTaken op force discard).wr HC_RANGE_STATUS.BUSY 1).wr HC_RANGE_STATUS.PENDING (s.activeSlices.foldl (fun a p => a + 2 ^ p.val) 0)

theorem State.startRange_running {s : State} (running : s.on HC_RANGE_STATUS.BUSY = true) (op : Nat) (force discard : Bool) :
    s.startRange op force discard = s := if_pos (.inr running)

section
variable {s : State} {op : Nat} {force discard : Bool} (hm : s.mode ≠ 0) (idle : s.on HC_RANGE_STATUS.BUSY = false)
include hm idle

theorem State.startRange_refused (bad : s.rangeError op force discard ≠ 0) :
    s.startRange op force discard = (s.rangeTaken op force discard).wr HC_RANGE_STATUS.ERR 1 :=
  (if_neg (by simp [hm, idle])).trans (if_pos bad)

theorem State.startRange_accepted (good : s.rangeError op force discard = 0) :
    s.startRange op force discard =
      if s.activeSlices.isEmpty then ((s.rangeBusy op force discard).rangeParts s.activeSlices).rangeDone false
      else (s.rangeBusy op force discard).rangeParts s.activeSlices :=
  (if_neg (by simp [hm, idle])).trans (if_neg (not_not.mpr good))

end

theorem State.rangeBusy_noted (s : State) {op : Nat} (known : op < 8) (force discard : Bool) :
    (s.rangeBusy op force discard).RangeNoted op (s.rangeError op force discard) :=
  ((s.rangeTaken_noted known force discard).wr 1 rfl (.inr (by decide)) (.inr (by decide))).wr _ rfl (.inr (by decide)) (.inr (by decide))

theorem State.rangeRefused_noted (s : State) {op : Nat} (known : op < 8) (force discard : Bool) :
    ((s.rangeTaken op force discard).wr HC_RANGE_STATUS.ERR 1).RangeNoted op (s.rangeError op force discard) :=
  (s.rangeTaken_noted known force discard).wr 1 rfl (.inr (by decide)) (.inr (by decide))

theorem State.rangeBusy_err (s : State) (op : Nat) (force discard : Bool) :
    (s.rangeBusy op force discard).on HC_RANGE_STATUS.ERR = false := by
  rw [rangeBusy, State.on_wr_apart _ _ (.inr (by decide)), State.on_wr_apart _ _ (.inr (by decide)), rangeTaken_err]

theorem State.rangeBusy_busy (s : State) (op : Nat) (force discard : Bool) :
    (s.rangeBusy op force discard).on HC_RANGE_STATUS.BUSY = true := by
  rw [rangeBusy, State.on_wr_apart _ _ (.inr (by decide)), State.on_wr_one _ _ rfl (by decide)]

theorem State.RangeNoted.rangeDone {t : State} {op code : Nat} (n : t.RangeNoted op code) : (t.rangeDone false).RangeNoted op code := by
  have ended : ((t.wr HC_RANGE_STATUS.BUSY 0).wr HC_RANGE_STATUS.DONE 1).RangeNoted op code :=
    (n.wr 0 rfl (.inr (by decide)) (.inr (by decide))).wr 1 rfl (.inr (by decide)) (.inr (by decide))
  exact ended.congr fun o ho => ((QueueWork.refl _).notice _ _ _ _ _ _ _ (by decide)).2 o (.inl (by omega))

theorem State.rangeParts_frame (s : State) (ps : List PhysSlice) : s.rangeParts ps = { s with slices := (s.rangeParts ps).slices } :=
  State.foldl_modSl_frame _ ps s

theorem State.rangeBusy_frame (s : State) (op : Nat) (force discard : Bool) : s.RegsOnly (s.rangeBusy op force discard) :=
  ((s.rangeTaken_frame op force discard).wr _ _).wr _ _

theorem State.RegsOnly.rangeParts {s t : State} (h : s.RegsOnly t) (ps : List PhysSlice) :
    t.rangeParts ps = { s with regs := (t.rangeParts ps).regs, slices := (t.rangeParts ps).slices } := by
  rw [rangeParts_frame, h]

theorem State.rangeParts_reg (s : State) (ps : List PhysSlice) (o : Nat) : (s.rangeParts ps).reg o = s.reg o := by
  rw [rangeParts_frame]; rfl

theorem State.rangeParts_on (s : State) (ps : List PhysSlice) (f : Fld) : (s.rangeParts ps).on f = s.on f := by
  rw [rangeParts_frame]; rfl

theorem State.rangeParts_range (s : State) {ps : List PhysSlice} (distinct : ps.Nodup) {p : PhysSlice} (mem : p ∈ ps) :
    ((s.rangeParts ps).sl p).range = some ⟨0, none, false, [], []⟩ := by
  rw [rangeParts, State.sl_foldl_modSl _ p ps s distinct, if_pos mem]

/-- Each of the five commands is a START of its operation (05 Table 5.7). -/
theorem exec_rangeCommand {c : Instr} {op : Nat} {force discard : Bool}
    (hc : (c, op) = (.rangeClean force discard, 1) ∨ (c, op) = (.rangeInvalidate force discard, 2) ∨
      (c, op) = (.rangeCleanInvalidate force discard, 3) ∨ (c, op) = (.rangeLock force discard, 4) ∨
      (c, op) = (.rangeUnlock force discard, 5)) (s : State) : exec c s = .next (s.startRange op force discard) ∧ op < 8 := by
  rcases hc with h | h | h | h | h <;> obtain ⟨rfl, rfl⟩ := Prod.mk.inj h <;> exact ⟨rfl, by decide⟩

/-- Settles O31: a START is refused, begins in the active slices, or, with none of them, ends at once; what it notes is the same. -/
theorem rangeOperationsStart : Obligations.RangeOperationsStart := by
  unfold Obligations.RangeOperationsStart
  intro s force discard c op hc hm
  obtain ⟨run, known⟩ := exec_rangeCommand hc s
  refine ⟨fun running => run.trans (by rw [State.startRange_running running]), fun idle => ⟨_, run, ?_⟩⟩
  by_cases good : s.rangeError op force discard = 0
  · have begun := s.rangeBusy_noted known force discard
    have parts : ((s.rangeBusy op force discard).rangeParts s.activeSlices).RangeNoted op (s.rangeError op force discard) :=
      begun.congr fun o _ => State.rangeParts_reg _ _ o
    rw [State.startRange_accepted hm idle good]
    by_cases none : s.activeSlices = []
    · rw [if_pos (List.isEmpty_iff.mpr none)]
      obtain ⟨code, op, summary, aborted⟩ := parts.rangeDone
      exact ⟨code, op, summary, aborted, fun bad => absurd good bad, fun _ some => absurd none some⟩
    · rw [if_neg (mt List.isEmpty_iff.mp none)]
      obtain ⟨code, op, summary, aborted⟩ := parts
      refine ⟨code, op, summary, aborted, fun bad => absurd good bad, fun _ _ => ⟨?_, ?_, fun p active => ?_, ?_⟩⟩
      · rw [State.rangeParts_on, State.rangeBusy_err]
      · rw [State.rangeParts_on, State.rangeBusy_busy]
      · exact State.rangeParts_range _ s.activeSlices_nodup active
      · exact (s.rangeBusy_frame _ force discard).rangeParts _
  · rw [State.startRange_refused hm idle good]
    obtain ⟨code, op, summary, aborted⟩ := s.rangeRefused_noted known force discard
    refine ⟨code, op, summary, aborted, fun _ => ⟨State.on_wr_one _ _ rfl (by decide), ?_, ?_⟩, fun ok => absurd ok good⟩
    · rw [State.on_wr_apart _ _ (.inr (by decide)), State.rangeTaken_busy, idle]
    · exact (s.rangeTaken_frame _ force discard).wr _ _

end Sys2Proof.Machine
end

section
/-! PROOFS. The entry to DRAIN leaves what it has put into GLB_MODE (09 R291, R294): nothing that it ends, releases or saves writes a
field of that register again, but for CHANGING. Every write of a line that waits is settled in it (07 R254), so that the lemmas go
through the media front (06 R186 to R192), the fault collector and the control memories. -/

namespace Sys2Proof.Machine

/-! ### The rules -/

/-- Every field of GLB_MODE apart from CHANGING is as it was. -/
def ModeKept (s t : State) : Prop := ∀ f : Fld, f.off = GLB_MODE.reg → GLB_MODE.CHANGING.Apart f → t.rd f = s.rd f

namespace ModeKept

theorem refl (s : State) : ModeKept s s := fun _ _ _ => rfl

theorem of_pair {α : Type} {s u : State} {a : α} {p : State × α} (e : p = (u, a)) (h : ModeKept s p.1) : ModeKept s u := by
  subst e
  exact h

theorem trans {s t u : State} (h : ModeKept s t) (k : ModeKept t u) : ModeKept s u := fun f own apart =>
  (k f own apart).trans (h f own apart)

section
variable {s t : State} (h : ModeKept s t)
include h

theorem mode : t.mode = s.mode := h GLB_MODE.MODE rfl (.inr (by decide))

/-- What leaves every register leaves these fields. -/
theorem regs {u : State} (same : u.regs = t.regs) : ModeKept s u := h.trans fun f _ _ => State.rd_congr same f

theorem setReg {o : Nat} (v : Word) (other : GLB_MODE.reg < o) : ModeKept s (t.setReg o v) := h.trans fun f own _ => by
  rw [State.rd, State.rd, State.reg_setReg_ne _ _ (by omega)]

/-- GLB_MODE is the register at 0x00010; every field written in this file but CHANGING lies above it. -/
theorem wr {f : Fld} (x : Nat) (other : GLB_MODE.reg < f.off) : ModeKept s (t.wr f x) := h.setReg _ other

theorem inc {f : Fld} (k : Nat) (other : GLB_MODE.reg < f.off) : ModeKept s (t.inc f k) := h.wr _ other

theorem changing (x : Nat) : ModeKept s (t.wr GLB_MODE.CHANGING x) := h.trans fun _ _ apart => t.rd_wr_apart x apart

theorem foldl {α : Type} {f : State → α → State} {l : List α} (k : ∀ u x, ModeKept s u → ModeKept s (f u x)) :
    ModeKept s (l.foldl f t) := holds_of_foldl k l t h

theorem slices (l : List PhysSlice) (f : Slice → Slice) : ModeKept s (l.foldl (fun s p => s.modSl p f) t) :=
  h.foldl fun _ _ k => k.regs rfl

theorem queueWork {u : State} (k : QueueWork t u) : ModeKept s u := h.trans fun f own _ => by
  rw [State.rd, State.rd, k.2 _ (.inl (by rw [own]; decide))]

theorem notice {k : Nat} (typ prio src info payload : Nat) (more : List Native) (hk : k < 6) :
    ModeKept s (t.notice k typ prio src info payload more) := h.queueWork ((QueueWork.refl t).notice _ _ _ _ _ _ _ hk)

/-! ### The fault collector (11 R345 to R351) -/

theorem dormTrigger (cause hp : Nat) : ModeKept s (t.dormTrigger cause hp) := by
  have aborted : ModeKept s ((t.wr GLB_MODE.CHANGING 0).modAon fun a => { a with entryStep := 0 }) := (h.changing 0).regs rfl
  unfold State.dormTrigger
  split_ifs
  · exact (h.changing 1).regs rfl
  · exact h
  · exact aborted.slices _ _
  · exact h.regs rfl
  · exact h

theorem stopPip (cause : Nat) : ModeKept s (t.stopPip cause) := holds_of_ite ((h.wr _ (by decide)).wr _ (by decide)) h

theorem setMerged (src : Nat) : ModeKept s (t.setMerged src) := holds_of_ite (h.setReg _ (by decide)) (h.setReg _ (by decide))

theorem faultNotice (i : Nat) : ModeKept s (t.faultNotice i) := h.notice _ _ _ _ _ _ (by decide)

theorem openRecord (src cls : Nat) (perm : Bool) (info : BitVec 40) : ModeKept s (t.openRecord src cls perm info) := by
  unfold State.openRecord
  extract_lets i r old new merge r' merged j q opened marked a b
  have hm : ModeKept s merged := (h.regs rfl : ModeKept s { t with history := t.history.put 0#128 i r' }).setMerged src
  have hq : ModeKept s marked := (((h.regs rfl : ModeKept s opened).wr _ (by decide)).wr _ (by decide)).wr _ (by decide)
  have ha : ModeKept s a := holds_of_ite (holds_of_ite (hm.faultNotice i) hm)
    (((hq.setReg _ (by decide)).setReg _ (by decide)).faultNotice j)
  have hb : ModeKept s b := holds_of_ite (ha.dormTrigger 7 0) ha
  exact holds_of_ite h (holds_of_ite ((hb.wr _ (by decide)).stopPip 1) hb)

end

/-- The registers of a fault source lie above GLB_MODE. -/
theorem below_srcCount (src : Nat) : GLB_MODE.reg < FLT_SRC_COUNT.reg src := by
  rw [GLB_MODE.reg, FLT_SRC_COUNT.reg]
  omega

section
variable {s t : State} (h : ModeKept s t)
include h

theorem escalate (src : Nat) (minor : Bool) (info : BitVec 40) : ModeKept s (t.escalate src minor info) :=
  (((h.wr _ (below_srcCount src)).wr _ (below_srcCount src)).wr _ (below_srcCount src)).openRecord _ _ _ _

theorem windowCount (src : Nat) : ModeKept s (t.windowCount src) := (h.inc _ (below_srcCount src)).inc _ (below_srcCount src)

theorem major (src : Nat) (info : BitVec 40) : ModeKept s (t.major src info) := by
  unfold State.major
  extract_lets totalled counted
  have noted : ModeKept s (t.noteArray src info) := holds_of_ite (h.regs rfl) h
  have ht : ModeKept s totalled := noted.inc _ (below_srcCount src)
  have hc : ModeKept s counted := ht.windowCount src
  exact holds_of_ite h (holds_of_ite ht (holds_of_ite (ht.openRecord _ _ _ _)
    (holds_of_ite (hc.escalate _ _ _) (hc.openRecord _ _ _ _))))

theorem minor (src : Nat) (info : BitVec 40) : ModeKept s (t.minor src info) := by
  unfold State.minor
  extract_lets n totalled numbered shift counted
  have hn : ModeKept s numbered := (h.inc 1 (below_srcCount src)).regs rfl
  have hc : ModeKept s counted := hn.windowCount src
  exact holds_of_ite h (holds_of_ite hn (holds_of_ite (hc.escalate _ _ _) hc))

theorem devFinding (m w : Nat) (up : Bool) (f : Found) : ModeKept s (t.devFinding m w up f) := by
  cases f with
  | good => exact h
  | corrected => exact h.minor _ _
  | uncorrectable => exact h.major _ _

theorem lineLost (src code line : Nat) : ModeKept s (t.lineLost src code line) := (h.major _ _).notice _ _ _ _ _ _ (by decide)

/-! ### Operations of the media front (06 R190, R207, R208) -/

theorem setCounter (line : Nat) (c : LineCounter) : ModeKept s (t.setCounter line c) := holds_of_ite (h.regs rfl) h

theorem rekeyDone (line id : Nat) : ModeKept s (t.rekeyDone line id) := by
  unfold State.rekeyDone
  extract_lets p
  clear_value p
  cases p with
  | none => exact h
  | some p => exact holds_of_ite (P := ModeKept s) (h.regs rfl) (h.regs rfl)

theorem queuePages : ModeKept s t.queuePages := (h.regs rfl : ModeKept s (t.modMf _)).wr _ (by decide)

theorem readHeld (id : Nat) (o : MediaOp) : ModeKept s (t.readHeld id o) := (h.devFinding 35 0 false _).regs rfl

theorem releaseHeld (g stripe : Nat) : ModeKept s (t.releaseHeld g stripe) := h.foldl fun u e hu => by
  split
  · exact holds_of_ite (hu.readHeld _ _) hu
  · exact hu

theorem rekeyRead (id : Nat) (o : MediaOp) (st : FinalStatus) (data : LineData) (dir : DirEntry) :
    ModeKept s (t.rekeyRead id o st data dir) := by
  have ended : ModeKept s ((t.setCounter o.line ⟨(t.counter o.line).major + 1, 0⟩).setOp id none) := (h.setCounter _ _).regs rfl
  exact holds_of_ite ((h.regs rfl : ModeKept s (t.coalesce id _)).releaseHeld _ _) (ended.rekeyDone _ _)

theorem finish (id : Nat) (st : FinalStatus) (data : LineData) (dir : DirEntry) : ModeKept s (t.finish id st data dir) := by
  unfold State.finish
  split
  · exact h
  · exact holds_of_ite (h.rekeyRead _ _ _ _ _) (h.regs rfl)

theorem dropWrite (id : Nat) (unknown : Bool) : ModeKept s (t.dropWrite id unknown) := by
  unfold State.dropWrite
  split
  · exact h
  next o _ =>
    extract_lets g acked r noted
    have ha : ModeKept s acked := h.regs rfl
    have hn : ModeKept s noted := holds_of_ite (ha.regs rfl) (ha.major _ _)
    exact hn.notice _ _ _ _ _ _ (by decide)

/-! ### Channel dispatch (06 R192, R510) -/

theorem issueChop (id : Nat) (o : ChanOp) : ModeKept s (t.issueChop id o) := by
  unfold State.issueChop
  extract_lets u counted issued
  have hc : ModeKept s counted := holds_of_ite (h.regs rfl) (holds_of_ite (h.regs rfl) (holds_of_ite (h.regs rfl) h))
  have hi : ModeKept s issued := (holds_of_ite (hc.regs rfl) hc : ModeKept s (if o.cls = 5 then counted.count u 3 else counted)).regs rfl
  exact hi.regs rfl

theorem placeChop (id : Nat) (o : ChanOp) (extra : Bool) : ModeKept s (t.placeChop id o extra) := by
  unfold State.placeChop
  extract_lets band dl placed
  refine (?_ : ModeKept s placed).regs rfl
  unfold placed
  split
  · split
    · exact holds_of_ite (P := ModeKept s) (h.regs rfl) (h.regs rfl)
    · exact h
  · exact h

theorem addChop (c : Channel) (index : Nat) (write metaOnly : Bool) (form : Stored) (use : ChanUse) (cls : Nat) :
    ModeKept s (t.addChop c index write metaOnly form use cls) := by
  unfold State.addChop
  extract_lets cls o id waits u
  have hu : ModeKept s u := h.regs rfl
  split
  · exact hu.placeChop _ _ _
  · exact hu.regs rfl

end

theorem issueLoop {s : State} : ∀ (n : Nat) {t : State}, ModeKept s t → ModeKept s (State.issueLoop n t)
  | 0, _, h => h
  | n + 1, t, h => by
    unfold State.issueLoop
    split
    · exact h
    · split
      · exact issueLoop n (h.issueChop _ _)
      · exact h

section
variable {s t : State} (h : ModeKept s t)
include h

/-! ### Reconstruction (06 R186, R194 to R197, R205) -/

theorem apertureAnswer (c : DmaChannel) (f : Stored) : ModeKept s (t.apertureAnswer c f) := by
  unfold State.apertureAnswer
  extract_lets x ours kept
  have hk : ModeKept s kept := holds_of_ite (h.regs rfl) h
  exact hk.regs rfl

theorem integrity (line : Nat) (recovered : Bool) : ModeKept s (t.integrity line recovered) := h.notice _ _ _ _ _ _ (by decide)

theorem sealLost (line : Nat) : ModeKept s (t.sealLost line).1 := h.setCounter line ((t.counter line).next false)

theorem reconEnd (r : Nat) : ModeKept s (t.reconEnd r) := by
  unfold State.reconEnd
  split
  · exact h
  next x _ =>
    extract_lets ofBatch line chan u w windowed d
    refine holds_of_ite h ?_
    have hu : ModeKept s u := h.regs rfl
    have hw : ModeKept s windowed := hu.regs rfl
    clear_value u windowed
    split
    next form ok _ =>
    split
    next c _ =>
      refine holds_of_ite (hw.apertureAnswer _ _) (holds_of_ite ((hw.regs rfl : ModeKept s windowed.draw).apertureAnswer _ _) ?_)
      split
      next lost f e => exact (of_pair e ((hw.lineLost _ _ _).sealLost _)).apertureAnswer _ _
    · refine holds_of_ite (hu.addChop _ _ _ _ _ _ _) ?_
      split
      next lost f e => exact (of_pair e ((hu.lineLost _ _ _).sealLost _)).addChop _ _ _ _ _ _ _
    · split
      · exact hu
      next o _ =>
        extract_lets v repair told ended
        have hv : ModeKept s v := hu.regs rfl
        have ht : ModeKept s told := holds_of_ite (hv.integrity _ _) hv
        have he : ModeKept s ended := holds_of_ite (ht.finish _ _ _ _) (ht.finish _ _ _ _)
        exact holds_of_ite (holds_of_ite (he.addChop _ _ _ _ _ _ _) he) (holds_of_ite ht (ht.finish _ _ _ _))

theorem startRecon (op : Nat) (why : ReconWhy) (g stripe slot cls : Nat) : ModeKept s (t.startRecon op why g stripe slot cls) := by
  unfold State.startRecon
  extract_lets lost others r u v
  have hv : ModeKept s v := by
    unfold v
    split
    · exact h.regs rfl
    · exact h.regs rfl
  clear_value v
  refine holds_of_ite ((hv.regs rfl : ModeKept s (v.setRecon r _)).reconEnd r) ?_
  split
  next got mdOver held _ =>
    extract_lets awaited reads begun
    exact ((hv.regs rfl : ModeKept s begun).foldl fun _ _ hu => hu.addChop _ _ _ _ _ _ _).reconEnd r

/-! ### Batches (06 R187 to R189, R507, R508) -/

theorem closeBatch (bid : Nat) : ModeKept s (t.closeBatch bid) := by
  unfold State.closeBatch
  split
  · exact h
  next b _ =>
    extract_lets w closed lost sealed
    have hc : ModeKept s closed := h.regs rfl
    have hs : ModeKept s sealed := hc.foldl fun _ _ hu => hu.setCounter _ _
    refine hs.foldl fun u i hu => ?_
    split
    · exact hu
    next o _ =>
      extract_lets gone acked freed
      have ha : ModeKept s acked := holds_of_ite (hu.dropWrite _ _) (holds_of_ite (hu.dropWrite _ _) (hu.regs rfl))
      exact (holds_of_ite (ha.regs rfl) ha : ModeKept s freed).rekeyDone _ _

theorem setOps (ids : List Nat) (f : MediaOp → MediaOp) :
    ModeKept s (ids.foldl (fun s i => match s.op i with | some o => s.setOp i (some (f o)) | none => s) t) :=
  h.foldl fun u i hu => by
    split
    · exact hu.regs rfl
    · exact hu

theorem cancelBatch (bid : Nat) (b : Batch) : ModeKept s (t.cancelBatch bid b) :=
  (h.regs rfl : ModeKept s ((t.setBatch bid none).modMf _)).setOps b.ops fun o => { o with state := .waiting }

theorem holdRefused (ids : List Nat) : ModeKept s (t.holdRefused ids) := (h.setOps ids fun o => { o with state := .refused }).queuePages

theorem feedRecons (b : Batch) : ModeKept s (t.feedRecons b) := h.foldl fun u r hu => by
  split
  · exact hu
  · exact (hu.regs rfl : ModeKept s (u.setRecon r _)).reconEnd r

theorem startWrites (bid : Nat) (raw : List (Nat × Stored)) : ModeKept s (t.startWrites bid raw) := by
  unfold State.startWrites
  split
  · exact h
  next b _ =>
    extract_lets refused lost ops slots p d drops cls
    refine holds_of_ite ((h.cancelBatch _ _).holdRefused _) ?_
    split
    next forms marks _ =>
    split
    next drawn parity hd =>
    extract_lets new b1 opened written fed
    have hd : ModeKept s drawn := by
      refine of_pair hd ?_
      split
      · exact h
      · split
        · exact h
        · exact h.regs rfl
    have hw : ModeKept s written := (hd.regs rfl : ModeKept s opened).foldl fun _ _ hu => hu.addChop _ _ _ _ _ _ _
    have hf : ModeKept s fed := hw.feedRecons _
    exact holds_of_ite (hf.closeBatch _) hf

theorem batchReads (bid : Nat) (slots : List Nat) (metaOnly : Bool) : ModeKept s (t.batchReads bid slots metaOnly) := by
  unfold State.batchReads
  split
  · exact h
  · exact (h.regs rfl : ModeKept s (t.setBatch bid _)).foldl fun _ _ hu => hu.addChop _ _ _ _ _ _ _

theorem convertMeta (bid : Nat) (b : Batch) (dir : DirEntry) (keep : List (Nat × Option Stored)) (reads : List Nat) :
    ModeKept s (t.convertMeta bid b dir keep reads) := by
  unfold State.convertMeta
  extract_lets whole changed asked
  have hw : ModeKept s whole := h.setOps b.ops fun o => { o with data := 0#512, dir := dir, kind := .writeLine }
  have ha : ModeKept s asked := (hw.regs rfl : ModeKept s changed).batchReads _ _ _
  exact holds_of_ite (ha.startWrites _ _) ha

theorem metaReady (bid : Nat) (b : Batch) (o : MediaOp) : ModeKept s (t.metaReady bid b o) := by
  have full : ModeKept s (t.setBatch bid (some { b with metaOnly := false })) := h.regs rfl
  unfold State.metaReady
  extract_lets k p lost oldOf others rest finishMeta blank keepZero form good zeroed
  have finished (fs : List (Nat × Stored)) : ModeKept s (finishMeta fs) := by
    unfold finishMeta
    extract_lets b1 written fed
    have hw : ModeKept s written := (h.regs rfl : ModeKept s (t.setBatch bid (some b1))).foldl fun _ _ hu => hu.addChop _ _ _ _ _ _ _
    have hf : ModeKept s fed := hw.feedRecons b1
    exact holds_of_ite (hf.closeBatch bid) hf
  have blanked (keep : List (Nat × Option Stored)) : ModeKept s (blank keep) := h.convertMeta _ _ _ _ _
  clear_value finishMeta blank
  refine holds_of_ite (blanked _) ?_
  split
  · extract_lets new
    refine holds_of_ite (finished _) ?_
    split
    · exact finished _
    · exact full.startWrites _ _
  · refine holds_of_ite ?_ ?_
    · split
      · exact holds_of_ite (blanked _) (finished _)
      · exact full.startWrites _ _
    · have hz : ModeKept s zeroed :=
        (h.lineLost _ _ _).setOps b.ops fun o => { o with data := 0#512, dir := dePut30 o.dir true, kind := .writeLine }
      exact holds_of_ite (blanked _) (holds_of_ite ((h.regs rfl : ModeKept s (t.setBatch bid _)).startWrites _ _)
        ((hz.regs rfl : ModeKept s (zeroed.setBatch bid _)).startWrites _ _))

theorem batchReady (bid : Nat) : ModeKept s (t.batchReady bid) := by
  unfold State.batchReady
  split
  · exact h
  · refine holds_of_ite h ?_
    split
    · exact h.metaReady _ _ _
    · exact h.startWrites _ _

theorem openStripe (g stripe : Nat) : ModeKept s (t.openStripe g stripe) := by
  unfold State.openStripe
  extract_lets ops lost gone dropped kept slots bid taken u
  refine holds_of_ite h ?_
  have hd : ModeKept s dropped := h.foldl fun u e hu =>
    holds_of_ite ((hu.dropWrite _ _).rekeyDone _ _) (holds_of_ite ((hu.dropWrite _ _).rekeyDone _ _) hu)
  have ht : ModeKept s taken := (hd.regs rfl : ModeKept s dropped.bump).foldl fun _ _ hu => hu.regs rfl
  clear_value dropped taken kept
  split
  · exact hd
  next e _ =>
    extract_lets isMeta opened counted summed reads asked
    have ho : ModeKept s opened := ht.regs rfl
    have hc : ModeKept s counted := holds_of_ite (ho.regs rfl) (holds_of_ite (ho.regs rfl) (holds_of_ite (ho.regs rfl) (ho.regs rfl)))
    have hs : ModeKept s summed := holds_of_ite (hc.regs rfl) hc
    have ha : ModeKept s asked := hs.batchReads _ _ _
    exact holds_of_ite (ha.batchReady _) ha

theorem startWaiting : ModeKept s t.startWaiting := by
  unfold State.startWaiting
  extract_lets waiting
  clear_value waiting
  split
  next _ r x => exact (h.regs rfl : ModeKept s (t.setRecon r none)).startRecon _ _ _ _ _ _
  · exact h

end

theorem openLoop {s : State} : ∀ (n : Nat) {t : State}, ModeKept s t → ModeKept s (State.openLoop n t)
  | 0, _, h => h
  | n + 1, t, h => by
    unfold State.openLoop
    extract_lets stripe
    clear_value stripe
    split
    · exact h
    · exact openLoop n (h.openStripe _ _)

section
variable {s t : State} (h : ModeKept s t)
include h

/-- What can open opens, and what is placed is issued. -/
theorem settleMedia : ModeKept s t.settleMedia := (openLoop _ h).startWaiting |> issueLoop _

theorem releaseCoalescer : ModeKept s t.releaseCoalescer := (h.regs rfl : ModeKept s (t.modMf _)).settleMedia

/-! ### What the entry to DRAIN ends and saves (08 Table 8.6; 12 R398) -/

theorem commit (e : RepairEntry) : ModeKept s (t.commit e) := holds_of_ite h (h.regs rfl)

theorem saveProgress : ModeKept s t.saveProgress := by
  unfold State.saveProgress
  extract_lets swept rebuilt
  have hs : ModeKept s swept := h.commit _
  have hr : ModeKept s rebuilt := holds_of_ite (hs.commit _) hs
  exact hr.foldl fun _ _ hu => hu.commit _

theorem startOpp (p : PhysSlice) (target : Nat) : ModeKept s (t.startOpp p target) := by
  have above : GLB_MODE.reg < SL_DVFS.reg p.val := by rw [GLB_MODE.reg, SL_DVFS.reg]; omega
  unfold State.startOpp
  extract_lets now asked
  have hb : ModeKept s (t.wr (SL_DVFS.BUSY p.val) 1) := h.wr 1 above
  have ha : ModeKept s asked := hb.regs rfl
  have hs : ModeKept s ((asked.wr (SL_DVFS.OPP_NOW p.val) target).inc (SL_DVFS.SWITCHES p.val)) := (ha.wr target above).inc 1 above
  exact holds_of_ite h (holds_of_ite (ha.regs rfl) (hs.regs rfl))

theorem rangeDone (aborted : Bool) : ModeKept s (t.rangeDone aborted) := by
  have flag : GLB_MODE.reg < (if aborted then HC_RANGE_STATUS.ABORTED else HC_RANGE_STATUS.DONE).off := by cases aborted <;> decide
  unfold State.rangeDone
  extract_lets ended
  have he : ModeKept s ended := (h.wr 0 (by decide)).wr 1 flag
  exact he.notice _ _ _ _ _ _ (by decide)

theorem abortRange : ModeKept s t.abortRange := by
  have stopped : ModeKept s (t.wr HC_RANGE_STATUS.PENDING 0) := h.wr 0 (by decide)
  exact holds_of_ite ((stopped.slices _ _).rangeDone true) h

theorem dropScrubRequests : ModeKept s t.dropScrubRequests := h.slices _ _

theorem endScrub (aborted : Bool) : ModeKept s (t.endScrub aborted) := by
  have flag : GLB_MODE.reg < (if aborted then SCRUB_STATUS.ABORTED else SCRUB_STATUS.DONE).off := by cases aborted <;> decide
  unfold State.endScrub
  extract_lets ended cleared dropped fw told
  have he : ModeKept s ended := (h.wr 0 (by decide)).wr 1 flag
  have hc : ModeKept s cleared := (((he.wr 0 (by decide)).wr 0 (by decide)).wr 0 (by decide)).wr 0 (by decide)
  have hd : ModeKept s dropped := hc.dropScrubRequests
  clear_value dropped cleared
  have ht : ModeKept s told := holds_of_ite (hd.regs rfl) hc
  exact ht.notice _ _ _ _ _ _ (by decide)

theorem stopPasses : ModeKept s t.stopPasses := by
  unfold State.stopPasses
  extract_lets cleared calmed ended boot unloaded stopped
  have hr : ModeKept s t.abortRange.clearReservations := h.abortRange.slices _ _
  have hc : ModeKept s cleared := hr.wr 0 (by decide)
  have hm : ModeKept s calmed := hc.regs rfl
  have he : ModeKept s ended := holds_of_ite (hm.endScrub true) hm
  have hs : ModeKept s stopped := he.wr 0 (by decide)
  exact holds_of_ite (hs.regs rfl) he

/-! ### The control memories (10 R317, R318) -/

theorem setValid (m w n : Nat) (b : Bool) : ModeKept s (t.setValid m w n b) := holds_of_ite h (h.regs rfl)

theorem readValid (m w : Nat) : ModeKept s (t.readValid m w).1 := by
  unfold State.readValid
  extract_lets b same
  split
  · exact h
  · exact (h.setValid _ _ _ _).devFinding _ _ _ _

theorem modMbx (mb : Mailbox) (f : MbxState → MbxState) : ModeKept s (t.modMbx mb f) := by
  cases mb <;> exact h.regs rfl

theorem setCtrlByte (sp : Space) (o : Nat) (v : Byte) : ModeKept s (t.setCtrlByte sp o v) := by
  unfold State.setCtrlByte
  split
  · exact h.regs rfl
  · exact h.regs rfl
  · split
    · exact h.regs rfl
    · exact h.regs rfl
  · exact h.modMbx _ _
  · exact h

theorem firstWrite (sp : Space) (o m w : Nat) : ModeKept s (t.firstWrite sp o m w) := by
  have zeroed : ModeKept s ((List.range 16).foldl (fun s i => s.setCtrlByte sp (o / 16 * 16 + i) 0#8) t) :=
    h.foldl fun _ _ hu => hu.setCtrlByte _ _ _
  have sound : ModeKept s ((((List.range 16).foldl (fun s i => s.setCtrlByte sp (o / 16 * 16 + i) 0#8) t).setDevError m w false
    WordError.none).setDevError m w true WordError.none) := zeroed.regs rfl
  exact sound.setValid _ _ _ _

theorem ctrlWrite (sp : Space) (o : Nat) (bs : List Byte) : ModeKept s (t.ctrlWrite sp o bs) := by
  unfold State.ctrlWrite
  extract_lets checked written g
  have hc : ModeKept s checked := h.foldl fun u k hu => by
    split
    · exact hu
    next m w up _ =>
      extract_lets whole
      split
      next v valid e =>
      have hv : ModeKept s v := of_pair e (hu.readValid m w)
      extract_lets f
      have hf : ModeKept s (v.devFinding m w up f) := hv.devFinding _ _ _ _
      exact holds_of_ite (hv.firstWrite _ _ _ _) (holds_of_ite (hv.regs rfl) (hf.regs rfl))
  have hw : ModeKept s written := hc.foldl fun _ _ hu => hu.setCtrlByte _ _ _
  exact holds_of_ite (hw.regs rfl) hw

theorem reply (mb : Mailbox) (rc : Nat) (out : List Byte) : ModeKept s (t.reply mb rc out) :=
  (holds_of_ite h (h.ctrlWrite _ _ _) : ModeKept s (if out.isEmpty then t else t.ctrlWrite (.payload mb) 0 out)).modMbx _ _

end

end ModeKept

/-! ### The mode after the entry -/

/-- What a mode change puts into GLB_MODE (09 R291). -/
def State.modeWritten (s : State) (m cause hp : Nat) : State :=
  (((s.wr GLB_MODE.PREV s.mode).wr GLB_MODE.MODE m).wr GLB_MODE.CAUSE cause).wr GLB_MODE.CAUSE_HP
    (if cause = 4 ∨ cause = 6 then hp else 0)

theorem State.modeWritten_mode (s : State) (m cause hp : Nat) : (s.modeWritten m cause hp).mode = m % 8 := by
  rw [State.mode, modeWritten, State.rd_wr_disjoint _ _ _ _ (by decide), State.rd_wr_disjoint _ _ _ _ (by decide),
    State.rd_wr_same _ _ _ (by decide)]
  rfl

theorem State.modeWritten_cause (s : State) (m cause hp : Nat) : (s.modeWritten m cause hp).rd GLB_MODE.CAUSE = cause % 16 := by
  rw [modeWritten, State.rd_wr_disjoint _ _ _ _ (by decide), State.rd_wr_same _ _ _ (by decide)]
  rfl

/-- The rest of a mode change leaves it: the checker test mode is locked, CHANGING ends, and the notice goes out. -/
theorem State.setMode_modeKept (s : State) (m cause hp : Nat) : ModeKept (s.modeWritten m cause hp) (s.setMode m cause hp) := by
  unfold State.setMode
  extract_lets prev cut written locked changed
  have hl : ModeKept (s.modeWritten m cause hp) locked := (ModeKept.refl _).foldl fun _ p hu =>
    hu.wr 0 (by simp only [SL_ECC_TEST_UNLOCK.UNLOCKED, SL_ECC_TEST_UNLOCK.reg, GLB_MODE.reg]; omega)
  have hc : ModeKept (s.modeWritten m cause hp) changed := (hl.changing 0).wr _ (by decide)
  exact hc.notice _ _ _ _ _ _ (by decide)

/-- An entry to DRAIN from a mode other than REPAIR, in which requests are held, leaves the mode change's record. -/
theorem State.enterDrain_modeKept {s : State} (hm : s.mode ≠ 5) (cause hp : Nat) :
    ModeKept (s.modeWritten 4 cause hp) (s.enterDrain cause hp) := by
  unfold State.enterDrain
  extract_lets onWays fromRepair entered awake ramped closed settled
  have he : ModeKept (s.modeWritten 4 cause hp) entered := (s.setMode_modeKept 4 cause hp).regs (State.modAon_regs _ _)
  have ha : ModeKept (s.modeWritten 4 cause hp) awake := holds_of_ite (he.slices _ _) he
  have hr : ModeKept (s.modeWritten 4 cause hp) ramped := ha.foldl fun _ _ hu => hu.startOpp _ _
  have hu : ModeKept (s.modeWritten 4 cause hp) (ramped.stopPasses.modMf fun m => { m with sleeping := [] }) :=
    hr.stopPasses.regs (State.modMf_regs _ _)
  have hc : ModeKept (s.modeWritten 4 cause hp) closed := hu.wr 0 (by decide)
  have hs : ModeKept (s.modeWritten 4 cause hp) settled := hc.releaseCoalescer
  have direct : fromRepair = false := beq_false_of_ne hm
  rw [direct, if_neg Bool.false_ne_true]
  exact hs.saveProgress.wr 0 (by decide)

end Sys2Proof.Machine
end

section
/-! PROOFS. The mailbox commands that change state (13 R425, R428, R430): what a submitter's input holds at its places, what a command
that firmware takes does with it, and then each command in turn. -/

namespace Sys2Proof.Machine

open Host (Outcome)

/-! ### The numbers in an input -/

theorem length_leBytes (n v : Nat) : (leBytes n v).length = n := by simp [leBytes]

theorem leAt_zero (b : List Byte) (o : Nat) : leAt b o 0 = 0 := rfl

theorem leAt_succ (b : List Byte) (o n : Nat) : leAt b o (n + 1) = leAt b o n + ((b[o + n]?).getD 0#8).toNat * 256 ^ n := by
  rw [leAt, List.range_succ, List.foldl_append]
  rfl

/-- What a number reads as depends on its own bytes alone. -/
theorem leAt_congr {a b : List Byte} {o p n : Nat} (same : ∀ i < n, a[o + i]? = b[p + i]?) : leAt a o n = leAt b p n := by
  induction n with
  | zero => rfl
  | succ n ih => rw [leAt_succ, leAt_succ, ih fun i hi => same i (by omega), same n (by omega)]

theorem leAt_append_left {a : List Byte} (b : List Byte) {o n : Nat} (h : o + n ≤ a.length) : leAt (a ++ b) o n = leAt a o n :=
  leAt_congr fun i hi => List.getElem?_append_left (by omega)

theorem leAt_append_right {a : List Byte} (b : List Byte) {o : Nat} (n : Nat) (h : a.length ≤ o) :
    leAt (a ++ b) o n = leAt b (o - a.length) n :=
  leAt_congr fun i _ => by rw [List.getElem?_append_right (by omega), show o + i - a.length = o - a.length + i by omega]

/-- Bytes `o` to `o + n - 1` of a number in little-endian bytes. -/
theorem leAt_leBytes (m v : Nat) {o n : Nat} (h : o + n ≤ m) : leAt (leBytes m v) o n = v / 256 ^ o % 256 ^ n := by
  induction n with
  | zero => rw [leAt_zero, Nat.pow_zero, Nat.mod_one]
  | succ n ih =>
    have byte : (leBytes m v)[o + n]? = some (BitVec.ofNat 8 (v / 256 ^ (o + n))) := by simp [leBytes, show o + n < m by omega]
    rw [leAt_succ, ih (by omega), byte, Nat.mod_pow_succ, Nat.div_div_eq_div_mul, ← Nat.pow_add, Nat.mul_comm (256 ^ n)]
    rfl

/-- Bytes `o` to `o + n - 1` of a number that stands within an input. -/
theorem leAt_field {input front back : List Byte} {m v p : Nat} (parts : input = front ++ (leBytes m v ++ back)) (o n : Nat)
    (place : p = front.length + o) (h : o + n ≤ m) : leAt input p n = v / 256 ^ o % 256 ^ n := by
  rw [parts, place, leAt_append_right _ _ (by omega), Nat.add_sub_cancel_left, leAt_append_left _ (by rw [length_leBytes]; exact h),
    leAt_leBytes _ _ h]

/-- A number that stands within an input, whole. -/
theorem leAt_whole {input front back : List Byte} {n v p : Nat} (parts : input = front ++ (leBytes n v ++ back)) (place : p = front.length)
    (h : v < 256 ^ n) : leAt input p n = v := by
  rw [leAt_field parts 0 n place (by omega), Nat.pow_zero, Nat.div_one, Nat.mod_eq_of_lt h]

theorem leAt_leBytes_whole {n v : Nat} (h : v < 256 ^ n) : leAt (leBytes n v) 0 n = v :=
  leAt_whole (front := []) (back := []) (List.append_nil _).symm rfl h

/-- Two numbers side by side. -/
theorem leAt_add (b : List Byte) (o m n : Nat) : leAt b o (m + n) = leAt b o m + leAt b (o + m) n * 256 ^ m := by
  induction n with
  | zero => simp [leAt_zero]
  | succ n ih => rw [← Nat.add_assoc, leAt_succ, ih, leAt_succ, Nat.pow_add, Nat.add_assoc, ← Nat.add_assoc o]; ring

/-- A byte of a number that a power of two bounds. -/
theorem byte_lt {v o a : Nat} (h : v < 2 ^ (8 * o + a)) : v / 256 ^ o % 256 < 2 ^ a := by
  refine (Nat.mod_le _ _).trans_lt (Nat.div_lt_of_lt_mul ?_)
  rwa [show 256 = 2 ^ 8 from rfl, ← Nat.pow_mul, ← Nat.pow_add]

theorem byte_eq_zero {v o : Nat} (a : Nat) (h : v < 2 ^ a) (above : a ≤ 8 * o) : v / 256 ^ o % 256 = 0 :=
  Nat.lt_one_iff.mp (byte_lt (a := 0) (h.trans_le (Nat.pow_le_pow_right (by decide) above)))

/-! ### Reserved bits (13 R428) -/

/-- The reserved bits of an input are 0; each entry is a byte's place and the mask of its reserved bits. -/
def ReservedClear (input : List Byte) (l : List (Nat × Nat)) : Prop := ∀ r ∈ l, leAt input r.1 1 &&& r.2 = 0

theorem reservedClear_nil (input : List Byte) : ReservedClear input [] := fun _ h => absurd h List.not_mem_nil

theorem ReservedClear.cons {input : List Byte} {l : List (Nat × Nat)} {o m : Nat} (first : leAt input o 1 &&& m = 0)
    (rest : ReservedClear input l) : ReservedClear input ((o, m) :: l) := List.forall_mem_cons.mpr ⟨first, rest⟩

theorem ReservedClear.append {input : List Byte} {k l : List (Nat × Nat)} (front : ReservedClear input k) (back : ReservedClear input l) :
    ReservedClear input (k ++ l) := List.forall_mem_append.mpr ⟨front, back⟩

/-- Whole bytes that are reserved. -/
theorem reservedClear_rsvBytes {input : List Byte} {lo hi : Nat} (zero : ∀ o, lo ≤ o → o ≤ hi → leAt input o 1 = 0) :
    ReservedClear input (rsvBytes lo hi) := by
  intro r mem
  obtain ⟨i, hi, rfl⟩ := List.mem_map.mp mem
  have := List.mem_range.mp hi
  rw [zero _ (by omega) (by omega), Nat.zero_and]

/-- A number below a power of two has no bit in common with a multiple of it. -/
theorem and_eq_zero_of_lt {x : Nat} (a c : Nat) (h : x < 2 ^ a) : x &&& 2 ^ a * c = 0 := by
  refine Nat.eq_of_testBit_eq fun i => ?_
  rw [Nat.testBit_and, Nat.testBit_two_pow_mul, Nat.zero_testBit]
  by_cases hi : a ≤ i
  · rw [Nat.testBit_lt_two_pow (h.trans_le (Nat.pow_le_pow_right (by decide) hi)), Bool.false_and]
  · rw [decide_eq_false hi, Bool.false_and, Bool.and_false]

/-- Bits that a word has clear are clear in each of its bytes. -/
theorem byte_and_eq_zero {v m : Word} (h : v &&& m = 0#64) (j : Nat) : v.toNat / 256 ^ j % 256 &&& m.toNat / 256 ^ j % 256 = 0 := by
  have whole : v.toNat &&& m.toNat = 0 := by rw [← BitVec.toNat_and, h]; rfl
  rw [show 256 = 2 ^ 8 from rfl, ← Nat.pow_mul, ← Nat.and_mod_two_pow, ← Nat.and_div_two_pow, whole, Nat.zero_div, Nat.zero_mod]

/-! ### A command that firmware takes (13 R425, R428) -/

/-- A mailbox command whose input has its length and its reserved bits clear does what its body does with the input. -/
theorem State.Holds.command {s : State} {mb : Mailbox} {op : Nat} {b : List Byte} (h : s.Holds mb op b) {len : Option Nat}
    {reserved : List (Nat × Nat)} (body : State → List Byte → State) (fits : len = none ∨ len = some b.length)
    (clear : ReservedClear b reserved) : s.command mb op len reserved body = body s b := by
  obtain ⟨may, opcode, early, length, small, read⟩ := h
  have taken : ¬((!s.mayAnswer mb) = true ∨ (s.mbx mb).opcode.toNat ≠ op) := by simp [may, opcode]
  have lengthOk : ¬(len ≠ none ∧ len ≠ some (s.mbx mb).len) := by
    rw [length]
    tauto
  have clean : ¬(reserved.any fun r => leAt b r.1 1 &&& r.2 != 0) = true := by
    simp only [List.any_eq_true, bne_iff_ne, ne_eq, not_exists, not_and, not_not]
    exact clear
  rw [State.command, if_neg taken, if_neg (by rw [early]; exact Bool.false_ne_true)]
  simp only [length, Nat.min_eq_right small, read]
  rw [if_neg Bool.false_ne_true, if_neg (length ▸ lengthOk), if_neg clean]

/-- The command is executed where its body is. -/
theorem State.Holds.runs {s t : State} {mb : Mailbox} {op : Nat} {b : List Byte} (h : s.Holds mb op b) {len : Option Nat}
    {reserved : List (Nat × Nat)} {body : State → List Byte → State} (fits : len = none ∨ len = some b.length)
    (clear : ReservedClear b reserved) (does : body s b = t) :
    (.next (s.command mb op len reserved body) : Outcome State Fault Refusal) = .next t := by
  rw [h.command body fits clear, does]

/-- The same without a fixed length and without reserved bits. -/
theorem State.Holds.runs_any {s t : State} {mb : Mailbox} {op : Nat} {b : List Byte} (h : s.Holds mb op b)
    {body : State → List Byte → State} (does : body s b = t) :
    (.next (s.command mb op none [] body) : Outcome State Fault Refusal) = .next t :=
  h.runs (.inl rfl) (reservedClear_nil b) does

section
variable {s : State} {mb : Mailbox} {b : List Byte}

/-! ### Budget, persistence and modes (05 R168, R169; 09 R295) -/

theorem exec_setDirtyBudget {n : Nat} (h : s.Holds mb 0xC101 (leBytes 1 n)) (byte : n < 256) :
    exec (.setDirtyBudget mb) s = .next (
      if n = 0 ∨ 128 < n then s.reply mb 2
      else if n < s.rd GLB_DIRTY_BUDGET.BUDGET_MIB ∧ s.fw.bg.isSome then s.reply mb 6
      else
        let u := ((s.wr GLB_DIRTY_BUDGET.BUDGET_MIB n).setOwner 0x0020 (some (BitVec.ofNat 64 n))).quotaCheck
        let old := leBytes 1 (s.rd GLB_DIRTY_BUDGET.BUDGET_MIB)
        if n < s.rd GLB_DIRTY_BUDGET.BUDGET_MIB then u.startBg mb 0xC101 0 0 old else u.reply mb 0 old) := by
  refine h.runs (.inr rfl) (reservedClear_nil _) ?_
  rw [leAt_leBytes_whole byte]
  rfl

theorem exec_setPersistenceMode_back (h : s.Holds mb 0xC102 [0#8]) :
    exec (.setPersistenceMode mb) s = .next (((s.setWt false).setOwner 0x0021 (some 0#64)).reply mb 0) :=
  h.runs (.inr rfl) (reservedClear_nil _) rfl

theorem exec_setPersistenceMode_through (h : s.Holds mb 0xC102 [1#8]) (free : s.fw.bg = none) :
    exec (.setPersistenceMode mb) s = .next (((s.setWt true).setOwner 0x0021 (some 1#64)).startBg mb 0xC102 0 0) := by
  refine h.runs (.inr rfl) (reservedClear_nil _) ?_
  simp only [free]
  rfl

theorem exec_requestMode_refused {n : Nat} (h : s.Holds mb 0xC103 (leBytes 1 n)) (byte : n < 256) (bad : n < 2 ∨ 4 < n) :
    exec (.requestMode mb) s = .next (s.reply mb 2) := by
  refine h.runs (.inr rfl) (reservedClear_nil _) ?_
  rw [leAt_leBytes_whole byte]
  exact if_pos (bad.imp_right .inl)

theorem exec_requestMode_dormant (h : s.Holds mb 0xC103 [3#8]) (hm : s.mode = 2) (still : s.on GLB_MODE.CHANGING = false)
    (free : s.fw.bg = none) (unblocked : s.dormBlocked = false) :
    exec (.requestMode mb) s = .next ((s.startDormant 2).startBg mb 0xC103 50 0) := by
  refine h.runs (.inr rfl) (reservedClear_nil _) ?_
  rw [show leAt [3#8] 0 1 = 3 from rfl]
  simp [State.targetAllowed, State.askMode, hm, still, free, unblocked]

/-- The answer to a request for DRAIN closes both mailboxes behind it (13 R426). -/
def State.drainAsked (s : State) (mb : Mailbox) : State :=
  ((s.enterDrain 2 0).reply mb 0 [BitVec.ofNat 8 s.mode, 4#8, 0#8, 0#8, 0#8, 0#8, 0#8, 0#8]).setReg MBX_CTRL.reg
    (s.reg MBX_CTRL.reg ||| 0xC0#64)

theorem exec_requestMode_drain (h : s.Holds mb 0xC103 [4#8]) (hm : s.mode = 2 ∨ s.mode = 3) (still : s.on GLB_MODE.CHANGING = false) :
    exec (.requestMode mb) s = .next (s.drainAsked mb) := by
  refine h.runs (.inr rfl) (reservedClear_nil _) ?_
  have allowed : s.targetAllowed 4 = true := by rcases hm with hm | hm <;> simp [State.targetAllowed, hm]
  rw [show leAt [4#8] 0 1 = 4 from rfl]
  simp only [allowed, still]
  rfl

theorem State.mbx_modMbx (s : State) (mb : Mailbox) (f : MbxState → MbxState) : (s.modMbx mb f).mbx mb = f (s.mbx mb) := by
  cases mb <;> rfl

theorem State.mbx_setReg (s : State) (mb : Mailbox) (o : Nat) (v : Word) : (s.setReg o v).mbx mb = s.mbx mb := by
  cases mb <;> rfl

theorem State.reply_mbx (s : State) (mb : Mailbox) (rc : Nat) (out : List Byte) :
    ((s.reply mb rc out).mbx mb).rc = BitVec.ofNat 16 rc ∧ ((s.reply mb rc out).mbx mb).len = out.length ∧
      ((s.reply mb rc out).mbx mb).answered = true := by
  rw [State.reply, State.mbx_modMbx]
  exact ⟨rfl, rfl, rfl⟩

/-- What the entry to DRAIN has put into GLB_MODE stands after the answer. -/
theorem State.drainAsked_modeKept (hm : s.mode = 2 ∨ s.mode = 3) : ModeKept (s.modeWritten 4 2 0) (s.drainAsked mb) :=
  ((State.enterDrain_modeKept (by omega) 2 0).reply _ _ _).setReg _ (by decide)

/-- A bit that is set in one of two words is set in their union. -/
theorem getBits_or_set (v : Word) {m : Word} {k : Nat} (set : m.getLsbD k = true) : getBits (v ||| m) k 1 = 1 := by
  have bit : (v ||| m).extractLsb' k 1 = 1#1 := BitVec.eq_of_getLsbD_eq fun i hi => by
    obtain rfl : i = 0 := by omega
    simp [set]
  rw [getBits, bit]
  rfl

theorem State.drainAsked_closed (s : State) (mb : Mailbox) :
    (s.drainAsked mb).on MBX_CTRL.P_CLOSED = true ∧ (s.drainAsked mb).on MBX_CTRL.S_CLOSED = true := by
  simp only [State.on, State.rd, drainAsked, MBX_CTRL.P_CLOSED, MBX_CTRL.S_CLOSED, State.reg_setReg_same]
  rw [getBits_or_set _ (by decide), getBits_or_set _ (by decide)]
  exact ⟨rfl, rfl⟩

/-! ### Range operations and scrub passes (05 R179; 10 R333) -/

theorem exec_startRangeOperation {i k n : Nat} (h : s.Holds mb 0xC110 (leBytes 8 (64 * i) ++ leBytes 8 (64 * k) ++ leBytes 8 n))
    (hi : i < 2 ^ 42) (hk : k < 2 ^ 42) (hn : n < 256) (idle : s.on HC_RANGE_STATUS.BUSY = false) (free : s.fw.bg = none) :
    exec (.startRangeOperation mb) s = .next (
      let u := (s.wr HC_RANGE_BASE.LINE i).wr HC_RANGE_LIMIT.LINE k
      if u.rangeError n false false = 0 then (u.startRange n false false).startBg mb 0xC110 0 0 else s.reply mb 2) := by
  generalize parts : leBytes 8 (64 * i) ++ leBytes 8 (64 * k) ++ leBytes 8 n = input at h
  have base : leAt input 0 8 = 64 * i := leAt_whole (front := []) (parts.symm.trans (List.append_assoc _ _ _)) rfl (by omega)
  have limit : leAt input 8 8 = 64 * k :=
    leAt_whole (front := leBytes 8 (64 * i)) (parts.symm.trans (List.append_assoc _ _ _)) (length_leBytes _ _).symm (by omega)
  have third (o : Nat) (ho : o < 8) : leAt input (16 + o) 1 = n / 256 ^ o % 256 :=
    leAt_field (front := leBytes 8 (64 * i) ++ leBytes 8 (64 * k)) (back := []) (m := 8) (by rw [← parts, List.append_nil]) o 1
      (by simp [length_leBytes]) ho
  have high (o : Nat) (lo : 17 ≤ o) (ho : o ≤ 23) : leAt input o 1 = 0 := by
    rw [show o = 16 + (o - 16) by omega, third _ (by omega)]
    exact byte_eq_zero 8 hn (by omega)
  have clear : ReservedClear input ((17, 0xFC) :: rsvBytes 18 23) :=
    .cons (by rw [high 17 (by decide) (by decide), Nat.zero_and]) (reservedClear_rsvBytes fun o lo ho => high o (by omega) ho)
  have op := third 0 (by decide)
  rw [Nat.add_zero, Nat.pow_zero, Nat.div_one, Nat.mod_eq_of_lt hn] at op
  have line {j : Nat} (hj : j < 2 ^ 42) : 64 * j / 64 % 2 ^ 42 = j := by omega
  refine h.runs (.inr (by simp [← parts, length_leBytes])) clear ?_
  simp only [op, base, limit, high 17 (by decide) (by decide), line hi, line hk, idle, free]
  by_cases good : ((s.wr HC_RANGE_BASE.LINE i).wr HC_RANGE_LIMIT.LINE k).rangeError n false false = 0
  · simp [good]
  · simp [good, rcInvalidInput]

theorem exec_startScrubPass {n i j k : Nat} (h : s.Holds mb 0xC120 (leBytes 8 n ++ leBytes 4 i ++ leBytes 4 j ++ leBytes 8 k))
    (hn : n < 2 ^ 26) (target : n % 256 < 128) (hi : i < 2 ^ 22) (hj : j < 2 ^ 22) (hk : k < 2 ^ 28) (hm : s.mode = 2)
    (idle : s.on SCRUB_STATUS.BUSY = false) (free : s.fw.bg = none) :
    exec (.startScrubPass mb) s = .next (
      let u := (s.plain SCRUB_TARGET.reg (BitVec.ofNat 64 n)).plain SCRUB_RANGE.reg (BitVec.ofNat 64 (i + j * 2 ^ 32))
      let w := (u.wr SCRUB_START.PACE (k % 2 ^ 16)).wr SCRUB_START.MEDIA_KSTRIPES (k / 2 ^ 16)
      if w.scrubError = 0 then w.startScrub.startBg mb 0xC120 0 0 else s.reply mb 2) := by
  generalize parts : leBytes 8 n ++ leBytes 4 i ++ leBytes 4 j ++ leBytes 8 k = input at h
  have atN : input = [] ++ (leBytes 8 n ++ (leBytes 4 i ++ leBytes 4 j ++ leBytes 8 k)) := by simp [← parts]
  have atI : input = leBytes 8 n ++ (leBytes 4 i ++ (leBytes 4 j ++ leBytes 8 k)) := by simp [← parts]
  have atJ : input = leBytes 8 n ++ leBytes 4 i ++ (leBytes 4 j ++ leBytes 8 k) := by simp [← parts]
  have atK : input = leBytes 8 n ++ leBytes 4 i ++ leBytes 4 j ++ (leBytes 8 k ++ []) := by simp [← parts]
  have byteN (o : Nat) (ho : o < 8) : leAt input o 1 = n / 256 ^ o % 256 := leAt_field atN o 1 (Nat.zero_add o).symm ho
  have byteI (o : Nat) (ho : o < 4) : leAt input (8 + o) 1 = i / 256 ^ o % 256 := leAt_field atI o 1 (by simp [length_leBytes]) ho
  have byteJ (o : Nat) (ho : o < 4) : leAt input (12 + o) 1 = j / 256 ^ o % 256 := leAt_field atJ o 1 (by simp [length_leBytes]) ho
  have byteK (o : Nat) (ho : o < 8) : leAt input (16 + o) 1 = k / 256 ^ o % 256 := leAt_field atK o 1 (by simp [length_leBytes]) ho
  have clear : ReservedClear input ((0, 0x80) :: (3, 0xFC) :: rsvBytes 4 7 ++ [(10, 0xC0), (11, 0xFF), (14, 0xC0), (15, 0xFF), (19, 0xF0)]
      ++ rsvBytes 20 23) := by
    refine .append (.append (.cons ?_ (.cons ?_ ?_)) (.cons ?_ (.cons ?_ (.cons ?_ (.cons ?_ (.cons ?_ (reservedClear_nil _))))))) ?_
    · rw [byteN 0 (by decide)]
      exact and_eq_zero_of_lt 7 1 (by simpa using target)
    · rw [byteN 3 (by decide)]
      exact and_eq_zero_of_lt 2 63 (byte_lt hn)
    · refine reservedClear_rsvBytes fun o lo ho => ?_
      rw [byteN o (by omega)]
      exact byte_eq_zero 26 hn (by omega)
    · rw [byteI 2 (by decide)]
      exact and_eq_zero_of_lt 6 3 (byte_lt hi)
    · rw [byteI 3 (by decide), byte_eq_zero 22 hi (by decide), Nat.zero_and]
    · rw [byteJ 2 (by decide)]
      exact and_eq_zero_of_lt 6 3 (byte_lt hj)
    · rw [byteJ 3 (by decide), byte_eq_zero 22 hj (by decide), Nat.zero_and]
    · rw [byteK 3 (by decide)]
      exact and_eq_zero_of_lt 4 15 (byte_lt hk)
    · refine reservedClear_rsvBytes fun o lo ho => ?_
      rw [show o = 16 + (o - 16) by omega, byteK _ (by omega)]
      exact byte_eq_zero 28 hk (by omega)
  have units : leAt input 0 8 = n := leAt_whole atN rfl (by omega)
  have range : leAt input 8 8 = i + j * 2 ^ 32 := by
    rw [leAt_add input 8 4 4, leAt_whole atI (by simp [length_leBytes]) (by omega), leAt_whole atJ (by simp [length_leBytes]) (by omega),
      show (256 : Nat) ^ 4 = 2 ^ 32 from rfl]
  have pace : leAt input 16 2 = k % 2 ^ 16 := by
    rw [leAt_field atK 0 2 (by simp [length_leBytes]) (by decide), Nat.pow_zero, Nat.div_one, show (256 : Nat) ^ 2 = 2 ^ 16 from rfl]
  have stripes : leAt input 18 2 = k / 2 ^ 16 := by
    rw [leAt_field atK 2 2 (by simp [length_leBytes]) (by decide)]
    exact Nat.mod_eq_of_lt (by omega)
  refine h.runs (.inr (by simp [← parts, length_leBytes])) clear ?_
  simp only [units, range, pace, stripes, idle, free, hm]
  generalize (((s.plain SCRUB_TARGET.reg (BitVec.ofNat 64 n)).plain SCRUB_RANGE.reg (BitVec.ofNat 64 (i + j * 2 ^ 32))).wr
    SCRUB_START.PACE (k % 2 ^ 16)).wr SCRUB_START.MEDIA_KSTRIPES (k / 2 ^ 16) = w
  by_cases good : w.scrubError = 0
  · simp [good]
  · simp [good, rcInvalidInput]

/-! ### Faults and sparing (11 R373) -/

theorem exec_setFaultPolicy {n : Nat} {v : Word} (h : s.Holds mb 0xC131 (leBytes 8 n ++ leBytes 8 v.toNat)) (source : n < 0x5B ∨ n = 0x5C)
    (bits : v &&& 0xFFFF8000#64 = 0#64) :
    exec (.setFaultPolicy mb) s = .next (((s.plain (FLT_SRC_CFG.reg n) v).setOwner (0x0100 + n) (some v)).reply mb 0
      (leBytes 8 (s.reg (FLT_SRC_CFG.reg n)).toNat)) := by
  have atN : leBytes 8 n ++ leBytes 8 v.toNat = [] ++ (leBytes 8 n ++ leBytes 8 v.toNat) := rfl
  have atV : leBytes 8 n ++ leBytes 8 v.toNat = leBytes 8 n ++ (leBytes 8 v.toNat ++ []) := by rw [List.append_nil]
  have byteN (o : Nat) (ho : o < 8) : leAt (leBytes 8 n ++ leBytes 8 v.toNat) o 1 = n / 256 ^ o % 256 :=
    leAt_field atN o 1 (Nat.zero_add o).symm ho
  have byteV (o : Nat) (ho : o < 8) : leAt (leBytes 8 n ++ leBytes 8 v.toNat) (8 + o) 1 = v.toNat / 256 ^ o % 256 :=
    leAt_field atV o 1 (by rw [length_leBytes]) ho
  have clear : ReservedClear (leBytes 8 n ++ leBytes 8 v.toNat) (rsvBytes 1 7 ++ [(9, 0x80), (10, 0xFF), (11, 0xFF)]) := by
    refine .append (reservedClear_rsvBytes fun o lo ho => ?_) (.cons ?_ (.cons ?_ (.cons ?_ (reservedClear_nil _))))
    · rw [byteN o (by omega)]
      exact byte_eq_zero 8 (by omega) (by omega)
    · exact (congrArg (· &&& 0x80) (byteV 1 (by decide))).trans (byte_and_eq_zero bits 1)
    · exact (congrArg (· &&& 0xFF) (byteV 2 (by decide))).trans (byte_and_eq_zero bits 2)
    · exact (congrArg (· &&& 0xFF) (byteV 3 (by decide))).trans (byte_and_eq_zero bits 3)
  have src : leAt (leBytes 8 n ++ leBytes 8 v.toNat) 0 1 = n := by
    rw [byteN 0 (by decide), Nat.pow_zero, Nat.div_one, Nat.mod_eq_of_lt (by omega)]
  have config : leAt (leBytes 8 n ++ leBytes 8 v.toNat) 8 8 = v.toNat := leAt_whole atV (length_leBytes _ _).symm v.isLt
  refine h.runs (.inr (by simp [length_leBytes])) clear ?_
  simp only [src, config, BitVec.ofNat_toNat, BitVec.setWidth_eq]
  exact if_neg (by omega)

theorem exec_retireUnit_channel {k : Nat} (h : s.Holds mb 0xC141 [1#8, BitVec.ofNat 8 k, 0#8, 1#8, 0#8, 0#8, 0#8, 0#8]) (channel : k < 38)
    (live : s.rd (MF_CH_STATE.STATE k) = 1 ∨ s.rd (MF_CH_STATE.STATE k) = 2) (spare : s.spareChannel.isSome = true) (free : s.fw.bg = none)
    (alone : s.fw.retiring = []) :
    exec (.retireUnit mb) s = .next ((s.addRetire ⟨1, k, 1, 0⟩).startBg mb 0xC141 1 k) := by
  generalize parts : [1#8, BitVec.ofNat 8 k, 0#8, 1#8, 0#8, 0#8, 0#8, 0#8] = input at h
  have typ : leAt input 0 1 = 1 := by rw [← parts]; rfl
  have unit : leAt input 1 1 = k := by
    rw [← parts, leAt_succ, leAt_zero]
    simp
    omega
  have way : leAt input 2 1 = 0 := by rw [← parts]; rfl
  have asked : leAt input 3 1 = 1 := by rw [← parts]; rfl
  have mac : leAt input 4 2 = 0 := by simp [← parts, leAt_succ, leAt_zero]
  have word : leAt input 6 2 = 0 := by simp [← parts, leAt_succ, leAt_zero]
  have may : s.mayRetire 1 k 0 0 0 = true := by
    rcases live with live | live <;> simp [State.mayRetire, channel, live, spare]
  have single : s.sameKind 1 k = false := by simp [State.sameKind, alone]
  refine h.runs (.inr (by rw [← parts]; rfl)) (.cons (by rw [asked]; rfl) (reservedClear_nil _)) ?_
  simp only [typ, unit, way, asked, mac, word, may, single, free]
  rfl

/-! ### Owner loss, hedging and sampling (04 R145; 06 R219; 15 R469) -/

theorem exec_setOwnerLossPolicy {i n : Nat} (h : s.Holds mb 0xC150 (leBytes 2 i ++ leBytes 1 n)) (hi : i < 16384) (hn : n ≤ 1)
    (tracked : rgTracked (s.regionEntry i) = true) :
    exec (.setOwnerLossPolicy mb) s =
      .next ((s.regionDone i ((s.regionEntry i &&& ~~~8#32) ||| BitVec.ofNat 32 (n * 8))).reply mb 0) := by
  have region : leAt (leBytes 2 i ++ leBytes 1 n) 0 2 = i := leAt_whole (front := []) rfl rfl (by omega)
  have policy : leAt (leBytes 2 i ++ leBytes 1 n) 2 1 = n :=
    leAt_whole (front := leBytes 2 i) (back := []) (by rw [List.append_nil]) (length_leBytes _ _).symm (by omega)
  refine h.runs (.inr (by simp [length_leBytes])) (reservedClear_nil _) ?_
  simp only [region, policy]
  exact if_neg (by simp [tracked]; omega)

theorem exec_setHedgePolicy (h : s.Holds mb 0xC160 (1#8 :: List.replicate 15 0#8)) :
    exec (.setHedgePolicy mb) s = .next (((s.plain MF_HEDGE_CTRL.reg 1#64).setOwner 0x0030 (some 1#64)).reply mb 0
      (leBytes 8 (s.reg MF_HEDGE_CTRL.reg).toNat)) := by
  have clear : ReservedClear (1#8 :: List.replicate 15 0#8) ([(0, 0xFC), (3, 0xFC), (5, 0xF0), (7, 0xF0)] ++ rsvBytes 10 15) := by
    unfold ReservedClear
    decide
  refine h.runs (.inr rfl) clear ?_
  exact if_neg (by decide)

theorem exec_configureSampling {v seed : Word} (h : s.Holds mb 0xC171 (leBytes 8 v.toNat ++ leBytes 8 seed.toNat))
    (bits : v &&& 0xFFFFFE00#64 = 0#64) (seedBits : seed &&& 0xFFFE000000000000#64 = 0#64) :
    exec (.configureSampling mb) s = .next (
      if sampleRefused v = true then s.reply mb 2
      else ((s.writeSampleSeed seed).writeSampleCtrl v).reply mb 0 (leBytes 8 (s.reg PMU_SAMPLE_CTRL.reg).toNat)) := by
  have atV : leBytes 8 v.toNat ++ leBytes 8 seed.toNat = [] ++ (leBytes 8 v.toNat ++ leBytes 8 seed.toNat) := rfl
  have atSeed : leBytes 8 v.toNat ++ leBytes 8 seed.toNat = leBytes 8 v.toNat ++ (leBytes 8 seed.toNat ++ []) := by rw [List.append_nil]
  have byteV (o : Nat) (ho : o < 8) : leAt (leBytes 8 v.toNat ++ leBytes 8 seed.toNat) o 1 = v.toNat / 256 ^ o % 256 :=
    leAt_field atV o 1 (Nat.zero_add o).symm ho
  have byteSeed (o : Nat) (ho : o < 8) : leAt (leBytes 8 v.toNat ++ leBytes 8 seed.toNat) (8 + o) 1 = seed.toNat / 256 ^ o % 256 :=
    leAt_field atSeed o 1 (by rw [length_leBytes]) ho
  have clear : ReservedClear (leBytes 8 v.toNat ++ leBytes 8 seed.toNat) [(1, 0xFE), (2, 0xFF), (3, 0xFF), (14, 0xFE), (15, 0xFF)] := by
    refine .cons ?_ (.cons ?_ (.cons ?_ (.cons ?_ (.cons ?_ (reservedClear_nil _)))))
    · exact (congrArg (· &&& 0xFE) (byteV 1 (by decide))).trans (byte_and_eq_zero bits 1)
    · exact (congrArg (· &&& 0xFF) (byteV 2 (by decide))).trans (byte_and_eq_zero bits 2)
    · exact (congrArg (· &&& 0xFF) (byteV 3 (by decide))).trans (byte_and_eq_zero bits 3)
    · exact (congrArg (· &&& 0xFE) (byteSeed 6 (by decide))).trans (byte_and_eq_zero seedBits 6)
    · exact (congrArg (· &&& 0xFF) (byteSeed 7 (by decide))).trans (byte_and_eq_zero seedBits 7)
  have ctrl : leAt (leBytes 8 v.toNat ++ leBytes 8 seed.toNat) 0 8 = v.toNat := leAt_whole atV rfl v.isLt
  have start : leAt (leBytes 8 v.toNat ++ leBytes 8 seed.toNat) 8 8 = seed.toNat := leAt_whole atSeed (length_leBytes _ _).symm seed.isLt
  refine h.runs (.inr (by simp [length_leBytes])) clear ?_
  simp only [ctrl, start, BitVec.ofNat_toNat, BitVec.setWidth_eq]
  rfl

/-! ### Owner settings and regions (12 R380; 06 R211; 13 R430) -/

theorem exec_setOwnerSetting {k : Nat} {v : Word} (h : s.Holds mb 0xC181 (leBytes 8 k ++ leBytes 8 v.toNat)) (hk : k < 65536)
    (free : s.fw.bg = none) :
    exec (.setOwnerSetting mb) s = .next (
      if ownerKey k = true then (s.setOwner k (some v)).startBg mb 0xC181 k 0 (leBytes 8 (s.inForce k) ++ leBytes 1 (appliedBits k))
      else s.reply mb 2) := by
  have atK : leBytes 8 k ++ leBytes 8 v.toNat = [] ++ (leBytes 8 k ++ leBytes 8 v.toNat) := rfl
  have high (o : Nat) (lo : 2 ≤ o) (ho : o ≤ 7) : leAt (leBytes 8 k ++ leBytes 8 v.toNat) o 1 = 0 := by
    rw [leAt_field atK o 1 (Nat.zero_add o).symm (by omega)]
    exact byte_eq_zero 16 hk (by omega)
  have clear : ReservedClear (leBytes 8 k ++ leBytes 8 v.toNat) ((2, 0xFE) :: rsvBytes 3 7) :=
    .cons (by rw [high 2 (by decide) (by decide), Nat.zero_and]) (reservedClear_rsvBytes fun o lo ho => high o (by omega) ho)
  have key : leAt (leBytes 8 k ++ leBytes 8 v.toNat) 0 2 = k := by
    rw [leAt_field (p := 0) atK 0 2 rfl (by decide), Nat.pow_zero, Nat.div_one]
    exact Nat.mod_eq_of_lt hk
  have value : leAt (leBytes 8 k ++ leBytes 8 v.toNat) 8 8 = v.toNat :=
    leAt_whole (front := leBytes 8 k) (back := []) (by rw [List.append_nil]) (length_leBytes _ _).symm v.isLt
  refine h.runs (.inr (by simp [length_leBytes])) clear ?_
  simp only [key, value, high 2 (by decide) (by decide), free, BitVec.ofNat_toNat, BitVec.setWidth_eq]
  by_cases known : ownerKey k = true
  · simp [known]
  · simp [known, rcInvalidInput]

theorem exec_resealRegion {i : Nat} (h : s.Holds mb 0xC190 (leBytes 2 i ++ 1#8 :: List.replicate 5 0#8)) (hi : i < 16384)
    (unknown : i ∈ s.mf.unknownRegions) (free : s.fw.bg = none) :
    exec (.resealRegion mb) s = .next (((s.resealLines i).foldl
      (fun s l => s.issue .writeLine l .reseal (s.writeClass false) 0#512 (deNone s.epoch true)) (s.emit (.cipherRebuild i))).startBg
        mb 0xC190 i (s.resealLines i).length) := by
  have rest (o : Nat) : leAt (leBytes 2 i ++ 1#8 :: List.replicate 5 0#8) (2 + o) 1 = leAt (1#8 :: List.replicate 5 0#8) o 1 := by
    rw [leAt_append_right _ _ (by rw [length_leBytes]; omega), length_leBytes, Nat.add_sub_cancel_left]
  have asked : leAt (leBytes 2 i ++ 1#8 :: List.replicate 5 0#8) 2 1 = 1 := rest 0
  have clear : ReservedClear (leBytes 2 i ++ 1#8 :: List.replicate 5 0#8) ((2, 0xFE) :: rsvBytes 3 7) := by
    refine .cons (by rw [asked]; rfl) (reservedClear_rsvBytes fun o lo ho => ?_)
    rw [show o = 2 + (o - 2) by omega, rest]
    interval_cases o <;> rfl
  have region : leAt (leBytes 2 i ++ 1#8 :: List.replicate 5 0#8) 0 2 = i := leAt_whole (front := []) rfl rfl (by omega)
  refine h.runs (.inr (by simp [length_leBytes])) clear ?_
  simp only [asked, region, free]
  simp [unknown]

theorem exec_setRegionEntry {i : Nat} {e : BitVec 32} (h : s.Holds mb 0xC1A0 (leBytes 4 i ++ leBytes 4 e.toNat)) (hi : i < 16384)
    (accepted : s.regionRefused i e = false) (free : s.fw.bg = none) :
    exec (.setRegionEntry mb) s = .next ((if needsRecall (s.regionEntry i) e = true
      then (s.writeRegion i (interimEntry (s.regionEntry i) e)).recallRegion i (BitVec.allOnes 16) else s).startBg mb 0xC1A0 i
        (e.toNat + (s.regionEntry i).toNat * 2 ^ 32)) := by
  have atI : leBytes 4 i ++ leBytes 4 e.toNat = [] ++ (leBytes 4 i ++ leBytes 4 e.toNat) := rfl
  have clear : ReservedClear (leBytes 4 i ++ leBytes 4 e.toNat) (rsvBytes 2 3) := reservedClear_rsvBytes fun o lo ho => by
    rw [leAt_field atI o 1 (Nat.zero_add o).symm (by omega)]
    exact byte_eq_zero 14 hi (by omega)
  have region : leAt (leBytes 4 i ++ leBytes 4 e.toNat) 0 2 = i := by
    rw [leAt_field (p := 0) atI 0 2 rfl (by decide), Nat.pow_zero, Nat.div_one]
    exact Nat.mod_eq_of_lt (hi.trans (by decide))
  have entry : leAt (leBytes 4 i ++ leBytes 4 e.toNat) 4 4 = e.toNat :=
    leAt_whole (front := leBytes 4 i) (back := []) (by rw [List.append_nil]) (length_leBytes _ _).symm e.isLt
  refine h.runs (.inr (by simp [length_leBytes])) clear ?_
  simp only [region, entry, BitVec.ofNat_toNat, BitVec.setWidth_eq, free]
  exact (if_neg (by rw [accepted]; simp; omega)).trans (if_neg Bool.false_ne_true)

/-! ### Firmware slots and event records (12 R395, R396; 13 R427) -/

theorem exec_transferFw_taken (h : s.Holds mb 0x0201 b) {slot : BitVec 2} (known : slot = 1#2 ∨ slot = 2#2) (other : slot.toNat ≠ s.boot.slot)
    (running : s.store.stopped = false) (image : FwImage) :
    exec (.transferFw mb slot image) s = .next (({ s with store := { s.store with
      programs := s.store.programs ++ [StoreWrite.image slot.toNat image] } }.emit .storeProgram).reply mb 0) := by
  refine h.runs_any ?_
  have may : ¬((slot.toNat ≠ 1 ∧ slot.toNat ≠ 2) ∨ slot.toNat = s.boot.slot) := by
    rcases known with rfl | rfl <;> simpa using other
  exact (if_neg may).trans (if_neg (by rw [running]; exact Bool.false_ne_true))

theorem exec_transferFw_refused (h : s.Holds mb 0x0201 b) {slot : BitVec 2} (bad : slot = 0#2 ∨ slot = 3#2 ∨ slot.toNat = s.boot.slot)
    (image : FwImage) : exec (.transferFw mb slot image) s = .next (s.reply mb 0xB) := by
  refine h.runs_any (if_pos ?_)
  rcases bad with rfl | rfl | same
  · exact .inl (by decide)
  · exact .inl (by decide)
  · exact .inr same

theorem exec_activateFwOffline (h : s.Holds mb 0x0202 b) {slot : BitVec 2} (valid : (s.store.image slot.toNat).valid = true) :
    exec (.activateFwOffline mb slot) s = .next ((s.commit (.activeSlot slot.toNat)).reply mb 0) :=
  h.runs_any (if_neg (by simp [valid]))

theorem exec_activateFwOnline (h : s.Holds mb 0x0202 b) {slot : BitVec 2} (hm : s.mode = 2 ∨ s.mode = 3)
    (settled : s.on BOOT_ACT.TRIAL = false) (alone : s.fw.retiring = []) (free : s.fw.bg = none)
    (valid : (s.store.image slot.toNat).valid = true) (layout : (s.store.image slot.toNat).oldestLayout ≤ s.boot.running.train) :
    exec (.activateFwOnline mb slot) s =
      .next (((s.wr BOOT_ACT.LOAD_ERR 0).loadStandby slot.toNat).startBg mb 0x0202 slot.toNat (s.rd BOOT_ACT.ACT_COUNT)) := by
  refine h.runs_any ?_
  have ready : ¬((s.mode ≠ 2 ∧ s.mode ≠ 3) ∨ s.on BOOT_ACT.TRIAL ∨ !s.fw.retiring.isEmpty ∨ s.fw.bg.isSome) := by
    simp [settled, alone, free]
    omega
  exact (if_neg ready).trans ((if_neg (by simp [valid])).trans (if_neg (BitVec.not_lt.mpr layout)))

theorem exec_clearEventRecords (h : s.Holds mb 0x0101 b) {log : Fin 4} {n : Nat} (held : n ≤ (s.fw.logs.look [] log.val).length) :
    exec (.clearEventRecords mb log n) s = .next ({ s with fw := { s.fw with
      logs := s.fw.logs.put [] log.val ((s.fw.logs.look [] log.val).drop n), overflow := s.fw.overflow.put 0 log.val 0 } }.reply mb 0) :=
  h.runs_any (if_neg (Nat.not_lt.mpr held))

/-! ### The statement (O55) -/

/-- A background command is under way from its start, its answer given (13 R425; log 62). -/
theorem State.startBg_runs (s : State) (mb : Mailbox) (op arg arg2 : Nat) :
    let u := s.startBg mb op arg arg2
    u.fw.bg = some ⟨mb, BitVec.ofNat 16 op, arg, arg2⟩ ∧ (u.mbx mb).rc = 1#16 ∧ (u.mbx mb).answered = true ∧ (u.mbx mb).bgPercent = 0 ∧
      u.out = s.out := by
  cases mb <;> exact ⟨rfl, rfl, rfl, rfl, rfl⟩

end

/-- Settles O55: each command by its equation; a request for DRAIN by what the entry to it leaves. -/
theorem writingCommandsAct : Obligations.WritingCommandsAct := by
  unfold Obligations.WritingCommandsAct
  intro s mb b n k i j v seed e slot image log
  refine ⟨fun h least most => ?_, fun h bad => ?_, exec_setPersistenceMode_back, exec_setPersistenceMode_through,
    fun h hm still => ⟨_, exec_requestMode_drain h hm still, ?_⟩, fun h hm => exec_requestMode_dormant h hm, fun h bad => ?_,
    fun h hi hk hn idle free => ?_, fun h hn target hi hj hk hm idle free => ?_, exec_setFaultPolicy, exec_retireUnit_channel,
    exec_setOwnerLossPolicy, exec_setHedgePolicy, fun h bits seedBits => ?_, fun h hk free => ?_, exec_resealRegion, exec_setRegionEntry,
    fun h known other running => exec_transferFw_taken h known other running image, fun h bad => exec_transferFw_refused h bad image,
    fun h => exec_activateFwOffline h, fun h => exec_activateFwOnline h, fun h => exec_clearEventRecords h, s.startBg_runs mb k n i⟩
  · have good : ¬(n = 0 ∨ 128 < n) := by omega
    have run := exec_setDirtyBudget h (by omega)
    rw [if_neg good] at run
    refine ⟨fun rising => run.trans ?_, fun falling free => run.trans ?_⟩
    · rw [if_neg fun waits => Nat.not_lt.mpr rising waits.1]
      exact congrArg Outcome.next (if_neg (Nat.not_lt.mpr rising))
    · rw [if_neg (by rw [free]; simp)]
      exact congrArg Outcome.next (if_pos falling)
  · rw [exec_setDirtyBudget h (by omega), if_pos (by omega)]
  · have kept := State.drainAsked_modeKept (mb := mb) hm
    obtain ⟨rc, len, -⟩ := (s.enterDrain 2 0).reply_mbx mb 0 [BitVec.ofNat 8 s.mode, 4#8, 0#8, 0#8, 0#8, 0#8, 0#8, 0#8]
    obtain ⟨closedP, closedS⟩ := s.drainAsked_closed mb
    refine ⟨kept.mode.trans (s.modeWritten_mode 4 2 0), ?_, closedP, closedS, ?_, ?_⟩
    · exact (kept GLB_MODE.CAUSE rfl (.inr (by decide))).trans (s.modeWritten_cause 4 2 0)
    · rw [State.drainAsked, State.mbx_setReg, rc]
    · rw [State.drainAsked, State.mbx_setReg, len]
      rfl
  · exact exec_requestMode_refused h (by omega) (by omega)
  · rw [exec_startRangeOperation h hi hk hn idle free]
    extract_lets u
    split_ifs <;> rfl
  · rw [exec_startScrubPass h hn target hi hj hk hm idle free]
    extract_lets u w
    split_ifs <;> rfl
  · rw [exec_configureSampling h bits seedBits]
    split_ifs <;> rfl
  · rw [exec_setOwnerSetting h hk free]
    split_ifs with key
    · exact ⟨_, rfl, List.take_left' (length_leBytes _ _)⟩
    · rfl

end Sys2Proof.Machine
end

section
/-! PROOFS. Every command, and the microsecond of an empty queue, does to the machine no more than `Evolves` says (06 R207; 17 R491;
logs 1, 3, 9 and 12): its clauses, taken from the operations of every chapter, hold of every step. -/

namespace Sys2Proof.Machine

/-- Each command by what its own meaning does. -/
theorem exec_evolves {s t : State} (h : Evolves s t) : ∀ c : Instr, EvolvesOut s (exec c t)
  | .rdShared .. => execRdShared_evolves h
  | .rdOwn .. => execRdOwn_evolves h
  | .rdCur .. => execRdCur_evolves h
  | .invOwn .. => execInvOwn_evolves h
  | .invFlush .. => execInvFlush_evolves h
  | .wrFull .. => execWrFull_evolves h
  | .wrPtl .. => execWrPtl_evolves h
  | .clnEvct .. => execClnEvct_evolves h
  | .spec .. => execSpec_evolves h
  | .unsupportedRequest .. => execUnsupportedRequest_evolves h
  | .birsp .. => execBirsp_evolves h
  | .biconflict .. => execBiconflict_evolves h
  | .biWarnExpiry .. => execBiWarnExpiry_evolves h
  | .biFenceExpiry .. => execBiFenceExpiry_evolves h
  | .snoopReoffer .. => execSnoopReoffer_evolves h
  | .linkUp .. => execLinkUp_evolves h
  | .linkDown .. => execLinkDown_evolves h
  | .hotReset .. => execHotReset_evolves h
  | .biEnableChange .. => execBiEnableChange_evolves h
  | .widthReport .. => execWidthReport_evolves h
  | .l0pRefused .. => execL0pRefused_evolves h
  | .gpfPhase1 p => execGpfPhase1_evolves (a0 := p) h
  | .gpfPhase2 .. => execGpfPhase2_evolves h
  | .gpfPhase2Ack .. => execGpfPhase2Ack_evolves h
  | .hpHuskWrite .. => execHpHuskWrite_evolves h
  | .hpEnableClear .. => execHpEnableClear_evolves h
  | .huskClear .. => execHuskClear_evolves h
  | .forgetHostWalkStep .. => execForgetHostWalkStep_evolves h
  | .urgentPassLineVisit .. => execUrgentPassLineVisit_evolves h
  | .trackerFree .. => execTrackerFree_evolves h
  | .filterWayRetry .. => execFilterWayRetry_evolves h
  | .hcWayRetry .. => execHcWayRetry_evolves h
  | .budgetWaitProceed .. => execBudgetWaitProceed_evolves h
  | .requestAged .. => execRequestAged_evolves h
  | .spillMapSet .. => execSpillMapSet_evolves h
  | .spillMapSetAck .. => execSpillMapSetAck_evolves h
  | .spillMapQuery .. => execSpillMapQuery_evolves h
  | .spillTokenTick => execSpillTokenTick_evolves h
  | .iaRd .. => execIaRd_evolves h
  | .iaWr .. => execIaWr_evolves h
  | .acquireLoad .. => execAcquireLoad_evolves h
  | .releaseStore .. => execReleaseStore_evolves h
  | .reservedLoad .. => execReservedLoad_evolves h
  | .conditionalStore .. => execConditionalStore_evolves h
  | .completionBarrier .. => execCompletionBarrier_evolves h
  | .fabricTimeout .. => execFabricTimeout_evolves h
  | .mediaReadRequest .. => execMediaReadRequest_evolves h
  | .mediaLineWrite .. => execMediaLineWrite_evolves h
  | .metadataOnlyWrite .. => execMetadataOnlyWrite_evolves h
  | .coalesceWindowExpiry .. => execCoalesceWindowExpiry_evolves h
  | .dispatchPlaceFree .. => execDispatchPlaceFree_evolves h
  | .mediaReadStatus .. => execMediaReadStatus_evolves h
  | .busyMigratingReissue .. => execBusyMigratingReissue_evolves h
  | .hedgeDeadline .. => execHedgeDeadline_evolves h
  | .mediaWriteStatus .. => execMediaWriteStatus_evolves h
  | .writeRetry .. => execWriteRetry_evolves h
  | .hedgeTraining => execHedgeTraining_evolves h
  | .channelLightSleep .. => execChannelLightSleep_evolves h
  | .minorCounterExhausted .. => execMinorCounterExhausted_evolves h
  | .rekeyStep => execRekeyStep_evolves h
  | .macFailure .. => execMacFailure_evolves h
  | .counterUnreadable .. => execCounterUnreadable_evolves h
  | .channelRetire .. => execChannelRetire_evolves h
  | .mfGroupMapWrite .. => execMfGroupMapWrite_evolves h
  | .rebuildResume .. => execRebuildResume_evolves h
  | .apertureRead .. => execApertureRead_evolves h
  | .apertureWrite .. => execApertureWrite_evolves h
  | .resyncStart => execResyncStart_evolves h
  | .resyncStripeCheck => execResyncStripeCheck_evolves h
  | .mfHedgeTableLatch .. => execMfHedgeTableLatch_evolves h
  | .mediaDataReturn .. => execMediaDataReturn_evolves h
  | .mediaWriteAck .. => execMediaWriteAck_evolves h
  | .cleanerStep .. => execCleanerStep_evolves h
  | .dirtyBudgetWrite .. => execDirtyBudgetWrite_evolves h
  | .persistModeWrite .. => execPersistModeWrite_evolves h
  | .rangeClean .. => execRangeClean_evolves h
  | .rangeInvalidate .. => execRangeInvalidate_evolves h
  | .rangeCleanInvalidate .. => execRangeCleanInvalidate_evolves h
  | .rangeLock .. => execRangeLock_evolves h
  | .rangeUnlock .. => execRangeUnlock_evolves h
  | .rangeAgentLine .. => execRangeAgentLine_evolves h
  | .pfwNAssert => execPfwNAssert_evolves h
  | .drainHostPhaseEnd => execDrainHostPhaseEnd_evolves h
  | .drainSnoopTimeout .. => execDrainSnoopTimeout_evolves h
  | .cipherFlushDone => execCipherFlushDone_evolves h
  | .recordCloseAck => execRecordCloseAck_evolves h
  | .automaticRestart => execAutomaticRestart_evolves h
  | .blockResetAssert => execBlockResetAssert_evolves h
  | .blockResetRelease .. => execBlockResetRelease_evolves h
  | .modeReqServe => execModeReqServe_evolves h
  | .modeReqDormant => execModeReqDormant_evolves h
  | .modeReqRepair => execModeReqRepair_evolves h
  | .modeReqHold => execModeReqHold_evolves h
  | .dormantIdleDwell => execDormantIdleDwell_evolves h
  | .dormantEntryStepEnd => execDormantEntryStepEnd_evolves h
  | .dormantEntryTimeout => execDormantEntryTimeout_evolves h
  | .dormantExitCount => execDormantExitCount_evolves h
  | .dormantExitStepEnd => execDormantExitStepEnd_evolves h
  | .controlComplexLoss => execControlComplexLoss_evolves h
  | .repairCauseRelease => execRepairCauseRelease_evolves h
  | .repairTimeout => execRepairTimeout_evolves h
  | .resetInvalidationDone => execResetInvalidationDone_evolves h
  | .acornRomSequence .. => execAcornRomSequence_evolves h
  | .ringEnumeration .. => execRingEnumeration_evolves h
  | .measuredLoadBlock .. => execMeasuredLoadBlock_evolves h
  | .oppTargetWrite .. => execOppTargetWrite_evolves h
  | .regulatorSettled .. => execRegulatorSettled_evolves h
  | .regulatorTimeout .. => execRegulatorTimeout_evolves h
  | .thermalReading .. => execThermalReading_evolves h
  | .clockMonitorCheck .. => execClockMonitorCheck_evolves h
  | .minorEvent .. => execMinorEvent_evolves h
  | .majorEvent .. => execMajorEvent_evolves h
  | .fatalDeclaration .. => execFatalDeclaration_evolves h
  | .wiringFault .. => execWiringFault_evolves h
  | .windowRestart .. => execWindowRestart_evolves h
  | .handlingClose => execHandlingClose_evolves h
  | .permClear .. => execPermClear_evolves h
  | .watchdogFeed => execWatchdogFeed_evolves h
  | .watchdogExpiry => execWatchdogExpiry_evolves h
  | .pipToggle => execPipToggle_evolves h
  | .hcMove .. => execHcMove_evolves h
  | .sfMove .. => execSfMove_evolves h
  | .moveSetStep .. => execMoveSetStep_evolves h
  | .sfDrain .. => execSfDrain_evolves h
  | .sfDrainStep .. => execSfDrainStep_evolves h
  | .sliceHuskWrite .. => execSliceHuskWrite_evolves h
  | .sliceRetirement .. => execSliceRetirement_evolves h
  | .wayRetirement .. => execWayRetirement_evolves h
  | .channelRetirement .. => execChannelRetirement_evolves h
  | .controlCoreRetirement .. => execControlCoreRetirement_evolves h
  | .wordRemap .. => execWordRemap_evolves h
  | .remapReadEntry .. => execRemapReadEntry_evolves h
  | .installWithCopy .. => execInstallWithCopy_evolves h
  | .remapCopyExecute .. => execRemapCopyExecute_evolves h
  | .installZeroed .. => execInstallZeroed_evolves h
  | .eccTestUnlockKey .. => execEccTestUnlockKey_evolves h
  | .eccUnlockExpiry .. => execEccUnlockExpiry_evolves h
  | .eccTestArm .. => execEccTestArm_evolves h
  | .scrubStartPass .. => execScrubStartPass_evolves h
  | .scrubStop => execScrubStop_evolves h
  | .scrubVisit .. => execScrubVisit_evolves h
  | .scrubMediaStripeVisit .. => execScrubMediaStripeVisit_evolves h
  | .scrubRevisit .. => execScrubRevisit_evolves h
  | .patrolPeriod => execPatrolPeriod_evolves h
  | .sweeperChunkVisit => execSweeperChunkVisit_evolves h
  | .sweeperLine .. => execSweeperLine_evolves h
  | .sweeperChunkVisitEnd => execSweeperChunkVisitEnd_evolves h
  | .progressCommit => execProgressCommit_evolves h
  | .regionPortRead .. => execRegionPortRead_evolves h
  | .regionPortWrite .. => execRegionPortWrite_evolves h
  | .sliceMapWrite .. => execSliceMapWrite_evolves h
  | .hashCtrlWrite .. => execHashCtrlWrite_evolves h
  | .slLogicalIdWrite .. => execSlLogicalIdWrite_evolves h
  | .bootCoreMapWrite .. => execBootCoreMapWrite_evolves h
  | .pqDataRead .. => execPqDataRead_evolves h
  | .pqFillWrite .. => execPqFillWrite_evolves h
  | .pqReset .. => execPqReset_evolves h
  | .pointerMismatchReset .. => execPointerMismatchReset_evolves h
  | .crossingReplay .. => execCrossingReplay_evolves h
  | .mailboxDoorbell .. => execMailboxDoorbell_evolves h
  | .pComplete => execPComplete_evolves h
  | .sComplete => execSComplete_evolves h
  | .pBgDone => execPBgDone_evolves h
  | .sBgDone => execSBgDone_evolves h
  | .getHomeStatus .. => execGetHomeStatus_evolves h
  | .setDirtyBudget .. => execSetDirtyBudget_evolves h
  | .setPersistenceMode .. => execSetPersistenceMode_evolves h
  | .requestMode .. => execRequestMode_evolves h
  | .startRangeOperation .. => execStartRangeOperation_evolves h
  | .getRangeSummary .. => execGetRangeSummary_evolves h
  | .startScrubPass .. => execStartScrubPass_evolves h
  | .getScrubSummary .. => execGetScrubSummary_evolves h
  | .getFaultHistory .. => execGetFaultHistory_evolves h
  | .setFaultPolicy .. => execSetFaultPolicy_evolves h
  | .getSpareInventory .. => execGetSpareInventory_evolves h
  | .retireUnit .. => execRetireUnit_evolves h
  | .setOwnerLossPolicy .. => execSetOwnerLossPolicy_evolves h
  | .getOwnerLossList .. => execGetOwnerLossList_evolves h
  | .setHedgePolicy .. => execSetHedgePolicy_evolves h
  | .readCounterSnapshot .. => execReadCounterSnapshot_evolves h
  | .configureSampling .. => execConfigureSampling_evolves h
  | .readSampleBuffer .. => execReadSampleBuffer_evolves h
  | .getOwnerSetting .. => execGetOwnerSetting_evolves h
  | .setOwnerSetting .. => execSetOwnerSetting_evolves h
  | .resealRegion .. => execResealRegion_evolves h
  | .setRegionEntry .. => execSetRegionEntry_evolves h
  | .getRegionEntry .. => execGetRegionEntry_evolves h
  | .getFwInfo .. => execGetFwInfo_evolves h
  | .transferFw .. => execTransferFw_evolves h
  | .activateFwOffline .. => execActivateFwOffline_evolves h
  | .activateFwOnline .. => execActivateFwOnline_evolves h
  | .getEventRecords .. => execGetEventRecords_evolves h
  | .clearEventRecords .. => execClearEventRecords_evolves h
  | .spdmGetVersion .. => execSpdmGetVersion_evolves h
  | .spdmGetCapabilities .. => execSpdmGetCapabilities_evolves h
  | .spdmNegotiateAlgorithms .. => execSpdmNegotiateAlgorithms_evolves h
  | .spdmGetDigests .. => execSpdmGetDigests_evolves h
  | .spdmGetCertificate .. => execSpdmGetCertificate_evolves h
  | .spdmChallenge .. => execSpdmChallenge_evolves h
  | .spdmGetMeasurements .. => execSpdmGetMeasurements_evolves h
  | .bootLoad .. => execBootLoad_evolves h
  | .bootSwitch => execBootSwitch_evolves h
  | .bootConfirm => execBootConfirm_evolves h
  | .trialExpiry => execTrialExpiry_evolves h
  | .configProgramAck => execConfigProgramAck_evolves h
  | .dmaGo .. => execDmaGo_evolves h
  | .dmaPause .. => execDmaPause_evolves h
  | .dmaResume .. => execDmaResume_evolves h
  | .dmaDisable .. => execDmaDisable_evolves h
  | .dmaDrainDone .. => execDmaDrainDone_evolves h
  | .dmaChannelStart .. => execDmaChannelStart_evolves h
  | .descriptorFetch .. => execDescriptorFetch_evolves h
  | .dmaReadResponse .. => execDmaReadResponse_evolves h
  | .descriptorComplete .. => execDescriptorComplete_evolves h
  | .dmaBusError .. => execDmaBusError_evolves h
  | .pmuSnap => execPmuSnap_evolves h
  | .peakClr .. => execPeakClr_evolves h
  | .sampleCtrlWrite .. => execSampleCtrlWrite_evolves h
  | .sampleSeedWrite .. => execSampleSeedWrite_evolves h
  | .sampleClear => execSampleClear_evolves h
  | .sampleDataRead => execSampleDataRead_evolves h
  | .registerWrite .. => execRegisterWrite_evolves h
  | .hostCreditAdvertised .. => execHostCreditAdvertised_evolves h
  | .powerLoss => execPowerLoss_evolves h
  | .powerOnReset => execPowerOnReset_evolves h
  | .pfwNDeassert => execPfwNDeassert_evolves h
  | .standardMemoryDeviceCommand .. => execStandardMemoryDeviceCommand_evolves h

/-- A step takes the command at the front of the queue, and what its state becomes evolves from the state without that command. -/
theorem step_evolves {s t : State} (next : step s = .next t) : Evolves (s.withPending s.pending.tail) t := by
  unfold step at next
  split at next
  case h_1 idle =>
    cases next
    have still : s.withPending s.pending.tail = s := by rw [idle]; exact congrArg s.withPending idle.symm
    rw [still]
    exact State.tick_evolves (Evolves.refl s)
  case h_2 c q front =>
    rw [front]
    exact exec_evolves (Evolves.refl _) c t next

/-- Settles O8: the clause of `Evolves` on the major counters (06 R207). -/
theorem writeCounterNeverGoesBack : Obligations.WriteCounterNeverGoesBack := by
  unfold Obligations.WriteCounterNeverGoesBack
  intro s t line next
  exact (step_evolves next).major line

end Sys2Proof.Machine
end

section
/-! PROOFS. The statement of chapter 6 on the resync (06 R206): the parity of a stripe that does not match is rewritten so that the nine
forms XOR to zero. -/

namespace Sys2Proof.Machine

/-! ### Parity (06 R183) -/

theorem Stored.xor_comm (a b : Stored) : a.xor b = b.xor a :=
  Stored.mk.injEq .. |>.mpr ⟨BitVec.xor_comm .., BitVec.xor_comm ..⟩

theorem Stored.xor_assoc (a b c : Stored) : (a.xor b).xor c = a.xor (b.xor c) :=
  Stored.mk.injEq .. |>.mpr ⟨BitVec.xor_assoc .., BitVec.xor_assoc ..⟩

theorem Stored.xor_self (a : Stored) : a.xor a = Stored.zero := Stored.mk.injEq .. |>.mpr ⟨BitVec.xor_self, BitVec.xor_self⟩

theorem Stored.xor_zero (a : Stored) : a.xor Stored.zero = a := Stored.mk.injEq .. |>.mpr ⟨BitVec.xor_zero, BitVec.xor_zero⟩

theorem xorAll_cons (a : Stored) (l : List Stored) : xorAll (a :: l) = a.xor (xorAll l) := by
  have start : ∀ b, (l.foldl Stored.xor b) = b.xor (xorAll l) := by
    induction l with
    | nil => exact fun b => b.xor_zero.symm
    | cons c l ih =>
      intro b
      rw [xorAll, List.foldl_cons, List.foldl_cons, ih, ih (Stored.zero.xor c), Stored.zero.xor_comm, c.xor_zero, Stored.xor_assoc]
  rw [xorAll, List.foldl_cons, start, Stored.zero.xor_comm, a.xor_zero]

/-- One form of several changed by a difference changes the XOR of them all by that difference. -/
theorem xorAll_map_update (f : Nat → Stored) (p : Nat) (d : Stored) {l : List Nat} (distinct : l.Nodup) (mem : p ∈ l) :
    xorAll (l.map (Function.update f p ((f p).xor d))) = (xorAll (l.map f)).xor d := by
  induction l with
  | nil => exact absurd mem List.not_mem_nil
  | cons i l ih =>
    obtain ⟨first, rest⟩ := List.nodup_cons.mp distinct
    rw [List.map_cons, List.map_cons, xorAll_cons, xorAll_cons]
    by_cases here : p = i
    · subst here
      have others : l.map (Function.update f p ((f p).xor d)) = l.map f :=
        List.map_congr_left fun j hj => Function.update_of_ne (fun e : j = p => first (e ▸ hj)) ..
      rw [Function.update_self, others, Stored.xor_assoc, d.xor_comm, Stored.xor_assoc]
    · rw [Function.update_of_ne (Ne.symm here), ih rest ((List.mem_cons.mp mem).resolve_left here), Stored.xor_assoc]

theorem paritySlot_lt (st : Nat) : paritySlot st < 9 := Nat.mod_lt st (by decide)

/-! ### Media at its places (06 R182) -/

theorem State.mediaAt_setMedia_same (s : State) (c : Channel) (i : Nat) (f : Option Stored) : (s.setMedia c i f).mediaAt c i = f :=
  Tbl.look_put_same ..

/-- Below 2^37 lines a channel, lines of two channels lie at two places. -/
theorem State.mediaAt_setMedia_ne (s : State) {c d : Channel} {i : Nat} (f : Option Stored) (inside : i < 2 ^ 37) (ne : d ≠ c) :
    (s.setMedia c i f).mediaAt d i = s.mediaAt d i :=
  Tbl.look_put_ne _ _ _ _ fun e => ne (Fin.ext (by have low := inside; omega))

/-- The forms of a stripe depend on the media and the group's map alone. -/
theorem State.stripeForms_congr {s t : State} {g : Nat} (map : ∀ i < 9, t.rd (slotFld g i) = s.rd (slotFld g i)) {u : State}
    (media : t.media = u.media) (st : Nat) :
    t.stripeForms g st = (List.range 9).map fun i => (u.mediaAt (s.chanOf g i) st).getD Stored.zero := by
  refine List.map_congr_left fun i hi => ?_
  rw [State.chanOf, map i (List.mem_range.mp hi), State.mediaAt, media]
  rfl

/-- The form of a slot of a stripe, an unwritten one counting as zeros (06 R184). -/
def State.slotForm (s : State) (g st i : Nat) : Stored := (s.mediaAt (s.chanOf g i) st).getD Stored.zero

theorem State.stripeForms_eq (s : State) (g st : Nat) : s.stripeForms g st = (List.range 9).map (s.slotForm g st) := rfl

/-! ### A stripe checked (06 R206) -/

/-- The reads and writes of a stripe visit leave the registers alone. -/
@[simp] theorem State.visitOps_regs (s : State) (g st : Nat) (slots : List Nat) (write : Bool) :
    (s.visitOps g st slots write).regs = s.regs :=
  holds_of_foldl (P := fun t : State => t.regs = s.regs) (fun u k h => by cases write <;> simp [h]) slots s rfl

/-- The reads and writes of a stripe visit leave the media alone. -/
@[simp] theorem State.visitOps_media (s : State) (g st : Nat) (slots : List Nat) (write : Bool) :
    (s.visitOps g st slots write).media = s.media :=
  holds_of_foldl (P := fun t : State => t.media = s.media) (fun u k h => by cases write <;> simp [h]) slots s rfl

@[simp] theorem State.setMedia_regs (s : State) (c : Channel) (i : Nat) (f : Option Stored) : (s.setMedia c i f).regs = s.regs := rfl

/-- The check of a stripe: its slots are read, and a parity that does not match is rewritten. -/
def State.stripeChecked (s : State) (g st : Nat) : State :=
  let lost := s.lostSlots g st
  let read := s.visitOps g st ((List.range 9).filter fun k => !lost.contains k) false
  let p := paritySlot st
  let sum := xorAll (s.stripeForms g st)
  if !lost.isEmpty then read
  else if sum = Stored.zero then read
  else ((read.visitOps g st [p] true).setMedia (s.chanOf g p) st
      (some (((s.mediaAt (s.chanOf g p) st).getD Stored.zero).xor sum))).modMf fun m => { m with resyncFixed := m.resyncFixed + 1 }

/-- The check leaves the group maps alone. -/
theorem State.stripeChecked_regs (s : State) (g st : Nat) : (s.stripeChecked g st).regs = s.regs := by
  unfold State.stripeChecked
  extract_lets lost read p sum
  have reads : read.regs = s.regs := State.visitOps_regs ..
  split_ifs <;> simp [reads]

theorem State.stripeChecked_media_lost {s : State} {g st : Nat} (lost : s.lostSlots g st ≠ []) :
    (s.stripeChecked g st).media = s.media := by
  unfold State.stripeChecked
  rw [if_pos (by simpa using lost), State.visitOps_media]

/-- With every slot served the parity's form takes up what was wrong. -/
theorem State.stripeChecked_media {s : State} {g st : Nat} (served : s.lostSlots g st = []) :
    let sum := xorAll (s.stripeForms g st)
    let p := s.chanOf g (paritySlot st)
    (sum = Stored.zero ∧ (s.stripeChecked g st).media = s.media) ∨
      (s.stripeChecked g st).media = (s.setMedia p st (some (((s.mediaAt p st).getD Stored.zero).xor sum))).media := by
  unfold State.stripeChecked
  extract_lets sum c lost read p
  have reads : read.media = s.media := State.visitOps_media ..
  rw [if_neg (by simp [lost, served])]
  split
  case isTrue matching => exact .inl ⟨matching, reads⟩
  case isFalse => exact .inr (by simp [State.setMedia, reads, c, p])

/-- A stripe whose media are as the check left them has matching parity, and its data slots have the forms they had. -/
theorem State.stripe_matches {s t : State} {g st : Nat} (map : ∀ i < 9, t.rd (slotFld g i) = s.rd (slotFld g i))
    (media : t.media = (s.stripeChecked g st).media) (inside : st < 2 ^ 37) (served : s.lostSlots g st = [])
    (distinct : ∀ i < 9, ∀ j < 9, s.chanOf g i = s.chanOf g j → i = j) :
    xorAll (t.stripeForms g st) = Stored.zero ∧
      ∀ i < 9, i ≠ paritySlot st → t.mediaAt (s.chanOf g i) st = s.mediaAt (s.chanOf g i) st := by
  have parity := paritySlot_lt st
  rcases State.stripeChecked_media served with ⟨matching, same⟩ | changed
  · rw [same] at media
    refine ⟨?_, fun i _ _ => by rw [State.mediaAt, media]; rfl⟩
    rw [State.stripeForms_congr map media]
    exact matching
  · rw [changed] at media
    have others : ∀ i < 9, i ≠ paritySlot st → t.mediaAt (s.chanOf g i) st = s.mediaAt (s.chanOf g i) st := fun i hi ne => by
      rw [State.mediaAt, media]
      exact s.mediaAt_setMedia_ne _ inside fun e => ne (distinct i hi _ parity e)
    refine ⟨?_, others⟩
    have forms : t.stripeForms g st = (List.range 9).map (Function.update (s.slotForm g st) (paritySlot st)
        ((s.slotForm g st (paritySlot st)).xor (xorAll (s.stripeForms g st)))) := by
      rw [State.stripeForms_congr map rfl]
      refine List.map_congr_left fun i hi => ?_
      by_cases here : i = paritySlot st
      · subst here
        rw [Function.update_self, State.mediaAt, media]
        exact congrArg (·.getD Stored.zero) (s.mediaAt_setMedia_same _ _ _)
      · rw [Function.update_of_ne here, others i (List.mem_range.mp hi) here]
        rfl
    rw [forms, xorAll_map_update _ _ _ List.nodup_range (List.mem_range.mpr parity), ← State.stripeForms_eq]
    exact Stored.xor_self _

/-- The state of a resync that goes on after the check of stripe `k` in a row of groups of `n` stripes each. -/
def State.resyncGone (s : State) (n k : Nat) : State :=
  let u := s.stripeChecked (k / n) (k % n)
  (if k % n + 1 = n then u.wr (MF_GROUP_MAP.RESYNCED (k / n)) 1 else u).modMf fun m => { m with resyncAt := some (k + 1) }

theorem State.resyncGone_media (s : State) (n k : Nat) : (s.resyncGone n k).media = (s.stripeChecked (k / n) (k % n)).media := by
  simp only [State.resyncGone, State.modMf_media, apply_ite State.media, State.wr_media, ite_self]

/-- The resync leaves the channels of the slots as they are. -/
theorem State.resyncGone_map (s : State) (n k g : Nat) {i : Nat} (hi : i < 9) :
    (s.resyncGone n k).rd (slotFld g i) = s.rd (slotFld g i) := by
  have checked (g' st : Nat) : (s.stripeChecked g' st).rd (slotFld g i) = s.rd (slotFld g i) :=
    State.rd_congr (s.stripeChecked_regs g' st) _
  have apart (g' : Nat) : (MF_GROUP_MAP.RESYNCED g').Apart (slotFld g i) := .inr (.inl (show 6 * i + 6 ≤ 62 by omega))
  rw [State.resyncGone, State.modMf_rd]
  split
  · rw [State.rd_wr_apart _ _ (apart _), checked]
  · exact checked ..

/-- While there is a next stripe the resync goes on at it. -/
theorem exec_resyncStripeCheck_goesOn {s : State} {n k : Nat} (stripes : max 1 s.channelLines = n) (running : s.mf.resyncAt = some k)
    (hm : s.mode = 2) (more : k + 1 < 4 * n) (free : s.openBatch (k / n) (k % n) = none) :
    exec .resyncStripeCheck s = .next (s.resyncGone n k) := by
  show execResyncStripeCheck s = _
  unfold execResyncStripeCheck
  simp only [running, stripes]
  rw [if_neg (by simp [hm, free]), if_neg (Nat.ne_of_lt more)]
  rfl

/-- The channels of the installed regions hold at most 2^37 lines each (01 R42). -/
theorem State.channelLines_le {s : State} (installed : s.rd GLB_CAPS.DPA_REGIONS ≤ 16384) : max 1 s.channelLines ≤ 2 ^ 37 :=
  max_le (by decide) (Nat.mul_le_mul_right (2 ^ 23) installed)

/-- Settles O30: the parity form takes up the XOR of all nine, and the other eight lie on other channels. -/
theorem resyncMakesTheParityMatch : Obligations.ResyncMakesTheParityMatch := by
  unfold Obligations.ResyncMakesTheParityMatch
  intro s k running n g st hm more free
  have goes := exec_resyncStripeCheck_goesOn rfl running hm more free
  refine ⟨fun installed served distinct => ⟨_, goes, ?_⟩, fun lost => ⟨_, goes, ?_, rfl⟩⟩
  · have stripes : 0 < n := lt_of_lt_of_le Nat.one_pos (le_max_left ..)
    have inside : st < 2 ^ 37 := lt_of_lt_of_le (Nat.mod_lt k stripes) (State.channelLines_le installed)
    have map : ∀ i < 9, (s.resyncGone n k).rd (slotFld g i) = s.rd (slotFld g i) := fun i hi => s.resyncGone_map n k g hi
    obtain ⟨zero, others⟩ := State.stripe_matches map (s.resyncGone_media n k) inside served distinct
    exact ⟨zero, others, rfl⟩
  · rw [State.resyncGone_media]
    exact State.stripeChecked_media_lost lost

end Sys2Proof.Machine
end

section
/-! PROOFS. The statements of chapter 6 on reads: their arrival, reissue, hedging and placing (06 R190, R193 to R195, R202, R203, R210,
R510), and what a channel's answer to one does (06 R193, R194, R196, Table 6.4). -/

namespace Sys2Proof.Machine

/-! ### A read arrives (06 R190, R202, R203, R210) -/

section
variable {s : State} {n : Nat} {o : MediaOp} (found : s.op n = some o) (wire : o.state = .wire) (read : o.isWrite = false)
include found wire read

theorem exec_mediaReadRequest_unknown (unknown : s.unknownFor o = true) :
    exec (.mediaReadRequest n) s = .next (s.finish n .uncorrectable 0#512 0#32).settleMedia := by
  show execMediaReadRequest n s = _
  simp only [execMediaReadRequest, found]
  rw [if_neg (by simp [wire, read]), if_pos unknown]

theorem exec_mediaReadRequest_queued {x : MediaOp} (known : s.unknownFor o = false)
    (last : ((s.queuedWrites o.line n).filter fun y => y.kind == .writeLine).getLast? = some x) :
    exec (.mediaReadRequest n) s = .next (s.finish n .ok x.data x.dir).settleMedia := by
  show execMediaReadRequest n s = _
  simp only [execMediaReadRequest, found]
  rw [if_neg (by simp [wire, read]), if_neg (by simp [known])]
  simp only [last]

/-- With no write of its line ahead a read turns on the lost slots of its stripe. -/
theorem exec_mediaReadRequest_alone (known : s.unknownFor o = false) (alone : s.queuedWrites o.line n = []) :
    let lost := s.lostSlots (groupOf o.line) (stripeOf o.line)
    exec (.mediaReadRequest n) s = .next (
      if lost.contains (slotOf o.line) then
        if 2 ≤ lost.length then s.finish n .uncorrectable 0#512 0#32
        else s.startRecon n .lostSlot (groupOf o.line) (stripeOf o.line) (slotOf o.line) 1
      else (s.setOp n (some { o with state := .reading })).addChop (s.chanOf (groupOf o.line) (slotOf o.line)) (stripeOf o.line) false
        (o.kind == .readMeta) Stored.zero (.primary n) o.cls).settleMedia := by
  intro lost
  show execMediaReadRequest n s = _
  simp only [execMediaReadRequest, found]
  rw [if_neg (by simp [wire, read]), if_neg (by simp [known])]
  simp only [alone, List.filter_nil, List.getLast?_nil]
  rw [if_neg fun waits => waits.1 rfl]

end

/-! ### Reissue, hedging and placing (06 R194, R195, R510) -/

theorem State.chop_setChop_same (s : State) (n : Nat) (o : Option ChanOp) : (s.setChop n o).chop n = o := Tbl.look_put_same ..

theorem State.chop_setChop_ne (s : State) {n k : Nat} (o : Option ChanOp) (ne : k ≠ n) : (s.setChop n o).chop k = s.chop k :=
  Tbl.look_put_ne _ _ _ _ ne

theorem exec_busyMigratingReissue {s : State} {n : Nat} {o : ChanOp} {id : Nat} {m : MediaOp} (found : s.chop n = some o)
    (migrating : o.migrating = true) (use : o.use = .primary id) (serves : s.op id = some m) (reading : m.state = .reading)
    (unhedged : m.recon = none) :
    exec (.busyMigratingReissue n) s =
      .next ((s.setChop n (some { o with migrating := false })).emit (.chanRead n o.chan o.index o.metaOnly)) := by
  show execBusyMigratingReissue n s = _
  simp [execBusyMigratingReissue, found, migrating, use, serves, reading, unhedged]

theorem exec_hedgeDeadline_out {s : State} {n : Nat} {o : ChanOp} {id : Nat} (listed : (n, some o) ∈ s.mf.chops) (queued : o.queued = true)
    (use : o.use = .primary id) : exec (.hedgeDeadline id) s = .next (s.tryHedge id).issueAll := by
  refine if_pos (List.any_eq_true.mpr ⟨_, listed, ?_⟩)
  simp [queued, use]

theorem exec_dispatchPlaceFree_only {s : State} {n : Nat} {o : ChanOp} {e : Bool} (only : s.mf.chops = [(n, some o)])
    (waits : o.queued = false) (room : s.room o.chan o.cls = some e) :
    exec (.dispatchPlaceFree o.chan) s = .next (s.placeChop n o e).issueAll := by
  show execDispatchPlaceFree o.chan s = _
  have first : (([(n, o)].find? fun e => e.2.cls == 1) <|> [(n, o)].head?) = some (n, o) := by
    by_cases urgent : o.cls = 1 <;> simp [urgent]
  simp only [execDispatchPlaceFree, only, List.filterMap_cons, List.filterMap_nil, Option.bind_some, waits, Bool.not_false, and_self,
    if_true, first, room]

/-- Settles O24: each case of a read's arrival, and the commands that move it on, by their equations. -/
theorem mediaReadsGoToTheirChannels : Obligations.MediaReadsGoToTheirChannels := by
  unfold Obligations.MediaReadsGoToTheirChannels
  refine ⟨fun s n o x found wire read => ?_, fun s n o id m c e => ⟨fun found migrating use serves reading unhedged => ?_,
    exec_hedgeDeadline_out, fun only chan waits room => ?_⟩⟩
  · intro g st lost
    refine ⟨exec_mediaReadRequest_unknown found wire read, fun known => ⟨exec_mediaReadRequest_queued found wire read known,
      fun alone => ?_⟩⟩
    rw [exec_mediaReadRequest_alone found wire read known alone]
    refine ⟨fun served => ?_, fun one => ?_, fun two gone => ?_⟩
    · rw [if_neg (by simpa [lost] using served)]
    · have one' : s.lostSlots (groupOf o.line) (stripeOf o.line) = [slotOf o.line] := one
      rw [one', if_pos (by simp), if_neg (by simp)]
    · rw [if_pos gone, if_pos two]
  · refine ⟨_, exec_busyMigratingReissue found migrating use serves reading unhedged, State.chop_setChop_same .., rfl,
      fun k ne => s.chop_setChop_ne _ ne, rfl⟩
  · subst chan
    exact exec_dispatchPlaceFree_only only waits room

end Sys2Proof.Machine
end

section
/-! PROOFS. The statement of chapter 6 on the answers of channels to reads (06 R193, R194, R196, Table 6.4) and their way to the slices
(03 R104, R107). -/

namespace Sys2Proof.Machine

/-! ### A channel answers a read (06 R193, Table 6.4) -/

/-- An event of a channel's source leaves the media front's operations alone. -/
theorem State.readEvent_mf (s : State) (o : ChanOp) (st : ReadStatus) : (s.readEvent o st).mf = s.mf := by
  have source : 0x22 + o.chan.val < 96 := by omega
  cases st with
  | corrected => rw [State.readEvent, ((FaultWork.refl _).minor _ _ source).rest, State.count_mf]
  | uncorrectable => rw [State.readEvent, ((FaultWork.refl _).major _ _ source).rest, State.count_mf]
  | _ => rfl

theorem State.op_congr {s t : State} (same : t.mf = s.mf) (id : Nat) : t.op id = s.op id := by rw [State.op, State.op, same]

theorem State.setChop_op (s : State) (n : Nat) (o : Option ChanOp) (id : Nat) : (s.setChop n o).op id = s.op id := rfl

theorem State.setChop_mediaAt (s : State) (n : Nat) (o : Option ChanOp) (c : Channel) (i : Nat) :
    (s.setChop n o).mediaAt c i = s.mediaAt c i := rfl

theorem State.setChop_unseal (s : State) (n : Nat) (o : Option ChanOp) (line : Nat) (f : Stored) :
    (s.setChop n o).unseal line f = s.unseal line f := rfl

/-- What an answer to a primary read means to the operation it serves. -/
theorem State.readAnswer_primary (s : State) {o : ChanOp} {id : Nat} (use : o.use = .primary id) (st : ReadStatus) :
    s.readAnswer o st = s.primaryAnswer id o st := by
  unfold State.readAnswer
  simp only [use]

section
variable {s : State} {id : Nat} {m : MediaOp} (serves : s.op id = some m) (reading : m.state = .reading)
include serves reading

theorem State.primaryAnswer_busyMigrating (o : ChanOp) : s.primaryAnswer id o .busyMigrating = s.tryHedge id := by
  unfold State.primaryAnswer
  simp only [serves]
  exact if_neg (not_not.mpr reading)

section
variable (kind : m.kind = .readSealed) (alone : m.recon = none)
include kind alone

theorem State.primaryAnswer_ok {o : ChanOp} {f : Stored} (stored : s.mediaAt o.chan o.index = some f) :
    s.primaryAnswer id o .ok =
      (if m.hedged = true then s else s.latency o.chan.val m.band).finish id .ok (s.unseal m.line f) f.dir := by
  unfold State.primaryAnswer
  simp only [serves]
  rw [if_neg (not_not.mpr reading)]
  simp only [stored, alone, kind]
  cases m.hedged <;> rfl

theorem State.primaryAnswer_uncorrectable (unhedged : m.hedged = false) (o : ChanOp) :
    s.primaryAnswer id o .uncorrectable = ((s.latency o.chan.val m.band).count (72 + groupOf m.line) 4).startRecon id .uncorrectable
      (groupOf m.line) (stripeOf m.line) (slotOf m.line) 1 := by
  unfold State.primaryAnswer
  simp only [serves]
  rw [if_neg (not_not.mpr reading)]
  simp only [alone, kind, unhedged]
  rfl

end
end

section
variable {s : State} {n : Nat} {o : ChanOp} (found : s.chop n = some o) (read : o.write = false) (issued : o.issued = true)
  (fresh : o.migrating = false)
include found read issued fresh

theorem exec_mediaReadStatus_final {st : ReadStatus} (final : st ≠ .busyMigrating) :
    exec (.mediaReadStatus n st) s = .next (((s.readEvent o st).setChop n none).readAnswer o st).settleMedia := by
  show execMediaReadStatus n st s = _
  simp only [execMediaReadStatus, found]
  rw [if_neg (by simp [read, issued, fresh]), if_neg fun busy => final busy.1]
  rfl

section
variable {id : Nat} {m : MediaOp} (use : o.use = .primary id) (serves : s.op id = some m) (reading : m.state = .reading)
include use serves reading

/-- A primary read that is busy-migrating goes on waiting, and is hedged where it may be. -/
theorem exec_mediaReadStatus_busy : exec (.mediaReadStatus n .busyMigrating) s =
    .next (((s.readEvent o .busyMigrating).setChop n (some { o with migrating := true })).tryHedge id).issueAll := by
  have still : ((s.readEvent o .busyMigrating).setChop n (some { o with migrating := true })).op id = some m := serves
  rw [← State.primaryAnswer_busyMigrating still reading o, ← State.readAnswer_primary _ use]
  show execMediaReadStatus n .busyMigrating s = _
  unfold execMediaReadStatus
  simp only [found]
  rw [if_neg (by simp [read, issued, fresh]), if_pos (by simp [use, serves, reading])]
  rfl

section
variable (kind : m.kind = .readSealed) (alone : m.recon = none)
include kind alone

theorem exec_mediaReadStatus_ok {f : Stored} (stored : s.mediaAt o.chan o.index = some f) : exec (.mediaReadStatus n .ok) s =
    .next ((if m.hedged = true then s.setChop n none else (s.setChop n none).latency o.chan.val m.band).finish id .ok (s.unseal m.line f)
      f.dir).settleMedia := by
  have still : (s.setChop n none).op id = some m := serves
  rw [exec_mediaReadStatus_final found read issued fresh (by decide), State.readAnswer_primary _ use, State.readEvent,
    State.primaryAnswer_ok still reading kind alone ((s.setChop_mediaAt n none ..).trans stored), State.setChop_unseal]

theorem exec_mediaReadStatus_uncorrectable (unhedged : m.hedged = false) : exec (.mediaReadStatus n .uncorrectable) s =
    .next (((((s.readEvent o .uncorrectable).setChop n none).latency o.chan.val m.band).count (72 + groupOf m.line) 4).startRecon id
      .uncorrectable (groupOf m.line) (stripeOf m.line) (slotOf m.line) 1).settleMedia := by
  have still : ((s.readEvent o .uncorrectable).setChop n none).op id = some m := by
    rw [State.setChop_op, State.op_congr (s.readEvent_mf o .uncorrectable), serves]
  rw [exec_mediaReadStatus_final found read issued fresh (by decide), State.readAnswer_primary _ use,
    State.primaryAnswer_uncorrectable still reading kind alone unhedged]

end
end
end

/-! ### An answer reaches its slice (03 R104, R107) -/

section
variable {s : State} {id : Nat} {m : MediaOp} (found : s.op id = some m)
include found

theorem exec_mediaDataReturn_uncorrectable (bad : m.state = .answered .uncorrectable) :
    exec (.mediaDataReturn id) s = .next ((s.setOp id none).draw.deliverRead id m (Config.freeLine s.freeTick) none) := by
  show execMediaDataReturn id s = _
  simp only [execMediaDataReturn, found, bad]

theorem exec_mediaDataReturn_data (good : m.state = .answered .ok ∨ m.state = .answered .unwritten) :
    exec (.mediaDataReturn id) s = .next ((s.setOp id none).deliverRead id m m.data (some m.dir)) := by
  show execMediaDataReturn id s = _
  rcases good with good | good <;> simp only [execMediaDataReturn, found, good]

end

/-- Settles O25: each answer by its equation. -/
theorem channelAnswersReads : Obligations.ChannelAnswersReads := by
  unfold Obligations.ChannelAnswersReads
  intro s n o st id m f
  refine ⟨fun found read issued fresh => exec_mediaReadStatus_final found read issued fresh,
    fun found read issued fresh use serves reading kind => ⟨fun alone stored => ?_,
      exec_mediaReadStatus_uncorrectable found read issued fresh use serves reading kind,
      exec_mediaReadStatus_busy found read issued fresh use serves reading⟩,
    fun found => ⟨exec_mediaDataReturn_uncorrectable found, exec_mediaDataReturn_data found⟩⟩
  rw [exec_mediaReadStatus_ok found read issued fresh use serves reading kind alone stored]
  exact ⟨fun hedged => by rw [if_pos hedged], fun unhedged => by rw [if_neg (by simp [unhedged])]⟩

end Sys2Proof.Machine
end

section
/-! PROOFS. The statement of chapter 6 on writes: their arrival at the coalescer (06 R189 to R191), their way back to the slices, and what
a channel's answer to one does (06 R187, R189, R205, R508; 17 R493). -/

namespace Sys2Proof.Machine

/-! ### Nothing but one write is held (06 R191) -/

/-- A list that lists nothing but one value lists it once at most, duplicates left out. -/
theorem length_eraseDups_le_one {l : List Nat} {a : Nat} (only : ∀ x ∈ l, x = a) : l.eraseDups.length ≤ 1 := by
  cases l with
  | nil => exact Nat.zero_le 1
  | cons x l =>
    have rest : l.filter (fun b => !b == x) = [] := List.filter_eq_nil_iff.mpr fun b hb => by
      rw [only b (List.mem_cons_of_mem _ hb), only x List.mem_cons_self]
      simp
    rw [List.eraseDups_cons, rest]
    rfl

/-- Nothing is released where nothing is held. -/
theorem State.releaseHeld_of_none {s : State} (none_ : ∀ e ∈ s.mf.ops, ∀ x, e.2 = some x → x.state ≠ .held) (g st : Nat) :
    s.releaseHeld g st = s := by
  refine List.foldlRecOn s.mf.ops _ (motive := fun t => t = s) rfl fun t same e he => ?_
  split
  case h_1 x held => rw [if_neg fun c => none_ e he x held c.1, same]
  case h_2 => exact same

/-- Where every held write is one of line `l`, the held writes of any choice are of one line at most. -/
theorem State.heldOf_length {s : State} {l : Nat} (only : ∀ e ∈ s.mf.ops, ∀ x, e.2 = some x → x.state = .held → x.line = l)
    (p : MediaOp → Prop) [DecidablePred p] (held : ∀ x, p x → x.state = .held) :
    (s.mf.ops.filterMap fun e => e.2.bind fun o => if p o then some o.line else none).eraseDups.length ≤ 1 := by
  refine length_eraseDups_le_one (a := l) fun x hx => ?_
  obtain ⟨e, he, hex⟩ := List.mem_filterMap.mp hx
  obtain ⟨o, ho, hox⟩ := Option.bind_eq_some_iff.mp hex
  split at hox
  case isTrue c => exact Option.some.inj hox ▸ only e he o ho (held o c)
  case isFalse => cases hox

/-- A write as it stands in the coalescer: held, or waiting where the coalescer is off. -/
def State.coalescedOp (s : State) (o : MediaOp) : MediaOp :=
  { o with state := if s.on MF_CTRL.COALESCE_EN then .held else .waiting, placedAt := s.nextId, heldAt := s.now }

/-- What the table of operations lists after a write has entered the coalescer: that write, and what was listed. -/
theorem State.mem_ops_coalesce {s : State} {n : Nat} {o : MediaOp} {e : Nat × Option MediaOp} (listed : e ∈ (s.coalesce n o).mf.ops) :
    e = (n, some (s.coalescedOp o)) ∨ e ∈ s.mf.ops := by
  have put : (s.coalesce n o).mf.ops = s.mf.ops.put none n (some (s.coalescedOp o)) := rfl
  rw [put, Tbl.put, if_neg (Option.some_ne_none _)] at listed
  exact Tbl.mem_ins listed

/-! ### A write arrives (06 R189 to R191) -/

section
variable {s : State} {n : Nat} {o : MediaOp} (found : s.op n = some o) (wire : o.state = .wire)
  (first : s.behindOnRing o.line n = false) (kept : s.arriveDropped n o = none)
include found wire first kept

theorem exec_metadataOnlyWrite_alone (kind : o.kind = .writeMeta)
    (apart : (s.heldLines (groupOf o.line) (stripeOf o.line)).contains o.line = false) :
    exec (.metadataOnlyWrite n) s =
      .next ((s.setOp n (some { o with state := .waiting, placedAt := s.nextId })).bump).settleMedia := by
  show execMetadataOnlyWrite n s = _
  simp only [execMetadataOnlyWrite, found]
  rw [if_neg (by simp [wire, kind, first])]
  simp only [kept]
  rw [if_neg (by rw [apart]; exact Bool.false_ne_true)]

section
variable (kind : o.kind = .writeLine) (empty : ∀ e ∈ s.mf.ops, ∀ x, e.2 = some x → x.state ≠ .held)
include kind empty

/-- With nothing else held, a write that is held or that waits enters the coalescer, and no more comes of it. -/
theorem exec_mediaLineWrite_coalesces (way : s.on MF_CTRL.COALESCE_EN = false ∨
      s.rd MF_CTRL.COALESCE_WIN ≠ 0 ∧ o.cls ≠ 3 ∧ s.mode ≠ 4) :
    exec (.mediaLineWrite n) s = .next (s.coalesce n o).settleMedia := by
  have only : ∀ e ∈ (s.coalesce n o).mf.ops, ∀ x, e.2 = some x → x.state = .held → x.line = o.line := fun e he x hx held => by
    rcases State.mem_ops_coalesce he with here | before
    · subst here
      cases hx
      rfl
    · exact absurd held (empty e before x hx)
  have lines : ((s.coalesce n o).heldLines (groupOf o.line) (stripeOf o.line)).length ≤ 1 := State.heldOf_length only
    (fun x => x.state = .held ∧ groupOf x.line = groupOf o.line ∧ stripeOf x.line = stripeOf o.line)
    fun _ c => c.1
  have buffers : (s.coalesce n o).heldBuffers ≤ 1 := State.heldOf_length only (fun x => x.state = .held) fun _ c => c
  have still : (if (!s.on MF_CTRL.COALESCE_EN || s.rd MF_CTRL.COALESCE_WIN == 0 || o.cls == 3 || s.mode == 4) = true ∨
      ((s.coalesce n o).heldLines (groupOf o.line) (stripeOf o.line)).length = 8 then
        (s.coalesce n o).releaseHeld (groupOf o.line) (stripeOf o.line) else s.coalesce n o) = s.coalesce n o := by
    cases off : s.on MF_CTRL.COALESCE_EN with
    | false =>
      have none_ : ∀ e ∈ (s.coalesce n o).mf.ops, ∀ x, e.2 = some x → x.state ≠ .held := fun e he x hx => by
        rcases State.mem_ops_coalesce he with here | before
        · subst here
          cases hx
          simp [State.coalescedOp, off]
        · exact empty e before x hx
      rw [State.releaseHeld_of_none none_, ite_self]
    | true =>
      obtain ⟨window, cls, mode⟩ := way.resolve_left (by simp [off])
      exact if_neg (not_or.mpr ⟨by simp [window, cls, mode], by omega⟩)
  show execMediaLineWrite n s = _
  simp only [execMediaLineWrite, found]
  rw [if_neg (by simp [wire, kind, first])]
  simp only [kept]
  rw [still, decide_eq_false (by omega)]

end
end

theorem exec_mediaWriteAck_acked {s : State} {n : Nat} {o : MediaOp} {b : Bool} (found : s.op n = some o) (acked : o.state = .acked b) :
    exec (.mediaWriteAck n) s = .next ((s.setOp n none).deliverAck n o) := by
  show execMediaWriteAck n s = _
  simp only [execMediaWriteAck, found, acked]

/-! ### A channel answers a write (06 R187, R189, R205, R508; 17 R493) -/

/-- The state in which an acknowledged write has left its form on media: of a metadata-only one the old data with the new metadata. -/
def State.writeStored (s : State) (n : Nat) (o : ChanOp) : State :=
  let form : Stored := if o.metaOnly then ⟨((s.mediaAt o.chan o.index).getD Stored.zero).data, o.form.md⟩ else o.form
  (s.setMedia o.chan o.index (some form)).setChop n none

section
variable {s : State} {n : Nat} {o : ChanOp} (found : s.chop n = some o)
include found

theorem exec_writeRetry_failed (failed : o.failed = true) : exec (.writeRetry n) s =
    .next ((s.setChop n (some { o with failed := false, tries := o.tries + 1 })).emit (.chanWrite n o.chan o.index o.metaOnly)) := by
  show execWriteRetry n s = _
  simp only [execWriteRetry, found]
  rw [if_neg (by simp [failed])]

section
variable (write : o.write = true) (issued : o.issued = true) (fresh : o.failed = false)
include write issued fresh

theorem exec_mediaWriteStatus_batch {bid slot : Nat} {b : Batch} (use : o.use = .batchWrite bid slot) (isOpen : s.batch bid = some b) :
    exec (.mediaWriteStatus n true) s =
      .next (let u := ((s.writeStored n o).landed b slot).setBatch bid (some { b with writes := b.writes.erase slot })
             if (b.writes.erase slot).isEmpty then u.closeBatch bid else u).settleMedia := by
  have still : (s.writeStored n o).batch bid = some b := isOpen
  show execMediaWriteStatus n true s = _
  simp only [execMediaWriteStatus, found]
  rw [if_neg (by simp [write, issued, fresh]), if_pos trivial]
  simp only [use]
  rw [State.writeStored] at still ⊢
  simp only [still]

theorem exec_mediaWriteStatus_repair (use : o.use = .repair) : exec (.mediaWriteStatus n true) s = .next (s.writeStored n o) := by
  show execMediaWriteStatus n true s = _
  simp only [execMediaWriteStatus, found]
  rw [if_neg (by simp [write, issued, fresh]), if_pos trivial]
  simp only [use]
  rfl

theorem exec_mediaWriteStatus_aperture (use : o.use = .aperture) :
    exec (.mediaWriteStatus n true) s = .next (((s.writeStored n o).iaEnd (apertureId o.index)).rebuiltLine o.index) := by
  show execMediaWriteStatus n true s = _
  simp only [execMediaWriteStatus, found]
  rw [if_neg (by simp [write, issued, fresh]), if_pos trivial]
  simp only [use]
  rfl

/-- A write fails: it is due again but on a lost channel, or at its third repeat, which husks the channel. -/
theorem exec_mediaWriteStatus_failed :
    let failed := s.major (0x22 + o.chan.val) (channelInfo o.index 5)
    exec (.mediaWriteStatus n false) s = .next (
      if s.chState o.chan = 3 then ((failed.setChop n none).writeGone o).settleMedia
      else if 3 ≤ o.tries then
        (((failed.setChop n (some o)).huskChannel o.chan).escalate (0x22 + o.chan.val) false (channelInfo o.index 5)).settleMedia
      else failed.setChop n (some { o with failed := true })) := by
  intro failed
  show execMediaWriteStatus n false s = _
  simp only [execMediaWriteStatus, found]
  rw [if_neg (by simp [write, issued, fresh]), if_neg Bool.false_ne_true, apply_ite Host.Outcome.next, apply_ite Host.Outcome.next]

end
end

/-- Settles O26: each case of a write's arrival, and of its channel's answer, by its equation. -/
theorem mediaWritesAreHeldReleasedAndStored : Obligations.MediaWritesAreHeldReleasedAndStored := by
  unfold Obligations.MediaWritesAreHeldReleasedAndStored
  refine ⟨fun s n o g st b => ⟨fun found wire kind first kept empty => ⟨fun off => ?_, fun on window cls mode => ?_⟩,
    fun found wire kind first kept apart => exec_metadataOnlyWrite_alone found wire first kept kind apart, rfl, exec_mediaWriteAck_acked⟩,
    fun s n o bid slot b found write issued => ⟨fun fresh => ?_, fun failed => ?_⟩⟩
  · rw [exec_mediaLineWrite_coalesces found wire first kept kind empty (.inl off), State.coalesce, off]
    rfl
  · rw [exec_mediaLineWrite_coalesces found wire first kept kind empty (.inr ⟨window, cls, mode⟩), State.coalesce, on]
    rfl
  · have fails := exec_mediaWriteStatus_failed found write issued fresh
    refine ⟨exec_mediaWriteStatus_batch found write issued fresh, exec_mediaWriteStatus_repair found write issued fresh,
      exec_mediaWriteStatus_aperture found write issued fresh, fun alive few => ?_, fun alive third => ?_, fun gone => ?_⟩
    · rw [fails, if_neg alive, if_neg (by omega)]
    · rw [fails, if_neg alive, if_pos (by omega)]
    · rw [fails, if_pos gone]
  · exact ⟨_, exec_writeRetry_failed found failed, rfl, State.chop_setChop_same .., rfl⟩

end Sys2Proof.Machine
end

section
/-! PROOFS. The statement of chapter 6 on channels, group maps, the rebuild and its aperture, and the start of a resync (06 R202, R204,
R205, R213, R214, R218; 09 R304; 14 R443). -/

namespace Sys2Proof.Machine

/-! ### Fields written in a row -/

theorem getBits_lt (v : Word) (lo w : Nat) : getBits v lo w < 2 ^ w := BitVec.isLt _

theorem State.RegsOnly.trans {s t u : State} (h : s.RegsOnly t) (k : t.RegsOnly u) : s.RegsOnly u := by
  rw [State.RegsOnly, k, h]

theorem State.RegsOnly.wrAll {s t : State} (h : s.RegsOnly t) (l : List (Fld × Nat)) : s.RegsOnly (t.wrAll l) :=
  holds_of_foldl (P := fun u => s.RegsOnly u) (fun _ e k => k.wr e.1 e.2) l t h

theorem State.wrAll_append (s : State) (l k : List (Fld × Nat)) : s.wrAll (l ++ k) = (s.wrAll l).wrAll k := List.foldl_append ..

/-- Fields written leave every register that none of them lies in. -/
theorem State.reg_wrAll_ne {l : List (Fld × Nat)} {o : Nat} (apart : ∀ e ∈ l, e.1.off ≠ o) (s : State) :
    (s.wrAll l).reg o = s.reg o := by
  induction l generalizing s with
  | nil => rfl
  | cons e l ih =>
    obtain ⟨first, rest⟩ := List.forall_mem_cons.mp apart
    exact (ih rest (s.wr e.1 e.2)).trans (s.reg_wr_ne e.1 e.2 first.symm)

/-- Of fields no two of which meet, each holds the value written to it, where it fits. -/
theorem State.rd_wrAll_fits {f : Fld} {x : Nat} (small : x < 2 ^ f.w) (fits : f.lo + f.w ≤ 64) {l : List (Fld × Nat)} (s : State)
    (apart : l.Pairwise fun a b => b.1.Apart a.1) (mem : (f, x) ∈ l) : (s.wrAll l).rd f = x :=
  (s.rd_wrAll_mem fits apart mem).trans (Nat.mod_eq_of_lt small)

/-! ### Group maps (06 R204, R214) -/

/-- The slots of a group map as a write of it sets them. -/
def mapWrites (g : Nat) (v : Word) : List (Fld × Nat) := (List.range 9).map fun k => (slotFld g k, getBits v (6 * k) 6)

theorem State.mapWrites_stored (s : State) (g : Nat) (v : Word) :
    (List.range 9).foldl (fun s k => s.wr (slotFld g k) (getBits v (6 * k) 6)) s = s.wrAll (mapWrites g v) := by
  rw [State.wrAll, mapWrites, List.foldl_map]

theorem mem_mapWrites (g : Nat) (v : Word) {k : Nat} (hk : k < 9) : (slotFld g k, getBits v (6 * k) 6) ∈ mapWrites g v :=
  List.mem_map_of_mem (List.mem_range.mpr hk)

theorem mapWrites_off {g : Nat} {v : Word} {e : Fld × Nat} (mem : e ∈ mapWrites g v) : ∃ k < 9, e.1 = slotFld g k := by
  obtain ⟨k, hk, rfl⟩ := List.mem_map.mp mem
  exact ⟨k, List.mem_range.mp hk, rfl⟩

theorem mapWrites_apart (g : Nat) (v : Word) : (mapWrites g v).Pairwise fun a b => b.1.Apart a.1 :=
  (List.pairwise_lt_range (n := 9)).map _ fun j k (lt : j < k) => .inr (.inl (show 6 * j + 6 ≤ 6 * k by omega))

/-- Between the two states only the registers of the channels, which lie above the group maps, differ. -/
def ChannelRegs (s t : State) : Prop := s.RegsOnly t ∧ ∀ o < MF_CH_STATE.reg 0, t.reg o = s.reg o

theorem ChannelRegs.wr {s t : State} (h : ChannelRegs s t) {f : Fld} (x : Nat) (above : MF_CH_STATE.reg 0 ≤ f.off) :
    ChannelRegs s (t.wr f x) :=
  ⟨h.1.wr f x, fun o ho => (t.reg_wr_ne f x (by omega)).trans (h.2 o ho)⟩

theorem State.refreshChannels_regs (s : State) : ChannelRegs s s.refreshChannels := by
  have chan (c : Nat) : MF_CH_STATE.reg 0 ≤ MF_CH_STATE.reg c := Nat.add_le_add_left (Nat.mul_le_mul_left 8 c.zero_le) _
  refine holds_of_foldl (P := ChannelRegs s) (fun t c h => ?_) _ s ⟨State.RegsOnly.refl s, fun _ _ => rfl⟩
  extract_lets at_ set
  have marked (n : Nat) : ChannelRegs s (set t n) := holds_of_ite h (h.wr n (chan c))
  clear_value at_ set
  cases at_ with
  | some k => exact ((marked 1).wr _ (chan c)).wr _ (chan c)
  | none => exact ((marked 0).wr _ (chan c)).wr _ (chan c)

/-- In SPROUT a map of channels that exist is taken whole. -/
theorem exec_mfGroupMapWrite_sprout {s : State} {g : Group} {v : Word} (hm : s.mode = 1) (known : ∀ k < 9, getBits v (6 * k) 6 ≤ 37) :
    exec (.mfGroupMapWrite g v) s = .next (s.wrAll (mapWrites g.val v)).refreshChannels := by
  rw [← State.mapWrites_stored]
  refine (if_neg (by rw [hm]; decide)).trans (congrArg Host.Outcome.next ?_)
  unfold State.writeGroupMap
  extract_lets slots old store bad
  rw [if_pos hm, if_pos (by simpa [slots] using known)]

/-- What becomes of the groups' maps then: the one written holds the channels, the others are as they were. -/
theorem State.mapTaken_rd (s : State) (g : Group) (v : Word) :
    (∀ k < 9, (s.wrAll (mapWrites g.val v)).refreshChannels.rd (slotFld g.val k) = getBits v (6 * k) 6) ∧
      ∀ f : Group, f ≠ g → ∀ k < 9, (s.wrAll (mapWrites g.val v)).refreshChannels.rd (slotFld f.val k) = s.rd (slotFld f.val k) := by
  have kept (f : Group) (k : Nat) :
      (s.wrAll (mapWrites g.val v)).refreshChannels.rd (slotFld f.val k) = (s.wrAll (mapWrites g.val v)).rd (slotFld f.val k) := by
    rw [State.rd, State.rd, (State.refreshChannels_regs _).2]
    simp only [slotFld, MF_GROUP_MAP.reg, MF_CH_STATE.reg]
    omega
  refine ⟨fun k hk => ?_, fun f ne k _ => ?_⟩
  · exact (kept g k).trans (s.rd_wrAll_fits (f := slotFld g.val k) (getBits_lt ..) (show 6 * k + 6 ≤ 64 by omega) (mapWrites_apart g.val v)
      (mem_mapWrites g.val v hk))
  · rw [kept, State.rd_wrAll_apart]
    intro e he
    obtain ⟨j, -, same⟩ := mapWrites_off he
    rw [same]
    have other : f.val ≠ g.val := fun h => ne (Fin.ext h)
    exact .inl (show 0x40010 + 8 * f.val ≠ 0x40010 + 8 * g.val by omega)

/-! ### A rebuild begins (06 R204) -/

/-- What a spare's entry into the lost slot of a group sets beside the map: the spare's own register, the group's state, the rebuild. -/
def rebuildWrites (g lost spare : Nat) : List (Fld × Nat) :=
  [(MF_CH_STATE.STATE spare, 2), (MF_CH_STATE.GROUP spare, g), (MF_CH_STATE.SLOT spare, lost), (MF_GROUP_MAP.GSTATE g, 2),
    (MF_REBUILD_STATUS.ACTIVE, 1), (MF_REBUILD_STATUS.GROUP, g), (MF_REBUILD_STATUS.SLOT, lost), (MF_REBUILD_STATUS.TARGET, spare),
    (MF_REBUILD_STATUS.LINE, 0)]

/-- No two of these fields meet, and none meets a slot of the group's map. -/
theorem slot_rebuildWrites_apart {g k : Nat} (hg : g < 4) (hk : k < 9) (x lost spare : Nat) :
    ((slotFld g k, x) :: rebuildWrites g lost spare).Pairwise fun a b => b.1.Apart a.1 := by
  simp only [rebuildWrites, List.pairwise_cons, List.forall_mem_cons, List.not_mem_nil, false_implies, implies_true, List.Pairwise.nil,
    and_true, Fld.Apart, slotFld, MF_CH_STATE.STATE, MF_CH_STATE.GROUP, MF_CH_STATE.SLOT, MF_GROUP_MAP.GSTATE, MF_REBUILD_STATUS.ACTIVE,
    MF_REBUILD_STATUS.GROUP, MF_REBUILD_STATUS.SLOT, MF_REBUILD_STATUS.TARGET, MF_REBUILD_STATUS.LINE, MF_CH_STATE.reg, MF_GROUP_MAP.reg,
    MF_REBUILD_STATUS.reg]
  omega

theorem rebuildWrites_apart {g : Nat} (hg : g < 4) (lost spare : Nat) (v : Word) :
    (mapWrites g v ++ rebuildWrites g lost spare).Pairwise fun a b => b.1.Apart a.1 := by
  refine List.pairwise_append.mpr ⟨mapWrites_apart g v, (slot_rebuildWrites_apart hg (k := 0) (by decide) 0 lost spare).of_cons,
    fun a ha b hb => ?_⟩
  obtain ⟨k, hk, same⟩ := mapWrites_off ha
  rw [same]
  exact List.rel_of_pairwise_cons (slot_rebuildWrites_apart hg hk 0 lost spare) hb

/-- Whether a write of a group's map outside SPROUT puts a spare into the group's lost slot and changes nothing else. -/
def State.takesSpare (s : State) (g : Nat) (v : Word) : Prop :=
  let lost := s.rd (MF_GROUP_MAP.LOST_SLOT g)
  let spare := getBits v (6 * lost) 6
  ((List.range 9).filter fun k => getBits v (6 * k) 6 ≠ s.rd (slotFld g k)) = [lost] ∧
    s.rd (MF_GROUP_MAP.GSTATE g) = 1 ∧ spare ≤ 37 ∧ s.rd (MF_CH_STATE.STATE spare) = 0

/-- The state in which a group's rebuild onto a spare begins. -/
def State.rebuildBegun (s : State) (g lost spare : Nat) (v : Word) : State :=
  (s.wrAll (mapWrites g v ++ rebuildWrites g lost spare)).modMf fun m =>
    { m with window := [], bands := m.bands.filter fun e => e.1 / 4 != spare }

/-- The slots that a write of a map changes. -/
theorem State.writeGroupMap_changed (s : State) (g : Nat) (v : Word) :
    ((List.range 9).filter fun k =>
        ((List.range 9).map fun k => getBits v (6 * k) 6)[k]? != ((List.range 9).map fun k => s.rd (slotFld g k))[k]?) =
      (List.range 9).filter fun k => getBits v (6 * k) 6 ≠ s.rd (slotFld g k) := by
  refine List.filter_congr fun k hk => ?_
  rw [List.getElem?_map, List.getElem?_map, List.getElem?_range (List.mem_range.mp hk)]
  by_cases same : getBits v (6 * k) 6 = s.rd (slotFld g k) <;> simp [same]

section
variable {s : State} {g : Group} {v : Word} (later : s.mode ≠ 1) (awake : s.mode ≠ 0)
include later awake

theorem exec_mfGroupMapWrite_spare (takes : s.takesSpare g.val v) : exec (.mfGroupMapWrite g v) s =
    .next (s.rebuildBegun g.val (s.rd (MF_GROUP_MAP.LOST_SLOT g.val)) (getBits v (6 * s.rd (MF_GROUP_MAP.LOST_SLOT g.val)) 6) v) := by
  refine (if_neg awake).trans (congrArg Host.Outcome.next ?_)
  rw [State.rebuildBegun, State.wrAll_append, ← State.mapWrites_stored]
  unfold State.writeGroupMap
  extract_lets slots old store bad lost changed spare s1 s2
  rw [if_neg later]
  have same : changed = (List.range 9).filter fun k => getBits v (6 * k) 6 ≠ s.rd (slotFld g.val k) := s.writeGroupMap_changed g.val v
  rw [same]
  refine (if_pos ?_).trans ?_
  · exact takes
  · rfl

theorem exec_mfGroupMapWrite_refused (bad : ¬s.takesSpare g.val v) :
    exec (.mfGroupMapWrite g v) s = .next (s.wr MF_CTRL.MAP_ERR 1) := by
  refine (if_neg awake).trans (congrArg Host.Outcome.next ?_)
  unfold State.writeGroupMap
  extract_lets slots old store err lost changed spare s1 s2
  rw [if_neg later]
  have same : changed = (List.range 9).filter fun k => getBits v (6 * k) 6 ≠ s.rd (slotFld g.val k) := s.writeGroupMap_changed g.val v
  rw [same]
  exact if_neg bad

end

/-- The registers of a rebuild that has begun. -/
theorem State.rebuildBegun_rd {s : State} {g : Group} {lost spare : Nat} {v : Word} (slot : lost < 9) (named : spare = getBits v (6 * lost) 6) :
    let t := s.rebuildBegun g.val lost spare v
    t.rd (slotFld g.val lost) = spare ∧ t.rd (MF_CH_STATE.STATE spare) = 2 ∧ t.rd (MF_GROUP_MAP.GSTATE g.val) = 2 ∧
      t.on MF_REBUILD_STATUS.ACTIVE = true ∧ t.rd MF_REBUILD_STATUS.GROUP = g.val ∧ t.rd MF_REBUILD_STATUS.SLOT = lost ∧
      t.rd MF_REBUILD_STATUS.TARGET = spare ∧ t.rd MF_REBUILD_STATUS.LINE = 0 := by
  have chan : spare < 2 ^ 6 := named ▸ getBits_lt ..
  have holds {f : Fld} {x : Nat} (small : x < 2 ^ f.w) (fits : f.lo + f.w ≤ 64)
      (mem : (f, x) ∈ mapWrites g.val v ++ rebuildWrites g.val lost spare) : (s.rebuildBegun g.val lost spare v).rd f = x := by
    rw [State.rebuildBegun, State.modMf_rd]
    exact s.rd_wrAll_fits small fits (rebuildWrites_apart g.isLt lost spare v) mem
  have written {f : Fld} {x : Nat} (small : x < 2 ^ f.w) (fits : f.lo + f.w ≤ 64) (mem : (f, x) ∈ rebuildWrites g.val lost spare) :
      (s.rebuildBegun g.val lost spare v).rd f = x := holds small fits (List.mem_append_right _ mem)
  have active : (s.rebuildBegun g.val lost spare v).rd MF_REBUILD_STATUS.ACTIVE = 1 :=
    written (by decide) (by decide) (by simp [rebuildWrites])
  refine ⟨holds chan (show 6 * lost + 6 ≤ 64 by omega) (List.mem_append_left _ (named ▸ mem_mapWrites g.val v slot)),
    written (show 2 < 2 ^ 3 by decide) (show 0 + 3 ≤ 64 by decide) (by simp [rebuildWrites]),
    written (show 2 < 2 ^ 2 by decide) (show 60 + 2 ≤ 64 by decide) (by simp [rebuildWrites]),
    by rw [State.on, active]; rfl,
    written g.isLt (by decide) (by simp [rebuildWrites]),
    written (show lost < 2 ^ 4 by omega) (by decide) (by simp [rebuildWrites]),
    written chan (by decide) (by simp [rebuildWrites]),
    written (by decide) (by decide) (by simp [rebuildWrites])⟩

/-! ### Rebuild and resync resumed by firmware (06 R213, R218) -/

/-- The fields of MF_REBUILD_STATUS that REBUILD_RESUME takes in SPROUT. -/
def resumeWrites (v : Word) : List (Fld × Nat) :=
  [(MF_REBUILD_STATUS.ACTIVE, getBits v 0 1), (MF_REBUILD_STATUS.GROUP, getBits v 1 2), (MF_REBUILD_STATUS.SLOT, getBits v 3 4),
    (MF_REBUILD_STATUS.TARGET, getBits v 7 6), (MF_REBUILD_STATUS.LINE, getBits v 14 38)]

theorem resumeWrites_off (v : Word) : ∀ e ∈ resumeWrites v, e.1.off = MF_REBUILD_STATUS.reg := by simp [resumeWrites]; decide

theorem resumeWrites_apart (v : Word) : (resumeWrites v).Pairwise fun a b => b.1.Apart a.1 := by
  simp [resumeWrites, Fld.Apart, MF_REBUILD_STATUS.ACTIVE, MF_REBUILD_STATUS.GROUP, MF_REBUILD_STATUS.SLOT, MF_REBUILD_STATUS.TARGET,
    MF_REBUILD_STATUS.LINE]

/-- A 1 in bit 52 clears DONE. -/
def State.doneCleared (s : State) (v : Word) : State := if getBits v 52 1 = 1 then s.wr MF_REBUILD_STATUS.DONE 0 else s

theorem State.doneCleared_done (s : State) (v : Word) :
    (s.doneCleared v).rd MF_REBUILD_STATUS.DONE = if getBits v 52 1 = 1 then 0 else s.rd MF_REBUILD_STATUS.DONE := by
  rw [State.doneCleared, apply_ite (State.rd · MF_REBUILD_STATUS.DONE), State.rd_wr_same _ _ _ (by decide), Nat.zero_mod]

theorem State.doneCleared_regsOnly (s : State) (v : Word) : s.RegsOnly (s.doneCleared v) :=
  holds_of_ite (P := fun t => s.RegsOnly t) ((State.RegsOnly.refl s).wr _ _) (State.RegsOnly.refl s)

theorem State.doneCleared_reg_ne (s : State) (v : Word) {o : Nat} (ne : o ≠ MF_REBUILD_STATUS.reg) : (s.doneCleared v).reg o = s.reg o :=
  holds_of_ite (P := fun t : State => t.reg o = s.reg o) (s.reg_wr_ne _ _ ne) rfl

/-- The state after REBUILD_RESUME in SPROUT. -/
def State.resumed (s : State) (v : Word) : State :=
  ((s.doneCleared v).wrAll (resumeWrites v)).modMf fun m => { m with resumeArmed := getBits v 0 1 == 1 }

theorem exec_rebuildResume_sprout {s : State} (hm : s.mode = 1) (v : Word) : exec (.rebuildResume v) s = .next (s.resumed v) :=
  (if_neg (by rw [hm]; decide)).trans (if_neg (not_not.mpr hm))

theorem State.resumed_rd {s : State} {v : Word} {f : Fld} {x : Nat} (small : x < 2 ^ f.w) (fits : f.lo + f.w ≤ 64)
    (mem : (f, x) ∈ resumeWrites v) : (s.resumed v).rd f = x := by
  rw [State.resumed, State.modMf_rd]
  exact State.rd_wrAll_fits small fits _ (resumeWrites_apart v) mem

theorem State.resumed_done (s : State) (v : Word) :
    (s.resumed v).rd MF_REBUILD_STATUS.DONE = if getBits v 52 1 = 1 then 0 else s.rd MF_REBUILD_STATUS.DONE := by
  rw [State.resumed, State.modMf_rd, State.rd_wrAll_apart, State.doneCleared_done]
  simp [resumeWrites, Fld.Apart, MF_REBUILD_STATUS.ACTIVE, MF_REBUILD_STATUS.GROUP, MF_REBUILD_STATUS.SLOT, MF_REBUILD_STATUS.TARGET,
    MF_REBUILD_STATUS.LINE, MF_REBUILD_STATUS.DONE]

theorem State.resumed_reg_ne (s : State) (v : Word) {o : Nat} (ne : o ≠ MF_REBUILD_STATUS.reg) : (s.resumed v).reg o = s.reg o := by
  rw [State.resumed, State.modMf_reg, State.reg_wrAll_ne fun e he => (resumeWrites_off v e he).trans_ne ne.symm, s.doneCleared_reg_ne v ne]

/-- Settings of the media front's state leave the rest of a state in which only registers differ. -/
theorem State.RegsOnly.modMf_frame {s t : State} (h : s.RegsOnly t) (f : MediaFront → MediaFront) :
    t.modMf f = { s with regs := (t.modMf f).regs, mf := f s.mf } := by
  rw [State.RegsOnly] at h
  rw [h]
  rfl

theorem exec_rebuildResume_later {s : State} (awake : s.mode ≠ 0) (later : s.mode ≠ 1) (v : Word) :
    exec (.rebuildResume v) s = .next (s.doneCleared v) := (if_neg awake).trans (if_pos later)

theorem exec_resyncStart_sprout {s : State} (hm : s.mode = 1) :
    exec .resyncStart s = .next ((s.wr MF_CTRL.RESYNC 1).modMf fun m => { m with resyncArmed := true }) := if_neg (not_not.mpr hm)

/-! ### The rebuild aperture (06 R205; 14 R443; 09 R304) -/

section
variable {s : State} (awake : s.mode ≠ 5) {a : Word} {n : Nat} {c : DmaChannel}
include awake

theorem exec_apertureRead_line {i : Nat} (named : s.apertureIndex a n c = some i) : exec (.apertureRead a n c) s =
    .next (s.startRecon s.nextId (.aperture c) (s.rd MF_REBUILD_STATUS.GROUP) i (s.rd MF_REBUILD_STATUS.SLOT) 5).settleMedia := by
  refine (if_neg awake).trans ?_
  rw [State.apertureRead, named]
  rfl

theorem exec_apertureRead_none (other : s.apertureIndex a n c = none) : exec (.apertureRead a n c) s = .next (s.emit .apertureError) := by
  refine (if_neg awake).trans ?_
  rw [State.apertureRead, other]
  rfl

theorem exec_apertureWrite_none (other : s.apertureIndex a n c = none) (d : LineData) (md : LineMeta) :
    exec (.apertureWrite a n c d md) s = .next (s.emit .apertureError) := by
  refine (if_neg awake).trans ?_
  rw [State.apertureWrite]
  simp only [other]
  rfl

theorem exec_apertureWrite_elsewhere {i : Nat} (named : s.apertureIndex a n c = some i) (ne : i ≠ s.rd MF_REBUILD_STATUS.LINE)
    (d : LineData) (md : LineMeta) : exec (.apertureWrite a n c d md) s = .next (s.emit .apertureError) := by
  refine (if_neg awake).trans ?_
  rw [State.apertureWrite]
  simp only [named]
  rw [if_pos (.inl ne)]
  rfl

/-- At LINE, with the stripe untouched since the aperture read and its form readable, the form goes to the spare. -/
theorem exec_apertureWrite_line {i : Nat} (named : s.apertureIndex a n c = some i) (here : i = s.rd MF_REBUILD_STATUS.LINE)
    (idle : s.apertureBusy = false) (untouched : s.mf.window.contains (i, false) = true) (readable : s.readMfBuffer 11 i = (s, false))
    (free : s.openBatch (s.rd MF_REBUILD_STATUS.GROUP) i = none) (d : LineData) (md : LineMeta) :
    exec (.apertureWrite a n c d md) s =
      .next (s.addChop (s.chanOf (s.rd MF_REBUILD_STATUS.GROUP) (s.rd MF_REBUILD_STATUS.SLOT)) i true false ⟨d, md⟩ .aperture
        5).settleMedia := by
  refine (if_neg awake).trans ?_
  rw [State.apertureWrite]
  simp only [named]
  rw [if_neg (by simp [here, idle])]
  simp only [untouched, if_true, readable, free]
  rfl

end

/-- No rebuild, another length or a utility channel: the access names no line. -/
theorem State.apertureIndex_none {s : State} {a : Word} {n : Nat} {c : DmaChannel}
    (bad : s.on MF_REBUILD_STATUS.ACTIVE = false ∨ n ≠ 64 ∨ 8 ≤ c.val) : s.apertureIndex a n c = none := by
  refine if_neg fun h => ?_
  obtain ⟨-, -, -, whole, data, active⟩ := h
  rcases bad with off | other | utility
  · exact Bool.false_ne_true (off ▸ active)
  · exact other whole
  · omega

/-- Settles O29: each command by its equation, the registers by the fields written in a row. -/
theorem channelsGroupsAndRebuild : Obligations.ChannelsGroupsAndRebuild := by
  unfold Obligations.ChannelsGroupsAndRebuild
  refine ⟨fun s c g v => ⟨fun awake => if_neg awake, fun hm known => ⟨_, exec_mfGroupMapWrite_sprout hm known, ?_⟩, fun awake later => ?_,
    fun hm => ⟨_, exec_rebuildResume_sprout hm v, ?_⟩, fun awake later => exec_rebuildResume_later awake later v,
    fun hm => ⟨_, exec_resyncStart_sprout hm, ?_⟩⟩, fun s a n i c d md => ⟨fun awake named => ?_, fun awake bad => ?_, fun hm => ?_⟩⟩
  · obtain ⟨own, others⟩ := s.mapTaken_rd g v
    exact ⟨own, others, ((State.RegsOnly.refl s).wrAll _).trans (State.refreshChannels_regs _).1⟩
  · intro lost spare
    split
    case isTrue takes =>
      have slot : lost < 9 := by
        have mem : lost ∈ (List.range 9).filter fun k => getBits v (6 * k) 6 ≠ s.rd (slotFld g.val k) := takes.1 ▸ List.mem_cons_self
        exact List.mem_range.mp (List.mem_filter.mp mem).1
      exact ⟨_, exec_mfGroupMapWrite_spare later awake takes, State.rebuildBegun_rd slot rfl⟩
    case isFalse bad => exact exec_mfGroupMapWrite_refused later awake bad
  · have regs : s.RegsOnly ((s.doneCleared v).wrAll (resumeWrites v)) := (s.doneCleared_regsOnly v).wrAll _
    have field {f : Fld} {x : Nat} := State.resumed_rd (s := s) (v := v) (f := f) (x := x)
    exact ⟨field (getBits_lt v 0 1) (by decide) (by simp [resumeWrites]), field (getBits_lt v 1 2) (by decide) (by simp [resumeWrites]),
      field (getBits_lt v 3 4) (by decide) (by simp [resumeWrites]), field (getBits_lt v 7 6) (by decide) (by simp [resumeWrites]),
      field (getBits_lt v 14 38) (by decide) (by simp [resumeWrites]), s.resumed_done v, rfl, fun o ne => s.resumed_reg_ne v ne,
      regs.modMf_frame _⟩
  · refine ⟨?_, rfl, fun o ne => ?_, ?_⟩
    · rw [State.modMf_on, State.on_wr_one _ _ rfl (by decide)]
    · rw [State.modMf_reg, State.reg_wr_ne _ _ _ ne]
    · exact ((State.RegsOnly.refl s).wr _ _).modMf_frame _
  · refine ⟨exec_apertureRead_line awake named, fun here idle untouched readable free =>
      exec_apertureWrite_line awake named here idle untouched readable free d md, fun ne => exec_apertureWrite_elsewhere awake named ne d md⟩
  · have none_ := State.apertureIndex_none (a := a) bad
    exact ⟨exec_apertureRead_none awake none_, exec_apertureWrite_none awake none_ d md⟩
  · exact ⟨if_pos hm, if_pos hm⟩

end Sys2Proof.Machine
end

section
/-! PROOFS. The statement of chapter 7 on trackers and the wait queue: how a tracker ends (07 R222, R227), how requests that wait for a
way or for the dirty budget go on (04 R114; 05 R154, R160), and how they become aged (07 R228, R236). -/

namespace Sys2Proof.Machine

/-! ### Nothing goes on where nothing waits -/

/-- While a tracker holds the line of every request that waits at a slice, none of them allocates. -/
theorem State.drainWait_of_held {s : State} {p : PhysSlice} (held : ∀ w ∈ (s.sl p).waitq, (s.sl p).held w.req.line = true) :
    s.drainWait p = s := by
  have ready : s.ready p = [] := List.filter_eq_nil_iff.mpr fun w mem => by simp [State.lineFree, held w mem]
  have pick : s.pick p = none := by simp [State.pick, ready]
  unfold State.drainWait
  cases (s.sl p).waitq.length with
  | zero => rfl
  | succ n => rw [State.drainWaitq, pick]

theorem State.passOn_nil {s : State} {p : PhysSlice} (empty : (s.sl p).waitq = []) (line : Nat) : s.passOn p line = s := by
  simp only [State.passOn, empty, List.find?_nil]
  exact State.drainWait_of_held (by simp [empty])

/-- The oldest request for a line that becomes free takes the tracker, where its own limits allow (07 R227). -/
theorem State.passOn_oldest {s : State} {p : PhysSlice} {line : Nat} {w : Waiting}
    (oldest : ((s.sl p).waitq.find? fun v => v.req.line == line) = some w) (free : s.lineFree p line = true)
    (limit : s.classLimit p w.req = true) :
    s.passOn p line = ((s.modSl p fun x => { x with waitq := x.waitq.erase w }).startTracker p w.req true).drainWait p := by
  simp [State.passOn, oldest, free, limit]

theorem State.drainIngress_nil {s : State} {p : PhysSlice} (empty : (s.sl p).ingress = []) : s.drainIngress p = s := by
  simp [State.drainIngress, empty]

theorem State.pumpHost_nil {s : State} {h : HostId} (park : (s.port h).park = []) (ingress : (s.port h).ingress = []) :
    s.pumpHost h = s := by
  simp [State.pumpHost, park, ingress]

theorem State.pumpIa_nil {s : State} (park : s.iaPark = []) (ingress : s.iaIngress = []) : s.pumpIa = s := by
  simp [State.pumpIa, park, ingress]

theorem State.StopsEmpty.pump {s : State} (empty : s.StopsEmpty) : s.pump = s := by
  obtain ⟨park, ingress, ports, -⟩ := empty
  have hosts (l : List HostId) : l.foldl State.pumpHost s = s :=
    List.foldl_fixed' (fun h => State.pumpHost_nil (ports h).1 (ports h).2) l
  rw [State.pump, State.byStop, hosts, State.pumpIa_nil park ingress, hosts]

theorem State.StopsEmpty.ingress {s : State} (empty : s.StopsEmpty) (p : PhysSlice) : (s.sl p).ingress = [] := empty.2.2.2 p

theorem State.StopsEmpty.count {s : State} (empty : s.StopsEmpty) (u e k : Nat) : (s.count u e k).StopsEmpty := empty

theorem State.StopsEmpty.modSl {s : State} (empty : s.StopsEmpty) {p : PhysSlice} {f : Slice → Slice}
    (kept : (f (s.sl p)).ingress = (s.sl p).ingress) : (s.modSl p f).StopsEmpty := by
  obtain ⟨park, ingress, ports, slices⟩ := empty
  refine ⟨park, ingress, ports, fun q => ?_⟩
  by_cases here : q = p
  · rw [here, State.sl_modSl_same, kept, slices p]
  · rw [State.sl_modSl_ne _ _ here, slices q]

/-! ### A complete tracker leaves its slice (07 R222, R227) -/

/-- The state a complete tracker leaves, before anything that waits goes on: a first pass without a replay is counted (15 R460). -/
def State.trackerGone (s : State) (p : PhysSlice) (n : Nat) (t : Tracker) : State :=
  (if t.classed then s else s.count (16 + p.val) 1).modSl p fun x => { x with trackers := x.trackers.filter fun u => u.id != n }

theorem State.trackerGone_waitq (s : State) (p : PhysSlice) (n : Nat) (t : Tracker) :
    ((s.trackerGone p n t).sl p).waitq = (s.sl p).waitq := by
  rw [State.trackerGone, State.sl_modSl_same]
  cases t.classed <;> rfl

theorem State.StopsEmpty.trackerGone {s : State} (empty : s.StopsEmpty) (p : PhysSlice) (n : Nat) (t : Tracker) :
    (s.trackerGone p n t).StopsEmpty := by
  have counted : (if t.classed then s else s.count (16 + p.val) 1).StopsEmpty := holds_of_ite empty (empty.count _ _ _)
  exact counted.modSl rfl

section TrackerFree

variable {s : State} {p : PhysSlice} {n : Nat} {t : Tracker} (found : s.trk p n = some t) (complete : t.complete = true)
include found complete

theorem State.freeTracker_complete : s.freeTracker p n = (s.trackerGone p n t).passOn p t.req.line := by
  rw [State.freeTracker, found]
  exact if_pos complete

/-- The tracker of a request, neither the sweeper's nor the urgent pass's, frees its line, and the stops go on. -/
theorem exec_trackerFree_complete (sweep : t.req.cls ≠ .sweep) (urgent : t.req.cls ≠ .urgent) :
    exec (.trackerFree p n) s = .next ((((s.trackerGone p n t).passOn p t.req.line).drainIngress p).pump) := by
  simp [exec, execTrackerFree, found, complete, sweep, urgent, State.freeTracker_complete found complete]

theorem exec_trackerFree_alone (sweep : t.req.cls ≠ .sweep) (urgent : t.req.cls ≠ .urgent) (stops : s.StopsEmpty)
    (empty : (s.sl p).waitq = []) : exec (.trackerFree p n) s = .next (s.trackerGone p n t) := by
  have gone := stops.trackerGone p n t
  rw [exec_trackerFree_complete found complete sweep urgent, State.passOn_nil ((s.trackerGone_waitq p n t).trans empty),
    State.drainIngress_nil (gone.ingress p), gone.pump]

end TrackerFree

/-! ### Requests that wait for a way or for the budget -/

section Retry

variable {s : State} {p : PhysSlice} {n : Nat} {t : Tracker} (found : s.trk p n = some t)
include found

theorem exec_filterWayRetry_found :
    exec (.filterWayRetry p n) s = .next (if t.toRecord then (s.replay p n).advance p n else s) := by
  simp only [exec, execFilterWayRetry, found]

theorem exec_hcWayRetry_found :
    exec (.hcWayRetry p n) s = .next
      (if t.phase = .hcWay then ((s.replay p n).modTrk p n fun t => { t with phase := .data }).advance p n else s) := by
  simp only [exec, execHcWayRetry, found]

end Retry

/-- The first request that waits for the budget goes on as one that has it, to its media read or to its merge (05 R160). -/
def State.budgetProceed (s : State) (p : PhysSlice) (m : Nat) (rest : List Nat) : State :=
  let u := ((s.replay p m).modSl p fun x => { x with budgetQ := rest }).modTrk p m fun t =>
    { t with budget := true, phase := if t.phase = .budget then .data else t.phase }
  (u.earlyRead p m).advance p m

theorem exec_budgetWaitProceed_cons {s : State} {p : PhysSlice} {m : Nat} {rest : List Nat} (first : (s.sl p).budgetQ = m :: rest) :
    exec (.budgetWaitProceed p) s = if s.atQuota p then .next s else .next (s.budgetProceed p m rest) := by
  simp only [exec, execBudgetWaitProceed, first]
  rfl

/-! ### Ageing (07 R228, R236) -/

/-- A request becomes aged, and is counted in AGED_COUNT and by the performance monitor. -/
def State.waitAged (s : State) (p : PhysSlice) (w : Waiting) : State :=
  ((s.modSl p fun x => { x with waitq := x.waitq.map fun v => if v = w then { v with aged := true } else v }).count (16 + p.val) 25).inc
    (SL_WAITQ_AGING.AGED_COUNT p.val)

theorem State.waitAged_agedCount (s : State) (p : PhysSlice) (w : Waiting) :
    (s.waitAged p w).rd (SL_WAITQ_AGING.AGED_COUNT p.val) =
      min (s.rd (SL_WAITQ_AGING.AGED_COUNT p.val) + 1) (2 ^ (SL_WAITQ_AGING.AGED_COUNT 0).w - 1) :=
  State.rd_inc_same _ _ _ (show 32 + 32 ≤ 64 by decide)

theorem State.waitAged_sl_ne (s : State) {p q : PhysSlice} (w : Waiting) (ne : q ≠ p) : (s.waitAged p w).sl q = s.sl q := by
  simp [State.waitAged, ne]

theorem State.waitAged_frame (s : State) (p : PhysSlice) (w : Waiting) :
    s.waitAged p w = { s with regs := (s.waitAged p w).regs, slices := (s.waitAged p w).slices, pmu := (s.waitAged p w).pmu } := rfl

section Ageing

variable {s : State} {p : PhysSlice} {w : Waiting} (alone : (s.sl p).waitq = [w])
include alone

theorem State.waitAged_sl : (s.waitAged p w).sl p = { s.sl p with waitq := [{ w with aged := true }] } := by
  simp [State.waitAged, alone]

/-- An aged request whose line is held still waits for that line. -/
theorem State.drainWait_waitAged (held : (s.sl p).held w.req.line = true) : (s.waitAged p w).drainWait p = s.waitAged p w := by
  refine State.drainWait_of_held fun v mem => ?_
  rw [State.waitAged_sl alone] at mem ⊢
  rw [List.mem_singleton.mp mem]
  exact held

theorem exec_requestAged_alone : exec (.requestAged p w.req.id) s =
    if w.aged = true ∨ s.rd (SL_WAITQ_AGING.AGE_US p.val) = 0 ∨ s.now < w.since + s.rd (SL_WAITQ_AGING.AGE_US p.val) then .next s
    else .next ((s.waitAged p w).drainWait p) := by
  have first : ((s.sl p).waitq.find? fun v => v.req.id == w.req.id) = some w := by simp [alone]
  simp only [exec, execRequestAged, first]
  rfl

end Ageing

/-! ### The statement (O16) -/

/-- Settles O16: each command by its equation; a request that becomes aged by what it leaves. -/
theorem trackersEndRetryAndAge : Obligations.TrackersEndRetryAndAge := by
  unfold Obligations.TrackersEndRetryAndAge
  refine ⟨fun s p n t w found complete sweep urgent => ⟨exec_trackerFree_alone found complete sweep urgent, fun oldest free limit => ?_⟩,
    fun s p n t found => ?_, fun s p m rest first => ?_, fun s p w alone held fresh => ⟨fun set waited => ?_, fun early => ?_⟩⟩
  · rw [exec_trackerFree_complete found complete sweep urgent,
      State.passOn_oldest ((congrArg _ (s.trackerGone_waitq p n t)).trans oldest) free limit]
    rfl
  · rw [exec_filterWayRetry_found found, exec_hcWayRetry_found found]
    exact ⟨fun yes => by rw [if_pos yes], fun no => by simp [no], fun yes => by rw [if_pos yes], fun no => by rw [if_neg no]⟩
  · rw [exec_budgetWaitProceed_cons first]
    exact ⟨fun full => if_pos full, fun below => if_neg (by simp [below])⟩
  · have ages : exec (.requestAged p w.req.id) s = .next (s.waitAged p w) := by
      rw [exec_requestAged_alone alone, if_neg (by simp [fresh, set, waited]), State.drainWait_waitAged alone held]
    exact ⟨_, ages, State.waitAged_sl alone, s.waitAged_agedCount p w, fun q => s.waitAged_sl_ne w, s.waitAged_frame p w⟩
  · rw [exec_requestAged_alone alone, if_pos (.inr early)]

end Sys2Proof.Machine
end

section
/-! PROOFS. The statements of chapter 8 on a control core's accesses (08 R265, R266, R271, R272, R274, R276,
R277): when it issues and when it waits, the exception it takes first, and its alignment faults. -/

namespace Sys2Proof.Machine

/-! ### A core comes to an access: it issues, waits, or takes an exception -/

/-- A command that is an access of a core is what that core comes to. -/
theorem exec_coreAccess {c : Instr} {k : LogicalCore} (h : coreAccessOf c = some k) (s : State) : exec c s = .next (s.coreAccess k c) := by
  unfold coreAccessOf at h
  split at h
  case h_1 st a n =>
    obtain ⟨⟨core, used⟩, named⟩ := Option.ite_none_right_eq_some.mp h
    obtain rfl := Option.some.inj named
    rw [exec_iaRd_core core, State.plainAccess_used used]
  case h_2 st a d be =>
    obtain ⟨⟨core, used⟩, named⟩ := Option.ite_none_right_eq_some.mp h
    obtain rfl := Option.some.inj named
    rw [exec_iaWr_core core, State.plainAccess_used used]
  case h_8 => cases h
  all_goals
    obtain rfl := Option.some.inj h
    rfl

/-- A core with one access in its queue, which has to wait, leaves it there. -/
theorem State.playAll_waits {s : State} {k : LogicalCore} {i : Instr} (one : (s.core k).queue = [i]) (free : (s.core k).acquire = none)
    (waits : (s.modCore k fun c => { c with queue := [] }).play k i = none) : State.playAll k 1 s = s := by
  simp only [playAll, one, free, waits, Option.isSome_none, Bool.false_eq_true, if_false]

/-- A ready core that comes to an access which has to wait holds it back. -/
theorem State.CoreReady.coreAccess_waits {s : State} {k : LogicalCore} {i : Instr} (ready : s.CoreReady k) (waits : s.play k i = none) :
    s.coreAccess k i = s.holding k i := by
  have own := s.holding_core_same k i
  have others : ∀ j, j ≠ k → ((s.holding k i).core j).queue = [] := fun j ne => (s.holding_core_ne ne i).symm ▸ ready.queues j
  have stays : State.playAll k 1 (s.holding k i) = s.holding k i :=
    playAll_waits (congrArg Core.queue own) ((congrArg Core.acquire own).trans ready.acquire) ((ready.holding_popped i).symm ▸ waits)
  rw [ready.coreAccess_eq, coresGo_from fun j lt => others j lt.ne, own, List.length_singleton, stays]
  exact foldl_playAll_idle fun j later => others j (of_decide_eq_true (List.mem_filter.mp later).2).ne'

section
variable {s u : State} {c : Instr} {k : LogicalCore} (access : coreAccessOf c = some k) (ready : s.CoreReady k)
include access ready

theorem exec_access_issues (issued : s.play k c = some u) : exec c s = .next (u.laterCores k) := by
  rw [exec_coreAccess access, ready.coreAccess_issues issued]

theorem exec_access_waits (waits : s.play k c = none) : exec c s = .next (s.holding k c) := by
  rw [exec_coreAccess access, ready.coreAccess_waits waits]

/-- An access that leaves every core's queue as it was is all that its command does. -/
theorem exec_access_alone (issued : s.play k c = some u) (queues : ∀ j, (u.core j).queue = (s.core j).queue) : exec c s = .next u := by
  rw [exec_access_issues access ready issued, State.laterCores_idle k fun j => (queues j).trans (ready.queues j)]

end

/-- Settles O18: an access that may issue issues, and one that may not is held back. -/
theorem coreIssuesItsAccess : Obligations.CoreIssuesItsAccess :=
  fun _ _ _ access ready => ⟨fun _ => exec_access_issues access ready, exec_access_waits access ready⟩

/-! ### Reservations end (08 R272, R274) -/

@[simp] theorem State.modCore_sramReserved (s : State) (k : LogicalCore) (f : Core → Core) :
    (s.modCore k f).sramReserved = s.sramReserved := rfl

@[simp] theorem State.modCore_mode (s : State) (k : LogicalCore) (f : Core → Core) : (s.modCore k f).mode = s.mode := rfl

@[simp] theorem State.modCore_sl (s : State) (k : LogicalCore) (f : Core → Core) (p : PhysSlice) : (s.modCore k f).sl p = s.sl p := rfl

theorem State.dropReservation_frame (s : State) (k : LogicalCore) :
    s.dropReservation k =
      { s with slices := (s.dropReservation k).slices, sramReserved := s.sramReserved.put 0 k.val 0 } := by
  unfold dropReservation
  extract_lets slices
  have frame : slices = { s with slices := slices.slices } := foldl_modSl_frame _ _ _
  clear_value slices
  rw [frame]

/-- No home holds a reservation of the core any more. -/
theorem State.dropReservation_reserved (s : State) (k : LogicalCore) (p : PhysSlice) :
    ((s.dropReservation k).sl p).reserved.look 0 k.val = 0 := by
  unfold dropReservation
  extract_lets slices
  have slice : slices.sl p = { s.sl p with reserved := (s.sl p).reserved.put 0 k.val 0 } :=
    (sl_foldl_modSl _ p allSlices s allSlices_nodup).trans (if_pos (List.mem_finRange p))
  clear_value slices
  exact (congrArg (fun x : Slice => x.reserved.look 0 k.val) slice).trans (Tbl.look_put_same 0 k.val 0 (s.sl p).reserved)

/-- Nor does the data SRAM hold one. -/
theorem State.dropReservation_sramReserved (s : State) (k : LogicalCore) :
    (s.dropReservation k).sramReserved = s.sramReserved.put 0 k.val 0 := by
  rw [dropReservation_frame]

theorem State.dropReservation_core (s : State) (k j : LogicalCore) : (s.dropReservation k).core j = s.core j := by
  have frame := s.dropReservation_frame k
  generalize s.dropReservation k = t at frame ⊢
  rw [frame]
  rfl

theorem State.dropReservation_mode (s : State) (k : LogicalCore) : (s.dropReservation k).mode = s.mode := by
  have frame := s.dropReservation_frame k
  generalize s.dropReservation k = t at frame ⊢
  rw [frame]
  rfl

/-! ### Ordering: what waits for older accesses (08 R265, R276) -/

section
variable {s : State} {k : LogicalCore} {a : Word} {n : Nat}

/-- A core has a load or a store outstanding. -/
theorem not_drained (out : (s.core k).loads ≠ [] ∨ (s.core k).stores ≠ []) :
    ((s.core k).loads.isEmpty && (s.core k).stores.isEmpty) = false := by
  simpa [← not_and_or] using out

theorem play_completionBarrier_waits (out : (s.core k).loads ≠ [] ∨ (s.core k).stores ≠ []) :
    s.play k (.completionBarrier k) = none := by
  simp [State.play, not_drained out]

theorem play_completionBarrier_drained (loads : (s.core k).loads = []) (stores : (s.core k).stores = []) :
    s.play k (.completionBarrier k) = some s := by
  simp [State.play, loads, stores]

variable (marked : aligned a n = true)
include marked

theorem play_releaseStore_waits (d : Native) (out : (s.core k).loads ≠ [] ∨ (s.core k).stores ≠ []) :
    s.play k (.releaseStore k a n d) = none := by
  simp [State.play, marked, not_drained out]

theorem play_conditionalStore_waits (d : Native) (out : (s.core k).loads ≠ [] ∨ (s.core k).stores ≠ []) :
    s.play k (.conditionalStore k a n d true) = none := by
  simp [State.play, marked, not_drained out]

theorem play_acquireLoad_waits (out : (s.core k).releases ≠ []) : s.play k (.acquireLoad k a n) = none := by
  simp [State.play, marked, out]

theorem play_reservedLoad_waits (out : (s.core k).releases ≠ []) : s.play k (.reservedLoad k a n true) = none := by
  simp [State.play, marked, out]

end

/-! ### The imprecise exception that is pending (08 R277) -/

/-- A core that has taken its imprecise exception of an address. -/
def Core.tookImprecise (c : Core) (e : Word) : Core :=
  { c with busErrAddr := none, busErrCount := 0, imprecise := c.imprecise + 1, impreciseAddr := e, impreciseStores := c.busErrCount }

section
variable {s : State} {k : LogicalCore}

theorem takeImprecise_none (none : (s.core k).busErrAddr = none) : s.takeImprecise k = s := by
  simp only [State.takeImprecise, none]

variable {e : Word} (pending : (s.core k).busErrAddr = some e)
include pending

theorem takeImprecise_some : s.takeImprecise k = (s.dropReservation k).modCore k (Core.tookImprecise · e) := by
  simp only [State.takeImprecise, pending]
  rfl

theorem takeImprecise_core : (s.takeImprecise k).core k = (s.core k).tookImprecise e := by
  rw [takeImprecise_some pending, State.core_modCore_same, State.dropReservation_core]

theorem takeImprecise_mode : (s.takeImprecise k).mode = s.mode := by
  rw [takeImprecise_some pending, State.modCore_mode, State.dropReservation_mode]

/-- A core that runs takes the exception, and then comes to its access. -/
theorem coreAccess_after_exception (hm : s.mode ≠ 0) (halted : (s.core k).halted = false) (husked : (s.core k).husked = false)
    (i : Instr) : s.coreAccess k i = (s.takeImprecise k).coreAccess k i := by
  have taken := takeImprecise_core pending
  have once : (s.takeImprecise k).takeImprecise k = s.takeImprecise k := takeImprecise_none (congrArg Core.busErrAddr taken)
  have runs : (s.takeImprecise k).mode ≠ 0 ∧ ((s.takeImprecise k).core k).halted = false ∧ ((s.takeImprecise k).core k).husked = false :=
    ⟨takeImprecise_mode pending ▸ hm, (congrArg Core.halted taken).trans halted, (congrArg Core.husked taken).trans husked⟩
  rw [State.coreAccess, State.coreAccess, once, if_neg (by simp [hm, halted, husked]), if_neg (by simp [runs])]

end

/-- A core that is halted or husked executes nothing. -/
theorem coreAccess_stopped {s : State} {k : LogicalCore} (stopped : (s.core k).halted = true ∨ (s.core k).husked = true) (i : Instr) :
    s.coreAccess k i = s := if_pos (.inr stopped)

/-- Settles O19: what waits is held back; a core that does not run stays; a pending exception is taken first. -/
theorem orderedAccessesWaitForOlderOnes : Obligations.OrderedAccessesWaitForOlderOnes := by
  unfold Obligations.OrderedAccessesWaitForOlderOnes
  refine fun s k a n d => ⟨fun ready => ⟨fun out => ⟨?_, fun marked => ⟨?_, ?_⟩⟩, fun loads stores => ?_, fun out marked => ⟨?_, ?_⟩⟩,
    fun c access stopped => ?_, fun e pending hm halted husked => ?_⟩
  · exact exec_access_waits rfl ready (play_completionBarrier_waits out)
  · exact exec_access_waits rfl ready (play_releaseStore_waits marked d out)
  · exact exec_access_waits rfl ready (play_conditionalStore_waits marked d out)
  · exact exec_access_alone rfl ready (play_completionBarrier_drained loads stores) fun _ => rfl
  · exact exec_access_waits rfl ready (play_acquireLoad_waits marked out)
  · exact exec_access_waits rfl ready (play_reservedLoad_waits marked out)
  · rw [exec_coreAccess access, coreAccess_stopped stopped]
  · have taken := takeImprecise_core pending
    refine ⟨congrArg Core.busErrAddr taken, congrArg Core.busErrCount taken, congrArg Core.imprecise taken,
      congrArg Core.impreciseAddr taken, congrArg Core.impreciseStores taken, ?_, fun p => ?_, fun c access => ?_⟩
    · rw [takeImprecise_some pending, State.modCore_sramReserved, State.dropReservation_sramReserved, Tbl.look_put_same]
    · rw [takeImprecise_some pending, State.modCore_sl, State.dropReservation_reserved]
    · rw [exec_coreAccess access, exec_coreAccess access, coreAccess_after_exception pending hm halted husked]

/-! ### Alignment faults (08 R271) -/

theorem not_aligned {a : Word} {n : Nat} (bad : n ≠ 4 ∧ n ≠ 8 ∧ n ≠ 16 ∨ a.toNat % n ≠ 0) : aligned a n = false := by
  simp only [aligned, Bool.and_eq_false_iff, Bool.or_eq_false_iff, beq_eq_false_iff_ne, and_assoc]
  exact bad

/-- A marked access that is not aligned is an alignment fault, whatever else is outstanding. -/
theorem play_misaligned {s : State} {k : LogicalCore} {a : Word} {n : Nat} {d : Native} {b : Bool} {c : Instr} (bad : aligned a n = false)
    (marked : c = .acquireLoad k a n ∨ c = .releaseStore k a n d ∨ c = .reservedLoad k a n b ∨ c = .conditionalStore k a n d b) :
    s.play k c = some (s.alignFault k) := by
  rcases marked with rfl | rfl | rfl | rfl <;> simp only [State.play, bad, Bool.not_false, if_true]

theorem alignFault_core_same (s : State) (k : LogicalCore) :
    (s.alignFault k).core k = { s.core k with alignFaults := (s.core k).alignFaults + 1 } := by
  rw [State.alignFault, State.core_modCore_same, State.dropReservation_core]

theorem alignFault_core_ne (s : State) {j k : LogicalCore} (ne : j ≠ k) : (s.alignFault k).core j = s.core j := by
  rw [State.alignFault, State.core_modCore_ne _ ne, State.dropReservation_core]

theorem alignFault_queue (s : State) (k j : LogicalCore) : ((s.alignFault k).core j).queue = (s.core j).queue := by
  by_cases e : j = k
  · rw [e, alignFault_core_same]
  · rw [alignFault_core_ne s e]

theorem alignFault_frame (s : State) (k : LogicalCore) :
    s.alignFault k = { s with
      cores := (s.alignFault k).cores, slices := (s.alignFault k).slices, sramReserved := (s.alignFault k).sramReserved } := by
  have frame := s.dropReservation_frame k
  unfold State.alignFault
  generalize s.dropReservation k = t at frame ⊢
  rw [frame]
  rfl

/-- Settles O20: the fault is the core's, and its reservations end. -/
theorem misalignedAccessesFault : Obligations.MisalignedAccessesFault := by
  unfold Obligations.MisalignedAccessesFault
  refine fun s k a n d b c ready bad marked =>
    ⟨s.alignFault k, ?_, alignFault_core_same s k, fun j => alignFault_core_ne s, ?_, fun p => ?_, ?_⟩
  · have access : coreAccessOf c = some k := by rcases marked with rfl | rfl | rfl | rfl <;> rfl
    exact exec_access_alone access ready (play_misaligned (not_aligned bad) marked) (alignFault_queue s k)
  · rw [State.alignFault, State.modCore_sramReserved, State.dropReservation_sramReserved, Tbl.look_put_same]
  · rw [State.alignFault, State.modCore_sl, State.dropReservation_reserved]
  · exact alignFault_frame s k

end Sys2Proof.Machine
end

section
/-! PROOFS. The statement of chapter 8 on the steps of DRAIN (08 R282 to R284, Table 8.6; 09 R294). -/

namespace Sys2Proof.Machine

section
variable {s : State}

/-- A warning in SERVE, DORMANT or REPAIR enters DRAIN (09 R294). -/
theorem exec_pfwNAssert_drains (por : s.aon.porDone = true) (hm : s.mode = 2 ∨ s.mode = 3 ∨ s.mode = 5) :
    exec .pfwNAssert s = .next ((s.modAon fun a => { a with pfwLow := true, highSince := none }).enterDrain 3 0) := by
  rcases hm with hm | hm | hm <;> simp [exec, execPfwNAssert, por, hm]

variable (hm : s.mode = 4)
include hm

theorem exec_drainHostPhaseEnd_closes (flush : s.aon.drain = some .flush) (ended : s.hostPhaseOver = true) :
    exec .drainHostPhaseEnd s = .next ((s.acceptMode 0).closeHosts).drainStep := if_pos ⟨hm, flush, ended⟩

/-- A snoop that is still out 20 us after step 3 began is resolved as at a departure. -/
theorem exec_drainSnoopTimeout_late {h : HostId} {b : BitVec 8} {e : SnoopEntry} (closed : s.aon.drain ≠ some .flush)
    (late : s.aon.closeAt + 20 ≤ s.now) (out : (s.port h).table.look none b.toNat = some e) :
    exec (.drainSnoopTimeout h b) s = .next
      (((e.open_.foldl (fun s l => s.resolveSnoop e.req.owner h l) ((s.freeSnoop h b.toNat).modPort h fun x =>
        { x with drained := x.drained ++ [b.toNat] })).moveOwner e.req.owner).drainStep) := by
  have due : ¬(s.mode ≠ 4 ∨ s.aon.drain = some .flush ∨ s.now < s.aon.closeAt + 20) := by simp [hm, closed, late]
  simp only [exec, execDrainSnoopTimeout, if_neg due, out]

theorem exec_cipherFlushDone_step4 (step : s.aon.drain = some .cipher) :
    exec .cipherFlushDone s = .next
      (({ s with store := { s.store with programs := s.store.programs ++ [StoreWrite.repair .close] } }.modAon fun a =>
        { a with drain := some .record }).emit .storeProgram) := by
  have same : s.drainStep = s := if_neg (by simp [step])
  simp only [exec, execCipherFlushDone, same, if_pos (And.intro hm step)]

end

/-- Settles O36: each step by its command's equation. -/
theorem drainRunsItsSteps : Obligations.DrainRunsItsSteps := by
  unfold Obligations.DrainRunsItsSteps
  exact fun s h b e => ⟨exec_pfwNAssert_drains, exec_drainHostPhaseEnd_closes, fun hm => exec_drainSnoopTimeout_late hm,
    fun hm step => ⟨_, exec_cipherFlushDone_step4 hm step, rfl, rfl, rfl, rfl⟩⟩

end Sys2Proof.Machine
end

section
/-! PROOFS. The statements of chapter 8 on the data SRAM (08 R265, R271, R272, R274, R275; 10 R314 to R318): a sound read, a reserved load,
and what a store writes. -/

namespace Sys2Proof.Machine

/-! ### Valid bits (10 R317, R318) -/

/-- The mask of one array word has its bit alone. -/
theorem oneBit_getLsbD {w : Nat} (hw : w < 2048) (i : Nat) : (BitVec.ofNat 2048 ((2 ^ 1 - 1) * 2 ^ w)).getLsbD i = decide (i = w) := by
  rw [BitVec.getLsbD_ofNat, show (2 ^ 1 - 1) * 2 ^ w = 2 ^ w by omega, Nat.testBit_two_pow, ← Bool.decide_and]
  exact decide_eq_decide.mpr (by omega)

/-- The bit of one array word set or cleared in a copy. -/
def putValid (v : BitVec 2048) (w : Nat) (b : Bool) : BitVec 2048 :=
  let mask : BitVec 2048 := BitVec.ofNat 2048 ((2 ^ 1 - 1) * 2 ^ w)
  if b then v ||| mask else v &&& ~~~mask

theorem putValid_getLsbD (v : BitVec 2048) {w : Nat} (hw : w < 2048) (b : Bool) (i : Nat) :
    (putValid v w b).getLsbD i = if i = w then b else v.getLsbD i := by
  have bit := oneBit_getLsbD hw i
  unfold putValid
  generalize BitVec.ofNat 2048 ((2 ^ 1 - 1) * 2 ^ w) = mask at bit ⊢
  by_cases e : i = w
  · subst e
    cases b <;> simp_all
  · cases b
    · by_cases hi : i < 2048
      · simp_all
      · simp [e, BitVec.getLsbD_of_ge _ _ (Nat.not_lt.mp hi)]
    · simp [bit, e]

/-- A array word written: its bit in each copy of its array's valid bits, and no other bit. -/
theorem State.validCopy_setValid (s : State) {m w k : Nat} (has : m < 33) (hw : w < 2048) (hk : k < 3) (b : Bool) (m' w' : Nat) :
    ((s.setValid m w 1 b).validCopy m' k).getLsbD w' = if m' = m ∧ w' = w then b else (s.validCopy m' k).getLsbD w' := by
  have table : (s.setValid m w 1 b).valid = [0, 1, 2].foldl (fun t j =>
      t.put 0#2048 (m * 3 + j) (putValid (t.look 0#2048 (m * 3 + j)) w b)) s.valid := by
    rw [setValid, if_neg (by omega)]
    rfl
  simp only [validCopy, table, List.foldl_cons, List.foldl_nil]
  by_cases em : m' = m
  · subst em
    rcases (by omega : k = 0 ∨ k = 1 ∨ k = 2) with rfl | rfl | rfl <;> simp [putValid_getLsbD _ hw]
  · have apart : ∀ j < 3, m' * 3 + k ≠ m * 3 + j := fun j hj => by omega
    rw [Tbl.look_put_ne _ _ _ _ (apart 2 (by decide)), Tbl.look_put_ne _ _ _ _ (apart 1 (by decide)),
      Tbl.look_put_ne _ _ _ _ (apart 0 (by decide)), if_neg fun h => em h.1]

/-- Whether a array word is valid is the majority of its three bits. -/
theorem State.wordValid_eq (s : State) (m w : Nat) : s.wordValid m w = (decide (33 ≤ m) ||
    ((s.validCopy m 0).getLsbD w && (s.validCopy m 1).getLsbD w || (s.validCopy m 0).getLsbD w && (s.validCopy m 2).getLsbD w ||
      (s.validCopy m 1).getLsbD w && (s.validCopy m 2).getLsbD w)) := by
  simp [wordValid, validBits]

theorem State.wordValid_setValid (s : State) {m w : Nat} (has : m < 33) (hw : w < 2048) (b : Bool) (m' w' : Nat) :
    (s.setValid m w 1 b).wordValid m' w' = if m' = m ∧ w' = w then b else s.wordValid m' w' := by
  simp only [wordValid_eq, s.validCopy_setValid has hw (k := 0) (by decide), s.validCopy_setValid has hw (k := 1) (by decide),
    s.validCopy_setValid has hw (k := 2) (by decide)]
  split
  case isTrue e => simp [e.1, Nat.not_le.mpr has]
  case isFalse => rfl

/-- The three copies of the valid bit of a array word are alike. -/
def State.copiesAgree (s : State) (m w : Nat) : Prop := 33 ≤ m ∨ ∀ k < 3, (s.validCopy m k).getLsbD w = s.wordValid m w

/-- Where the copies are alike a read of the valid bit changes nothing (10 R317). -/
theorem State.copiesAgree.readValid {s : State} {m w : Nat} (agree : s.copiesAgree m w) : s.readValid m w = (s, s.wordValid m w) := by
  refine if_pos (agree.imp_right fun bits => ?_)
  simp [bits]

/-- A read of the valid bit that changes nothing has met copies that are alike: where they are not it rewrites them (10 R317). -/
theorem State.copiesAgree_of_readValid {s : State} {m w : Nat} (hw : w < 2048) (still : (s.readValid m w).1 = s) : s.copiesAgree m w := by
  by_contra apart
  obtain ⟨has, bits⟩ := not_or.mp apart
  have rewritten : (s.readValid m w).1 = (s.setValid m w 1 (s.wordValid m w)).devFinding m w false .corrected := by
    refine congrArg Prod.fst (if_neg fun h => apart (h.imp_right fun same k hk => ?_))
    obtain ⟨zero, one, two⟩ := same
    rcases (by omega : k = 0 ∨ k = 1 ∨ k = 2) with rfl | rfl | rfl
    · exact beq_iff_eq.mp zero
    · exact beq_iff_eq.mp one
    · exact beq_iff_eq.mp two
  have source : deviceSource m < 96 := by unfold deviceSource; split <;> omega
  have valid : s.valid = (s.setValid m w 1 (s.wordValid m w)).valid :=
    calc s.valid
      _ = (s.readValid m w).1.valid := congrArg State.valid still.symm
      _ = _ := congrArg State.valid rewritten
      _ = _ := congrArg State.valid ((FaultWork.refl _).minor (deviceSource m) _ source).rest
  refine bits fun k hk => ?_
  have copy : s.validCopy m k = (s.setValid m w 1 (s.wordValid m w)).validCopy m k := congrArg (Tbl.look 0#2048 (m * 3 + k)) valid
  rw [copy, s.validCopy_setValid (Nat.not_le.mp has) hw hk, if_pos ⟨rfl, rfl⟩]

/-- Copies of valid bits that were alike are alike after a array word is written. -/
theorem State.copiesAgree.setValid {s : State} {m' w' : Nat} (agree : s.copiesAgree m' w') {m w : Nat} (has : m < 33) (hw : w < 2048)
    (b : Bool) : (s.setValid m w 1 b).copiesAgree m' w' := by
  refine agree.imp_right fun bits k hk => ?_
  rw [s.validCopy_setValid has hw hk, s.wordValid_setValid has hw, bits k hk]

/-! ### Sound bytes of the data SRAM -/

/-- The number of the array of a code word of the data SRAM, counted in code words from its start. -/
def dataMacro (k : Nat) : Nat := 16 + 8 * k / 32768
/-- Its word there. -/
def dataWord (k : Nat) : Nat := 8 * k / 16 % 2048
/-- Whether it is the upper half. -/
def dataUpper (k : Nat) : Bool := 8 * k / 8 % 2 == 1

theorem codeWordOf_data (k : Nat) : codeWordOf .data (8 * k) = some (dataMacro k, dataWord k, dataUpper k) := rfl

theorem dataWord_lt (k : Nat) : dataWord k < 2048 := Nat.mod_lt _ (by decide)

/-- Sound bytes are those whose valid bits agree and whose written words hold no error. -/
theorem State.dataGood_iff (s : State) (o n : Nat) : s.dataGood o n ↔ ∀ k ∈ halvesOf o n, s.copiesAgree (dataMacro k) (dataWord k) ∧
    (s.wordValid (dataMacro k) (dataWord k) = true → s.devStored (dataMacro k) (dataWord k) (dataUpper k) = .good) := by
  constructor
  · intro sound k hk
    obtain ⟨still, good⟩ := sound k hk _ _ _ (codeWordOf_data k)
    exact ⟨copiesAgree_of_readValid (dataWord_lt k) (congrArg Prod.fst still), good⟩
  · intro sound k hk m w up place
    cases place
    obtain ⟨agree, good⟩ := sound k hk
    exact ⟨agree.readValid, good⟩

/-- Soundness is about the valid bits, the stored errors and the remap table alone. -/
theorem State.dataGood.of_same {s t : State} {o n : Nat} (sound : s.dataGood o n) (valid : t.valid = s.valid)
    (errors : t.devErrors = s.devErrors) (remap : t.devRemap = s.devRemap) : t.dataGood o n := by
  rw [State.dataGood_iff] at sound ⊢
  simpa only [State.copiesAgree, State.wordValid, State.validBits, State.validCopy, State.devStored, State.devFound, State.devKey, valid,
    errors, remap] using sound

/-! ### The bytes of the data SRAM -/

theorem State.ctrlData_data (s : State) (b : Nat) :
    s.ctrlData .data b = if s.wordValid (dataMacro (b / 8)) (dataWord (b / 8)) then Sram.look b s.sram else 0#8 := by
  have arrayOf : dataMacro (b / 8) = 16 + b / 32768 := by unfold dataMacro; omega
  have wordOf : dataWord (b / 8) = b / 16 % 2048 := by unfold dataWord; omega
  rw [arrayOf, wordOf]
  rfl

/-- Two code words are of one array word where they are its halves. -/
theorem same_macroWord (j k : Nat) : dataMacro j = dataMacro k ∧ dataWord j = dataWord k ↔ j / 2 = k / 2 := by
  unfold dataMacro dataWord
  omega

theorem look_foldl_put (b a : Nat) : ∀ (bs : List Byte) (i : Nat) (m : List Host.Cell),
    Sram.look b ((bs.zipIdx i).foldl (fun m e => Sram.put (a + e.2) e.1 m) m) =
      if a + i ≤ b ∧ b < a + i + bs.length then bs.getD (b - (a + i)) 0#8 else Sram.look b m
  | [], i, m => by
    rw [if_neg fun h => Nat.not_lt.mpr h.1 h.2]
    rfl
  | x :: bs, i, m => by
    rw [List.zipIdx_cons, List.foldl_cons, look_foldl_put b a bs (i + 1), List.length_cons]
    by_cases first : b = a + i
    · rw [if_neg (by omega), if_pos (by omega), first, Nat.sub_self, Sram.look_put_same]
      rfl
    · by_cases later : a + (i + 1) ≤ b ∧ b < a + (i + 1) + bs.length
      · rw [if_pos later, if_pos (by omega), show b - (a + i) = b - (a + (i + 1)) + 1 by omega]
        rfl
      · rw [if_neg later, if_neg (by omega), Sram.look_put_ne _ _ first]

/-- A byte of the control SRAM after bytes are written there. -/
theorem State.look_sramWrite (s : State) (a : Nat) (bs : List Byte) (b : Nat) :
    Sram.look b (s.sramWrite a bs).sram = if a ≤ b ∧ b < a + bs.length then bs.getD (b - a) 0#8 else Sram.look b s.sram :=
  look_foldl_put b a bs 0 s.sram

/-- Bytes written there change nothing else. -/
theorem State.sramWrite_eq (s : State) (a : Nat) (bs : List Byte) :
    ∃ m, s.sramWrite a bs = { s with sram := m } ∧
      ∀ b, Sram.look b m = if a ≤ b ∧ b < a + bs.length then bs.getD (b - a) 0#8 else Sram.look b s.sram :=
  ⟨_, rfl, s.look_sramWrite a bs⟩

/-- The sixteen bytes of a array word zeroed. -/
def State.zeroWord (s : State) (j : Nat) : State := s.sramWrite (j * 16) (List.replicate 16 0#8)

theorem State.zeroWord_eq (s : State) (j : Nat) :
    ∃ m, s.zeroWord j = { s with sram := m } ∧ ∀ b, Sram.look b m = if b / 16 = j then 0#8 else Sram.look b s.sram := by
  obtain ⟨m, written, byte⟩ := s.sramWrite_eq (j * 16) (List.replicate 16 0#8)
  refine ⟨m, written, fun b => ?_⟩
  rw [byte, List.length_replicate]
  by_cases e : b / 16 = j
  · rw [if_pos (by omega), if_pos e, List.getD_replicate _ (by omega)]
  · rw [if_neg (by omega), if_neg e]

/-! ### Errors stored in code words (10 R313, R314) -/

/-- A code word written whole holds no error, and no other one has more than before. -/
theorem State.devStored_setDevError (s : State) (m w : Nat) (up : Bool) (m' w' : Nat) (up' : Bool) :
    (s.setDevError m w up WordError.none).devStored m' w' up' =
      if s.devKey m' w' up' = s.devKey m w up then .good else s.devStored m' w' up' := by
  show (s.setDevError m w up WordError.none).devFound (s.devKey m' w' up') = _
  split
  case isTrue e =>
    rw [e, devFound, setDevError, Tbl.look_put_same]
    rfl
  case isFalse ne =>
    rw [devFound, setDevError, Tbl.look_put_ne _ _ _ _ ne]
    rfl

theorem State.devStored_setDevError_good {s : State} {m' w' : Nat} {up' : Bool} (good : s.devStored m' w' up' = .good)
    (m w : Nat) (up : Bool) :
    (s.setDevError m w up WordError.none).devStored m' w' up' = .good := by
  rw [devStored_setDevError, good, ite_self]

theorem State.setValid_frame (s : State) (m w n : Nat) (b : Bool) :
    s.setValid m w n b = { s with valid := (s.setValid m w n b).valid } := by
  unfold setValid
  split <;> rfl

theorem State.devStored_setValid (s : State) (m w n : Nat) (b : Bool) (m' w' : Nat) (up' : Bool) :
    (s.setValid m w n b).devStored m' w' up' = s.devStored m' w' up' := by
  rw [setValid_frame]; rfl

theorem State.freshWord_frame (s : State) (m w : Nat) (b : Bool) :
    s.freshWord m w b =
      { s with valid := (s.setValid m w 1 b).valid, devErrors := (s.freshWord m w b).devErrors } := by
  rw [freshWord, setValid, setValid]
  split <;> rfl

theorem State.freshWord_sram (s : State) (m w : Nat) (b : Bool) : (s.freshWord m w b).sram = s.sram := by rw [freshWord_frame]

section
variable (s : State) {m w : Nat} (has : m < 33) (hw : w < 2048) (b : Bool)
include has hw

theorem State.wordValid_freshWord (m' w' : Nat) :
    (s.freshWord m w b).wordValid m' w' = if m' = m ∧ w' = w then b else s.wordValid m' w' := by
  rw [freshWord_frame]
  exact s.wordValid_setValid has hw b m' w'

theorem State.copiesAgree_freshWord {m' w' : Nat} (agree : s.copiesAgree m' w') : (s.freshWord m w b).copiesAgree m' w' := by
  rw [freshWord_frame]
  exact agree.setValid has hw b

end

/-- Both halves of a array word just written are sound. -/
theorem State.devStored_freshWord_same (s : State) (m w : Nat) (b up : Bool) : (s.freshWord m w b).devStored m w up = .good := by
  rw [freshWord, devStored_setValid]
  cases up
  · exact devStored_setDevError_good (by rw [devStored_setDevError, if_pos rfl]) m w true
  · rw [devStored_setDevError]; exact if_pos rfl

theorem State.devStored_freshWord_good {s : State} {m' w' : Nat} {up' : Bool} (good : s.devStored m' w' up' = .good)
    (m w : Nat) (b : Bool) :
    (s.freshWord m w b).devStored m' w' up' = .good := by
  rw [freshWord, devStored_setValid]
  exact devStored_setDevError_good (devStored_setDevError_good good m w false) m w true

/-! ### A store opens the code words it touches (10 R314, R318) -/

/-- What a store does to a sound code word of the data SRAM before its bytes are written: it leaves a written one without errors, and the
array word of one not yet written becomes valid, with every byte zero. -/
def State.openWord (s : State) (k : Nat) : State :=
  if s.wordValid (dataMacro k) (dataWord k) then s.setDevError (dataMacro k) (dataWord k) (dataUpper k) WordError.none
  else (s.zeroWord (8 * k / 16)).freshWord (dataMacro k) (dataWord k) true

/-- What a store of `n` bytes from an offset of the data SRAM does to any of its code words before its bytes are written. -/
def State.prepareWord (s : State) (o n k : Nat) : State :=
  let whole := decide (o ≤ 8 * k ∧ 8 * k + 8 ≤ o + n)
  let (s, valid) := s.readValid (dataMacro k) (dataWord k)
  if !valid then s.firstWrite .data (8 * k) (dataMacro k) (dataWord k)
  else if whole then s.setDevError (dataMacro k) (dataWord k) (dataUpper k) WordError.none
  else
    let f := s.devStored (dataMacro k) (dataWord k) (dataUpper k)
    (s.devFinding (dataMacro k) (dataWord k) (dataUpper k) f).setDevError (dataMacro k) (dataWord k) (dataUpper k)
      (if f = .uncorrectable then ⟨[], true, false, false⟩ else WordError.none)

/-- Bytes written one by one into the data SRAM. -/
theorem State.foldl_setCtrlByte_data (o : Nat) : ∀ (l : List (Byte × Nat)) (s : State),
    l.foldl (fun s e => s.setCtrlByte .data (o + e.2) e.1) s =
      { s with sram := l.foldl (fun m e => Sram.put (o + e.2) e.1 m) s.sram }
  | [], _ => rfl
  | e :: l, s => foldl_setCtrlByte_data o l (s.setCtrlByte .data (o + e.2) e.1)

/-- A array word written for the first time is zeroed first (10 R318). -/
theorem State.firstWrite_data (s : State) (o m w : Nat) :
    s.firstWrite .data o m w = (s.zeroWord (o / 16)).freshWord m w true :=
  congrArg (fun t : State => t.freshWord m w true) (foldl_setCtrlByte_data (o / 16 * 16) ((List.replicate 16 0#8).zipIdx) s)

/-- The reservations of the data SRAM on the granules of `n` bytes from an offset end (08 R274). -/
def State.endGranules (s : State) (o n : Nat) : State :=
  { s with sramReserved := s.sramReserved.filter fun e => decide (e.2 < o / 256 + 1 ∨ (o + (n - 1)) / 256 + 1 < e.2) }

/-- A store to the data SRAM: its code words are prepared, its bytes written, and the reservations on its granules end. -/
theorem State.ctrlWrite_data (s : State) (o : Nat) (bs : List Byte) :
    s.ctrlWrite .data o bs =
      (((halvesOf o bs.length).foldl (fun s k => s.prepareWord o bs.length k) s).sramWrite o bs).endGranules o bs.length := by
  unfold ctrlWrite
  extract_lets prepared stored
  have written : stored = prepared.sramWrite o bs := foldl_setCtrlByte_data o bs.zipIdx prepared
  exact (if_pos rfl).trans (congrArg (fun t : State => t.endGranules o bs.length) written)

theorem State.prepareWord_sound {s : State} {k : Nat} (agree : s.copiesAgree (dataMacro k) (dataWord k))
    (good : s.wordValid (dataMacro k) (dataWord k) = true → s.devStored (dataMacro k) (dataWord k) (dataUpper k) = .good) (o n : Nat) :
    s.prepareWord o n k = s.openWord k := by
  unfold prepareWord openWord
  rw [agree.readValid]
  cases valid : s.wordValid (dataMacro k) (dataWord k) with
  | false => exact s.firstWrite_data _ _ _
  | true =>
    simp only [good valid, devFinding, Bool.not_true, Bool.false_eq_true, reduceCtorEq, if_true, if_false, ite_self]

/-! ### What opening a code word keeps -/

/-- What opening code words of `n` sound bytes from an offset keeps: they stay sound, every byte of the data SRAM reads as before, and
nothing but it, its valid bits and its stored errors changes. -/
structure Opened (o n : Nat) (s t : State) : Prop where
  rest : t = { s with sram := t.sram, devErrors := t.devErrors, valid := t.valid }
  reads : ∀ b, t.ctrlData .data b = s.ctrlData .data b
  beyond : ∀ b, 0x7C000 ≤ b → Sram.look b t.sram = Sram.look b s.sram
  sound : t.dataGood o n
  kept : ∀ m w, s.wordValid m w = true → t.wordValid m w = true

theorem Opened.trans {o n : Nat} {s t u : State} (h : Opened o n s t) (k : Opened o n t u) : Opened o n s u where
  rest := by rw [k.rest, h.rest]
  reads b := (k.reads b).trans (h.reads b)
  beyond b far := (k.beyond b far).trans (h.beyond b far)
  sound := k.sound
  kept m w valid := k.kept m w (h.kept m w valid)

/-- The code words of bytes of the data SRAM lie in it. -/
theorem halvesOf_within {o n k : Nat} (within : o + n ≤ 0x7C000) (hk : k ∈ halvesOf o n) : 8 * k < 0x7C000 := by
  obtain ⟨i, hi, rfl⟩ := List.mem_map.mp hk
  have := List.mem_range.mp hi
  omega

section
variable {o n : Nat} {s : State} (sound : s.dataGood o n)
include sound

/-- A written code word that is opened loses its errors alone. -/
theorem opened_of_valid (m w : Nat) (up : Bool) : Opened o n s (s.setDevError m w up WordError.none) where
  rest := rfl
  reads _ := rfl
  beyond _ _ := rfl
  sound := by
    rw [State.dataGood_iff] at sound ⊢
    exact fun k hk => ⟨(sound k hk).1, fun valid => State.devStored_setDevError_good ((sound k hk).2 valid) m w up⟩
  kept _ _ := id

/-- A array word not yet written that is opened becomes valid and zero, as which it was read. -/
theorem opened_of_invalid {k : Nat} (inside : 8 * k < 0x7C000) (invalid : s.wordValid (dataMacro k) (dataWord k) = false) :
    Opened o n s ((s.zeroWord (8 * k / 16)).freshWord (dataMacro k) (dataWord k) true) := by
  have has : dataMacro k < 33 := by unfold dataMacro; omega
  have hw := dataWord_lt k
  obtain ⟨m, zeroed, byte⟩ := s.zeroWord_eq (8 * k / 16)
  rw [zeroed]
  have valid := State.wordValid_freshWord { s with sram := m } has hw true
  refine ⟨?_, fun b => ?_, fun b far => ?_, ?_, fun m' w' was => ?_⟩
  · rw [State.freshWord_frame]
  · rw [State.ctrlData_data, State.ctrlData_data, valid, State.freshWord_sram, byte]
    by_cases own : dataMacro (b / 8) = dataMacro k ∧ dataWord (b / 8) = dataWord k
    · have place : b / 16 = 8 * k / 16 := by have := (same_macroWord _ _).mp own; omega
      rw [if_pos own, if_pos place, own.1, own.2, invalid]
      rfl
    · have place : b / 16 ≠ 8 * k / 16 := fun e => own ((same_macroWord _ _).mpr (by omega))
      rw [if_neg own, if_neg place]
      rfl
  · rw [State.freshWord_sram, byte, if_neg (by omega)]
  · rw [State.dataGood_iff] at sound ⊢
    refine fun j hj => ⟨State.copiesAgree_freshWord { s with sram := m } has hw true (sound j hj).1, fun now => ?_⟩
    by_cases own : dataMacro j = dataMacro k ∧ dataWord j = dataWord k
    · rw [own.1, own.2]
      exact State.devStored_freshWord_same ..
    · rw [valid, if_neg own] at now
      exact State.devStored_freshWord_good (s := { s with sram := m }) ((sound j hj).2 now) _ _ true
  · rw [valid]
    exact ite_eq_left_iff.mpr fun _ => was

/-- A code word among sound bytes that is opened. -/
theorem opened_openWord {k : Nat} (inside : 8 * k < 0x7C000) :
    Opened o n s (s.openWord k) ∧ (s.openWord k).wordValid (dataMacro k) (dataWord k) = true := by
  unfold State.openWord
  cases valid : s.wordValid (dataMacro k) (dataWord k) with
  | true => exact ⟨opened_of_valid sound _ _ _, valid⟩
  | false =>
    have has : dataMacro k < 33 := by unfold dataMacro; omega
    exact ⟨opened_of_invalid sound inside valid,
      ((s.zeroWord _).wordValid_freshWord has (dataWord_lt k) true _ _).trans (if_pos ⟨rfl, rfl⟩)⟩

end

/-- A store prepares the code words of sound bytes one after another, and each of their array words is then valid. -/
theorem opened_foldl_prepareWord {o n : Nat} (within : o + n ≤ 0x7C000) : ∀ {l : List Nat} {s : State}, (∀ k ∈ l, k ∈ halvesOf o n) →
    s.dataGood o n → Opened o n s (l.foldl (fun s k => s.prepareWord o n k) s) ∧
      ∀ k ∈ l, (l.foldl (fun s k => s.prepareWord o n k) s).wordValid (dataMacro k) (dataWord k) = true
  | [], s, _, sound => ⟨⟨rfl, fun _ => rfl, fun _ _ => rfl, sound, fun _ _ => id⟩, nofun⟩
  | k :: l, s, touched, sound => by
    obtain ⟨agree, good⟩ := (s.dataGood_iff o n).mp sound k (touched k List.mem_cons_self)
    obtain ⟨first, firstValid⟩ := opened_openWord sound (halvesOf_within within (touched k List.mem_cons_self))
    obtain ⟨others, othersValid⟩ := opened_foldl_prepareWord within (fun j hj => touched j (List.mem_cons_of_mem k hj)) first.sound
    rw [List.foldl_cons, State.prepareWord_sound agree good]
    refine ⟨first.trans others, fun j hj => ?_⟩
    rcases List.mem_cons.mp hj with rfl | later
    · exact others.kept _ _ firstValid
    · exact othersValid j later

/-! ### What a store to sound bytes leaves -/

/-- A state after bytes have been stored from an offset of the data SRAM: they read back, every other byte of the data SRAM reads as
before, what lies behind it is as it was, and the reservations on their granules have ended. -/
structure DataStored (o : Nat) (bs : List Byte) (s t : State) : Prop where
  rest : t = { s with sram := t.sram, sramReserved := t.sramReserved, devErrors := t.devErrors, valid := t.valid }
  reads : ∀ b, b < 0x7C000 → t.ctrlData .data b = if o ≤ b ∧ b < o + bs.length then bs.getD (b - o) 0#8 else s.ctrlData .data b
  beyond : ∀ b, 0x7C000 ≤ b → Sram.look b t.sram = Sram.look b s.sram
  reserved : t.sramReserved = (s.endGranules o bs.length).sramReserved

theorem ctrlWrite_dataStored {s : State} {o : Nat} {bs : List Byte} (within : o + bs.length ≤ 0x7C000) (sound : s.dataGood o bs.length) :
    DataStored o bs s (s.ctrlWrite .data o bs) := by
  rw [State.ctrlWrite_data]
  obtain ⟨opened, valid⟩ := opened_foldl_prepareWord within (fun _ => id) sound
  generalize (halvesOf o bs.length).foldl (fun s k => s.prepareWord o bs.length k) s = t at opened valid
  refine ⟨?_, fun b _ => ?_, fun b far => ?_, ?_⟩
  · rw [opened.rest]; rfl
  · by_cases stored : o ≤ b ∧ b < o + bs.length
    · have touched : b / 8 ∈ halvesOf o bs.length := List.mem_map.mpr ⟨b / 8 - o / 8, List.mem_range.mpr (by omega), by omega⟩
      have written := valid _ touched
      rw [if_pos stored, State.ctrlData_data]
      exact (if_pos written).trans ((t.look_sramWrite o bs b).trans (if_pos stored))
    · rw [if_neg stored, ← opened.reads b, State.ctrlData_data, State.ctrlData_data]
      have byte : Sram.look b ((t.sramWrite o bs).endGranules o bs.length).sram = Sram.look b t.sram :=
        (t.look_sramWrite o bs b).trans (if_neg stored)
      rw [byte]
      rfl
  · exact (t.look_sramWrite o bs b).trans ((if_neg (by omega)).trans (opened.beyond b far))
  · rw [opened.rest]; rfl

/-! ### Aligned accesses to the data SRAM -/

/-- A choice that gives another space than its first did not take the first. -/
theorem space_of_later {c : Prop} [Decidable c] {sp other : Space} {i o : Nat} {y : Space × Nat}
    (h : (if c then (other, i) else y) = (sp, o)) (apart : other ≠ sp := by decide) : y = (sp, o) := by
  split at h
  · exact absurd (congrArg Prod.fst h) apart
  · exact h

/-- Where the data SRAM lies (12 Table 12.1). -/
theorem spaceOf_data {a o : Nat} (h : spaceOf a = (.data, o)) :
    0x8000_0000_0020_0000 ≤ a ∧ a < 0x8000_0000_0027_C000 ∧ o = a - 0x8000_0000_0020_0000 := by
  unfold spaceOf at h
  extract_lets b at_ at h
  have fourth := space_of_later (space_of_later (space_of_later h))
  by_cases here : at_ 0x200000 0x7C000 = true
  · rw [if_pos here] at fourth
    simp only [at_, b, decide_eq_true_eq, Prod.mk.injEq, true_and] at here fourth
    omega
  · rw [if_neg here] at fourth
    have hole := space_of_later (space_of_later (space_of_later (space_of_later (space_of_later (space_of_later fourth)))))
    cases congrArg Prod.fst hole

/-- An aligned access to the data SRAM lies in it, and in one granule. -/
theorem aligned_data {a : Word} {n o : Nat} (marked : aligned a n = true) (data : spaceOf a.toNat = (.data, o)) :
    o + n ≤ 0x7C000 ∧ (o + (n - 1)) / 256 = o / 256 := by
  obtain ⟨low, high, place⟩ := spaceOf_data data
  obtain ⟨size, whole⟩ : ((n = 4 ∨ n = 8) ∨ n = 16) ∧ a.toNat % n = 0 := by
    simpa only [aligned, Bool.and_eq_true, Bool.or_eq_true, beq_iff_eq] using marked
  rcases size with (rfl | rfl) | rfl <;> omega

/-- The bytes of a native word, as a store writes them. -/
theorem leBytes_getD (d : Native) {n i : Nat} (hi : i < n) : (leBytes n d.toNat).getD i 0#8 = d.extractLsb' (8 * i) 8 := by
  have byte : (leBytes n d.toNat).getD i 0#8 = BitVec.ofNat 8 (d.toNat / 256 ^ i) := by simp [leBytes, hi]
  rw [byte, BitVec.extractLsb', Nat.shiftRight_eq_div_pow, Nat.pow_mul]

section
variable {s : State} {k : LogicalCore} {a : Word} {n : Nat} (marked : aligned a n = true) (control : isControl a = true)
include marked control

theorem play_acquireLoad_control (releases : (s.core k).releases = []) : s.play k (.acquireLoad k a n) = some (s.ctrlLoad k a n) :=
  (if_neg (by simp [marked])).trans ((if_neg (by simp [releases])).trans (if_pos control))

theorem play_reservedLoad_control (acq : Bool) (releases : (s.core k).releases = []) :
    s.play k (.reservedLoad k a n acq) = some ((s.count 78 3).sramReserve k a n) :=
  (if_neg (by simp [marked])).trans ((if_neg (by simp [releases])).trans (if_pos control))

theorem play_releaseStore_control (d : Native) (loads : (s.core k).loads = []) (stores : (s.core k).stores = []) :
    s.play k (.releaseStore k a n d) = some (s.ctrlStore k a (leBytes n d.toNat)) :=
  (if_neg (by simp [marked])).trans ((if_neg (by simp [loads, stores])).trans (if_pos control))

theorem play_conditionalStore_control (d : Native) (rel : Bool) (loads : (s.core k).loads = []) (stores : (s.core k).stores = []) :
    s.play k (.conditionalStore k a n d rel) = some (s.sramConditional k a n d) :=
  (if_neg (by simp [marked])).trans ((if_neg (by simp [loads, stores])).trans (if_pos control))

end

/-! ### Loads of the data SRAM (08 R272; 10 R315) -/

/-- A load of sound bytes gives them to the core. -/
theorem ctrlLoad_data {s : State} {a : Word} {n o : Nat} (k : LogicalCore) (data : spaceOf a.toNat = (.data, o)) (sound : s.dataGood o n) :
    s.ctrlLoad k a n = s.emit (.coreData k a (BitVec.ofNat 128 (leAt (s.dataBytes o n) 0 n))) := by
  have read : s.ctrlRead .data o n = (s, s.dataBytes o n, false) := s.ctrlRead_sound .data o n sound
  simp only [State.ctrlLoad, data, read, Bool.false_eq_true, if_false]

/-- A core's reservation of a granule of the data SRAM, in place of any older one (08 R272). -/
def State.reserveGranule (s : State) (k : LogicalCore) (g : Nat) : State :=
  { s.dropReservation k with sramReserved := (s.dropReservation k).sramReserved.put 0 k.val g }

/-- It is the core's only one, and nothing but reservations differs. -/
theorem State.reserveGranule_eq (s : State) (k : LogicalCore) (g : Nat) :
    ∃ slices reserved, s.reserveGranule k g = { s with slices := slices, sramReserved := reserved } ∧ reserved.look 0 k.val = g ∧
      (∀ j, j ≠ k.val → reserved.look 0 j = s.sramReserved.look 0 j) ∧
      ∀ p : PhysSlice, (slices.look Slice.empty p.val).reserved.look 0 k.val = 0 := by
  refine ⟨(s.dropReservation k).slices, (s.sramReserved.put 0 k.val 0).put 0 k.val g, ?_, Tbl.look_put_same .., fun j ne => ?_,
    s.dropReservation_reserved k⟩
  · have frame := s.dropReservation_frame k
    unfold reserveGranule
    generalize s.dropReservation k = t at frame ⊢
    rw [frame]
  · rw [Tbl.look_put_ne _ _ _ _ ne, Tbl.look_put_ne _ _ _ _ ne]

theorem sramReserve_data {s : State} {a : Word} {n o : Nat} (k : LogicalCore) (data : spaceOf a.toNat = (.data, o)) :
    s.sramReserve k a n = (s.reserveGranule k (o / 256 + 1)).ctrlLoad k a n := by
  simp only [State.sramReserve, data]
  rfl

/-- Settles O21: both loads read sound words; the reserved one is counted and reserves first. -/
theorem dataSramIsReadAndReserved : Obligations.DataSramIsReadAndReserved := by
  unfold Obligations.DataSramIsReadAndReserved
  refine fun s k a n o acq ready marked control data sound releases => ⟨?_, ?_⟩
  · have issued := play_acquireLoad_control marked control releases
    rw [ctrlLoad_data k data sound] at issued
    exact exec_access_alone rfl ready issued fun _ => rfl
  · have issued := play_reservedLoad_control marked control acq releases
    obtain ⟨slices, reserved, held, own, others, homes⟩ := (s.count 78 3).reserveGranule_eq k (o / 256 + 1)
    have load := ctrlLoad_data (s := { s.count 78 3 with slices := slices, sramReserved := reserved }) k data (sound.of_same rfl rfl rfl)
    rw [sramReserve_data k data, held, load] at issued
    exact ⟨_, exec_access_alone rfl ready issued fun _ => rfl, rfl, own, others, homes, s.cnt_count_same 78 3 1, rfl⟩

/-! ### Stores to the data SRAM -/

theorem Tbl.mem_of_look_ne {α : Type} {d : α} {k : Nat} : ∀ {t : Tbl α}, Tbl.look d k t ≠ d → (k, Tbl.look d k t) ∈ t
  | [], listed => absurd rfl listed
  | (j, v) :: r, listed => by
    unfold look at listed ⊢
    split at listed
    case isTrue e => rw [if_pos e, e]; exact List.mem_cons_self
    case isFalse ne => rw [if_neg ne]; exact List.mem_cons_of_mem _ (mem_of_look_ne listed)

/-- No reservation on the granule of bytes just stored is left. -/
theorem State.endGranules_released (s : State) {o n : Nat} (one : (o + (n - 1)) / 256 = o / 256) (j : Nat) :
    (s.endGranules o n).sramReserved.look 0 j ≠ o / 256 + 1 := by
  intro held
  have listed := Tbl.mem_of_look_ne (d := 0) (k := j) (t := (s.endGranules o n).sramReserved) (held ▸ Nat.succ_ne_zero _)
  have kept : (s.endGranules o n).sramReserved.look 0 j < o / 256 + 1 ∨
      (o + (n - 1)) / 256 + 1 < (s.endGranules o n).sramReserved.look 0 j := of_decide_eq_true (List.mem_filter.mp listed).2
  omega

/-- A state in which a core's reservation of the data SRAM has ended. -/
def State.unreserved (s : State) (k : LogicalCore) : State := { s with sramReserved := s.sramReserved.put 0 k.val 0 }

/-- A store that follows the end of a core's reservation leaves the core without one. -/
theorem State.endGranules_unreserved (s : State) (k : LogicalCore) (o n : Nat) :
    ((s.unreserved k).endGranules o n).sramReserved.look 0 k.val = 0 := by
  by_contra held
  have old := (List.mem_filter.mp (Tbl.mem_of_look_ne held)).1
  rw [unreserved, Tbl.put, if_pos rfl] at old
  exact of_decide_eq_true (List.mem_filter.mp old).2 rfl

theorem ctrlStore_data {s : State} {a : Word} {o : Nat} (data : spaceOf a.toNat = (.data, o)) (k : LogicalCore) (bs : List Byte) :
    s.ctrlStore k a bs = s.ctrlWrite .data o bs := by
  simp only [State.ctrlStore, data]
  rfl

/-- A conditional store to the data SRAM: its core's reservation ends, and where it named the granule the bytes are written. -/
theorem sramConditional_data {s : State} {a : Word} {o : Nat} (data : spaceOf a.toNat = (.data, o)) (k : LogicalCore)
    (n : Nat) (d : Native) :
    s.sramConditional k a n d =
      if s.sramReserved.look 0 k.val = o / 256 + 1 then
        (((s.unreserved k).ctrlWrite .data o (leBytes n d.toNat)).count 78 4).emit (.iaCond k true)
      else ((s.unreserved k).count 78 5).emit (.iaCond k false) := by
  have taken : (!Space.data.inSram) = false ∧ s.storeRefused .data = false := ⟨rfl, rfl⟩
  simp only [State.sramConditional, data, taken, Bool.false_eq_true, or_self, if_false]
  by_cases names : s.sramReserved.look 0 k.val = o / 256 + 1
  · simp only [names, beq_self_eq_true, if_true]
    rfl
  · simp only [beq_eq_false_iff_ne.mpr names, Bool.false_eq_true, if_neg names, if_false]
    rfl

theorem DataStored.core {o : Nat} {bs : List Byte} {s t : State} (h : DataStored o bs s t) (j : LogicalCore) : t.core j = s.core j := by
  rw [h.rest]
  rfl

/-- A native word stored reads back byte by byte. -/
theorem DataStored.reads_word {o n : Nat} {d : Native} {s t : State} (h : DataStored o (leBytes n d.toNat) s t)
    {b : Nat} (hb : b < 0x7C000) :
    t.ctrlData .data b = if o ≤ b ∧ b < o + n then d.extractLsb' (8 * (b - o)) 8 else s.ctrlData .data b := by
  rw [h.reads b hb, length_leBytes]
  split
  case isTrue inside => exact leBytes_getD d (by omega)
  case isFalse => rfl

/-- Settles O22: what a store leaves, by what it does to sound bytes; a conditional store by its core's reservation. -/
theorem dataSramStoresWriteTheirBytes : Obligations.DataSramStoresWriteTheirBytes := by
  unfold Obligations.DataSramStoresWriteTheirBytes
  intro s k a n o d rel ready marked control data sound loads stores stored
  obtain ⟨within, one⟩ := aligned_data marked data
  have writes {u : State} (good : u.dataGood o n) : DataStored o (leBytes n d.toNat) u (u.ctrlWrite .data o (leBytes n d.toNat)) := by
    rw [← length_leBytes n d.toNat] at within good
    exact ctrlWrite_dataStored within good
  have released {u t : State} (h : DataStored o (leBytes n d.toNat) u t) (j : Nat) : t.sramReserved.look 0 j ≠ o / 256 + 1 := by
    rw [h.reserved, length_leBytes]
    exact u.endGranules_released one j
  constructor
  · have issued := play_releaseStore_control marked control d loads stores
    rw [ctrlStore_data data] at issued
    have wrote := writes sound
    generalize s.ctrlWrite .data o (leBytes n d.toNat) = t at issued wrote
    exact ⟨t, exec_access_alone rfl ready issued fun j => congrArg Core.queue (wrote.core j), ⟨fun _ => wrote.reads_word, wrote.beyond⟩,
      released wrote, wrote.rest⟩
  · have issued := play_conditionalStore_control marked control d rel loads stores
    rw [sramConditional_data data] at issued
    by_cases names : s.sramReserved.look 0 k.val = o / 256 + 1
    · rw [if_pos names] at issued
      have wrote := writes (u := s.unreserved k) (sound.of_same rfl rfl rfl)
      generalize (s.unreserved k).ctrlWrite .data o (leBytes n d.toNat) = t at issued wrote
      have gone := released wrote
      refine ⟨_, exec_access_alone rfl ready issued fun j => congrArg Core.queue (wrote.core j), ?_, ?_⟩
      · exact (congrArg (Tbl.look 0 k.val) wrote.reserved).trans (s.endGranules_unreserved k _ _)
      · rw [if_pos names]
        refine ⟨⟨fun _ => wrote.reads_word, wrote.beyond⟩, ?_, gone, ?_⟩
        · rw [wrote.rest]; rfl
        · rw [wrote.rest]; rfl
    · rw [if_neg names] at issued
      refine ⟨_, exec_access_alone rfl ready issued fun _ => rfl, Tbl.look_put_same 0 k.val 0 s.sramReserved, ?_⟩
      rw [if_neg names]
      exact ⟨rfl, rfl⟩

end Sys2Proof.Machine
end

section
/-! PROOFS. The statements of chapter 9 on the modes: how SPROUT begins, how a mode is asked for and refused, the steps of DORMANT, and
REPAIR (09 R291 to R305; 08 R283; 14 R451; 17 R499 to R502). What a mode change and the changes of operating point that go with it leave
comes first. -/

namespace Sys2Proof.Machine

/-! ### Steps each of which changes its own place -/

/-- Steps in a row, each of which changes its own place by what is there and leaves every other: each place has its change, once. `Q` is
what the steps keep and their changes rest on. -/
theorem foldl_own {σ α κ β : Type} {f : σ → α → σ} {get : κ → σ → β} {key : α → κ} {F : α → β → β} {Q : σ → Prop}
    (keeps : ∀ u a, Q u → Q (f u a)) (own : ∀ u a, Q u → get (key a) (f u a) = F a (get (key a) u))
    (other : ∀ u a k, k ≠ key a → get k (f u a) = get k u) : ∀ (l : List α) (s : σ), Q s → (l.map key).Nodup →
      (∀ k ∉ l.map key, get k (l.foldl f s) = get k s) ∧ ∀ a ∈ l, get (key a) (l.foldl f s) = F a (get (key a) s)
  | [], _, _, _ => ⟨fun _ _ => rfl, fun _ mem => absurd mem List.not_mem_nil⟩
  | b :: l, s, hs, distinct => by
    obtain ⟨fresh, distinct⟩ := List.nodup_cons.mp distinct
    obtain ⟨others, changed⟩ := foldl_own keeps own other l (f s b) (keeps s b hs) distinct
    refine ⟨fun k out => ?_, fun a mem => ?_⟩
    · obtain ⟨ne, out⟩ := not_or.mp (mt List.mem_cons.mpr out)
      exact (others k out).trans (other s b k ne)
    · rcases List.mem_cons.mp mem with here | later
      · rw [here]
        exact (others (key b) fresh).trans (own s b hs)
      · have ne : key a ≠ key b := ne_of_mem_of_not_mem (List.mem_map_of_mem later) fresh
        exact (changed a later).trans (congrArg (F a) (other s b _ ne))

/-- One register of each slice written, each by what it holds. -/
theorem State.reg_foldl_slices {f : State → PhysSlice → State} {R : Nat → Nat} {F : Word → Word} (distinct : ∀ p q, R p = R q → p = q)
    (own : ∀ (u : State) (p : PhysSlice), (f u p).reg (R p.val) = F (u.reg (R p.val)))
    (other : ∀ (u : State) (p : PhysSlice) (o : Nat), o ≠ R p.val → (f u p).reg o = u.reg o) (s : State) (p : PhysSlice) :
    (allSlices.foldl f s).reg (R p.val) = F (s.reg (R p.val)) :=
  (foldl_own (get := fun o u => State.reg u o) (F := fun _ => F) (Q := fun _ => True) (fun _ _ _ => trivial) (fun u q _ => own u q) other
    allSlices s trivial (allSlices_nodup.map fun _ _ same => Fin.ext (distinct _ _ same))).2 p (List.mem_finRange p)

/-! ### A mode change (09 R291) -/

theorem State.modeWritten_prev (s : State) (m cause hp : Nat) : (s.modeWritten m cause hp).rd GLB_MODE.PREV = s.mode := by
  rw [modeWritten, State.rd_wr_disjoint _ _ _ _ (by decide), State.rd_wr_disjoint _ _ _ _ (by decide),
    State.rd_wr_disjoint _ _ _ _ (by decide), State.rd_wr_same _ _ _ (by decide)]
  exact Nat.mod_eq_of_lt (s.rd_lt GLB_MODE.MODE)

/-- The counts of entries are above what a mode change writes. -/
theorem State.modeWritten_count (s : State) (m cause hp : Nat) {f : Fld} (above : 16 ≤ f.lo) :
    (s.modeWritten m cause hp).rd f = s.rd f := by
  have apart : ∀ g : Fld, g.lo + g.w ≤ 16 → f.lo + f.w ≤ g.lo ∨ g.lo + g.w ≤ f.lo := fun g below => .inr (below.trans above)
  rw [modeWritten, State.rd_wr_disjoint _ _ _ _ (apart _ (by decide)), State.rd_wr_disjoint _ _ _ _ (apart _ (by decide)),
    State.rd_wr_disjoint _ _ _ _ (apart _ (by decide)), State.rd_wr_disjoint _ _ _ _ (apart _ (by decide))]

/-- What keeps the record of a mode change reads back as it was made. -/
theorem ModeKept.moved {s t : State} {m cause hp : Nat} (h : ModeKept (s.modeWritten m cause hp) t) :
    t.mode = m % 8 ∧ t.rd GLB_MODE.PREV = s.mode ∧ t.rd GLB_MODE.CAUSE = cause % 16 :=
  ⟨h.mode.trans (s.modeWritten_mode m cause hp), (h GLB_MODE.PREV rfl (.inr (by decide))).trans (s.modeWritten_prev m cause hp),
    (h GLB_MODE.CAUSE rfl (.inr (by decide))).trans (s.modeWritten_cause m cause hp)⟩

/-- GLB_MODE as it was keeps its fields. -/
theorem ModeKept.of_reg {s t u : State} (h : ModeKept s t) (same : u.reg GLB_MODE.reg = t.reg GLB_MODE.reg) : ModeKept s u :=
  h.trans fun f own _ => by rw [State.rd, State.rd, own, same]

/-- A mode change touches registers, and the notice its queue; of the registers GLB_MODE, the checker test mode's locks, SCRUB_STATUS and
those of the queues. -/
theorem State.setMode_frame (s : State) (m cause hp : Nat) :
    s.setMode m cause hp =
        { s with regs := (s.setMode m cause hp).regs, queues := (s.setMode m cause hp).queues, out := (s.setMode m cause hp).out } ∧
      ∀ o, o < 0x58000 → o ≠ GLB_MODE.reg → o ≠ SCRUB_STATUS.reg → (∀ p : PhysSlice, o ≠ SL_ECC_TEST_UNLOCK.reg p.val) →
        (s.setMode m cause hp).reg o = s.reg o := by
  unfold State.setMode
  extract_lets prev cut written locked changed
  have hl : s.RegsOnly locked := holds_of_foldl (fun _ _ h => h.wr _ _) allSlices written
    (((((State.RegsOnly.refl s).wr _ _).wr _ _).wr _ _).wr _ _)
  have ho : ∀ o, o ≠ GLB_MODE.reg → (∀ p : PhysSlice, o ≠ SL_ECC_TEST_UNLOCK.reg p.val) → locked.reg o = s.reg o := fun o mode ecc =>
    holds_of_foldl (P := fun u : State => u.reg o = s.reg o) (fun u p h => (u.reg_wr_ne _ _ (ecc p)).trans h) allSlices written
      ((((State.reg_wr_ne _ _ _ mode).trans (State.reg_wr_ne _ _ _ mode)).trans (State.reg_wr_ne _ _ _ mode)).trans
        (State.reg_wr_ne _ _ _ mode))
  clear_value locked
  have hc : s.RegsOnly changed := (hl.wr GLB_MODE.CHANGING 0).wr SCRUB_STATUS.PAUSED _
  have hr : ∀ o, o ≠ GLB_MODE.reg → o ≠ SCRUB_STATUS.reg → changed.reg o = locked.reg o := fun o mode scrub =>
    (State.reg_wr_ne _ _ _ scrub).trans (State.reg_wr_ne _ _ _ mode)
  clear_value changed
  obtain ⟨frame, regs⟩ := (QueueWork.refl changed).notice 0 0x02 (if m = 4 then 3 else 2) 0x62
    (m + prev * 2 ^ 3 + cause * 2 ^ 6 + cut * 2 ^ 10) s.now [] (by decide)
  refine ⟨by rw [frame, hc], fun o queues mode scrub ecc => ?_⟩
  rw [regs o (.inl queues), hr o mode scrub, ho o mode ecc]

/-- What GLB_MODE reads after a mode change. -/
theorem State.setMode_moved (s : State) (m cause hp : Nat) : (s.setMode m cause hp).mode = m % 8 ∧
    (s.setMode m cause hp).rd GLB_MODE.PREV = s.mode ∧ (s.setMode m cause hp).rd GLB_MODE.CAUSE = cause % 16 :=
  (s.setMode_modeKept m cause hp).moved

theorem State.setMode_aon (s : State) (m cause hp : Nat) : (s.setMode m cause hp).aon = s.aon := by
  rw [(s.setMode_frame m cause hp).1]

/-! ### Operating points follow their goals (09 R307, 17 R498) -/

/-- What starting changes of operating point touches: the slices' SL_DVFS, their ramps and the voltages asked for. -/
structure RampWork (s t : State) : Prop where
  frame : t = { s with regs := t.regs, slices := t.slices, out := t.out }
  regs : ∀ o, (∀ p : PhysSlice, o ≠ SL_DVFS.reg p.val) → t.reg o = s.reg o

namespace RampWork

theorem refl (s : State) : RampWork s s := ⟨rfl, fun _ _ => rfl⟩

theorem trans {s t u : State} (h : RampWork s t) (k : RampWork t u) : RampWork s u :=
  ⟨by rw [k.frame, h.frame], fun o apart => (k.regs o apart).trans (h.regs o apart)⟩

section
variable {s t : State} (h : RampWork s t)
include h

theorem wr {f : Fld} {p : PhysSlice} (own : f.off = SL_DVFS.reg p.val) (x : Nat) : RampWork s (t.wr f x) :=
  h.trans ⟨rfl, fun _ apart => t.reg_wr_ne f x (own ▸ apart p)⟩

theorem emit (o : Out) : RampWork s (t.emit o) := h.trans ⟨rfl, fun _ _ => rfl⟩

theorem modSl (p : PhysSlice) (f : Slice → Slice) : RampWork s (t.modSl p f) := h.trans ⟨rfl, fun _ _ => rfl⟩

theorem startOpp (p : PhysSlice) (target : Nat) : RampWork s (t.startOpp p target) := by
  have asked : RampWork s ((t.wr (SL_DVFS.BUSY p.val) 1).emit (.voltage p target)) := (h.wr (p := p) rfl 1).emit _
  exact holds_of_ite h (holds_of_ite (asked.modSl p _)
    (((asked.wr (p := p) rfl target).wr (f := SL_DVFS.SWITCHES p.val) (p := p) rfl _).modSl p _))

theorem retargetAll : RampWork s t.retargetAll :=
  holds_of_foldl (P := RampWork s) (fun _ p k => holds_of_ite k (k.startOpp p _)) allSlices t h

/-- A field outside the slices' windows reads as before. -/
theorem rd {f : Fld} (outside : f.off < 0x20000 ∨ 0x32000 ≤ f.off) : t.rd f = s.rd f := by
  rw [State.rd, State.rd, h.regs _ fun p => by rw [SL_DVFS.reg]; omega]

theorem aon : t.aon = s.aon := by rw [h.frame]

end

end RampWork

/-! ### What is held back (09 R305) -/

/-- GLB_MODE and GLB_MODE_REQ are as in `s`, and where nothing was held back nothing is. -/
structure StopsKept (s t : State) : Prop where
  regs : ∀ o, o ≤ GLB_MODE_REQ.reg → t.reg o = s.reg o
  held : s.NothingHeld → t.NothingHeld

theorem State.NothingHeld.of_same {s t : State} (h : s.NothingHeld) (ia : t.iaHeld = s.iaHeld) (ports : t.ports = s.ports) :
    t.NothingHeld := ⟨ia.trans h.1, fun g => by rw [State.port, ports]; exact h.2 g⟩

namespace StopsKept

theorem refl (s : State) : StopsKept s s := ⟨fun _ _ => rfl, id⟩

theorem trans {s t u : State} (h : StopsKept s t) (k : StopsKept t u) : StopsKept s u :=
  ⟨fun o low => (k.regs o low).trans (h.regs o low), k.held ∘ h.held⟩

section
variable {s t : State} (h : StopsKept s t)
include h

theorem wr {f : Fld} (above : GLB_MODE_REQ.reg < f.off) (x : Nat) : StopsKept s (t.wr f x) :=
  h.trans ⟨fun _ low => t.reg_wr_ne f x (Nat.ne_of_lt (low.trans_lt above)), fun k => k.of_same rfl rfl⟩

theorem of_same {u : State} (regs : u.regs = t.regs) (ia : u.iaHeld = t.iaHeld) (ports : u.ports = t.ports) : StopsKept s u :=
  h.trans ⟨fun o _ => by rw [State.reg, State.reg, regs], fun k => k.of_same ia ports⟩

theorem foldl {α : Type} {f : State → α → State} (k : ∀ u x, StopsKept s u → StopsKept s (f u x)) (l : List α) :
    StopsKept s (l.foldl f t) := holds_of_foldl k l t h

theorem commit (e : RepairEntry) : StopsKept s (t.commit e) := holds_of_ite h (h.of_same rfl rfl rfl)

theorem retargetAll : StopsKept s t.retargetAll := by
  have work := (RampWork.refl t).retargetAll
  refine h.trans ⟨fun o low => work.regs o fun p => ?_, fun k => k.of_same (by rw [work.frame]) (by rw [work.frame])⟩
  have : o ≤ 0x18 := low
  rw [SL_DVFS.reg]
  omega

theorem modAon (f : AlwaysOn → AlwaysOn) : StopsKept s (t.modAon f) := h.of_same rfl rfl rfl

theorem modMf (f : MediaFront → MediaFront) : StopsKept s (t.modMf f) := h.of_same rfl rfl rfl

/-- With nothing held back there is nothing to forward. -/
theorem forwardHeld (idle : t.NothingHeld) : StopsKept s t.forwardHeld := by
  have host : ∀ (u : State) (g : HostId), StopsKept t u →
      StopsKept t ((u.port g).held.foldl (fun s r => s.route r) (u.modPort g fun x => { x with held := [] })) := fun u g k => by
    rw [(k.held idle).2 g, List.foldl_nil]
    refine k.trans ⟨fun _ _ => rfl, fun e => ⟨e.1, fun j => ?_⟩⟩
    by_cases own : j = g
    · rw [own, State.port_modPort_same]
    · rw [State.port_modPort_ne _ _ own]
      exact e.2 j
  have ia : ∀ u : State, StopsKept t u → StopsKept t (({ u with iaHeld := [] } : State).routeAll u.iaHeld) := fun u k => by
    rw [(k.held idle).1]
    exact k.trans ⟨fun _ _ => rfl, fun e => ⟨rfl, e.2⟩⟩
  exact h.trans (holds_of_foldl host _ _ (ia _ (holds_of_foldl host _ _ (StopsKept.refl t))))

theorem modeKept : ModeKept s t := (ModeKept.refl s).of_reg (h.regs _ (by decide))

theorem errCode : t.rd GLB_MODE_REQ.ERR_CODE = s.rd GLB_MODE_REQ.ERR_CODE := by
  rw [State.rd, State.rd, h.regs GLB_MODE_REQ.ERR_CODE.off (Nat.le_refl _)]

end

end StopsKept

theorem State.setMode_stops (s : State) (m cause hp : Nat) :
    (s.NothingHeld → (s.setMode m cause hp).NothingHeld) ∧
      (s.setMode m cause hp).rd GLB_MODE_REQ.ERR_CODE = s.rd GLB_MODE_REQ.ERR_CODE := by
  obtain ⟨frame, regs⟩ := s.setMode_frame m cause hp
  refine ⟨fun idle => idle.of_same (by rw [frame]) (by rw [frame]), ?_⟩
  rw [State.rd, State.rd, regs GLB_MODE_REQ.ERR_CODE.off (by decide) (by decide) (by decide) (by decide)]

/-! ### SPROUT begins (09 R296, R297; 17 R499 to R501) -/

/-- What the entry to SPROUT does before the mode reads so: the islands are powered, and every slice is at operating point 3. -/
def State.islandsUp (s : State) : State :=
  (List.range 4).foldl (fun s g => s.wr (MF_GROUP_MAP.RESYNCED g) 1)
    (allSlices.foldl (fun s p => s.wr (SL_DVFS.OPP_NOW p.val) 3)
      (s.modAon fun a => { a with mayRestart := false, releaseWaits := false, wdStart := 0, fed := false }))

theorem State.enterSprout_eq (s : State) (cause : Nat) : s.enterSprout cause = s.islandsUp.setMode 1 cause 0 := rfl

theorem State.islandsUp_mode (s : State) : s.islandsUp.mode = s.mode :=
  holds_of_foldl (P := fun t : State => t.mode = s.mode)
    (fun t g h => (t.rd_wr_off _ _ _ (by simp only [GLB_MODE.MODE, GLB_MODE.reg, MF_GROUP_MAP.RESYNCED, MF_GROUP_MAP.reg]; omega)).trans h) _ _
    (holds_of_foldl (P := fun t : State => t.mode = s.mode)
      (fun t p h => (t.rd_wr_off _ _ _ (by simp only [GLB_MODE.MODE, GLB_MODE.reg, SL_DVFS.OPP_NOW, SL_DVFS.reg]; omega)).trans h) _ _ rfl)

theorem State.islandsUp_aon (s : State) :
    s.islandsUp.aon = { s.aon with mayRestart := false, releaseWaits := false, wdStart := 0, fed := false } := by
  have kept {α : Type} {f : α → Fld} {x : Nat} (l : List α) (t : State) : (l.foldl (fun s a => s.wr (f a) x) t).aon = t.aon :=
    holds_of_foldl (P := fun u : State => u.aon = t.aon) (f := fun s a => s.wr (f a) x) (fun _ _ h => h) l t rfl
  rw [islandsUp, kept, kept]
  rfl

theorem State.islandsUp_opp (s : State) (p : PhysSlice) : s.islandsUp.rd (SL_DVFS.OPP_NOW p.val) = 3 := by
  have up : s.islandsUp.reg (SL_DVFS.reg p.val) = putBits (s.reg (SL_DVFS.reg p.val)) 3 3 3 :=
    holds_of_foldl (P := fun t : State => t.reg (SL_DVFS.reg p.val) = _)
      (fun t g h => (t.reg_wr_ne _ _ (by simp only [SL_DVFS.reg, MF_GROUP_MAP.RESYNCED, MF_GROUP_MAP.reg]; omega)).trans h) _ _
      (State.reg_foldl_slices (F := fun v => putBits v 3 3 3) (fun _ _ same => by simp only [SL_DVFS.reg] at same; omega)
        (fun t q => t.reg_wr_same (SL_DVFS.OPP_NOW q.val) 3) (fun t q _ ne => t.reg_wr_ne (SL_DVFS.OPP_NOW q.val) 3 ne) _ p)
  exact (congrArg (getBits · 3 3) up).trans (getBits_putBits_same _ _ _ _ (by decide))

theorem State.enterSprout_moved (s : State) (cause : Nat) : (s.enterSprout cause).mode = 1 ∧
    (s.enterSprout cause).rd GLB_MODE.PREV = s.mode ∧ (s.enterSprout cause).rd GLB_MODE.CAUSE = cause % 16 := by
  rw [enterSprout_eq, ← s.islandsUp_mode]
  exact s.islandsUp.setMode_moved 1 cause 0

theorem State.enterSprout_aon (s : State) (cause : Nat) :
    (s.enterSprout cause).aon = { s.aon with mayRestart := false, releaseWaits := false, wdStart := 0, fed := false } := by
  rw [enterSprout_eq, setMode_aon, islandsUp_aon]

theorem State.enterSprout_opp (s : State) (cause : Nat) (p : PhysSlice) : (s.enterSprout cause).rd (SL_DVFS.OPP_NOW p.val) = 3 := by
  have kept := (s.islandsUp.setMode_frame 1 cause 0).2 (SL_DVFS.reg p.val) (by simp only [SL_DVFS.reg]; omega)
    (by simp only [SL_DVFS.reg, GLB_MODE.reg]; omega) (by simp only [SL_DVFS.reg, SCRUB_STATUS.reg]; omega)
    fun q => by simp only [SL_DVFS.reg, SL_ECC_TEST_UNLOCK.reg]; omega
  rw [enterSprout_eq, ← s.islandsUp_opp p]
  exact congrArg (getBits · 3 3) kept

section
variable {s : State} (block : s.aon.blockReset = true) (power : s.aon.power = true) (por : s.aon.porDone = true)
include block power por

theorem exec_blockResetRelease_high (high : s.aon.pfwLow = false) :
    exec (.blockResetRelease true) s = .next ((s.modAon fun a => { a with blockReset := false }).enterSprout 0) := by
  simp [exec, execBlockResetRelease, block, power, por, high]

theorem exec_blockResetRelease_low (low : s.aon.pfwLow = true) :
    exec (.blockResetRelease true) s = .next (s.modAon fun a => { a with blockReset := false, releaseWaits := true }) := by
  simp only [exec, execBlockResetRelease, block, power, por, low]
  rfl

theorem exec_blockResetRelease_early : exec (.blockResetRelease false) s = .fault .stateUndefined := by
  simp [exec, execBlockResetRelease, block, power, por]

end

theorem exec_automaticRestart_due {s : State} {u : Nat} (hm : s.mode = 0) (high : s.aon.pfwLow = false)
    (since : s.aon.highSince = some u) (passed : u + 10000 ≤ s.now) (block : s.aon.blockReset = false) (por : s.aon.porDone = true)
    (may : s.aon.mayRestart = true) : exec .automaticRestart s = .next (s.enterSprout 9) := by
  simp [exec, execAutomaticRestart, hm, high, since, passed, block, por, may]

/-- Settles O34: each command by its equation, SPROUT by what its entry leaves. -/
theorem sproutBegins : Obligations.SproutBegins := by
  unfold Obligations.SproutBegins
  refine fun s => ⟨fun block power por => ⟨fun high => ?_, exec_blockResetRelease_low block power por,
    exec_blockResetRelease_early block power por⟩, fun u hm high since passed block por may => ?_, fun off => ?_, fun por => ?_⟩
  · obtain ⟨mode, prev, cause⟩ := (s.modAon fun a => { a with blockReset := false }).enterSprout_moved 0
    exact ⟨_, exec_blockResetRelease_high block power por high, mode, prev, cause, by rw [State.enterSprout_aon]; rfl,
      State.enterSprout_opp _ 0⟩
  · obtain ⟨mode, -, cause⟩ := s.enterSprout_moved 9
    exact ⟨_, exec_automaticRestart_due hm high since passed block por may, mode, cause, by rw [State.enterSprout_aon],
      s.enterSprout_opp 9⟩
  · exact if_neg (by simp [off])
  · exact if_neg (by simp [por])

/-! ### Mode requests (09 R292, R293) -/

/-- A refusal notes the target and the code, and nothing else (09 R292). -/
theorem State.refuseMode_noted (s : State) {target code : Nat} (ht : target < 8) (hc : code < 16) :
    (s.refuseMode target code).on GLB_MODE_REQ.ERR = true ∧ (s.refuseMode target code).rd GLB_MODE_REQ.ERR_CODE = code ∧
      (s.refuseMode target code).rd GLB_MODE_REQ.TARGET = target ∧ s.OnlyRegs (s.refuseMode target code) [GLB_MODE_REQ.reg] := by
  refine ⟨?_, ?_, ?_, rfl, fun o out => ?_⟩ <;> unfold State.refuseMode
  · rw [State.on_wr_apart _ _ (.inr (by decide)), State.on_wr_one _ _ rfl (by decide)]
  · exact (State.rd_wr_same _ _ _ (by decide)).trans (Nat.mod_eq_of_lt hc)
  · rw [State.rd_wr_disjoint _ _ _ _ (by decide), State.rd_wr_disjoint _ _ _ _ (by decide), State.rd_wr_same _ _ _ (by decide)]
    exact Nat.mod_eq_of_lt ht
  · have ne : o ≠ GLB_MODE_REQ.reg := List.ne_of_not_mem_cons out
    exact ((State.reg_wr_ne _ _ _ ne).trans (State.reg_wr_ne _ _ _ ne)).trans (State.reg_wr_ne _ _ _ ne)

theorem State.serveCode_lt (s : State) : s.serveCode < 16 := by
  unfold State.serveCode
  extract_lets ps cs
  split_ifs <;> decide

section
variable {s : State} {code : Nat} (hm : s.mode ≠ 0)
include hm

theorem exec_modeReqServe_refused (why : s.on GLB_MODE.CHANGING = true ∧ code = 9 ∨ s.on GLB_MODE.CHANGING = false ∧
    ((s.mode = 2 ∨ s.mode = 4) ∧ code = 1 ∨ s.mode = 1 ∧ s.serveCode ≠ 0 ∧ code = s.serveCode)) :
    exec .modeReqServe s = .next (s.refuseMode 2 code) ∧ code < 16 := by
  rcases why with ⟨busy, rfl⟩ | ⟨still, ⟨other | other, rfl⟩ | ⟨sprout, unmet, rfl⟩⟩
  · simp [exec, execModeReqServe, hm, busy]
  · simp [exec, execModeReqServe, other, still]
  · simp [exec, execModeReqServe, other, still]
  · exact ⟨by simp [exec, execModeReqServe, still, sprout, unmet], s.serveCode_lt⟩

theorem exec_modeReqDormant_refused (why : s.on GLB_MODE.CHANGING = true ∧ code = 9 ∨ s.on GLB_MODE.CHANGING = false ∧
    (s.mode ≠ 2 ∧ code = 1 ∨ s.mode = 2 ∧ s.dormBlocked = true ∧ code = 7)) :
    exec .modeReqDormant s = .next (s.refuseMode 3 code) ∧ code < 16 := by
  rcases why with ⟨busy, rfl⟩ | ⟨still, ⟨other, rfl⟩ | ⟨serve, barred, rfl⟩⟩
  · simp [exec, execModeReqDormant, hm, busy]
  · simp [exec, execModeReqDormant, hm, still, other]
  · simp [exec, execModeReqDormant, still, serve, barred]

theorem exec_modeReqRepair_refused (why : s.on GLB_MODE.CHANGING = true ∧ code = 9 ∨ s.on GLB_MODE.CHANGING = false ∧
    (s.mode ≠ 2 ∧ code = 1 ∨ s.mode = 2 ∧ s.repairTooSoon = true ∧ code = 8)) :
    exec .modeReqRepair s = .next (s.refuseMode 5 code) ∧ code < 16 := by
  rcases why with ⟨busy, rfl⟩ | ⟨still, ⟨other, rfl⟩ | ⟨serve, soon, rfl⟩⟩
  · simp [exec, execModeReqRepair, hm, busy]
  · simp [exec, execModeReqRepair, hm, still, other]
  · simp [exec, execModeReqRepair, still, serve, soon]

theorem exec_modeReqHold_refused (why : s.on GLB_MODE.CHANGING = true ∧ code = 9 ∨ s.on GLB_MODE.CHANGING = false ∧
    s.mode ≠ 4 ∧ code = 1) : exec .modeReqHold s = .next (s.refuseMode 0 code) ∧ code < 16 := by
  rcases why with ⟨busy, rfl⟩ | ⟨still, other, rfl⟩
  · simp [exec, execModeReqHold, hm, busy]
  · simp [exec, execModeReqHold, hm, still, other]

end

/-- An accepted request notes its target and clears the code; no other register changes (09 R292). -/
theorem State.acceptMode_reg_ne (s : State) (target : Nat) {o : Nat} (ne : o ≠ GLB_MODE_REQ.reg) :
    (s.acceptMode target).reg o = s.reg o := (State.reg_wr_ne _ _ _ ne).trans (State.reg_wr_ne _ _ _ ne)

theorem State.acceptMode_frame (s : State) (target : Nat) : s.RegsOnly (s.acceptMode target) := rfl

theorem State.acceptMode_mode (s : State) (target : Nat) : (s.acceptMode target).mode = s.mode :=
  congrArg (getBits · 0 3) (s.acceptMode_reg_ne target (o := GLB_MODE.reg) (by decide))

theorem State.acceptMode_errCode (s : State) (target : Nat) : (s.acceptMode target).rd GLB_MODE_REQ.ERR_CODE = 0 :=
  State.rd_wr_same _ _ _ (by decide)

theorem State.acceptMode_held {s : State} (idle : s.NothingHeld) (target : Nat) : (s.acceptMode target).NothingHeld :=
  idle.of_same rfl rfl

/-! ### SERVE is entered, and REPAIR left (09 R293, R305) -/

/-- A mode change to SERVE after which GLB_MODE and GLB_MODE_REQ stay as they are. -/
theorem StopsKept.served {s t : State} {cause : Nat} (k : StopsKept (s.setMode 2 cause 0) t) : t.mode = 2 ∧
    t.rd GLB_MODE.PREV = s.mode ∧ t.rd GLB_MODE.CAUSE = cause % 16 ∧ t.rd GLB_MODE_REQ.ERR_CODE = s.rd GLB_MODE_REQ.ERR_CODE := by
  obtain ⟨mode, prev, noted⟩ := ((s.setMode_modeKept 2 cause 0).trans k.modeKept).moved
  exact ⟨mode, prev, noted, k.errCode.trans (s.setMode_stops 2 cause 0).2⟩

/-- With nothing held back, the end of REPAIR is the mode change and what the slices ask of their rails. -/
theorem State.exitRepair_kept {s : State} (idle : s.NothingHeld) (cause : Nat) :
    StopsKept (s.setMode 2 cause 0) (s.exitRepair cause) := by
  have ended := (StopsKept.refl (s.setMode 2 cause 0)).modAon fun a => { a with repairEnd := some a.time }
  unfold State.exitRepair
  exact (ended.forwardHeld (ended.held ((s.setMode_stops 2 cause 0).1 idle))).retargetAll

/-- SERVE is entered from a state in which what SPROUT has prepared is in force, and in which GLB_MODE and GLB_MODE_REQ are as before. -/
theorem State.enterServe_kept {s : State} (idle : s.NothingHeld) (cause : Nat) :
    ∃ u, StopsKept s u ∧ StopsKept (u.setMode 2 cause 0) (s.enterServe cause) := by
  unfold State.enterServe
  extract_lets d trusted resumed synced headed bursts fresh
  have h1 : StopsKept s trusted := holds_of_ite (((StopsKept.refl s).wr (by decide) 1).commit _) (StopsKept.refl s)
  clear_value trusted
  have rebuilt : StopsKept s (((trusted.wr (MF_GROUP_MAP.GSTATE (trusted.rd MF_REBUILD_STATUS.GROUP)) 2).wr
      (MF_GROUP_MAP.LOST_SLOT (trusted.rd MF_REBUILD_STATUS.GROUP)) (trusted.rd MF_REBUILD_STATUS.SLOT)).wr
      (MF_CH_STATE.STATE (trusted.rd MF_REBUILD_STATUS.TARGET)) 2) := by
    refine ((h1.wr ?_ 2).wr ?_ _).wr ?_ 2 <;>
      simp only [GLB_MODE_REQ.reg, MF_GROUP_MAP.GSTATE, MF_GROUP_MAP.LOST_SLOT, MF_GROUP_MAP.reg, MF_CH_STATE.STATE, MF_CH_STATE.reg] <;> omega
  have h2 : StopsKept s resumed := holds_of_ite (rebuilt.modMf _) h1
  clear_value resumed
  have begun : StopsKept s ((List.range 4).foldl (fun s g => s.wr (MF_GROUP_MAP.RESYNCED g) 0) (resumed.wr MF_CTRL.RESYNC_BUSY 1)) :=
    (h2.wr (by decide) 1).foldl
      (fun _ g k => k.wr (by simp only [GLB_MODE_REQ.reg, MF_GROUP_MAP.RESYNCED, MF_GROUP_MAP.reg]; omega) 0) _
  have h3 : StopsKept s synced := holds_of_ite (begun.modMf _) h2
  clear_value synced
  have h4 : StopsKept s headed := by
    unfold headed
    split
    · exact (h3.wr (by decide) _).wr (by decide) 1
    · exact h3.wr (by decide) 0
  clear_value headed
  have h5 : StopsKept s bursts :=
    h4.foldl (fun _ p k => k.wr (by simp only [GLB_MODE_REQ.reg, SL_SF_CTRL.TOKENS, SL_SF_CTRL.reg]; omega) _) allSlices
  clear_value bursts
  have h6 : StopsKept s fresh :=
    h5.foldl (fun _ h k => k.wr (by simp only [GLB_MODE_REQ.reg, GLB_HOST_INCARN.INCARN, GLB_HOST_INCARN.reg]; omega) 0) allHosts
  clear_value fresh
  refine ⟨fresh, h6, ?_⟩
  have ramped : StopsKept (fresh.setMode 2 cause 0) (fresh.setMode 2 cause 0).retargetAll := (StopsKept.refl _).retargetAll
  exact ramped.forwardHeld (ramped.held ((fresh.setMode_stops 2 cause 0).1 (h6.held idle)))

theorem State.enterServe_served {s : State} (idle : s.NothingHeld) (cause : Nat) : (s.enterServe cause).mode = 2 ∧
    (s.enterServe cause).rd GLB_MODE.PREV = s.mode ∧ (s.enterServe cause).rd GLB_MODE.CAUSE = cause % 16 ∧
      (s.enterServe cause).rd GLB_MODE_REQ.ERR_CODE = s.rd GLB_MODE_REQ.ERR_CODE := by
  obtain ⟨u, before, after⟩ := s.enterServe_kept idle cause
  obtain ⟨mode, prev, noted, code⟩ := after.served
  exact ⟨mode, prev.trans before.modeKept.mode, noted, code.trans before.errCode⟩

/-! ### Entry to DORMANT and to REPAIR begins (09 R300, R304; 08 R274) -/

theorem State.sl_allSlices_modSl (f : Slice → Slice) (s : State) (p : PhysSlice) :
    (allSlices.foldl (fun s p => s.modSl p f) s).sl p = f (s.sl p) :=
  (State.sl_foldl_modSl f p allSlices s allSlices_nodup).trans (if_pos (List.mem_finRange p))

/-- What the entry to DORMANT notes before the slices narrow. -/
def State.dormantAsked (s : State) (cause : Nat) : State :=
  (s.wr GLB_MODE.CHANGING 1).modAon fun a =>
    { a with entryStep := 1, entryAt := a.time, seqCause := cause, seqHp := 0, exitCause := none }

theorem State.startDormant_eq (s : State) (cause : Nat) : s.startDormant cause =
    allSlices.foldl (fun s p => s.modSl p fun x => { x with dormantWays := true }) (s.dormantAsked cause) := rfl

theorem State.startDormant_frame (s : State) (cause : Nat) :
    s.startDormant cause = { s.wr GLB_MODE.CHANGING 1 with
      aon := { s.aon with entryStep := 1, entryAt := s.now, seqCause := cause, seqHp := 0, exitCause := none }
      slices := (s.startDormant cause).slices } := by
  rw [startDormant_eq]
  exact State.foldl_modSl_frame _ allSlices (s.dormantAsked cause)

theorem State.startDormant_sl (s : State) (cause : Nat) (p : PhysSlice) :
    (s.startDormant cause).sl p = { s.sl p with dormantWays := true } := by
  rw [startDormant_eq, sl_allSlices_modSl]
  rfl

theorem State.startDormant_aon (s : State) (cause : Nat) : (s.startDormant cause).aon =
    { s.aon with entryStep := 1, entryAt := s.now, seqCause := cause, seqHp := 0, exitCause := none } := by rw [startDormant_frame]

/-- From a state in which registers alone have changed, the entry to DORMANT changes these, the sequence and the slices. -/
theorem State.RegsOnly.startDormant {s u : State} (h : s.RegsOnly u) (cause : Nat) :
    u.startDormant cause = { s with
      regs := (u.startDormant cause).regs, aon := (u.startDormant cause).aon, slices := (u.startDormant cause).slices } := by
  have frame := u.startDormant_frame cause
  generalize u.startDormant cause = t at frame ⊢
  rw [frame, h]
  rfl

theorem State.startDormant_rd (s : State) (cause : Nat) (f : Fld) : (s.startDormant cause).rd f = (s.wr GLB_MODE.CHANGING 1).rd f :=
  State.rd_congr (by rw [startDormant_frame]) f

theorem State.startDormant_changing (s : State) (cause : Nat) : (s.startDormant cause).on GLB_MODE.CHANGING = true :=
  (congrArg (· != 0) (s.startDormant_rd cause _)).trans (s.on_wr_one _ rfl (by decide))

/-- CHANGING is no part of the mode. -/
theorem State.mode_wr_changing (s : State) (x : Nat) : (s.wr GLB_MODE.CHANGING x).mode = s.mode := s.rd_wr_disjoint _ _ _ (by decide)

theorem State.startDormant_mode (s : State) (cause : Nat) : (s.startDormant cause).mode = s.mode :=
  (s.startDormant_rd cause _).trans (s.mode_wr_changing 1)

/-- The mode change of an entry to REPAIR, and its count. -/
def State.repairCounted (s : State) (cause : Nat) : State := (s.setMode 5 cause 0).inc GLB_MODE.REPAIR_ENTRIES

/-- With it the time of the entry is noted, and a cause that was held is acted on. -/
def State.repairNoted (s : State) (cause : Nat) : State :=
  (s.repairCounted cause).modAon fun a => { a with repairAt := a.time, heldCause := false }

theorem State.enterRepair_eq (s : State) (cause : Nat) : s.enterRepair cause =
    allSlices.foldl (fun s p => s.modSl p fun x => { x with reserved := [] }) (s.repairNoted cause) := rfl

theorem State.repairNoted_frame (s : State) (cause : Nat) :
    s.repairNoted cause = { s with
      regs := (s.repairCounted cause).regs, queues := (s.setMode 5 cause 0).queues, out := (s.setMode 5 cause 0).out
      aon := { s.aon with repairAt := s.now, heldCause := false } } := by
  rw [repairNoted, repairCounted]
  generalize s.setMode 5 cause 0 = t, (s.setMode_frame 5 cause 0).1 = frame
  rw [frame]
  rfl

theorem State.enterRepair_frame (s : State) (cause : Nat) :
    s.enterRepair cause = { s with
      regs := (s.repairCounted cause).regs, queues := (s.setMode 5 cause 0).queues, out := (s.setMode 5 cause 0).out
      aon := { s.aon with repairAt := s.now, heldCause := false }, slices := (s.enterRepair cause).slices } := by
  rw [enterRepair_eq, State.foldl_modSl_frame, repairNoted_frame]

theorem State.enterRepair_aon (s : State) (cause : Nat) :
    (s.enterRepair cause).aon = { s.aon with repairAt := s.now, heldCause := false } := by rw [enterRepair_frame]

theorem State.enterRepair_sramReserved (s : State) (cause : Nat) : (s.enterRepair cause).sramReserved = s.sramReserved := by
  rw [enterRepair_frame]

theorem State.enterRepair_reserved (s : State) (cause : Nat) (p : PhysSlice) : ((s.enterRepair cause).sl p).reserved = [] := by
  rw [enterRepair_eq, sl_allSlices_modSl]

theorem State.enterRepair_rd (s : State) (cause : Nat) (f : Fld) : (s.enterRepair cause).rd f = (s.repairCounted cause).rd f :=
  State.rd_congr (by rw [enterRepair_frame]) f

theorem State.enterRepair_moved (s : State) (cause : Nat) : (s.enterRepair cause).mode = 5 ∧
    (s.enterRepair cause).rd GLB_MODE.PREV = s.mode ∧ (s.enterRepair cause).rd GLB_MODE.CAUSE = cause % 16 := by
  obtain ⟨mode, prev, noted⟩ := s.setMode_moved 5 cause 0
  refine ⟨(s.enterRepair_rd cause _).trans ?_, (s.enterRepair_rd cause _).trans ?_, (s.enterRepair_rd cause _).trans ?_⟩ <;>
    rw [repairCounted, State.inc, State.rd_wr_disjoint _ _ _ _ (by decide)]
  · exact mode
  · exact prev
  · exact noted

theorem State.enterRepair_entries (s : State) (cause : Nat) : (s.enterRepair cause).rd GLB_MODE.REPAIR_ENTRIES =
    min (s.rd GLB_MODE.REPAIR_ENTRIES + 1) (2 ^ GLB_MODE.REPAIR_ENTRIES.w - 1) := by
  rw [enterRepair_rd, repairCounted, State.rd_inc_same _ _ _ (by decide),
    s.setMode_modeKept 5 cause 0 GLB_MODE.REPAIR_ENTRIES rfl (.inr (by decide)), s.modeWritten_count 5 cause 0 (by decide)]

/-! ### DRAIN closes to new requests (08 R283; 14 R451) -/

/-- DC_STATUS of a channel as the shutdown leaves it: one that is ready or running is halted with code SHUTDOWN. -/
def channelShut (v : Word) : Word :=
  if getBits v 0 3 = 1 ∨ getBits v 0 3 = 2 then putBits (putBits v 0 3 4) 4 4 5 else v

theorem channelShut_status (v : Word) : if getBits v 0 3 = 1 ∨ getBits v 0 3 = 2 then
    getBits (channelShut v) 0 3 = 4 ∧ getBits (channelShut v) 4 4 = 5 else getBits (channelShut v) 0 3 = getBits v 0 3 := by
  unfold channelShut
  split
  · rw [getBits_putBits_disjoint _ _ _ _ _ _ (by decide), getBits_putBits_same _ _ _ _ (by decide),
      getBits_putBits_same _ _ _ _ (by decide)]
    decide
  · rfl

theorem State.reg_congr {s t : State} (regs : t.regs = s.regs) (o : Nat) : t.reg o = s.reg o := by rw [State.reg, State.reg, regs]

/-- One channel shuts down (14 R451). -/
def State.shutChannel (s : State) (c : Nat) : State :=
  if s.rd (DC_STATUS.STATE c) = 1 ∨ s.rd (DC_STATUS.STATE c) = 2 then
    let x := s.dma.look DmaState.idle c
    let y := { x with held := [], heldDst := [], heldMd := [], halting := none }
    let s1 := (s.wr (DC_STATUS.STATE c) 4).wr (DC_STATUS.CODE c) 5
    { s1 with dma := s1.dma.put DmaState.idle c y }
  else s

/-- No engine has a channel running. -/
def State.enginesFree (s : State) : State := [0, 1].foldl (fun s e =>
  { s with engines := s.engines.put Engine.idle e { s.engines.look Engine.idle e with running := none } }) s

theorem State.shutdownDma_eq (s : State) : s.shutdownDma = ((List.range 16).foldl State.shutChannel s).enginesFree := rfl

theorem State.enginesFree_regs (s : State) : s.enginesFree.regs = s.regs := rfl

theorem State.enginesFree_aon (s : State) : s.enginesFree.aon = s.aon := rfl

theorem State.shutChannel_regs {s : State} {c : Nat} (runs : s.rd (DC_STATUS.STATE c) = 1 ∨ s.rd (DC_STATUS.STATE c) = 2) :
    (s.shutChannel c).regs = ((s.wr (DC_STATUS.STATE c) 4).wr (DC_STATUS.CODE c) 5).regs := by
  rw [shutChannel, if_pos runs]

theorem State.shutChannel_halted {s : State} {c : Nat} (halted : ¬(s.rd (DC_STATUS.STATE c) = 1 ∨ s.rd (DC_STATUS.STATE c) = 2)) :
    s.shutChannel c = s := if_neg halted

theorem State.shutChannel_aon (s : State) (c : Nat) : (s.shutChannel c).aon = s.aon := by
  unfold State.shutChannel
  split <;> rfl

theorem State.shutChannel_own (s : State) (c : Nat) :
    (s.shutChannel c).reg (DC_STATUS.reg c) = channelShut (s.reg (DC_STATUS.reg c)) := by
  by_cases runs : s.rd (DC_STATUS.STATE c) = 1 ∨ s.rd (DC_STATUS.STATE c) = 2
  · have code := (s.wr (DC_STATUS.STATE c) 4).reg_wr_same (DC_STATUS.CODE c) 5
    have state := s.reg_wr_same (DC_STATUS.STATE c) 4
    rw [State.reg_congr (State.shutChannel_regs runs)]
    refine Eq.trans ?_ (if_pos runs).symm
    exact code.trans (congrArg (putBits · 4 4 5) state)
  · rw [State.shutChannel_halted runs]
    exact (if_neg runs).symm

theorem State.shutChannel_other (s : State) (c : Nat) {o : Nat} (ne : o ≠ DC_STATUS.reg c) : (s.shutChannel c).reg o = s.reg o := by
  by_cases runs : s.rd (DC_STATUS.STATE c) = 1 ∨ s.rd (DC_STATUS.STATE c) = 2
  · rw [State.reg_congr (State.shutChannel_regs runs), State.reg_wr_ne _ (DC_STATUS.CODE c) 5 ne, State.reg_wr_ne _ (DC_STATUS.STATE c) 4 ne]
  · rw [State.shutChannel_halted runs]

theorem State.shutdownDma_regs (s : State) : s.shutdownDma.regs = ((List.range 16).foldl State.shutChannel s).regs := by
  rw [shutdownDma_eq, enginesFree_regs]

theorem State.shutdownDma_aon (s : State) : s.shutdownDma.aon = s.aon := by
  rw [shutdownDma_eq, enginesFree_aon]
  exact holds_of_foldl (P := fun t : State => t.aon = s.aon) (fun t c h => (t.shutChannel_aon c).trans h) (List.range 16) s rfl

theorem State.shutdownDma_reg (s : State) :
    (∀ o < 0x70000, s.shutdownDma.reg o = s.reg o) ∧
      ∀ c : DmaChannel, s.shutdownDma.reg (DC_STATUS.reg c.val) = channelShut (s.reg (DC_STATUS.reg c.val)) := by
  obtain ⟨others, shut⟩ := foldl_own (get := fun o u => State.reg u o) (key := DC_STATUS.reg) (F := fun _ => channelShut) (Q := fun _ => True)
    (fun _ _ _ => trivial) (fun u c _ => u.shutChannel_own c) (fun u c _ ne => u.shutChannel_other c ne) (List.range 16) s trivial
    (List.nodup_range.map fun a b same => by simp only [DC_STATUS.reg] at same; omega)
  refine ⟨fun o low => (State.reg_congr s.shutdownDma_regs o).trans (others o fun mem => ?_),
    fun c => (State.reg_congr s.shutdownDma_regs _).trans (shut c.val (List.mem_range.mpr c.isLt))⟩
  obtain ⟨c, -, rfl⟩ := List.mem_map.mp mem
  simp only [DC_STATUS.reg] at low
  omega

/-- Where nothing is left for step 3, step 4 begins at once. -/
theorem State.drainStep_cases (s : State) :
    s.drainStep = s ∨ s.drainStep = (s.modAon fun a => { a with drain := some .cipher }).emit .cipherFlush := by
  unfold State.drainStep
  split
  · exact .inr rfl
  · exact .inl rfl

theorem State.closeHosts_eq (s : State) :
    s.closeHosts = s.shutdownDma.modAon fun a => { a with drain := some .close, closeAt := a.time } := rfl

/-- Once intake is closed, step 3 or step 4 runs since now, and of the registers the DMA channels' have changed. -/
theorem State.closed_spec (s : State) :
    (s.closeHosts.drainStep.aon.drain = some .close ∨ s.closeHosts.drainStep.aon.drain = some .cipher) ∧
      s.closeHosts.drainStep.aon.closeAt = s.now ∧ s.closeHosts.drainStep.regs = s.shutdownDma.regs := by
  have closed : s.closeHosts.aon = { s.aon with drain := some .close, closeAt := s.now } := by
    rw [closeHosts_eq, State.modAon_aon, shutdownDma_aon]
    rfl
  have regs : s.closeHosts.regs = s.shutdownDma.regs := by rw [closeHosts_eq, State.modAon_regs]
  rcases s.closeHosts.drainStep_cases with e | e <;> rw [e]
  · exact ⟨.inl (by rw [closed]), by rw [closed], regs⟩
  · rw [State.emit_aon, State.modAon_aon, closed, State.emit_regs, State.modAon_regs]
    exact ⟨.inr rfl, rfl, regs⟩

/-! ### Requests that are granted (09 R293, R299, R300, R304; 08 R283) -/

section
variable {s : State} (still : s.on GLB_MODE.CHANGING = false)
include still

theorem exec_modeReqServe_sprout (hm : s.mode = 1) (met : s.serveCode = 0) :
    exec .modeReqServe s = .next ((s.acceptMode 2).enterServe 1) := by
  simp [exec, execModeReqServe, hm, still, met]

theorem exec_modeReqServe_repair (hm : s.mode = 5) : exec .modeReqServe s = .next ((s.acceptMode 2).exitRepair 1) := by
  simp [exec, execModeReqServe, hm, still]

theorem exec_modeReqServe_dormant (hm : s.mode = 3) (first : s.aon.exitStep = 0) : exec .modeReqServe s =
    .next (((s.acceptMode 2).wr GLB_MODE.CHANGING 1).modAon fun a => { a with exitStep := 1, seqCause := 1, seqHp := 0 }) := by
  have begins : (s.acceptMode 2).dormTrigger 1 0 =
      ((s.acceptMode 2).wr GLB_MODE.CHANGING 1).modAon fun a => { a with exitStep := 1, seqCause := 1, seqHp := 0 } :=
    (if_pos ((s.acceptMode_mode 2).trans hm)).trans (if_pos first)
  simp [exec, execModeReqServe, hm, still, begins]

theorem exec_modeReqDormant_granted (hm : s.mode = 2) (free : s.dormBlocked = false) :
    exec .modeReqDormant s = .next ((s.acceptMode 3).startDormant 1) := by
  simp [exec, execModeReqDormant, hm, still, free]

theorem exec_modeReqRepair_granted (hm : s.mode = 2) (late : s.repairTooSoon = false) :
    exec .modeReqRepair s = .next ((s.acceptMode 5).enterRepair 1) := by
  simp [exec, execModeReqRepair, hm, still, late]

theorem exec_modeReqHold_granted (hm : s.mode = 4) (flush : s.aon.drain = some .flush) :
    exec .modeReqHold s = .next ((s.acceptMode 0).closeHosts).drainStep := by
  simp [exec, execModeReqHold, hm, still, flush]

end

/-- Settles O35: a refusal by its code, each request that is granted by what the mode change or its beginning leaves. -/
theorem modeRequests : Obligations.ModeRequests := by
  unfold Obligations.ModeRequests
  refine ⟨fun s code target c hm why => ?_, fun s still => ⟨fun idle source => ?_, fun hm first => ?_, fun hm free => ?_,
    fun hm late => ?_, fun hm flush => ?_⟩⟩
  · have refused : exec c s = .next (s.refuseMode target code) ∧ target < 8 ∧ code < 16 := by
      rcases why with ⟨e, why⟩ | ⟨e, why⟩ | ⟨e, why⟩ | ⟨e, why⟩ <;> obtain ⟨rfl, rfl⟩ := Prod.mk.inj e
      · exact (exec_modeReqServe_refused hm why).imp_right fun small => ⟨by decide, small⟩
      · exact (exec_modeReqDormant_refused hm why).imp_right fun small => ⟨by decide, small⟩
      · exact (exec_modeReqRepair_refused hm why).imp_right fun small => ⟨by decide, small⟩
      · exact (exec_modeReqHold_refused hm why).imp_right fun small => ⟨by decide, small⟩
    obtain ⟨run, ht, hc⟩ := refused
    exact ⟨_, run, s.refuseMode_noted ht hc⟩
  · have accepted := State.acceptMode_held idle 2
    rcases source with ⟨sprout, met⟩ | repair
    · obtain ⟨mode, prev, cause, errCode⟩ := State.enterServe_served accepted 1
      exact ⟨_, exec_modeReqServe_sprout still sprout met, mode, prev.trans (s.acceptMode_mode 2), cause,
        errCode.trans (s.acceptMode_errCode 2)⟩
    · obtain ⟨mode, prev, cause, errCode⟩ := (State.exitRepair_kept accepted 1).served
      exact ⟨_, exec_modeReqServe_repair still repair, mode, prev.trans (s.acceptMode_mode 2), cause,
        errCode.trans (s.acceptMode_errCode 2)⟩
  · refine ⟨_, exec_modeReqServe_dormant still hm first, ?_, ?_, rfl, rfl⟩
    · exact (State.modAon_on _ _ _).trans ((s.acceptMode 2).on_wr_one GLB_MODE.CHANGING rfl (by decide))
    · exact ((State.mode_wr_changing _ 1).trans (s.acceptMode_mode 2)).trans hm
  · refine ⟨_, exec_modeReqDormant_granted still hm free, State.startDormant_changing _ 1, ?_, ?_, ?_, fun p => ?_, ?_⟩
    · exact (State.startDormant_mode _ 1).trans ((s.acceptMode_mode 3).trans hm)
    · rw [State.startDormant_aon]
    · rw [State.startDormant_aon]; rfl
    · exact State.startDormant_sl _ 1 p
    · exact (s.acceptMode_frame 3).startDormant 1
  · obtain ⟨mode, prev, cause⟩ := (s.acceptMode 5).enterRepair_moved 1
    refine ⟨_, exec_modeReqRepair_granted still hm late, mode, prev.trans ((s.acceptMode_mode 5).trans hm), cause, ?_, ?_,
      State.enterRepair_reserved _ 1, ?_⟩
    · rw [State.enterRepair_entries, State.rd, s.acceptMode_reg_ne 5 (by decide)]
      rfl
    · exact State.enterRepair_sramReserved _ 1
    · rw [State.enterRepair_aon]; rfl
  · obtain ⟨drain, closeAt, regs⟩ := (s.acceptMode 0).closed_spec
    obtain ⟨low, shut⟩ := (s.acceptMode 0).shutdownDma_reg
    refine ⟨_, exec_modeReqHold_granted still hm flush, drain, closeAt, ?_, fun c => ?_⟩
    · have mode : (s.acceptMode 0).shutdownDma.mode = (s.acceptMode 0).mode := congrArg (getBits · 0 3) (low GLB_MODE.reg (by decide))
      exact (State.rd_congr regs GLB_MODE.MODE).trans (mode.trans ((s.acceptMode_mode 0).trans hm))
    · have own : (((s.acceptMode 0).closeHosts).drainStep).reg (DC_STATUS.reg c.val) = channelShut (s.reg (DC_STATUS.reg c.val)) := by
        rw [State.reg_congr regs, shut, s.acceptMode_reg_ne 0 (by simp only [DC_STATUS.reg, GLB_MODE_REQ.reg]; omega)]
      simp only [State.rd, DC_STATUS.STATE, DC_STATUS.CODE, own]
      exact channelShut_status _

/-! ### The steps of an entry to DORMANT (09 R300, Table 9.9) -/

theorem exec_dormantIdleDwell_over {s : State} (hm : s.mode = 2) (still : s.on GLB_MODE.CHANGING = false) (auto : s.on PWR_DORM.AUTO = true)
    (dwelt : max 1 (s.rd PWR_DORM.ENTRY_MS) ≤ s.aon.idleMs) (free : s.dormBlocked = false) :
    exec .dormantIdleDwell s = .next (s.startDormant 5) := by
  refine if_neg ?_
  simp only [hm, still, auto, free, Nat.not_lt.mpr dwelt]
  decide

/-- A step of the sequence is noted. -/
def State.atEntry (s : State) (n : Nat) : State := s.modAon fun a => { a with entryStep := n }

/-- Which places carry ways 4 to 15 rests on the registers and on the slice's way move alone. -/
theorem State.highWay_congr {s t : State} {p : PhysSlice} (regs : t.regs = s.regs) (move : (t.sl p).move = (s.sl p).move) (k : Nat) :
    t.highWay p k = s.highWay p k := by
  rw [State.highWay, State.highWay, State.hcSpare, State.hcSpare, Slice.spareIn, Slice.spareIn, move, State.rd_congr regs]

/-- A slice in which ways 4 to 15 are cleared, as `s` numbers them. -/
def State.lowWays (s : State) (p : PhysSlice) (x : Slice) : Slice := { x with cache := x.cache.filter fun e => !s.highWay p e.1 }

theorem State.atEntry_lowWays (s : State) (n : Nat) (p : PhysSlice) (x : Slice) : (s.atEntry n).lowWays p x = s.lowWays p x := by
  simp only [State.lowWays, State.highWay_congr (s := s) (t := s.atEntry n) (p := p) rfl rfl]

theorem State.dropHighWays_all (s : State) : (∀ p, (allSlices.foldl (fun s p => s.dropHighWays p) s).sl p = s.lowWays p (s.sl p)) ∧
    allSlices.foldl (fun s p => s.dropHighWays p) s =
      { s with slices := (allSlices.foldl (fun s p => s.dropHighWays p) s).slices } := by
  let Q (u : State) : Prop := u.regs = s.regs ∧ ∀ q, (u.sl q).move = (s.sl q).move
  have own : ∀ (u : State) (p : PhysSlice), Q u → (u.dropHighWays p).sl p = s.lowWays p (u.sl p) := fun u p h => by
    rw [State.dropHighWays, State.sl_modSl_same, State.lowWays]
    simp only [State.highWay_congr h.1 (h.2 p)]
  have keeps : ∀ (u : State) (p : PhysSlice), Q u → Q (u.dropHighWays p) := fun u p h => by
    refine ⟨h.1, fun q => ?_⟩
    by_cases e : q = p
    · rw [e, own u p h]
      exact h.2 p
    · rw [State.dropHighWays, State.sl_modSl_ne _ _ e]
      exact h.2 q
  have others : ∀ (u : State) (p q : PhysSlice), q ≠ p → (u.dropHighWays p).sl q = u.sl q := fun u p q ne => u.sl_modSl_ne _ ne
  constructor
  · exact fun p => (foldl_own (get := fun q u => State.sl u q) (key := id) (F := s.lowWays) keeps own others allSlices s ⟨rfl, fun _ => rfl⟩
      (allSlices_nodup.map fun _ _ same => same)).2 p (List.mem_finRange p)
  · exact holds_of_foldl (P := fun t : State => t = { s with slices := t.slices }) (fun _ _ h => by rw [h]; rfl) allSlices s rfl

/-- What step 3 ends with: the channels sleep, and the ports are narrowed. -/
def State.asleep (s : State) : State :=
  (((s.atEntry 4).modMf fun m => { m with sleeping := List.range 38 }).sleepChannels).narrowPorts

section
variable {s : State} (hm : s.mode = 2)
include hm

theorem exec_dormantEntryStepEnd_one (step : s.aon.entryStep = 1) (clean : ∀ p, s.highWaysClean p = true) :
    exec .dormantEntryStepEnd s = .next (allSlices.foldl (fun s p => s.dropHighWays p) (s.atEntry 2)) := by
  have all : allSlices.all s.highWaysClean = true := List.all_eq_true.mpr fun p _ => clean p
  simp only [exec, execDormantEntryStepEnd, hm, step, all, ne_eq, not_true_eq_false, if_false, if_true]
  rfl

theorem exec_dormantEntryStepEnd_three (step : s.aon.entryStep = 3)
    (low : ∀ p : PhysSlice, s.rd (SL_DVFS.OPP_NOW p.val) = 0 ∧ (s.sl p).ramp = none) : exec .dormantEntryStepEnd s = .next s.asleep := by
  have all : (allSlices.all fun p => s.rd (SL_DVFS.OPP_NOW p.val) == 0 && (s.sl p).ramp.isNone) = true :=
    List.all_eq_true.mpr fun p _ => by simp [low p]
  simp only [exec, execDormantEntryStepEnd, hm, step, all, ne_eq, not_true_eq_false, if_false, if_true]
  rfl

theorem exec_dormantEntryStepEnd_last (step : s.aon.entryStep = 4) (quiet : s.aon.exitCause = none) : exec .dormantEntryStepEnd s =
    .next ((((s.atEntry 0).setMode 3 s.aon.seqCause s.aon.seqHp).inc GLB_MODE.DORMANT_ENTRIES).modAon fun a =>
      { a with exitCause := none }) := by
  simp only [exec, execDormantEntryStepEnd, hm, step, quiet, ne_eq, not_true_eq_false, if_false]
  rfl

theorem exec_dormantEntryTimeout_due (step : s.aon.entryStep = 1) (late : s.aon.entryAt + 1000 ≤ s.now) :
    exec .dormantEntryTimeout s = .next s.abortDormant := if_pos ⟨hm, step, late⟩

end

/-- Messages in a row are added to the log in their order. -/
theorem State.foldl_emit {α : Type} (f : α → Out) : ∀ (l : List α) (s : State),
    l.foldl (fun s a => s.emit (f a)) s = { s with out := s.out ++ l.map f }
  | [], s => by rw [List.foldl_nil, List.map_nil, List.append_nil]
  | a :: l, s => by
    rw [List.foldl_cons, foldl_emit f l, List.map_cons, ← List.singleton_append, ← List.append_assoc]
    rfl

/-- Every channel that is not lost is sent into light sleep, and nothing else is done. -/
theorem State.sleepChannels_eq (s : State) : s.sleepChannels =
    { s with out := s.out ++ ((List.finRange 38).filter fun c => s.chState c != 3).map Out.lightSleep } := State.foldl_emit _ _ _

theorem State.narrowPorts_frame (s : State) :
    s.narrowPorts = { s with regs := s.narrowPorts.regs, ports := s.narrowPorts.ports, out := s.narrowPorts.out } := by
  unfold State.narrowPorts
  exact holds_of_foldl (P := fun t : State => t = { s with regs := t.regs, ports := t.ports, out := t.out })
    (fun _ _ h => by rw [h]; rfl) _ s rfl

theorem State.narrowPorts_out (s : State) : s.out <+: s.narrowPorts.out := (State.narrowPorts_evolves (Evolves.refl s)).out

theorem State.asleep_spec (s : State) : s.asleep.aon.entryStep = 4 ∧ s.asleep.mf.sleeping = List.range 38 ∧
    ∀ c, s.chState c ≠ 3 → Out.lightSleep c ∈ s.asleep.out := by
  have channels := ((s.atEntry 4).modMf fun m => { m with sleeping := List.range 38 }).sleepChannels_eq
  unfold State.asleep
  generalize ((s.atEntry 4).modMf fun m => { m with sleeping := List.range 38 }).sleepChannels = u at channels
  have kept := u.narrowPorts_out
  have frame := u.narrowPorts_frame
  generalize u.narrowPorts = t at kept frame
  refine ⟨by rw [frame, channels]; rfl, by rw [frame, channels]; rfl, fun c present => kept.subset ?_⟩
  rw [channels]
  exact List.mem_append_right _ (List.mem_map_of_mem (List.mem_filter.mpr ⟨List.mem_finRange c, bne_iff_ne.mpr present⟩))

/-- The last step makes the mode DORMANT, and counts the entry. -/
theorem State.dormantCounted (s : State) (cause hp : Nat) : ((s.setMode 3 cause hp).inc GLB_MODE.DORMANT_ENTRIES).mode = 3 ∧
    ((s.setMode 3 cause hp).inc GLB_MODE.DORMANT_ENTRIES).rd GLB_MODE.PREV = s.mode ∧
    ((s.setMode 3 cause hp).inc GLB_MODE.DORMANT_ENTRIES).rd GLB_MODE.CAUSE = cause % 16 ∧
    ((s.setMode 3 cause hp).inc GLB_MODE.DORMANT_ENTRIES).rd GLB_MODE.DORMANT_ENTRIES =
      min (s.rd GLB_MODE.DORMANT_ENTRIES + 1) (2 ^ GLB_MODE.DORMANT_ENTRIES.w - 1) := by
  obtain ⟨mode, prev, noted⟩ := s.setMode_moved 3 cause hp
  refine ⟨?_, ?_, ?_, ?_⟩
  · exact (State.rd_wr_disjoint _ _ _ _ (by decide)).trans mode
  · exact (State.rd_wr_disjoint _ _ _ _ (by decide)).trans prev
  · exact (State.rd_wr_disjoint _ _ _ _ (by decide)).trans noted
  · rw [State.rd_inc_same _ _ _ (by decide), s.setMode_modeKept 3 cause hp GLB_MODE.DORMANT_ENTRIES rfl (.inr (by decide)),
      s.modeWritten_count 3 cause hp (by decide)]

/-! ### An entry that ends before its step 3 (09 R300) -/

/-- What the end of the entry notes before the slices have their ways back. -/
def State.dormantGivenUp (s : State) : State := (s.wr GLB_MODE.CHANGING 0).modAon fun a => { a with entryStep := 0 }

theorem State.abortDormant_eq (s : State) : s.abortDormant =
    allSlices.foldl (fun s p => s.modSl p fun x => { x with dormantWays := false }) s.dormantGivenUp := rfl

theorem State.abortDormant_frame (s : State) : s.abortDormant = { s.dormantGivenUp with slices := s.abortDormant.slices } := by
  rw [abortDormant_eq]
  exact State.foldl_modSl_frame _ allSlices s.dormantGivenUp

theorem State.abortDormant_rd (s : State) (f : Fld) : s.abortDormant.rd f = (s.wr GLB_MODE.CHANGING 0).rd f :=
  State.rd_congr (by rw [abortDormant_frame, dormantGivenUp, State.modAon_regs]) f

theorem State.abortDormant_ways (s : State) (p : PhysSlice) : (s.abortDormant.sl p).dormantWays = false := by
  rw [abortDormant_eq, sl_allSlices_modSl]

/-! ### The steps of an exit from DORMANT (09 R301, R302, Table 9.10) -/

theorem State.dormTrigger_begins {s : State} (hm : s.mode = 3) (first : s.aon.exitStep = 0) (cause hp : Nat) :
    s.dormTrigger cause hp = (s.wr GLB_MODE.CHANGING 1).modAon fun a => { a with exitStep := 1, seqCause := cause, seqHp := hp } :=
  (if_pos hm).trans (if_pos first)

/-- A step of the exit is noted. -/
def State.atExit (s : State) (n : Nat) : State := s.modAon fun a => { a with exitStep := n }

/-- Asking the ports for full width is work at the ports (02 R79). -/
theorem State.widenPorts_portWork (s : State) : PortWork s s.widenPorts := by
  unfold State.widenPorts
  exact holds_of_foldl (P := PortWork s) (fun _ _ h => (h.modPort _ _).emit _) _ s (PortWork.refl s)

/-- The end of an exit from DORMANT, but for what the slices ask of their rails. -/
def State.dormantLeft (s : State) : State :=
  ((s.atExit 0).setMode 2 s.aon.seqCause s.aon.seqHp).widenPorts.modAon fun a =>
    { a with dormantEnd := some a.time, repairAfterExit := false, idleMs := 0 }

section
variable {s : State} (hm : s.mode = 3)
include hm

theorem exec_dormantExitStepEnd_two (step : s.aon.exitStep = 2) (settled : ∀ p, (s.sl p).ramp = none) :
    exec .dormantExitStepEnd s = .next (s.atExit 3) := by
  have all : (allSlices.all fun p => (s.sl p).ramp.isNone) = true := List.all_eq_true.mpr fun p _ => by rw [settled p]; rfl
  simp only [exec, execDormantExitStepEnd, hm, step, all, ne_eq, not_true_eq_false, if_false, if_true]
  rfl

theorem exec_dormantExitStepEnd_last (step : s.aon.exitStep = 3) (whole : s.aon.repairAfterExit = false) :
    exec .dormantExitStepEnd s = .next s.dormantLeft.retargetAll := by
  simp only [exec, execDormantExitStepEnd, hm, step, whole, ne_eq, not_true_eq_false, if_false]
  rfl

end

theorem State.dormantLeft_aon (s : State) : s.dormantLeft.aon =
    { s.aon with exitStep := 0, dormantEnd := some s.now, repairAfterExit := false, idleMs := 0 } := by
  have ports := ((s.atExit 0).setMode 2 s.aon.seqCause s.aon.seqHp).widenPorts_portWork.1
  rw [dormantLeft, State.modAon_aon, ports, State.setMode_aon]
  rfl

theorem State.dormantLeft_modeKept (s : State) :
    ModeKept ((s.atExit 0).modeWritten 2 s.aon.seqCause s.aon.seqHp) s.dormantLeft.retargetAll := by
  have changed := (s.atExit 0).setMode_modeKept 2 s.aon.seqCause s.aon.seqHp
  have ports := ((s.atExit 0).setMode 2 s.aon.seqCause s.aon.seqHp).widenPorts_portWork.2 GLB_MODE.reg (by decide)
  have left : ModeKept _ s.dormantLeft := (changed.of_reg ports).regs (State.modAon_regs _ _)
  exact left.of_reg ((RampWork.refl _).retargetAll.regs _ (by decide))

/-- Settles O37: each step by its command's equation, and what it leaves. -/
theorem dormantRunsItsSteps : Obligations.DormantRunsItsSteps := by
  unfold Obligations.DormantRunsItsSteps
  refine fun s => ⟨fun hm still auto dwelt free => ?_, fun hm step clean => ?_, fun hm step low => ?_, fun hm step quiet => ?_,
    fun hm step late => ?_, fun hm first enough => ?_, exec_dormantExitStepEnd_two, fun hm step whole => ?_⟩
  · refine ⟨_, exec_dormantIdleDwell_over hm still auto dwelt free, s.startDormant_changing 5, ?_, ?_, fun p => ?_,
      (State.RegsOnly.refl s).startDormant 5⟩
    · rw [State.startDormant_aon]
    · rw [State.startDormant_aon]
    · rw [State.startDormant_sl]
  · obtain ⟨ways, frame⟩ := (s.atEntry 2).dropHighWays_all
    have run := exec_dormantEntryStepEnd_one hm step clean
    generalize allSlices.foldl (fun s p => State.dropHighWays s p) (s.atEntry 2) = t at ways frame run
    exact ⟨t, run, by rw [frame]; rfl, fun p => (ways p).trans (s.atEntry_lowWays 2 p _), by rw [frame]; rfl⟩
  · exact ⟨_, exec_dormantEntryStepEnd_three hm step low, s.asleep_spec⟩
  · obtain ⟨mode, prev, cause, entries⟩ := (s.atEntry 0).dormantCounted s.aon.seqCause s.aon.seqHp
    refine ⟨_, exec_dormantEntryStepEnd_last hm step quiet, (State.modAon_mode _ _).trans mode, ?_,
      (State.modAon_rd _ _ _).trans (prev.trans hm), (State.modAon_rd _ _ _).trans cause, (State.modAon_rd _ _ _).trans entries⟩
    rw [State.modAon_aon, State.inc, State.wr_aon, State.setMode_aon]
    rfl
  · refine ⟨_, exec_dormantEntryTimeout_due hm step late, ?_, ?_, ?_, s.abortDormant_ways⟩
    · exact (congrArg (· != 0) (s.abortDormant_rd _)).trans (s.on_wr_zero _ rfl (by decide))
    · rw [State.abortDormant_frame]
      rfl
    · exact ((s.abortDormant_rd _).trans (s.mode_wr_changing 0)).trans hm
  · exact (if_pos enough).trans (congrArg Host.Outcome.next (State.dormTrigger_begins hm first 5 0))
  · obtain ⟨mode, prev, -⟩ := s.dormantLeft_modeKept.moved
    have ramped := (RampWork.refl s.dormantLeft).retargetAll.aon
    refine ⟨_, exec_dormantExitStepEnd_last hm step whole, mode, prev.trans hm, ?_, ?_⟩
    · rw [ramped, State.dormantLeft_aon]
    · rw [ramped, State.dormantLeft_aon]

/-! ### REPAIR begins and ends (09 R294, R304, R305) -/

section
variable {s : State}

theorem exec_controlComplexLoss (s : State) : exec .controlComplexLoss s = .next s.repairCause := rfl

theorem State.repairCause_serve (hm : s.mode = 2) (outside : s.aon.entryStep = 0) :
    s.repairCause = if s.repairTooSoon then s.modAon fun a => { a with heldCause := true } else s.enterRepair 7 := by
  simp [State.repairCause, hm, outside]

/-- Once SERVE has lasted 1 ms since the last exit, a cause that was held is met as a new one is. -/
theorem exec_repairCauseRelease_due (hm : s.mode = 2) (held : s.aon.heldCause = true) (late : s.repairTooSoon = false) :
    exec .repairCauseRelease s = exec .controlComplexLoss s := if_pos ⟨held, hm, by rw [late]; rfl⟩

/-- In DORMANT the exit begins, and REPAIR is noted to follow it. -/
theorem State.repairCause_dormant (hm : s.mode = 3) (first : s.aon.exitStep = 0) : s.repairCause =
    (s.wr GLB_MODE.CHANGING 1).modAon fun a => { a with exitStep := 1, seqCause := 7, seqHp := 0, repairAfterExit := true } := by
  simp only [State.repairCause, hm, State.dormTrigger_begins hm first]
  rfl

variable (hm : s.mode = 5)
include hm

theorem exec_repairTimeout_due (late : s.aon.repairAt + 5000 ≤ s.now) : exec .repairTimeout s =
    .next ((s.draw.exitRepair 8).major 0x58 ((Config.freeWord s.freeTick).extractLsb' 0 40)) := if_pos ⟨hm, late⟩

end

theorem exec_repairTimeout_early {s : State} (early : s.now < s.aon.repairAt + 5000) : exec .repairTimeout s = .next s :=
  if_neg fun due => Nat.not_lt.mpr due.2 early

/-- Settles O38: a cause by the mode that meets it, the end of REPAIR by its command's equation. -/
theorem repairBeginsAndEnds : Obligations.RepairBeginsAndEnds := by
  unfold Obligations.RepairBeginsAndEnds
  refine fun s => ⟨fun hm outside => ⟨fun late => ?_, fun soon => ?_⟩, fun hm first => ?_, exec_repairTimeout_due,
    fun _ => exec_repairTimeout_early⟩
  · have run : exec .controlComplexLoss s = .next (s.enterRepair 7) := by
      rw [exec_controlComplexLoss, State.repairCause_serve hm outside, late, if_neg Bool.false_ne_true]
    obtain ⟨mode, prev, cause⟩ := s.enterRepair_moved 7
    refine ⟨_, run, mode, prev.trans hm, cause, ?_, s.enterRepair_reserved 7, s.enterRepair_sramReserved 7,
      fun held => (exec_repairCauseRelease_due hm held late).trans run⟩
    rw [State.enterRepair_aon]
  · rw [exec_controlComplexLoss, State.repairCause_serve hm outside, soon, if_pos rfl]
  · rw [exec_controlComplexLoss, State.repairCause_dormant hm first]

end Sys2Proof.Machine
end

section
/-! PROOFS. The statement of chapter 9 on the reset invalidation (09 R298, Table 9.8; 05 R180). -/

namespace Sys2Proof.Machine

/-! ### Tables: reading by their entries -/

theorem Tbl.look_of_mem {α : Type} (d : α) {k : Nat} {v : α} : ∀ {t : Tbl α}, t.Pairwise (fun a b => a.1 < b.1) → (k, v) ∈ t →
    Tbl.look d k t = v
  | (j, w) :: r, rises, mem => by
    obtain ⟨above, rises⟩ := List.pairwise_cons.mp rises
    rcases List.mem_cons.mp mem with here | later
    · obtain ⟨rfl, rfl⟩ := Prod.mk.inj here
      exact if_pos rfl
    · rw [look, if_neg (Nat.ne_of_lt (above _ later)), look_of_mem d rises later]

theorem Tbl.look_of_not_mem {α : Type} (d : α) {k : Nat} : ∀ {t : Tbl α}, k ∉ t.map (·.1) → Tbl.look d k t = d
  | [], _ => rfl
  | (j, w) :: r, out => by
    obtain ⟨ne, out⟩ := not_or.mp (mt List.mem_cons.mpr out)
    rw [look, if_neg (Ne.symm ne), look_of_not_mem d out]

/-- No tag word is left, in whatever order the ways are listed. -/
theorem Tbl.clearTags_tags (t : Tbl CacheWay) (k : Nat) :
    ((Tbl.clearTags t).look CacheWay.empty k).tagA = TagWord.empty ∧ ((Tbl.clearTags t).look CacheWay.empty k).tagB = TagWord.empty := by
  refine holds_of_foldl (P := fun u : Tbl CacheWay => (u.look CacheWay.empty k).tagA = TagWord.empty ∧
    (u.look CacheWay.empty k).tagB = TagWord.empty) (fun u e h => ?_) t [] ⟨rfl, rfl⟩
  by_cases own : k = e.1
  · rw [own, Tbl.look_put_same]
    exact ⟨rfl, rfl⟩
  · rw [Tbl.look_put_ne _ _ _ _ own]
    exact h

/-- The data of each way stays. -/
theorem Tbl.clearTags_data {t : Tbl CacheWay} (sorted : Tbl.sorted t = true) (k : Nat) :
    ((Tbl.clearTags t).look CacheWay.empty k).data = (t.look CacheWay.empty k).data := by
  have rises := (Tbl.sorted_iff t).mp sorted
  obtain ⟨others, cleared⟩ := foldl_own (get := fun k (u : Tbl CacheWay) => u.look CacheWay.empty k) (key := Prod.fst)
    (F := fun (e : Nat × CacheWay) _ => ⟨TagWord.empty, TagWord.empty, e.2.data⟩) (Q := fun _ => True) (fun _ _ _ => trivial)
    (f := fun u e => Tbl.put CacheWay.empty e.1 ⟨TagWord.empty, TagWord.empty, e.2.data⟩ u)
    (fun u e _ => Tbl.look_put_same _ e.1 _ u) (fun u e _ ne => Tbl.look_put_ne _ _ _ u ne) t [] trivial
    (rises.map _ fun _ _ lt => Nat.ne_of_lt lt)
  by_cases listed : k ∈ t.map Prod.fst
  · obtain ⟨⟨j, w⟩, mem, rfl⟩ := List.mem_map.mp listed
    rw [Tbl.look_of_mem _ rises mem]
    have own := congrArg CacheWay.data (cleared (j, w) mem)
    exact own
  · rw [Tbl.look_of_not_mem _ listed]
    exact congrArg CacheWay.data (others k listed)

/-! ### What is cleared (09 Table 9.8) -/

/-- A slice as the invalidation leaves it. -/
def Slice.invalidated (x : Slice) : Slice :=
  { x with
    trackers := [], waitq := [], wbs := [], ingress := [], filter := [], sfPtr := [], victims := [], hcPtr := [],
    evict := [], cleanSet := 0, budgetQ := [], segOnes := false, segment := [], range := none, regions := [],
    cache := Tbl.clearTags x.cache }

/-- One slice is invalidated, and says so. -/
def State.sliceCleared (s : State) (p : PhysSlice) : State := (s.modSl p Slice.invalidated).wr (SL_STATUS.CLEARED p.val) 1

/-- Every slice is. -/
def State.slicesCleared (s : State) : State := allSlices.foldl State.sliceCleared s

/-- No host port has anything parked. -/
def State.parksCleared (s : State) : State := allHosts.foldl (fun s h => s.modPort h fun x => { x with park := [] }) s

/-- The invalidation of the slices, and of what the stops have parked. -/
def State.invalidated (s : State) : State :=
  { s.slicesCleared.parksCleared with
    iaPark := [], boot := { s.slicesCleared.parksCleared.boot with invalidated := true } }

theorem exec_resetInvalidationDone_again {s : State} (done : s.boot.invalidated = true) :
    exec .resetInvalidationDone s = .next s := if_pos (.inr done)

theorem exec_resetInvalidationDone_first {s : State} (hm : s.mode = 1) (fresh : s.boot.invalidated = false) :
    exec .resetInvalidationDone s = .next s.invalidated := by
  refine (if_neg (by simp [hm, fresh])).trans ?_
  rfl

theorem State.slicesCleared_sl (s : State) (p : PhysSlice) : s.slicesCleared.sl p = (s.sl p).invalidated := by
  have own : ∀ (u : State) (q : PhysSlice), (u.sliceCleared q).sl q = (u.sl q).invalidated := fun u q => by
    rw [State.sliceCleared, State.wr_sl, State.sl_modSl_same]
  have other : ∀ (u : State) (q r : PhysSlice), r ≠ q → (u.sliceCleared q).sl r = u.sl r := fun u q r ne => by
    rw [State.sliceCleared, State.wr_sl, State.sl_modSl_ne _ _ ne]
  exact (foldl_own (get := fun q u => State.sl u q) (key := id) (F := fun _ => Slice.invalidated) (Q := fun _ => True)
    (f := State.sliceCleared) (fun _ _ _ => trivial) (fun u q _ => own u q) other allSlices s trivial
    (allSlices_nodup.map fun _ _ same => same)).2 p (List.mem_finRange p)

theorem State.slicesCleared_cleared (s : State) (p : PhysSlice) : s.slicesCleared.on (SL_STATUS.CLEARED p.val) = true := by
  have set : s.slicesCleared.reg (SL_STATUS.reg p.val) = putBits (s.reg (SL_STATUS.reg p.val)) 4 1 1 :=
    State.reg_foldl_slices (F := fun v => putBits v 4 1 1) (fun _ _ same => by simp only [SL_STATUS.reg] at same; omega)
      (fun u q => (u.modSl q Slice.invalidated).reg_wr_same (SL_STATUS.CLEARED q.val) 1)
      (fun u q _ ne => (u.modSl q Slice.invalidated).reg_wr_ne (SL_STATUS.CLEARED q.val) 1 ne) s p
  have bit : s.slicesCleared.rd (SL_STATUS.CLEARED p.val) = 1 :=
    (congrArg (getBits · 4 1) set).trans (getBits_putBits_same _ _ _ _ (by decide))
  rw [State.on, bit]
  rfl

theorem State.slicesCleared_frame (s : State) :
    s.slicesCleared = { s with regs := s.slicesCleared.regs, slices := s.slicesCleared.slices } :=
  holds_of_foldl (P := fun t : State => t = { s with regs := t.regs, slices := t.slices }) (f := State.sliceCleared)
    (fun _ _ h => by rw [h]; rfl) allSlices s rfl

theorem State.parksCleared_frame (s : State) : s.parksCleared = { s with ports := s.parksCleared.ports } :=
  holds_of_foldl (P := fun t : State => t = { s with ports := t.ports }) (f := fun s h => s.modPort h fun x => { x with park := [] })
    (fun _ _ h => by rw [h]; rfl) allHosts s rfl

theorem State.invalidated_frame (s : State) : s.invalidated = { s.slicesCleared with
    ports := s.invalidated.ports, iaPark := [], boot := { s.slicesCleared.boot with invalidated := true } } := by
  have parks := s.slicesCleared.parksCleared_frame
  unfold State.invalidated
  generalize s.slicesCleared.parksCleared = t at parks
  rw [parks]

theorem State.invalidated_sl (s : State) (p : PhysSlice) : s.invalidated.sl p = (s.sl p).invalidated := by
  have slices : s.invalidated.slices = s.slicesCleared.slices := by rw [invalidated_frame]
  exact (congrArg (Tbl.look Slice.empty p.val) slices).trans (s.slicesCleared_sl p)

theorem State.invalidated_way (s : State) (p : PhysSlice) (set w : Nat) :
    s.invalidated.way p set w = (Tbl.clearTags (s.sl p).cache).look CacheWay.empty (set * 17 + w) := by
  rw [State.way, invalidated_sl]
  rfl

/-- Settles O39: each slice by its clearing, the ways by their table's. -/
theorem resetInvalidationClearsTheSlices : Obligations.ResetInvalidationClearsTheSlices := by
  unfold Obligations.ResetInvalidationClearsTheSlices
  intro s hm
  refine ⟨exec_resetInvalidationDone_again, fun fresh => ?_⟩
  have run := exec_resetInvalidationDone_first hm fresh
  have frame := s.invalidated_frame
  have slices := s.slicesCleared_frame
  have cleared (p : PhysSlice) : s.invalidated.on (SL_STATUS.CLEARED p.val) = true :=
    (congrArg (· != 0) (State.rd_congr (by rw [frame]) _)).trans (s.slicesCleared_cleared p)
  have own := s.invalidated_sl
  have ways := s.invalidated_way
  generalize s.invalidated = t at run frame cleared own ways
  generalize s.slicesCleared = u at frame slices
  refine ⟨t, run, by rw [frame], fun p => ?_, by rw [frame, slices], by rw [frame, slices], by rw [frame, slices], by rw [frame, slices]⟩
  rw [own p]
  refine ⟨rfl, rfl, rfl, rfl, rfl, rfl, rfl, fun _ => rfl, cleared p, fun set w => ?_⟩
  rw [ways p set w]
  obtain ⟨tagA, tagB⟩ := Tbl.clearTags_tags (s.sl p).cache (set * 17 + w)
  exact ⟨tagA, tagB, fun sorted => Tbl.clearTags_data sorted _⟩

end Sys2Proof.Machine
end

section
/-! PROOFS. The statement of chapter 9 on operating points and the temperature's ceiling (09 R307 to R310; 17 R496, R498). -/

namespace Sys2Proof.Machine

/-! ### A change of operating point (09 R307) -/

theorem State.wr_emit (s : State) (o : Out) (f : Fld) (x : Nat) : (s.emit o).wr f x = (s.wr f x).emit o := rfl

theorem State.inc_emit (s : State) (o : Out) (f : Fld) (k : Nat) : (s.emit o).inc f k = (s.inc f k).emit o := rfl

theorem State.wrAll_nil (s : State) : s.wrAll [] = s := rfl

theorem State.wrAll_cons (s : State) (e : Fld × Nat) (l : List (Fld × Nat)) : s.wrAll (e :: l) = (s.wr e.1 e.2).wrAll l := rfl

theorem State.wrAll_sl (s : State) (l : List (Fld × Nat)) (p : PhysSlice) : (s.wrAll l).sl p = s.sl p := by
  have slices : (s.wrAll l).slices = s.slices := by rw [(State.RegsOnly.refl s).wrAll l]
  exact congrArg (Tbl.look Slice.empty p.val) slices

theorem State.startOpp_same {s : State} {p : PhysSlice} {target : Nat} (same : target = s.rd (SL_DVFS.OPP_NOW p.val)) :
    s.startOpp p target = s := if_pos same

/-- What a change of operating point writes as it starts: downwards the clock switches at once, and the switch is counted. -/
def State.oppWrites (s : State) (p : PhysSlice) (target : Nat) : List (Fld × Nat) :=
  (SL_DVFS.BUSY p.val, 1) :: if s.rd (SL_DVFS.OPP_NOW p.val) < target then [] else [(SL_DVFS.OPP_NOW p.val, target),
    (SL_DVFS.SWITCHES p.val, min (((s.wr (SL_DVFS.BUSY p.val) 1).wr (SL_DVFS.OPP_NOW p.val) target).rd (SL_DVFS.SWITCHES p.val) + 1)
      (2 ^ (SL_DVFS.SWITCHES p.val).w - 1))]

theorem State.startOpp_eq {s : State} {p : PhysSlice} {target : Nat} (ne : target ≠ s.rd (SL_DVFS.OPP_NOW p.val)) :
    s.startOpp p target = ((s.wrAll (s.oppWrites p target)).emit (.voltage p target)).modSl p fun x =>
      { x with ramp := some ⟨target, decide (s.rd (SL_DVFS.OPP_NOW p.val) < target)⟩ } := by
  unfold State.startOpp
  extract_lets now asked
  rw [if_neg ne]
  by_cases up : now < target
  · rw [if_pos up, oppWrites, if_pos up, decide_eq_true up, wrAll_cons, wrAll_nil]
  · rw [if_neg up, oppWrites, if_neg up, decide_eq_false up, wr_emit, inc_emit, State.inc, wrAll_cons, wrAll_cons, wrAll_cons, wrAll_nil]

theorem State.oppWrites_apart (s : State) (p : PhysSlice) (target : Nat) :
    (s.oppWrites p target).Pairwise (fun a b => b.1.Apart a.1) ∧
      ∀ e ∈ s.oppWrites p target, e.1.off = SL_DVFS.reg p.val ∧ e.1.Apart (SL_DVFS.OPP_TARGET p.val) := by
  unfold State.oppWrites
  split <;> simp [Fld.Apart, SL_DVFS.BUSY, SL_DVFS.OPP_NOW, SL_DVFS.SWITCHES, SL_DVFS.OPP_TARGET]

section
variable {s : State} {p : PhysSlice} {target : Nat} (ne : target ≠ s.rd (SL_DVFS.OPP_NOW p.val))
include ne

theorem State.startOpp_rd (f : Fld) : (s.startOpp p target).rd f = (s.wrAll (s.oppWrites p target)).rd f := by
  rw [startOpp_eq ne, State.modSl_rd, State.emit_rd]

theorem State.startOpp_now (fits : target < 8) : (s.startOpp p target).rd (SL_DVFS.OPP_NOW p.val) =
    if s.rd (SL_DVFS.OPP_NOW p.val) < target then s.rd (SL_DVFS.OPP_NOW p.val) else target := by
  rw [startOpp_rd ne]
  split
  case isTrue up =>
    refine State.rd_wrAll_apart _ _ s fun e mem => ?_
    rw [oppWrites, if_pos up, List.mem_singleton] at mem
    rw [mem]
    exact .inr (.inl (by decide : 3 + 3 ≤ 6))
  case isFalse down =>
    refine State.rd_wrAll_fits fits (by decide : 3 + 3 ≤ 64) s (s.oppWrites_apart p target).1 ?_
    rw [oppWrites, if_neg down]
    exact List.mem_cons_of_mem _ List.mem_cons_self

theorem State.startOpp_busy : (s.startOpp p target).on (SL_DVFS.BUSY p.val) = true := by
  rw [State.on, startOpp_rd ne, State.rd_wrAll_mem (x := 1) (by decide : 6 + 1 ≤ 64) s (s.oppWrites_apart p target).1 List.mem_cons_self]
  rfl

theorem State.startOpp_out : (s.startOpp p target).out = s.out ++ [.voltage p target] := by
  have kept : (s.wrAll (s.oppWrites p target)).out = s.out := by rw [(State.RegsOnly.refl s).wrAll _]
  rw [startOpp_eq ne, State.modSl_out, State.emit_out, kept]

theorem State.startOpp_ramp : (s.startOpp p target).sl p =
    { s.sl p with ramp := some ⟨target, decide (s.rd (SL_DVFS.OPP_NOW p.val) < target)⟩ } := by
  rw [startOpp_eq ne, State.sl_modSl_same, State.emit_sl, State.wrAll_sl]

end

/-- The target, the other registers and the other slices have no part in it. -/
theorem State.startOpp_others (s : State) (p : PhysSlice) (target : Nat) :
    (s.startOpp p target).rd (SL_DVFS.OPP_TARGET p.val) = s.rd (SL_DVFS.OPP_TARGET p.val) ∧
      (∀ o, o ≠ SL_DVFS.reg p.val → (s.startOpp p target).reg o = s.reg o) ∧
      ∀ q, q ≠ p → (s.startOpp p target).sl q = s.sl q := by
  by_cases same : target = s.rd (SL_DVFS.OPP_NOW p.val)
  · rw [State.startOpp_same same]
    exact ⟨rfl, fun _ _ => rfl, fun _ _ => rfl⟩
  · obtain ⟨-, own⟩ := s.oppWrites_apart p target
    refine ⟨?_, fun o ne => ?_, fun q ne => ?_⟩
    · rw [State.startOpp_rd same]
      exact State.rd_wrAll_apart _ _ s fun e mem => (own e mem).2
    · rw [State.startOpp_eq same, State.modSl_reg, State.emit_reg]
      exact State.reg_wrAll_ne (fun e mem => (own e mem).1 ▸ ne.symm) s
    · rw [State.startOpp_eq same, State.sl_modSl_ne _ _ ne, State.emit_sl, State.wrAll_sl]

/-- In SERVE with no entry to DORMANT the goal is the target, up to the ceiling. -/
theorem State.oppGoal_serve {s : State} (hm : s.mode = 2) (outside : s.aon.entryStep = 0) (p : PhysSlice) :
    s.oppGoal p = min (s.rd (SL_DVFS.OPP_TARGET p.val)) (s.rd PWR_STATUS.CEIL) := by
  simp [State.oppGoal, hm, outside]

/-- The change that the new target asks for starts at once. -/
theorem exec_oppTargetWrite_live {s : State} {p : PhysSlice} (opp : BitVec 3) (hm : s.mode = 2) (outside : s.aon.entryStep = 0)
    (live : s.slHusked p = false) (still : (s.sl p).ramp = none) : exec (.oppTargetWrite p opp) s =
      .next ((s.wr (SL_DVFS.OPP_TARGET p.val) opp.toNat).startOpp p (min opp.toNat (s.rd PWR_STATUS.CEIL))) := by
  have mode : (s.wr (SL_DVFS.OPP_TARGET p.val) opp.toNat).mode = 2 :=
    (s.rd_wr_off _ _ _ (by simp only [SL_DVFS.OPP_TARGET, SL_DVFS.reg, GLB_MODE.MODE, GLB_MODE.reg]; omega)).trans hm
  have ceil : (s.wr (SL_DVFS.OPP_TARGET p.val) opp.toNat).rd PWR_STATUS.CEIL = s.rd PWR_STATUS.CEIL :=
    s.rd_wr_off _ _ _ (by simp only [SL_DVFS.OPP_TARGET, SL_DVFS.reg, PWR_STATUS.CEIL, PWR_STATUS.reg]; omega)
  have own : (s.wr (SL_DVFS.OPP_TARGET p.val) opp.toNat).rd (SL_DVFS.OPP_TARGET p.val) = opp.toNat :=
    (s.rd_wr_same _ _ (by decide : 0 + 3 ≤ 64)).trans (Nat.mod_eq_of_lt opp.isLt)
  have goal := State.oppGoal_serve mode outside p
  rw [own, ceil] at goal
  have on : s.mode ≠ 0 := by omega
  have free : ((s.wr (SL_DVFS.OPP_TARGET p.val) opp.toNat).sl p).ramp.isSome = false := by rw [State.wr_sl, still]; rfl
  simp only [exec, execOppTargetWrite, if_neg on, live, Bool.false_eq_true, if_false, State.retarget, free, goal]

theorem exec_regulatorSettled_ramp {s : State} {p : PhysSlice} {r : Ramp} (ramp : (s.sl p).ramp = some r) :
    exec (.regulatorSettled p) s = .next ((((if r.up then (s.wr (SL_DVFS.OPP_NOW p.val) r.target).inc (SL_DVFS.SWITCHES p.val) else s).modSl p
      fun x => { x with ramp := none }).wr (SL_DVFS.BUSY p.val) 0).retarget p) := by
  simp only [exec, execRegulatorSettled, ramp]

theorem exec_regulatorTimeout_ramp {s : State} {p : PhysSlice} {r : Ramp} (ramp : (s.sl p).ramp = some r) :
    exec (.regulatorTimeout p) s = .next (s.draw.major 0x58 ((Config.freeWord s.freeTick).extractLsb' 0 40)) :=
  if_neg (by simp [ramp])

/-! ### The temperature (09 R309, Table 9.16) -/

/-- Whether a reading at 110 °C or above has been seen is as in `s`. -/
def HotKept (s t : State) : Prop := t.aon.hotSeen = s.aon.hotSeen

namespace HotKept

section
variable {s t : State} (h : HotKept s t)
include h

theorem aon {u : State} (same : u.aon = t.aon) : HotKept s u := (congrArg AlwaysOn.hotSeen same).trans h

theorem faultNotice (i : Nat) : HotKept s (t.faultNotice i) := by
  unfold State.faultNotice
  extract_lets r cls perm
  exact h.aon (by rw [((QueueWork.refl t).notice 0 _ _ _ _ _ _ (by decide)).1])

theorem dormTrigger (cause hp : Nat) : HotKept s (t.dormTrigger cause hp) := by
  unfold State.dormTrigger
  extract_lets aborted
  have ha : HotKept s aborted := (h : _)
  split_ifs
  · exact (h : _)
  · exact h
  · exact holds_of_foldl (P := HotKept s) (fun u p k => k.aon (u.modSl_aon p _)) allSlices _ ha
  · exact (h : _)
  · exact h

theorem stopPip (cause : Nat) : HotKept s (t.stopPip cause) := holds_of_ite (h.aon rfl) h

theorem setMerged (src : Nat) : HotKept s (t.setMerged src) := holds_of_ite (h.aon rfl) (h.aon rfl)

theorem openRecord (src cls : Nat) (perm : Bool) (info : BitVec 40) : HotKept s (t.openRecord src cls perm info) := by
  unfold State.openRecord
  extract_lets i r old new merge r' merged j q opened marked a b
  have hm : HotKept s merged := (h.aon rfl : HotKept s { t with history := t.history.put 0#128 i r' }).setMerged src
  have hq : HotKept s ((marked.setReg FLT_MERGED0.reg 0#64).setReg FLT_MERGED1.reg 0#64) := h.aon rfl
  have ha : HotKept s a := holds_of_ite (holds_of_ite (hm.faultNotice i) hm) (hq.faultNotice j)
  have hb : HotKept s b := holds_of_ite (ha.dormTrigger 7 0) ha
  have frozen : HotKept s (b.wr FLT_HANDLING.FROZEN 1) := hb.aon rfl
  exact holds_of_ite h (holds_of_ite (frozen.stopPip 1) hb)

theorem noteArray (src : Nat) (info : BitVec 40) : HotKept s (t.noteArray src info) := holds_of_ite (h.aon rfl) h

theorem escalate (src : Nat) (minor : Bool) (info : BitVec 40) : HotKept s (t.escalate src minor info) := by
  unfold State.escalate
  extract_lets permanent fatal
  exact (h.aon rfl : HotKept s permanent).openRecord _ _ _ _

theorem major (src : Nat) (info : BitVec 40) : HotKept s (t.major src info) := by
  unfold State.major
  extract_lets totalled counted
  have ht : HotKept s totalled := (h.noteArray src info).aon rfl
  have hc : HotKept s counted := ht.aon rfl
  exact holds_of_ite h (holds_of_ite ht (holds_of_ite (ht.openRecord _ _ _ _)
    (holds_of_ite (hc.escalate _ _ _) (hc.openRecord _ _ _ _))))

end

end HotKept

/-- The ceiling moves with a reading (09 R309). -/
def State.ceilingMoved (s : State) (t : Nat) : State :=
  let hot := min 108 (s.rd PWR_THERM.HOT_C) + 40
  let cool := hot - max 1 (s.rd PWR_THERM.HYST_C)
  let ceil := s.rd PWR_STATUS.CEIL
  let s1 := s.wr PWR_STATUS.TJ t
  if 150 ≤ t ∧ !s.aon.hotSeen then
    ((s1.wr PWR_STATUS.CEIL 3).modAon fun a => { a with hotSeen := true }).major 0x5C (BitVec.ofNat 40 t)
  else if hot ≤ t then s1.wr PWR_STATUS.CEIL (max 3 (ceil - 1))
  else if t < cool then s1.wr PWR_STATUS.CEIL (min 7 (ceil + 1))
  else s1

/-- A reading below 110 °C ends the stretch of those at or above it (log 50). -/
def State.hotEnded (s : State) (t : Nat) : State := if t < 150 then s.modAon fun a => { a with hotSeen := false } else s

theorem State.hotEnded_rd (s : State) (t : Nat) (f : Fld) : (s.hotEnded t).rd f = s.rd f := by
  unfold State.hotEnded
  split
  · exact s.modAon_rd _ f
  · rfl

theorem State.hotEnded_seen {s : State} {t : Nat} (hot : 150 ≤ t → s.aon.hotSeen = true) :
    (s.hotEnded t).aon.hotSeen = decide (150 ≤ t) := by
  unfold State.hotEnded
  split
  case isTrue cold => exact (decide_eq_false (Nat.not_le.mpr cold)).symm
  case isFalse warm => exact (hot (Nat.not_lt.mp warm)).trans (decide_eq_true (Nat.not_lt.mp warm)).symm

theorem exec_thermalReading {s : State} (hm : s.mode ≠ 0) (tj : BitVec 8) : exec (.thermalReading tj) s =
    .next (((s.ceilingMoved tj.toNat).hotEnded tj.toNat).retargetAll) := if_neg hm

theorem State.tj_wr (s : State) {t : Nat} (fits : t < 256) : (s.wr PWR_STATUS.TJ t).rd PWR_STATUS.TJ = t :=
  (s.rd_wr_same _ _ (by decide)).trans (Nat.mod_eq_of_lt fits)

/-- TJ and the ceiling are fields of one register. -/
theorem State.ceil_wr (s : State) {t x : Nat} (fits : t < 256) (small : x < 8) :
    ((s.wr PWR_STATUS.TJ t).wr PWR_STATUS.CEIL x).rd PWR_STATUS.TJ = t ∧
      ((s.wr PWR_STATUS.TJ t).wr PWR_STATUS.CEIL x).rd PWR_STATUS.CEIL = x :=
  ⟨(State.rd_wr_disjoint _ _ _ _ (by decide)).trans (s.tj_wr fits), (State.rd_wr_same _ _ _ (by decide)).trans (Nat.mod_eq_of_lt small)⟩

/-- What a reading leaves: TJ, the ceiling, and, from 110 °C on, that one has been seen. -/
theorem State.ceilingMoved_spec (s : State) {t : Nat} (fits : t < 256) :
    (s.ceilingMoved t).rd PWR_STATUS.TJ = t ∧
      ((s.ceilingMoved t).rd PWR_STATUS.CEIL =
        if 150 ≤ t ∧ s.aon.hotSeen = false then 3
        else if min 108 (s.rd PWR_THERM.HOT_C) + 40 ≤ t then max 3 (s.rd PWR_STATUS.CEIL - 1)
        else if t < min 108 (s.rd PWR_THERM.HOT_C) + 40 - max 1 (s.rd PWR_THERM.HYST_C) then min 7 (s.rd PWR_STATUS.CEIL + 1)
        else s.rd PWR_STATUS.CEIL) ∧
      (150 ≤ t → (s.ceilingMoved t).aon.hotSeen = true) := by
  have ceil : s.rd PWR_STATUS.CEIL < 8 := s.rd_lt PWR_STATUS.CEIL
  have unseen : (!s.aon.hotSeen) = true ↔ s.aon.hotSeen = false := by simp
  unfold State.ceilingMoved
  extract_lets hot cool was noted
  simp only [unseen]
  have seen (first : ¬(150 ≤ t ∧ s.aon.hotSeen = false)) (high : 150 ≤ t) : s.aon.hotSeen = true := by simpa [high] using first
  by_cases first : 150 ≤ t ∧ s.aon.hotSeen = false
  · simp only [if_pos first]
    obtain ⟨tj, three⟩ := s.ceil_wr fits (by decide : 3 < 8)
    let u := (noted.wr PWR_STATUS.CEIL 3).modAon fun a => { a with hotSeen := true }
    have same : (u.major 0x5C (BitVec.ofNat 40 t)).reg PWR_STATUS.reg = u.reg PWR_STATUS.reg :=
      ((FaultWork.refl u).major 0x5C (BitVec.ofNat 40 t) (by decide)).regs _ (by decide) (by decide)
    have hotKept : HotKept u (u.major 0x5C (BitVec.ofNat 40 t)) := HotKept.major rfl _ _
    exact ⟨(congrArg (getBits · 10 8) same).trans tj, (congrArg (getBits · 18 3) same).trans three, fun _ => hotKept⟩
  · rw [if_neg first, if_neg first]
    split_ifs with warm cold
    · exact ⟨(s.ceil_wr fits (by omega)).1, (s.ceil_wr fits (by omega)).2, seen first⟩
    · exact ⟨(s.ceil_wr fits (by omega)).1, (s.ceil_wr fits (by omega)).2, seen first⟩
    · exact ⟨s.tj_wr fits, State.rd_wr_disjoint _ _ _ _ (by decide), seen first⟩

/-- Settles O41: a change of operating point by what its start writes, the rails' answers by their equations, a reading by the ceiling it
moves. -/
theorem operatingPointsAndTemperature : Obligations.OperatingPointsAndTemperature := by
  unfold Obligations.OperatingPointsAndTemperature
  intro s p opp r tj l
  refine ⟨fun hm outside live still => ?_, exec_regulatorSettled_ramp, exec_regulatorTimeout_ramp, fun hm => if_neg hm, fun hm => ?_⟩
  · intro goal now
    let u := s.wr (SL_DVFS.OPP_TARGET p.val) opp.toNat
    have asked : u.rd (SL_DVFS.OPP_TARGET p.val) = opp.toNat :=
      (s.rd_wr_same _ _ (by decide : 0 + 3 ≤ 64)).trans (Nat.mod_eq_of_lt opp.isLt)
    have same : u.rd (SL_DVFS.OPP_NOW p.val) = now := s.rd_wr_apart _ (.inr (.inr (by decide : 0 + 3 ≤ 3)))
    have fits : goal < 8 := Nat.lt_of_le_of_lt (Nat.min_le_left _ _) opp.isLt
    obtain ⟨target, others, slices⟩ := u.startOpp_others p goal
    refine ⟨_, exec_oppTargetWrite_live opp hm outside live still, target.trans asked,
      fun o ne => (others o ne).trans (s.reg_wr_ne _ _ ne), slices, ?_⟩
    split
    case isTrue reached =>
      have unmoved : u.startOpp p goal = u := State.startOpp_same (reached.trans same.symm)
      exact ⟨(congrArg (State.rd · _) unmoved).trans same, (congrArg State.out unmoved).trans (s.wr_out _ _),
        (congrArg (State.sl · p) unmoved).trans (s.wr_sl _ _ p)⟩
    case isFalse apart =>
      have ne : goal ≠ u.rd (SL_DVFS.OPP_NOW p.val) := fun e => apart (e.trans same)
      have moved := State.startOpp_now ne fits
      have ramp := State.startOpp_ramp ne
      rw [same] at moved ramp
      exact ⟨State.startOpp_busy ne, State.startOpp_out ne, moved, ramp⟩
  · obtain ⟨temp, ceil, hot⟩ := s.ceilingMoved_spec tj.isLt
    have ramped := (RampWork.refl ((s.ceilingMoved tj.toNat).hotEnded tj.toNat)).retargetAll
    refine ⟨_, exec_thermalReading hm tj, ?_, ?_, (congrArg AlwaysOn.hotSeen ramped.aon).trans (State.hotEnded_seen hot)⟩
    · exact (ramped.rd (.inr (by decide))).trans ((State.hotEnded_rd _ _ _).trans temp)
    · exact (ramped.rd (.inr (by decide))).trans ((State.hotEnded_rd _ _ _).trans ceil)

end Sys2Proof.Machine
end

section
/-! PROOFS. The statement of chapter 10 on the checker test mode (10 R340, R341). -/

namespace Sys2Proof.Machine

theorem exec_eccTestUnlockKey_arms {s : State} (hm : s.mode ≠ 0) (p : PhysSlice) :
    exec (.eccTestUnlockKey p 0x5EED#16) s = .next (s.modSl p fun x => { x with ecc := some s.now }) :=
  (if_neg hm).trans (if_pos rfl)

/-- Whether a key completes the sequence: 0xC0DE within 1 us of the arming key (10 R340). -/
def State.unlocks (s : State) (p : PhysSlice) (key : BitVec 16) : Bool :=
  key == 0xC0DE#16 && (s.sl p).ecc.any fun a => decide (s.now ≤ a + 1)

theorem State.unlocks_iff (s : State) (p : PhysSlice) (key : BitVec 16) :
    s.unlocks p key = true ↔ key = 0xC0DE#16 ∧ ∃ a, (s.sl p).ecc = some a ∧ s.now ≤ a + 1 := by
  rw [unlocks, Bool.and_eq_true, beq_iff_eq, Option.any_eq_true]
  simp only [decide_eq_true_eq]

/-- A key after the arming one unlocks the checker test mode for 1 ms, or locks it; the sequence is over either way (10 R340). -/
def State.keyTaken (s : State) (p : PhysSlice) (ok : Bool) : State :=
  (s.wb (SL_ECC_TEST_UNLOCK.UNLOCKED p.val) ok).modSl p fun x =>
    { x with ecc := none, eccUntil := if ok then some (s.now + 1000) else none }

theorem exec_eccTestUnlockKey_other {s : State} {key : BitVec 16} (hm : s.mode ≠ 0) (ne : key ≠ 0x5EED#16) (p : PhysSlice) :
    exec (.eccTestUnlockKey p key) s = .next (s.keyTaken p (s.unlocks p key)) := by
  refine ((if_neg hm).trans (if_neg ne)).trans ?_
  rw [State.unlocks]
  cases (s.sl p).ecc <;> rfl

theorem State.keyTaken_unlocked (s : State) (p : PhysSlice) (ok : Bool) :
    (s.keyTaken p ok).on (SL_ECC_TEST_UNLOCK.UNLOCKED p.val) = ok := s.on_wb_same _ ok rfl (by decide : 16 + 1 ≤ 64)

theorem State.keyTaken_sl (s : State) (p : PhysSlice) (ok : Bool) :
    (s.keyTaken p ok).sl p = { s.sl p with ecc := none, eccUntil := if ok then some (s.now + 1000) else none } := by
  rw [keyTaken, State.sl_modSl_same, State.wb_sl]

theorem State.keyTaken_reg (s : State) (p : PhysSlice) (ok : Bool) {o : Nat} (ne : o ≠ SL_ECC_TEST_UNLOCK.reg p.val) :
    (s.keyTaken p ok).reg o = s.reg o := s.reg_wr_ne _ _ ne

theorem exec_eccUnlockExpiry_due {s : State} {p : PhysSlice} {a : Nat} (unlocked : (s.sl p).eccUntil = some a) (due : a ≤ s.now) :
    exec (.eccUnlockExpiry p) s =
      .next ((s.wr (SL_ECC_TEST_UNLOCK.UNLOCKED p.val) 0).modSl p fun x => { x with eccUntil := none }) := by
  show execEccUnlockExpiry p s = _
  simp only [execEccUnlockExpiry, unlocked, if_pos due]

theorem exec_eccTestArm_locked {s : State} {p : PhysSlice} {v : Word} (arms : getBits v 29 1 = 1)
    (locked : s.on (SL_ECC_TEST_UNLOCK.UNLOCKED p.val) = false) : exec (.eccTestArm p v) s = .next s :=
  if_pos (.inr ⟨arms, by rw [locked]; rfl⟩)

theorem exec_eccTestArm_unlocked {s : State} {p : PhysSlice} (hm : s.mode ≠ 0) (v : Word)
    (unlocked : s.on (SL_ECC_TEST_UNLOCK.UNLOCKED p.val) = true) : exec (.eccTestArm p v) s =
      .next (s.setReg (SL_ECC_TEST.reg p.val) ((access (SL_ECC_TEST.reg p.val)).apply (s.reg (SL_ECC_TEST.reg p.val)) v)) :=
  if_neg (by simp [hm, unlocked])

/-- Settles O48: a key arms, unlocks or locks, each by its command's equation; the expiry and the arming write by theirs. -/
theorem checkerTestModeUnlocksAndLocks : Obligations.CheckerTestModeUnlocksAndLocks := by
  unfold Obligations.CheckerTestModeUnlocksAndLocks
  intro s p key v hm
  refine ⟨⟨_, exec_eccTestUnlockKey_arms hm p, ?_, rfl⟩, fun ne => ⟨_, exec_eccTestUnlockKey_other hm ne p, ?_, ?_, fun on => ?_,
    fun _ other => s.keyTaken_reg p _ other, rfl⟩, fun a unlocked due => ⟨_, exec_eccUnlockExpiry_due unlocked due, ?_, ?_⟩,
    exec_eccTestArm_locked, exec_eccTestArm_unlocked hm v⟩
  · rw [State.sl_modSl_same]
  · rw [State.keyTaken_sl]
  · rw [State.keyTaken_unlocked]
    exact s.unlocks_iff p key
  · rw [State.keyTaken_unlocked] at on
    rw [State.keyTaken_sl, on]
    rfl
  · exact s.on_wr_zero _ rfl (by decide : 16 + 1 ≤ 64)
  · rw [State.sl_modSl_same]

end Sys2Proof.Machine
end

section
/-! PROOFS. The statement of chapter 10 on scrub passes: how a pass starts and ends (10 R329 to R331), its visits of slices, control
memories and stripes (10 R326, R328), its revisits (07 R252) and the patrol (10 R334). -/

namespace Sys2Proof.Machine

/-! ### The end of a pass (10 R329) -/

/-- What the end of a pass writes into SCRUB_STATUS. -/
def endWrites (aborted : Bool) : List (Fld × Nat) :=
  [(SCRUB_STATUS.BUSY, 0), (if aborted then SCRUB_STATUS.ABORTED else SCRUB_STATUS.DONE, 1), (SCRUB_STATUS.PAUSED, 0),
    (SCRUB_STATUS.PENDING, 0), (SCRUB_STATUS.CTRL_PENDING, 0), (SCRUB_STATUS.MEDIA_PENDING, 0)]

theorem endWrites_apart (aborted : Bool) : (endWrites aborted).Pairwise fun a b => b.1.Apart a.1 := by
  cases aborted <;>
    simp [endWrites, Fld.Apart, SCRUB_STATUS.BUSY, SCRUB_STATUS.ABORTED, SCRUB_STATUS.DONE, SCRUB_STATUS.PAUSED, SCRUB_STATUS.PENDING,
      SCRUB_STATUS.CTRL_PENDING, SCRUB_STATUS.MEDIA_PENDING]

theorem endWrites_off {aborted : Bool} {e : Fld × Nat} (mem : e ∈ endWrites aborted) :
    e.1.off = SCRUB_STATUS.reg ∧ e.1.Apart SCRUB_STATUS.ERR_CODE := by
  revert e
  cases aborted <;>
    simp [endWrites, Fld.Apart, SCRUB_STATUS.BUSY, SCRUB_STATUS.ABORTED, SCRUB_STATUS.DONE, SCRUB_STATUS.PAUSED, SCRUB_STATUS.PENDING,
      SCRUB_STATUS.CTRL_PENDING, SCRUB_STATUS.MEDIA_PENDING, SCRUB_STATUS.ERR_CODE]

/-- The requests and the patrol that an aborted pass gives up are in no register. -/
theorem State.dropScrubRequests_regs (s : State) (f : Firmware) : ({ s.dropScrubRequests with fw := f } : State).regs = s.regs := by
  rw [dropScrubRequests, State.foldl_modSl_frame]

/-- Below the pod queues, to which its notice goes, the end of a pass writes those fields alone. -/
theorem State.endScrub_reg (s : State) (aborted : Bool) {o : Nat} (below : o < 0x58000) :
    (s.endScrub aborted).reg o = (s.wrAll (endWrites aborted)).reg o := by
  unfold State.endScrub
  extract_lets ended cleared dropped fw told
  have written : cleared = s.wrAll (endWrites aborted) := by simp only [endWrites, State.wrAll_cons, State.wrAll_nil, cleared, ended]
  have same : told.regs = cleared.regs := holds_of_ite (P := fun t : State => t.regs = cleared.regs) (cleared.dropScrubRequests_regs _) rfl
  clear_value told cleared
  rw [((QueueWork.refl told).notice 1 0x0A 1 0x64 _ _ [] (by decide)).2 o (.inl below), State.reg_congr same, written]

theorem State.endScrub_rd (s : State) (aborted : Bool) {f : Fld} (own : f.off = SCRUB_STATUS.reg) :
    (s.endScrub aborted).rd f = (s.wrAll (endWrites aborted)).rd f := by
  rw [State.rd, State.rd, s.endScrub_reg aborted (by rw [own]; decide)]

theorem exec_scrubStop_running {s : State} (busy : s.on SCRUB_STATUS.BUSY = true) : exec .scrubStop s = .next (s.endScrub true) :=
  congrArg Host.Outcome.next (if_pos busy)

theorem State.endScrub_aborted (s : State) :
    (s.endScrub true).on SCRUB_STATUS.BUSY = false ∧ (s.endScrub true).on SCRUB_STATUS.ABORTED = true := by
  have written {f : Fld} {x : Nat} (own : f.off = SCRUB_STATUS.reg) (small : x < 2 ^ f.w) (fits : f.lo + f.w ≤ 64)
      (mem : (f, x) ∈ endWrites true) : (s.endScrub true).rd f = x :=
    (s.endScrub_rd true own).trans (s.rd_wrAll_fits small fits (endWrites_apart true) mem)
  have busy : (s.endScrub true).rd SCRUB_STATUS.BUSY = 0 := written rfl (by decide) (by decide) (by decide)
  have aborted : (s.endScrub true).rd SCRUB_STATUS.ABORTED = 1 := written rfl (by decide) (by decide) (by decide)
  exact ⟨by rw [State.on, busy]; rfl, by rw [State.on, aborted]; rfl⟩

/-! ### The end of a slice's part (10 R326, R329) -/

/-- While the media part runs the pass goes on. -/
theorem State.scrubCheck_media {s : State} (media : s.on SCRUB_STATUS.MEDIA_PENDING = true) : s.scrubCheck = s :=
  if_neg (by simp [media])

/-- A slice whose part ends leaves PENDING, and with the last part the pass ends; else nothing happens. -/
theorem State.scrubSliceEnd_cases (s : State) (p : PhysSlice) :
    s.scrubSliceEnd p = s ∨ ∃ x, s.scrubSliceEnd p = (s.wr SCRUB_STATUS.PENDING x).scrubCheck := by
  unfold State.scrubSliceEnd State.scrubPartEnd
  split_ifs
  · exact .inr ⟨_, rfl⟩
  · exact .inl rfl
  · exact .inl rfl

theorem State.commit_regs (s : State) (e : RepairEntry) : (s.commit e).regs = s.regs :=
  holds_of_ite (P := fun t : State => t.regs = s.regs) rfl rfl

/-- What a START leaves in the registers of its pass, whether it begins or is refused: the error code, the pace, and summaries of zero
(10 R330 to R332). -/
structure State.ScrubNoted (t : State) (code pace : Nat) : Prop where
  code : t.rd SCRUB_STATUS.ERR_CODE = code
  pace : t.rd SCRUB_START.PACE = pace
  summary : ∀ j < 6, t.reg (SCRUB_SUMMARY.reg j) = 0#64

namespace State.ScrubNoted

variable {t : State} {code pace : Nat} (n : t.ScrubNoted code pace)
include n

/-- All of it is said of the registers of the scrub agents. -/
theorem congr {u : State} (same : ∀ o, o < 0x58000 → u.reg o = t.reg o) : u.ScrubNoted code pace where
  code := by rw [State.rd, same _ (by decide)]; exact n.code
  pace := by rw [State.rd, same _ (by decide)]; exact n.pace
  summary j hj := (same _ (by simp only [SCRUB_SUMMARY.reg]; omega)).trans (n.summary j hj)

/-- The fields of SCRUB_STATUS other than ERR_CODE have no part in it. -/
theorem wrAll {l : List (Fld × Nat)} (own : ∀ e ∈ l, e.1.off = SCRUB_STATUS.reg ∧ e.1.Apart SCRUB_STATUS.ERR_CODE) :
    (t.wrAll l).ScrubNoted code pace where
  code := (State.rd_wrAll_apart _ l t fun e mem => (own e mem).2).trans n.code
  pace := (State.rd_wrAll_apart _ l t fun e mem => .inl (by rw [(own e mem).1]; decide)).trans n.pace
  summary j hj := by
    refine (State.reg_wrAll_ne (fun e mem => ?_) t).trans (n.summary j hj)
    rw [(own e mem).1, SCRUB_STATUS.reg, SCRUB_SUMMARY.reg]
    omega

theorem wr {f : Fld} (x : Nat) (own : f.off = SCRUB_STATUS.reg) (apart : f.Apart SCRUB_STATUS.ERR_CODE) :
    (t.wr f x).ScrubNoted code pace := n.wrAll (l := [(f, x)]) (by simpa using ⟨own, apart⟩)

theorem endScrub (aborted : Bool) : (t.endScrub aborted).ScrubNoted code pace :=
  (n.wrAll fun _ mem => endWrites_off mem).congr fun _ below => t.endScrub_reg aborted below

theorem scrubCheck : t.scrubCheck.ScrubNoted code pace := by
  unfold State.scrubCheck
  refine holds_of_ite (P := fun u : State => u.ScrubNoted code pace) ?_ n
  have ended := n.endScrub false
  generalize t.endScrub false = u at ended
  cases t.fw.patrol with
  | none => exact ended
  | some c =>
    refine ended.congr fun o _ => State.reg_congr ?_ o
    exact State.commit_regs _ _

theorem scrubSliceEnd (p : PhysSlice) : (t.scrubSliceEnd p).ScrubNoted code pace := by
  rcases t.scrubSliceEnd_cases p with same | ⟨x, ended⟩
  · rw [same]; exact n
  · rw [ended]; exact (n.wr x rfl (.inr (by decide))).scrubCheck

end State.ScrubNoted

/-- A pass that reads media has begun: it runs, its media part is at its first stripe, and no error is shown (10 R328, R331). -/
structure State.MediaBegun (t : State) : Prop where
  err : t.on SCRUB_STATUS.ERR = false
  busy : t.on SCRUB_STATUS.BUSY = true
  media : t.on SCRUB_STATUS.MEDIA_PENDING = true
  stripe : t.scrubStripe = 0

theorem State.MediaBegun.scrubSliceEnd {t : State} (b : t.MediaBegun) (p : PhysSlice) : (t.scrubSliceEnd p).MediaBegun := by
  rcases t.scrubSliceEnd_cases p with same | ⟨x, ended⟩
  · rw [same]; exact b
  · have media : (t.wr SCRUB_STATUS.PENDING x).on SCRUB_STATUS.MEDIA_PENDING = true := (t.on_wr_apart x (.inr (by decide))).trans b.media
    rw [ended, State.scrubCheck_media media]
    exact ⟨(t.on_wr_apart x (.inr (by decide))).trans b.err, (t.on_wr_apart x (.inr (by decide))).trans b.busy, media, b.stripe⟩

/-! ### The start of a pass (10 R330, R331) -/

/-- Every code of 10 Table 10.8 fits its field. -/
theorem State.scrubError_lt (s : State) : s.scrubError < 2 ^ 4 := by
  unfold State.scrubError
  extract_lets sliced
  split_ifs <;> decide

/-- The pace of a START has no part in whether its target is well set. -/
theorem State.scrubError_start (s : State) {f : Fld} (own : f.off = SCRUB_START.reg) (x : Nat) : (s.wr f x).scrubError = s.scrubError := by
  have other (g : Fld) (ne : g.off ≠ SCRUB_START.reg) : (s.wr f x).rd g = s.rd g := s.rd_wr_off f g x (own ▸ ne)
  have target (g : Fld) (is : g.off = SCRUB_TARGET.reg) : (s.wr f x).rd g = s.rd g := other g (by rw [is]; decide)
  have range (g : Fld) (is : g.off = SCRUB_RANGE.reg) : (s.wr f x).rd g = s.rd g := other g (by rw [is]; decide)
  have targets : (s.wr f x).targets = s.targets := by
    funext r
    rw [State.targets, State.targets, target SCRUB_TARGET.HC_DATA rfl, target SCRUB_TARGET.HC_TAG rfl, target SCRUB_TARGET.SF rfl,
      target SCRUB_TARGET.REGION rfl, target SCRUB_TARGET.SPILL_MAP rfl]
  have active : (s.wr f x).activeSlices = s.activeSlices := by
    refine State.activeSlices_congr (fun j => other _ ?_) fun p => congrArg (· != 0) (other _ ?_)
    · unfold mapPs mapByte
      split
      · exact (by decide : GLB_SLICE_MAP0.reg ≠ SCRUB_START.reg)
      · exact (by decide : GLB_SLICE_MAP1.reg ≠ SCRUB_START.reg)
    · simp only [SL_CTRL.HUSK, SL_CTRL.reg, SCRUB_START.reg]
      omega
  have slices : (s.wr f x).scrubSlices = s.scrubSlices := by
    rw [State.scrubSlices, State.scrubSlices, active, target SCRUB_TARGET.PS_MASK rfl]
  have chunks : (s.wr f x).chunks = s.chunks := congrArg (· * 256) (other GLB_CAPS.DPA_REGIONS (by decide))
  have control : (s.wr f x).on SCRUB_TARGET.CTRL_SRAM = s.on SCRUB_TARGET.CTRL_SRAM := congrArg (· != 0) (target _ rfl)
  have media : (s.wr f x).on SCRUB_TARGET.MEDIA = s.on SCRUB_TARGET.MEDIA := congrArg (· != 0) (target _ rfl)
  rw [State.scrubError, State.scrubError, targets, slices, chunks, control, media, range SCRUB_RANGE.BASE_CHUNK rfl,
    range SCRUB_RANGE.LIMIT_CHUNK rfl]

/-- The summaries cleared (10 R332). -/
def State.scrubSummaryCleared (s : State) : State := (List.range 6).foldl (fun s k => s.setReg (SCRUB_SUMMARY.reg k) 0#64) s

theorem State.scrubSummaryCleared_foldl (s : State) : s.scrubSummaryCleared =
    ((List.range 6).map SCRUB_SUMMARY.reg).foldl (fun s o => s.setReg o 0#64) s := by
  rw [List.foldl_map, scrubSummaryCleared]

theorem State.scrubSummaryCleared_onlyRegs (s : State) :
    s.OnlyRegs s.scrubSummaryCleared ((List.range 6).map SCRUB_SUMMARY.reg) := by
  rw [scrubSummaryCleared_foldl]
  exact (State.foldl_setReg (fun _ => 0#64) _ s (by decide)).1

theorem State.scrubSummaryCleared_reg (s : State) {j : Nat} (hj : j < 6) : s.scrubSummaryCleared.reg (SCRUB_SUMMARY.reg j) = 0#64 := by
  rw [scrubSummaryCleared_foldl]
  exact (State.foldl_setReg (fun _ => 0#64) _ s (by decide)).2 _ (List.mem_map_of_mem (List.mem_range.mpr hj))

theorem State.scrubSummaryCleared_rd (s : State) {f : Fld} (outside : f.off ∉ (List.range 6).map SCRUB_SUMMARY.reg) :
    s.scrubSummaryCleared.rd f = s.rd f := by
  obtain ⟨-, others⟩ := s.scrubSummaryCleared_onlyRegs
  rw [State.rd, State.rd, others _ outside]

/-- What a START that is taken writes into SCRUB_STATUS before it is refused or begins. -/
def State.takenWrites (s : State) : List (Fld × Nat) :=
  [(SCRUB_STATUS.DONE, 0), (SCRUB_STATUS.ABORTED, 0), (SCRUB_STATUS.ERR, 0), (SCRUB_STATUS.ERR_CODE, s.scrubError)]

/-- The state in which a START has been taken. -/
def State.scrubTaken (s : State) : State := s.scrubSummaryCleared.wrAll s.takenWrites

theorem State.takenWrites_apart (s : State) : s.takenWrites.Pairwise fun a b => b.1.Apart a.1 := by
  simp [takenWrites, Fld.Apart, SCRUB_STATUS.DONE, SCRUB_STATUS.ABORTED, SCRUB_STATUS.ERR, SCRUB_STATUS.ERR_CODE]

theorem State.scrubTaken_frame (s : State) : s.RegsOnly s.scrubTaken :=
  State.RegsOnly.wrAll s.scrubSummaryCleared_onlyRegs.1 _

theorem State.scrubTaken_noted (s : State) : s.scrubTaken.ScrubNoted s.scrubError (s.rd SCRUB_START.PACE) where
  code := State.rd_wrAll_fits s.scrubError_lt (by decide) _ s.takenWrites_apart (by simp [takenWrites])
  pace := by
    refine (State.rd_wrAll_apart _ _ _ ?_).trans ?_
    · simp [takenWrites, Fld.Apart, SCRUB_STATUS.DONE, SCRUB_STATUS.ABORTED, SCRUB_STATUS.ERR, SCRUB_STATUS.ERR_CODE, SCRUB_START.PACE,
        SCRUB_STATUS.reg, SCRUB_START.reg]
    · exact s.scrubSummaryCleared_rd (by decide)
  summary j hj := by
    refine (State.reg_wrAll_ne ?_ _).trans (s.scrubSummaryCleared_reg hj)
    have ne : SCRUB_STATUS.reg ≠ SCRUB_SUMMARY.reg j := by rw [SCRUB_STATUS.reg, SCRUB_SUMMARY.reg]; omega
    simp [takenWrites, SCRUB_STATUS.DONE, SCRUB_STATUS.ABORTED, SCRUB_STATUS.ERR, SCRUB_STATUS.ERR_CODE, ne]

theorem State.scrubTaken_on {s : State} {f : Fld} (own : f.off = SCRUB_STATUS.reg) (apart : ∀ e ∈ s.takenWrites, e.1.Apart f) :
    s.scrubTaken.on f = s.on f := by
  rw [State.on, State.on, State.scrubTaken, State.rd_wrAll_apart _ _ _ apart, s.scrubSummaryCleared_rd (by rw [own]; decide)]

theorem State.scrubTaken_err (s : State) : s.scrubTaken.on SCRUB_STATUS.ERR = false := by
  have zero : s.scrubTaken.rd SCRUB_STATUS.ERR = 0 :=
    State.rd_wrAll_fits (by decide) (by decide) _ s.takenWrites_apart (by simp [takenWrites])
  rw [State.on, zero]
  rfl

/-- The slices of a pass: none where it reads no array of a slice (10 R330). -/
def State.scrubParts (s : State) : List PhysSlice := if (List.range 5).any s.targets then s.scrubSlices else []

/-- What a pass that begins writes into SCRUB_STATUS. -/
def State.begunWrites (s : State) : List (Fld × Nat) :=
  [(SCRUB_STATUS.BUSY, 1), (SCRUB_STATUS.PENDING, s.scrubParts.foldl (fun a p => a + 2 ^ p.val) 0),
    (SCRUB_STATUS.CTRL_PENDING, (s.on SCRUB_TARGET.CTRL_SRAM).toNat), (SCRUB_STATUS.MEDIA_PENDING, (s.on SCRUB_TARGET.MEDIA).toNat),
    (SCRUB_STATUS.MEDIA_CHUNK, s.rd SCRUB_RANGE.BASE_CHUNK)]

theorem State.begunWrites_apart (s : State) : s.begunWrites.Pairwise fun a b => b.1.Apart a.1 := by
  simp [begunWrites, Fld.Apart, SCRUB_STATUS.BUSY, SCRUB_STATUS.PENDING, SCRUB_STATUS.CTRL_PENDING, SCRUB_STATUS.MEDIA_PENDING,
    SCRUB_STATUS.MEDIA_CHUNK]

theorem State.begunWrites_off {s : State} {e : Fld × Nat} (mem : e ∈ s.begunWrites) :
    e.1.off = SCRUB_STATUS.reg ∧ e.1.Apart SCRUB_STATUS.ERR_CODE ∧ e.1.Apart SCRUB_STATUS.ERR := by
  revert e
  simp [begunWrites, Fld.Apart, SCRUB_STATUS.BUSY, SCRUB_STATUS.PENDING, SCRUB_STATUS.CTRL_PENDING, SCRUB_STATUS.MEDIA_PENDING,
    SCRUB_STATUS.MEDIA_CHUNK, SCRUB_STATUS.ERR_CODE, SCRUB_STATUS.ERR]

/-- The slices' parts of a pass, each before its first location (10 R326). -/
def State.partsPlaced (s : State) (ps : List PhysSlice) : State :=
  ps.foldl (fun s p => s.modSl p fun x => { x with scrubPos := 0, deferred := [] }) s

theorem State.partsPlaced_regs (s : State) (ps : List PhysSlice) : (s.partsPlaced ps).regs = s.regs := by
  rw [partsPlaced, State.foldl_modSl_frame]

/-- A pass that begins, before it is looked at which of its slices have nothing to read. -/
def State.scrubBegun (s : State) : State :=
  { (s.scrubTaken.wrAll s.begunWrites).partsPlaced s.scrubParts with scrubStripe := 0, scrubWord := 0 }.wb SCRUB_STATUS.PAUSED
    (s.mode == 3 || s.mode == 5)

/-- A write of a field finds in the registers all that it needs. -/
theorem State.wr_regs_congr {s t : State} (regs : t.regs = s.regs) (f : Fld) (x : Nat) : (t.wr f x).regs = (s.wr f x).regs := by
  rw [State.wr, State.wr, State.setReg_regs, State.setReg_regs, State.reg_congr regs, regs]

theorem State.scrubBegun_regs (s : State) :
    s.scrubBegun.regs = ((s.scrubTaken.wrAll s.begunWrites).wb SCRUB_STATUS.PAUSED (s.mode == 3 || s.mode == 5)).regs :=
  State.wr_regs_congr (State.partsPlaced_regs _ _) _ _

theorem State.startScrub_refused {s : State} (bad : s.scrubError ≠ 0) : s.startScrub = s.scrubTaken.wr SCRUB_STATUS.ERR 1 := if_pos bad

theorem State.startScrub_begins {s : State} (good : s.scrubError = 0) :
    s.startScrub = s.scrubParts.foldl (fun s p => s.scrubSliceEnd p) s.scrubBegun := if_neg (not_not.mpr good)

/-- Whether it begins or is refused, a START leaves its note. -/
theorem State.startScrub_noted (s : State) : s.startScrub.ScrubNoted s.scrubError (s.rd SCRUB_START.PACE) := by
  by_cases good : s.scrubError = 0
  · rw [State.startScrub_begins good]
    have begun : (s.scrubTaken.wrAll s.begunWrites).ScrubNoted s.scrubError (s.rd SCRUB_START.PACE) :=
      s.scrubTaken_noted.wrAll fun _ mem =>
        let ⟨own, fromCode, _⟩ := State.begunWrites_off mem
        ⟨own, fromCode⟩
    exact holds_of_foldl (P := fun t : State => t.ScrubNoted s.scrubError (s.rd SCRUB_START.PACE)) (fun _ p n => n.scrubSliceEnd p) _ _
      ((begun.wr _ rfl (.inr (by decide))).congr fun o _ => State.reg_congr s.scrubBegun_regs o)
  · rw [State.startScrub_refused good]
    exact s.scrubTaken_noted.wr 1 rfl (.inr (by decide))

theorem State.startScrub_refuses {s : State} (bad : s.scrubError ≠ 0) (idle : s.on SCRUB_STATUS.BUSY = false) :
    s.startScrub.on SCRUB_STATUS.ERR = true ∧ s.startScrub.on SCRUB_STATUS.BUSY = false ∧ s.RegsOnly s.startScrub := by
  rw [State.startScrub_refused bad]
  refine ⟨State.on_wr_one _ _ rfl (by decide), ?_, s.scrubTaken_frame.wr _ _⟩
  rw [State.on_wr_apart _ _ (.inr (by decide)), State.scrubTaken_on rfl, idle]
  simp [takenWrites, Fld.Apart, SCRUB_STATUS.DONE, SCRUB_STATUS.ABORTED, SCRUB_STATUS.ERR, SCRUB_STATUS.ERR_CODE, SCRUB_STATUS.BUSY]

theorem State.startScrub_media {s : State} (good : s.scrubError = 0) (media : s.on SCRUB_TARGET.MEDIA = true) :
    s.startScrub.MediaBegun := by
  have begun {f : Fld} (apart : SCRUB_STATUS.PAUSED.Apart f) : s.scrubBegun.rd f = (s.scrubTaken.wrAll s.begunWrites).rd f :=
    (State.rd_congr s.scrubBegun_regs f).trans (State.rd_wr_apart _ _ apart)
  have one {f : Fld} (apart : SCRUB_STATUS.PAUSED.Apart f) (small : 1 < 2 ^ f.w) (fits : f.lo + f.w ≤ 64)
      (mem : (f, 1) ∈ s.begunWrites) : s.scrubBegun.on f = true := by
    rw [State.on, begun apart, State.rd_wrAll_fits small fits _ s.begunWrites_apart mem]
    rfl
  rw [State.startScrub_begins good]
  refine holds_of_foldl (P := State.MediaBegun) (fun _ p b => b.scrubSliceEnd p) _ _ ⟨?_, ?_, ?_, rfl⟩
  · have kept : (s.scrubTaken.wrAll s.begunWrites).rd SCRUB_STATUS.ERR = s.scrubTaken.rd SCRUB_STATUS.ERR :=
      State.rd_wrAll_apart _ _ _ fun _ mem =>
        let ⟨_, _, fromErr⟩ := State.begunWrites_off mem
        fromErr
    rw [State.on, begun (.inr (by decide)), kept]
    exact s.scrubTaken_err
  · exact one (.inr (by decide)) (by decide) (by decide) (by simp [begunWrites])
  · exact one (.inr (by decide)) (by decide) (by decide) (by simp [begunWrites, media])

/-- The pace of a START (10 R330). -/
def State.paced (s : State) (v : Word) : State := (s.wr SCRUB_START.PACE (getBits v 16 16)).wr SCRUB_START.MEDIA_KSTRIPES (getBits v 32 12)

theorem State.paced_error (s : State) (v : Word) : (s.paced v).scrubError = s.scrubError :=
  (State.scrubError_start _ rfl _).trans (s.scrubError_start rfl _)

theorem State.paced_pace (s : State) (v : Word) : (s.paced v).rd SCRUB_START.PACE = getBits v 16 16 :=
  (State.rd_wr_apart _ _ (.inr (by decide))).trans
    ((s.rd_wr_same _ _ (by decide)).trans (Nat.mod_eq_of_lt (getBits_lt v 16 16)))

theorem State.paced_on (s : State) (v : Word) {f : Fld} (other : f.off ≠ SCRUB_START.reg) : (s.paced v).on f = s.on f :=
  (State.on_wr_apart _ _ (.inl other)).trans (s.on_wr_apart _ (.inl other))

theorem exec_scrubStartPass_idle {s : State} (hm : s.mode = 2) (idle : s.on SCRUB_STATUS.BUSY = false) (v : Word) :
    exec (.scrubStartPass v) s = .next (s.paced v).startScrub := if_neg (by simp [hm, idle])

theorem exec_scrubStartPass_running {s : State} (busy : s.on SCRUB_STATUS.BUSY = true) (v : Word) :
    exec (.scrubStartPass v) s = .next s := if_pos (.inr (.inr busy))

/-! ### Visits of a slice (10 R326) -/

theorem State.scrubRuns_serve {s : State} (hm : s.mode = 2) (busy : s.on SCRUB_STATUS.BUSY = true) : s.scrubRuns = true := by
  rw [State.scrubRuns, hm, busy]
  rfl

theorem splitOf_good (a : ScrubArray) : splitOf a .good = (.good, .good) := by cases a <;> rfl

theorem worstIn_good : ∀ {l : List Found}, (∀ f ∈ l, f = .good) → worstIn l = .good
  | [], _ => rfl
  | _ :: l, all => by
    obtain ⟨rfl, rest⟩ := List.forall_mem_cons.mp all
    exact (worstIn_good rest : worstIn l = .good)

/-- Sound code words are read as they are. -/
theorem State.scrubRead_sound {s : State} {p : PhysSlice} (sound : s.eccIdle p = true) (l : List CodeWord) :
    s.scrubRead p l .good = (s, l.map fun _ => .good) := by
  unfold State.scrubRead
  rw [if_pos sound]
  cases l <;> rfl

/-- A visit of the next location of a sound slice counts its code words and moves on. -/
theorem State.scrubSlice_sound {s : State} {p : PhysSlice} {a : ScrubArray} {k : Nat} (runs : s.scrubbing p = true)
    (next : s.nextPlace p = some (rankOf a, k)) (sound : s.eccIdle p = true) :
    s.scrubSlice p a k .good = (s.scrubCount (SCRUB_SUMMARY.LO 0)
      ((placeWords (rankOf a) k).1.length + (placeWords (rankOf a) k).2.length)).modSl p fun x =>
        { x with scrubPos := rankOf a * 2 ^ 20 + k + 1 } := by
  have good (l m : List CodeWord) : worstIn ((l.map fun _ => Found.good) ++ m.map fun _ => Found.good) = .good :=
    worstIn_good (by simp +contextual)
  refine (if_neg (by simp [runs, next])).trans ?_
  simp only [splitOf_good, State.scrubRead_sound sound, good, if_true]

theorem exec_scrubVisit_slice {s : State} (runs : s.scrubRuns = true) (p : PhysSlice) (a : ScrubArray) (k : Nat) (f : Found) :
    exec (.scrubVisit (.slice p) a k f) s = .next ((s.scrubSlice p a k f).scrubSliceEnd p) := if_neg (by simp [runs])

/-! ### Visits of the control memories (10 R317, R326) -/

/-- A macro word none of whose three valid bits is set reads as unwritten, and nothing is repaired. -/
theorem State.readValid_unwritten {s : State} {m w : Nat} (control : m < 33) (clear : ∀ j < 3, (s.validCopy m j).getLsbD w = false) :
    s.readValid m w = (s, false) := by
  have c0 := clear 0 (by decide)
  have c1 := clear 1 (by decide)
  have c2 := clear 2 (by decide)
  have unwritten : s.wordValid m w = false := by
    simp [State.wordValid, State.validBits, c0, c1, c2, Nat.not_le.mpr control]
  simp only [State.readValid, unwritten, c0, c1, c2]
  simp

theorem exec_scrubVisit_unwritten {s : State} {k : Nat} (runs : s.scrubRuns = true) (busy : s.on SCRUB_STATUS.BUSY = true)
    (pending : s.on SCRUB_STATUS.CTRL_PENDING = true) (next : k = s.scrubWord) (more : k + 1 < controlWords)
    (clear : ∀ j < 3, (s.validCopy (k / 2048) j).getLsbD (k % 2048) = false) :
    exec (.scrubVisit .control .sram k .good) s = .next ({ s with scrubWord := k + 1 }.scrubCount (SCRUB_SUMMARY.HI 5)) := by
  have control : k / 2048 < 33 := by unfold controlWords at more; omega
  have unwritten : ({ s with scrubWord := k + 1 } : State).readValid (k / 2048) (k % 2048) = ({ s with scrubWord := k + 1 }, false) :=
    State.readValid_unwritten control clear
  have within : ¬controlWords ≤ k := by omega
  subst next
  refine (if_neg (by simp [runs])).trans (congrArg Host.Outcome.next ((if_neg (by simp [busy, pending, within])).trans ?_))
  simp only [unwritten, Bool.not_false, if_true, if_neg (Nat.ne_of_lt more)]

/-! ### Visits of stripes (10 R328) -/

theorem exec_scrubMediaStripeVisit_waits {s : State} (late : s.scrubPaced = false) (l : List Found) :
    exec (.scrubMediaStripeVisit l) s = .next s := if_pos (.inr (.inr (by simp [late])))

/-- The state after the skip of a stripe whose group is not normal. -/
def State.stripeSkipped (s : State) : State :=
  { s.scrubCount (SCRUB_SUMMARY.HI 5) with scrubStripe := s.scrubStripe + 1 }.wr SCRUB_STATUS.MEDIA_CHUNK
    (min (s.rd SCRUB_RANGE.BASE_CHUNK + (s.scrubStripe + 1) / 2 ^ 17) (s.rd SCRUB_RANGE.LIMIT_CHUNK))

theorem exec_scrubMediaStripeVisit_skips {s : State} (runs : s.scrubRuns = true) (pending : s.on SCRUB_STATUS.MEDIA_PENDING = true)
    (paced : s.scrubPaced = true)
    (closed : s.openBatch (s.scrubStripe % 4) (s.rd SCRUB_RANGE.BASE_CHUNK * 2 ^ 15 + s.scrubStripe / 4) = none)
    (abnormal : s.abnormal (s.scrubStripe % 4) = true)
    (more : s.scrubStripe + 1 < (s.rd SCRUB_RANGE.LIMIT_CHUNK + 1 - s.rd SCRUB_RANGE.BASE_CHUNK) * 2 ^ 17) (l : List Found) :
    exec (.scrubMediaStripeVisit l) s = .next s.stripeSkipped := by
  refine (if_neg (by simp [runs, pending, paced])).trans ((if_neg (by simpa using closed)).trans ((if_neg (Nat.not_le.mpr more)).trans ?_))
  rw [if_pos abnormal]
  rfl

theorem State.stripeSkipped_skips (s : State) : s.stripeSkipped.rd (SCRUB_SUMMARY.HI 5) =
    min (s.rd (SCRUB_SUMMARY.HI 5) + 1) (2 ^ (SCRUB_SUMMARY.HI 5).w - 1) :=
  (State.rd_wr_off _ _ _ _ (by decide)).trans (s.rd_inc_same (SCRUB_SUMMARY.HI 5) 1 (by decide))

/-! ### Revisits (07 R252) -/

theorem exec_scrubRevisit_held {s : State} {p : PhysSlice} {h : Tracker} (runs : s.scrubRuns = true) (held : s.scrubHeld p = some h)
    (f : Found) : exec (.scrubRevisit p f) s = .next ((s.scrubUnder p h f).scrubSliceEnd p) := by
  refine (if_neg (by simp [runs])).trans ?_
  rw [held]

theorem exec_scrubRevisit_idle {s : State} {p : PhysSlice} (held : s.scrubHeld p = none) (empty : (s.sl p).deferred = []) (f : Found) :
    exec (.scrubRevisit p f) s = .next s := by
  show execScrubRevisit p f s = _
  unfold execScrubRevisit
  rw [held, empty]
  exact ite_self _

/-- A finding deferred at a way that holds no line any more is dropped (07 R252). -/
theorem State.scrubAgain_gone {s : State} {p : PhysSlice} {k : Nat} (gone : (s.way p (k / 17) (k % 17)).tagA.valid = false) (f : Found) :
    s.scrubAgain p (.hcData, k) f = s := if_pos ⟨rfl, by rw [gone]; rfl⟩

/-- A deferred finding is taken up (07 R252). -/
def State.undeferred (s : State) (p : PhysSlice) (d : ScrubArray × Nat) : State :=
  s.modSl p fun x => { x with deferred := x.deferred.erase d }

theorem State.undeferred_only {s : State} {p : PhysSlice} {d : ScrubArray × Nat} (only : (s.sl p).deferred = [d]) :
    s.undeferred p d = s.modSl p fun x => { x with deferred := [] } := by
  unfold State.undeferred State.modSl
  simp only [only, List.erase_cons_head]

/-- The agent acts on the finding for which it holds a tracker, and the tracker, if it is still held then, has acted. -/
theorem State.scrubUnder_deferred {s : State} {p : PhysSlice} {h : Tracker} {d : ScrubArray × Nat} {f : Found}
    (found : ((s.sl p).deferred.find? fun d => s.placeLine p (rankOf d.1) d.2 == h.req.line) = some d)
    (still : ((s.undeferred p d).scrubAgain p d f).scrubHeld p = some h) :
    s.scrubUnder p h f = ((s.undeferred p d).scrubAgain p d f).scrubFreed p h.id := by
  unfold State.undeferred at still ⊢
  simp only [State.scrubUnder, found, still, if_true]

theorem State.scrubUnder_gone {s : State} {p : PhysSlice} {h : Tracker} {k : Nat} (held : s.scrubHeld p = some h)
    (only : (s.sl p).deferred = [(.hcData, k)]) (line : s.placeLine p 0 k = h.req.line)
    (gone : (s.way p (k / 17) (k % 17)).tagA.valid = false) (f : Found) :
    s.scrubUnder p h f = (s.modSl p fun x => { x with deferred := [] }).scrubFreed p h.id := by
  have slice : (s.undeferred p (.hcData, k)).sl p = { s.sl p with deferred := [] } := by
    rw [State.undeferred_only only, State.sl_modSl_same]
  have again : (s.undeferred p (.hcData, k)).scrubAgain p (.hcData, k) f = s.undeferred p (.hcData, k) :=
    State.scrubAgain_gone (by rw [State.way, slice]; exact gone) f
  have still : (s.undeferred p (.hcData, k)).scrubHeld p = some h := by rw [State.scrubHeld, slice]; exact held
  have found : ((s.sl p).deferred.find? fun d => s.placeLine p (rankOf d.1) d.2 == h.req.line) = some (.hcData, k) := by
    rw [only]
    exact List.find?_cons_of_pos (beq_iff_eq.mpr line)
  rw [State.scrubUnder_deferred found (again.symm ▸ still), again, State.undeferred_only only]

/-! ### The patrol (10 R334) and the statement -/

theorem exec_patrolPeriod_starts {s : State} (hm : s.mode = 2) (idle : s.on SCRUB_STATUS.BUSY = false) (on : s.settingNat 0x0058 ≠ 0) :
    exec .patrolPeriod s = .next (s.startPatrol (s.settingNat 0x0058) (s.settingNat 0x0059)) := if_neg (by simp [hm, idle, on])

theorem exec_patrolPeriod_skipped {s : State} (h : s.on SCRUB_STATUS.BUSY = true ∨ s.settingNat 0x0058 = 0) :
    exec .patrolPeriod s = .next s := if_pos (.inr h)

/-- Settles O49: a START by its note and by what it begins; the visits, the revisits and the patrol by their commands' equations. -/
theorem scrubPassesRun : Obligations.ScrubPassesRun := by
  unfold Obligations.ScrubPassesRun
  intro s v p a k l h hm
  refine ⟨fun idle => ?_, fun busy => ?_, exec_patrolPeriod_starts hm, exec_patrolPeriod_skipped⟩
  · have error := s.paced_error v
    obtain ⟨code, pace, summary⟩ := (s.paced v).startScrub_noted
    refine ⟨_, exec_scrubStartPass_idle hm idle v, code.trans error, pace.trans (s.paced_pace v), summary, fun bad => ?_,
      fun good media => ?_⟩
    · obtain ⟨err, still, frame⟩ := State.startScrub_refuses (error.symm ▸ bad) ((s.paced_on v (by decide)).trans idle)
      exact ⟨err, still, (((State.RegsOnly.refl s).wr _ _).wr _ _).trans frame⟩
    · obtain ⟨err, running, pending, stripe⟩ := State.startScrub_media (error.trans good) ((s.paced_on v (by decide)).trans media)
      exact ⟨err, running, pending, stripe⟩
  · have runs := State.scrubRuns_serve hm busy
    obtain ⟨ended, aborted⟩ := s.endScrub_aborted
    refine ⟨exec_scrubStartPass_running busy v, ⟨_, exec_scrubStop_running busy, ended, aborted⟩, fun part next sound => ?_,
      exec_scrubVisit_unwritten runs busy, (exec_scrubMediaStripeVisit_waits · l), ?_,
      fun held only line gone => ?_, fun held empty => exec_scrubRevisit_idle held empty .good⟩
    · rw [exec_scrubVisit_slice runs, State.scrubSlice_sound part next sound]
    · intro pending paced base closed abnormal more
      exact ⟨_, exec_scrubMediaStripeVisit_skips runs pending paced closed abnormal more l, rfl, s.stripeSkipped_skips, rfl⟩
    · rw [exec_scrubRevisit_held runs held, State.scrubUnder_gone held only line gone]

end Sys2Proof.Machine
end

section
/-! PROOFS. The statements of chapter 11 on the fault collector: an event is totalled, counted and recorded (11 R345, R347 to R352), and a
wiring fault silences its source (11 R343). -/

namespace Sys2Proof.Machine

/-! ### What an announcement leaves alone -/

/-- The registers of the fault collector below an offset are as in `s`: below 0x50800 the sources' configurations and counts, at 0x50800
FLT_HANDLING (11 R355 to R357). -/
def CollectorKept (top : Nat) (s t : State) : Prop := ∀ o, 0x50000 ≤ o → o < top → t.reg o = s.reg o

namespace CollectorKept

theorem refl (top : Nat) (s : State) : CollectorKept top s s := fun _ _ _ => rfl

theorem trans {top : Nat} {s t u : State} (h : CollectorKept top s t) (k : CollectorKept top t u) : CollectorKept top s u :=
  fun o above below => (k o above below).trans (h o above below)

section
variable {top : Nat} {s t : State} (h : CollectorKept top s t)
include h

theorem rd {f : Fld} (above : 0x50000 ≤ f.off) (below : f.off < top) : t.rd f = s.rd f := by
  rw [State.rd, h _ above below]
  rfl

theorem on {f : Fld} (above : 0x50000 ≤ f.off) (below : f.off < top) : t.on f = s.on f := congrArg (· != 0) (h.rd above below)

theorem regs {u : State} (same : u.regs = t.regs) : CollectorKept top s u := h.trans fun o _ _ => by rw [State.reg, State.reg, same]

theorem setReg {o : Nat} (v : Word) (outside : o < 0x50000 ∨ top ≤ o) : CollectorKept top s (t.setReg o v) :=
  h.trans fun _ _ _ => State.reg_setReg_ne _ _ (by omega)

theorem wr {f : Fld} (x : Nat) (outside : f.off < 0x50000 ∨ top ≤ f.off) : CollectorKept top s (t.wr f x) := h.setReg _ outside

theorem faultNotice (small : top ≤ 0x58000) (i : Nat) : CollectorKept top s (t.faultNotice i) := by
  unfold State.faultNotice
  extract_lets r cls perm
  exact h.trans fun o _ below => ((QueueWork.refl t).notice 0 _ _ _ _ _ _ (by decide)).2 o (by omega)

theorem dormTrigger (cause hp : Nat) : CollectorKept top s (t.dormTrigger cause hp) := by
  unfold State.dormTrigger
  extract_lets aborted
  have changing (x : Nat) : CollectorKept top s (t.wr GLB_MODE.CHANGING x) := h.wr x (.inl (by decide))
  have ha : CollectorKept top s aborted := (changing 0).regs rfl
  split_ifs
  · exact (changing 1).regs rfl
  · exact h
  · exact holds_of_foldl (P := CollectorKept top s) (fun u p k => k.regs (u.modSl_regs p _)) allSlices aborted ha
  · exact h.regs rfl
  · exact h

theorem stopPip (small : top ≤ FLT_PIP_CTRL.reg) (cause : Nat) : CollectorKept top s (t.stopPip cause) :=
  holds_of_ite ((h.wr 0 (.inr small)).wr cause (.inr small)) h

theorem setMerged (small : top ≤ FLT_MERGED0.reg) (src : Nat) : CollectorKept top s (t.setMerged src) :=
  holds_of_ite (h.setReg _ (.inr small)) (h.setReg _ (.inr (small.trans (by decide))))

end

/-- A record, opened or merged, leaves the sources' registers alone. -/
theorem openRecord {s t : State} (h : CollectorKept FLT_HANDLING.reg s t) (src cls : Nat) (perm : Bool) (info : BitVec 40) :
    CollectorKept FLT_HANDLING.reg s (t.openRecord src cls perm info) := by
  unfold State.openRecord
  extract_lets i r old new merge r' merged j q opened marked a b
  have hm : CollectorKept FLT_HANDLING.reg s merged :=
    (h.regs rfl : CollectorKept _ s { t with history := t.history.put 0#128 i r' }).setMerged (by decide) src
  have hq : CollectorKept FLT_HANDLING.reg s marked :=
    (((h.regs rfl : CollectorKept _ s opened).wr _ (.inr (by decide))).wr _ (.inr (by decide))).wr _ (.inr (by decide))
  have ha : CollectorKept FLT_HANDLING.reg s a := holds_of_ite (holds_of_ite (hm.faultNotice (by decide) i) hm)
    (((hq.setReg _ (.inr (by decide))).setReg _ (.inr (by decide))).faultNotice (by decide) j)
  have hb : CollectorKept FLT_HANDLING.reg s b := holds_of_ite (ha.dormTrigger 7 0) ha
  exact holds_of_ite h (holds_of_ite ((hb.wr _ (.inr (by decide))).stopPip (by decide) 1) hb)

end CollectorKept

/-! ### The history -/

theorem State.faultNotice_history (s : State) (i : Nat) : (s.faultNotice i).history = s.history := by
  unfold State.faultNotice
  extract_lets r cls perm
  rw [((QueueWork.refl s).notice 0 _ _ _ _ _ _ (by decide)).1]

theorem State.dormTrigger_history (s : State) (cause hp : Nat) : (s.dormTrigger cause hp).history = s.history := by
  unfold State.dormTrigger
  extract_lets aborted
  split_ifs
  · rfl
  · rfl
  · exact holds_of_foldl (P := fun t : State => t.history = s.history) (fun u p k => (u.modSl_history p _).trans k) allSlices aborted rfl
  · rfl
  · rfl

theorem State.stopPip_history (s : State) (cause : Nat) : (s.stopPip cause).history = s.history :=
  holds_of_ite (P := fun t : State => t.history = s.history) rfl rfl

/-! ### A record opened (11 R349, Table 11.4) -/

/-- The record of an event as it is opened. -/
def State.newRecord (s : State) (src cls : Nat) (perm : Bool) (info : BitVec 40) : Native :=
  BitVec.ofNat 128 (s.now + src * 2 ^ 64 + cls * 2 ^ 72 + perm.toNat * 2 ^ 76 + info.toNat * 2 ^ 88)

/-- A record holds the time at which it is opened. -/
theorem State.newRecord_congr {s t : State} (now : t.aon.time = s.aon.time) (src cls : Nat) (perm : Bool) (info : BitVec 40) :
    t.newRecord src cls perm info = s.newRecord src cls perm info := by
  rw [newRecord, newRecord, State.now, State.now, now]

/-- The record of an event that is no permanent escalation has the PERM bit 0. -/
theorem State.newRecord_transient (s : State) (src cls : Nat) (info : BitVec 40) :
    s.newRecord src cls false info = BitVec.ofNat 128 (s.now + src * 2 ^ 64 + cls * 2 ^ 72 + info.toNat * 2 ^ 88) := by
  rw [newRecord, Bool.toNat_false, Nat.zero_mul, Nat.add_zero]

/-- What opening the record at an index writes into FLT_HANDLING. -/
def openWrites (i : Nat) : List (Fld × Nat) := [(FLT_HANDLING.HANDLING, 1), (FLT_HANDLING.RECORD, i), (FLT_HANDLING.NEXT, (i + 1) % 16)]

/-- A record put at NEXT, and FLT_HANDLING written. -/
def State.opened (s : State) (r : Native) : State :=
  State.wrAll { s with history := s.history.put 0#128 (s.rd FLT_HANDLING.NEXT) r } (openWrites (s.rd FLT_HANDLING.NEXT))

/-- A record opened, with its notice, and with what a severe event does to DORMANT (09 R301). -/
def State.announced (s : State) (cls : Nat) (r : Native) : State :=
  let noticed := (((s.opened r).setReg FLT_MERGED0.reg 0#64).setReg FLT_MERGED1.reg 0#64).faultNotice (s.rd FLT_HANDLING.NEXT)
  if cls / 2 % 2 = 1 then noticed.dormTrigger 7 0 else noticed

/-- With no record open and the history not frozen a record is opened; a fatal one freezes the history and stops PIP. -/
theorem State.openRecord_opens {s : State} (thawed : s.on FLT_HANDLING.FROZEN = false) (closed : s.on FLT_HANDLING.HANDLING = false)
    (src cls : Nat) (perm : Bool) (info : BitVec 40) : s.openRecord src cls perm info =
      let t := s.announced cls (s.newRecord src cls perm info)
      if cls / 4 % 2 = 1 then (t.wr FLT_HANDLING.FROZEN 1).stopPip 1 else t := by
  simp only [State.openRecord, thawed, closed, Bool.false_eq_true, if_false]
  rfl

/-- The announcement leaves the sources' registers and FLT_HANDLING as the opening wrote them. -/
theorem State.announced_kept (s : State) (cls : Nat) (r : Native) : CollectorKept FLT_MERGED0.reg (s.opened r) (s.announced cls r) := by
  have noticed := (((CollectorKept.refl FLT_MERGED0.reg (s.opened r)).setReg (o := FLT_MERGED0.reg) 0#64 (.inr (by decide))).setReg
    (o := FLT_MERGED1.reg) 0#64 (.inr (by decide))).faultNotice (by decide) (s.rd FLT_HANDLING.NEXT)
  exact holds_of_ite (noticed.dormTrigger 7 0) noticed

theorem State.announced_history (s : State) (cls : Nat) (r : Native) :
    (s.announced cls r).history = s.history.put 0#128 (s.rd FLT_HANDLING.NEXT) r :=
  have noticed := State.faultNotice_history (((s.opened r).setReg FLT_MERGED0.reg 0#64).setReg FLT_MERGED1.reg 0#64)
    (s.rd FLT_HANDLING.NEXT)
  holds_of_ite (P := fun t : State => t.history = s.history.put 0#128 (s.rd FLT_HANDLING.NEXT) r)
    ((State.dormTrigger_history _ 7 0).trans noticed) noticed

/-- The fields of FLT_HANDLING after the opening of record `i`. -/
theorem State.announced_handling {s : State} {i : Nat} (next : s.rd FLT_HANDLING.NEXT = i) (cls : Nat) (r : Native) {f : Fld} {x : Nat}
    (mem : (f, x) ∈ openWrites i) (small : x < 2 ^ f.w) (own : f.off = FLT_HANDLING.reg) (fits : f.lo + f.w ≤ 64) :
    (s.announced cls r).rd f = x := by
  subst next
  have apart : (openWrites (s.rd FLT_HANDLING.NEXT)).Pairwise fun a b => b.1.Apart a.1 := by
    simp [openWrites, Fld.Apart, FLT_HANDLING.HANDLING, FLT_HANDLING.RECORD, FLT_HANDLING.NEXT]
  exact ((s.announced_kept cls r).rd (by rw [own]; decide) (by rw [own]; decide)).trans (State.rd_wrAll_fits small fits _ apart mem)

/-- The sources' registers are left alone by the opening and by its announcement. -/
theorem State.announced_source (s : State) (cls : Nat) (r : Native) {f : Fld} (above : 0x50000 ≤ f.off)
    (below : f.off < FLT_HANDLING.reg) : (s.announced cls r).rd f = s.rd f := by
  refine ((s.announced_kept cls r).rd above (below.trans (by decide))).trans (State.rd_wrAll_apart f _ _ fun e mem => .inl ?_)
  have own : e.1.off = FLT_HANDLING.reg := by
    simp only [openWrites, List.mem_cons, List.not_mem_nil, or_false] at mem
    rcases mem with rfl | rfl | rfl <;> rfl
  rw [own]
  exact Nat.ne_of_lt below

theorem State.announced_record_same {s : State} {i : Nat} (next : s.rd FLT_HANDLING.NEXT = i) (cls : Nat) (r : Native) :
    (s.announced cls r).record i = r := by
  rw [State.record, s.announced_history, next, Tbl.look_put_same]

theorem State.announced_record_ne {s : State} {i j : Nat} (next : s.rd FLT_HANDLING.NEXT = i) (cls : Nat) (r : Native) (other : j ≠ i) :
    (s.announced cls r).record j = s.record j := by
  rw [State.record, s.announced_history, next, Tbl.look_put_ne _ _ _ _ other]
  rfl

/-- PIP does not run once it has stopped (11 R352). -/
theorem State.stopPip_stopped (s : State) (cause : Nat) : (s.stopPip cause).on FLT_PIP_CTRL.RUNNING = false := by
  unfold State.stopPip
  split
  · rw [State.on_wr_apart _ _ (.inr (by decide)), State.on_wr_zero _ _ rfl (by decide)]
  case isFalse stopped => exact Bool.eq_false_iff.mpr stopped

end Sys2Proof.Machine
end

section
/-! PROOFS. The statements of chapter 11 on the events of a source (11 R342 to R352). -/

namespace Sys2Proof.Machine

/-! ### The counters of a source (11 R345, R356) -/

/-- A source's registers are the collector's, below FLT_HANDLING. -/
theorem srcCount_range (src : SourceId) : 0x50000 ≤ FLT_SRC_COUNT.reg src.val ∧ FLT_SRC_COUNT.reg src.val < FLT_HANDLING.reg := by
  have := src.isLt
  rw [FLT_SRC_COUNT.reg, FLT_HANDLING.reg]
  omega

theorem srcCfg_ne_srcCount (src : SourceId) : FLT_SRC_CFG.reg src.val ≠ FLT_SRC_COUNT.reg src.val := by
  rw [FLT_SRC_CFG.reg, FLT_SRC_COUNT.reg]
  omega

theorem handling_ne_srcCount (src : SourceId) : FLT_HANDLING.reg ≠ FLT_SRC_COUNT.reg src.val := (srcCount_range src).2.ne'

/-- Fields whose places in a register do not meet, whatever registers they lie in; with places that are numerals it is shown by `rfl`. -/
theorem Fld.apart_of_places {f g : Fld} (h : (Nat.ble (g.lo + g.w) f.lo || Nat.ble (f.lo + f.w) g.lo) = true) : f.Apart g :=
  .inr ((Bool.or_eq_true _ _ ▸ h).imp Nat.le_of_ble_eq_true Nat.le_of_ble_eq_true)

/-- A counter raised leaves a field apart from it alone. -/
theorem State.rd_inc_apart (s : State) {f g : Fld} (k : Nat) (a : f.Apart g) : (s.inc f k).rd g = s.rd g := s.rd_wr_apart _ a

theorem State.windowCount_rd_apart (s : State) (src : Nat) {g : Fld} (a : (FLT_SRC_COUNT.CNT_A src).Apart g)
    (b : (FLT_SRC_COUNT.CNT_B src).Apart g) : (s.windowCount src).rd g = s.rd g :=
  (State.rd_inc_apart _ 1 b).trans (s.rd_inc_apart 1 a)

theorem State.windowCount_reg_ne (s : State) (src : Nat) {o : Nat} (other : o ≠ FLT_SRC_COUNT.reg src) :
    (s.windowCount src).reg o = s.reg o := (State.reg_wr_ne _ _ _ other).trans (s.reg_wr_ne _ _ other)

theorem State.windowCount_frame (s : State) (src : Nat) : s.RegsOnly (s.windowCount src) := ((State.RegsOnly.refl s).wr _ _).wr _ _

theorem State.windowCount_minors (s : State) (src : Nat) : (s.windowCount src).minors = s.minors := rfl

theorem State.windowCount_aon (s : State) (src : Nat) : (s.windowCount src).aon = s.aon := rfl

theorem State.windowCount_history (s : State) (src : Nat) : (s.windowCount src).history = s.history := rfl

/-- A threshold is at most 255, so that a counter below it has room for a count. -/
theorem faultThreshold_le (s : State) (src : Nat) : faultThreshold s src ≤ 255 := by
  have : s.rd (FLT_SRC_CFG.N src) < 2 ^ 8 := s.rd_lt _
  rw [faultThreshold]
  omega

theorem State.windowCount_a (s : State) (src : Nat) :
    (s.windowCount src).rd (FLT_SRC_COUNT.CNT_A src) = min (s.rd (FLT_SRC_COUNT.CNT_A src) + 1) 255 :=
  (State.rd_inc_apart _ 1 (Fld.apart_of_places rfl)).trans (s.rd_inc_same (FLT_SRC_COUNT.CNT_A src) 1 (by decide : 32 + 8 ≤ 64))

theorem State.windowCount_b (s : State) (src : Nat) :
    (s.windowCount src).rd (FLT_SRC_COUNT.CNT_B src) = min (s.rd (FLT_SRC_COUNT.CNT_B src) + 1) 255 :=
  (State.rd_inc_same _ (FLT_SRC_COUNT.CNT_B src) 1 (by decide : 40 + 8 ≤ 64)).trans
    (by rw [s.rd_inc_apart 1 (Fld.apart_of_places rfl)]; rfl)

/-- A threshold is read from the configuration of its source. -/
theorem faultThreshold_congr {s t : State} {src : SourceId} (others : ∀ o, o ≠ FLT_SRC_COUNT.reg src.val → t.reg o = s.reg o) :
    faultThreshold t src.val = faultThreshold s src.val :=
  congrArg (fun v => max 1 (getBits v 0 8)) (others _ (srcCfg_ne_srcCount src))

/-- An event totalled, with room for a count below the threshold: one more in each counter, and no escalation. -/
theorem State.windowCount_below {s t : State} {src : SourceId} (others : ∀ o, o ≠ FLT_SRC_COUNT.reg src.val → t.reg o = s.reg o)
    (keptA : t.rd (FLT_SRC_COUNT.CNT_A src.val) = s.rd (FLT_SRC_COUNT.CNT_A src.val))
    (keptB : t.rd (FLT_SRC_COUNT.CNT_B src.val) = s.rd (FLT_SRC_COUNT.CNT_B src.val))
    (a : s.rd (FLT_SRC_COUNT.CNT_A src.val) + 1 < faultThreshold s src.val)
    (b : s.rd (FLT_SRC_COUNT.CNT_B src.val) + 1 < faultThreshold s src.val) :
    (t.windowCount src.val).rd (FLT_SRC_COUNT.CNT_A src.val) = s.rd (FLT_SRC_COUNT.CNT_A src.val) + 1 ∧
      (t.windowCount src.val).rd (FLT_SRC_COUNT.CNT_B src.val) = s.rd (FLT_SRC_COUNT.CNT_B src.val) + 1 ∧
      (t.windowCount src.val).atThreshold src.val = false := by
  have top := faultThreshold_le s src.val
  have countA := t.windowCount_a src.val
  have countB := t.windowCount_b src.val
  rw [keptA, Nat.min_eq_left (by omega)] at countA
  rw [keptB, Nat.min_eq_left (by omega)] at countB
  have same : faultThreshold (t.windowCount src.val) src.val = faultThreshold s src.val :=
    faultThreshold_congr fun o ne => (t.windowCount_reg_ne src.val ne).trans (others o ne)
  refine ⟨countA, countB, ?_⟩
  rw [State.atThreshold, same, countA, countB]
  simpa using ⟨a, b⟩

/-! ### A minor event (11 R345) -/

/-- A minor event totalled, and counted among those of its source. -/
def State.minorTotalled (s : State) (src : Nat) : State :=
  { s.inc (FLT_SRC_COUNT.CE_TOTAL src) with minors := s.minors.put 0 src (s.minors.look 0 src + 1) }

theorem State.minorTotalled_rd_apart (s : State) (src : Nat) {g : Fld} (a : (FLT_SRC_COUNT.CE_TOTAL src).Apart g) :
    (s.minorTotalled src).rd g = s.rd g := s.rd_inc_apart 1 a

theorem State.minorTotalled_total (s : State) (src : Nat) : (s.minorTotalled src).rd (FLT_SRC_COUNT.CE_TOTAL src) =
    min (s.rd (FLT_SRC_COUNT.CE_TOTAL src) + 1) (2 ^ 20 - 1) := s.rd_inc_same (FLT_SRC_COUNT.CE_TOTAL src) 1 (by decide : 0 + 20 ≤ 64)

theorem State.minorTotalled_reg_ne (s : State) (src : Nat) {o : Nat} (other : o ≠ FLT_SRC_COUNT.reg src) :
    (s.minorTotalled src).reg o = s.reg o := s.reg_wr_ne (FLT_SRC_COUNT.CE_TOTAL src) _ other

/-- Between the two states only registers and the numbers of minor events differ. -/
def State.MinorsOnly (s t : State) : Prop := t = { s with regs := t.regs, minors := t.minors }

theorem State.minorTotalled_frame (s : State) (src : Nat) : s.MinorsOnly (s.minorTotalled src) := rfl

theorem State.MinorsOnly.regsOnly {s t u : State} (h : s.MinorsOnly t) (k : t.RegsOnly u) : s.MinorsOnly u := by
  rw [State.MinorsOnly, k, h]

theorem State.minorTotalled_number (s : State) (src : Nat) :
    (s.minorTotalled src).minors.look 0 src = s.minors.look 0 src + 1 := by
  simp [State.minorTotalled]

/-- Whether the next minor event of a source is one that its windows do not count: masked, permanent, shifted out, or not the
2^CE_SHIFT-th. -/
def State.minorUncounted (s : State) (src : Nat) : Prop :=
  s.on (FLT_SRC_CFG.MASK src) = true ∨ s.on (FLT_SRC_COUNT.PERM src) = true ∨ s.rd (FLT_SRC_CFG.CE_SHIFT src) = 15 ∨
    (s.minors.look 0 src + 1) % 2 ^ s.rd (FLT_SRC_CFG.CE_SHIFT src) ≠ 0

theorem State.minor_uncounted {s : State} {src : Nat} (heard : s.srcIgnored src = false) (un : s.minorUncounted src) (info : BitVec 40) :
    s.minor src info = s.minorTotalled src := by
  have skipped : (s.on (FLT_SRC_CFG.MASK src) || s.on (FLT_SRC_COUNT.PERM src) || s.rd (FLT_SRC_CFG.CE_SHIFT src) == 15 ||
      (s.minors.look 0 src + 1) % 2 ^ s.rd (FLT_SRC_CFG.CE_SHIFT src) != 0) = true := by
    simpa [State.minorUncounted, or_assoc] using un
  rw [State.minor, heard]
  exact if_pos skipped

theorem State.minor_counted {s : State} {src : Nat} (heard : s.srcIgnored src = false) (co : ¬ s.minorUncounted src)
    (below : ((s.minorTotalled src).windowCount src).atThreshold src = false) (info : BitVec 40) :
    s.minor src info = (s.minorTotalled src).windowCount src := by
  have taken : ¬ (s.on (FLT_SRC_CFG.MASK src) || s.on (FLT_SRC_COUNT.PERM src) || s.rd (FLT_SRC_CFG.CE_SHIFT src) == 15 ||
      (s.minors.look 0 src + 1) % 2 ^ s.rd (FLT_SRC_CFG.CE_SHIFT src) != 0) = true := by
    simpa [State.minorUncounted, or_assoc] using co
  rw [State.minor, heard]
  exact (if_neg taken).trans (if_neg (ne_true_of_eq_false below))

/-! ### A major event and a fatal declaration (11 R345, R348) -/

/-- A major event totalled, and kept by firmware where it is of a slice's arrays. -/
def State.majorTotalled (s : State) (src : Nat) (info : BitVec 40) : State := (s.noteArray src info).inc (FLT_SRC_COUNT.UE_TOTAL src)

theorem State.noteArray_frame (s : State) (src : Nat) (info : BitVec 40) :
    s.noteArray src info = { s with fw := (s.noteArray src info).fw } :=
  holds_of_ite (P := fun t : State => t = { s with fw := t.fw }) rfl rfl

theorem State.noteArray_regs (s : State) (src : Nat) (info : BitVec 40) : (s.noteArray src info).regs = s.regs := by
  rw [noteArray_frame]

theorem State.majorTotalled_frame (s : State) (src : Nat) (info : BitVec 40) :
    s.majorTotalled src info = { s with regs := (s.majorTotalled src info).regs, fw := (s.majorTotalled src info).fw } := by
  have frame := s.noteArray_frame src info
  unfold State.majorTotalled
  generalize s.noteArray src info = t at frame ⊢
  rw [frame]
  rfl

theorem State.majorTotalled_rd_apart (s : State) (src : Nat) (info : BitVec 40) {g : Fld} (a : (FLT_SRC_COUNT.UE_TOTAL src).Apart g) :
    (s.majorTotalled src info).rd g = s.rd g := (State.rd_inc_apart _ 1 a).trans (State.rd_congr (s.noteArray_regs src info) g)

theorem State.majorTotalled_reg_ne (s : State) (src : Nat) (info : BitVec 40) {o : Nat} (other : o ≠ FLT_SRC_COUNT.reg src) :
    (s.majorTotalled src info).reg o = s.reg o :=
  (State.reg_wr_ne _ _ _ other).trans (by rw [State.reg, s.noteArray_regs]; rfl)

/-- An uncorrectable event counted in the total of its source. -/
theorem State.rd_ueTotal_inc (s : State) (src : Nat) :
    (s.inc (FLT_SRC_COUNT.UE_TOTAL src)).rd (FLT_SRC_COUNT.UE_TOTAL src) = min (s.rd (FLT_SRC_COUNT.UE_TOTAL src) + 1) 4095 :=
  s.rd_inc_same (FLT_SRC_COUNT.UE_TOTAL src) 1 (by decide : 20 + 12 ≤ 64)

theorem State.majorTotalled_total (s : State) (src : Nat) (info : BitVec 40) : (s.majorTotalled src info).rd (FLT_SRC_COUNT.UE_TOTAL src) =
    min (s.rd (FLT_SRC_COUNT.UE_TOTAL src) + 1) 4095 :=
  (State.rd_ueTotal_inc _ src).trans (by rw [State.rd_congr (s.noteArray_regs src info)])

theorem State.major_masked {s : State} {src : Nat} (heard : s.srcIgnored src = false) (masked : s.on (FLT_SRC_CFG.MASK src) = true)
    (info : BitVec 40) : s.major src info = s.majorTotalled src info := by
  simp only [State.major, heard, masked, Bool.false_eq_true, if_false, if_true]
  rfl

/-- A major event that is counted, and whose counters stay below the threshold, is recorded as severe. -/
theorem State.major_counted {s : State} {src : Nat} (heard : s.srcIgnored src = false) (unmasked : s.on (FLT_SRC_CFG.MASK src) = false)
    (transient : s.on (FLT_SRC_COUNT.PERM src) = false) (info : BitVec 40)
    (below : ((s.majorTotalled src info).windowCount src).atThreshold src = false) :
    s.major src info = ((s.majorTotalled src info).windowCount src).openRecord src 2 false info := by
  unfold State.majorTotalled at below ⊢
  simp only [State.major, heard, unmasked, transient, below, Bool.false_eq_true, if_false]

/-- A fatal declaration totalled, and FATAL set. -/
def State.fatalTotalled (s : State) (src : Nat) : State := (s.inc (FLT_SRC_COUNT.UE_TOTAL src)).wr (FLT_SRC_COUNT.FATAL src) 1

theorem State.fatal_records {s : State} {src : Nat} (heard : s.srcIgnored src = false) (info : BitVec 40) :
    s.fatal src info = (s.fatalTotalled src).openRecord src 4 false info := by
  simp only [State.fatal, heard, Bool.false_eq_true, if_false]
  rfl

/-! ### The commands -/

section
variable {s : State} {src : SourceId}

theorem exec_minorEvent (takes : s.takesEvents src = true) (info : BitVec 40) :
    exec (.minorEvent src info) s = .next (s.minor src.val info) := congrArg Host.Outcome.next (if_pos takes)

theorem exec_majorEvent (takes : s.takesEvents src = true) (info : BitVec 40) :
    exec (.majorEvent src info) s = .next (s.major src.val info) := congrArg Host.Outcome.next (if_pos takes)

theorem exec_fatalDeclaration (takes : s.takesEvents src = true) (first : s.on (FLT_SRC_COUNT.FATAL src.val) = false) (info : BitVec 40) :
    exec (.fatalDeclaration src info) s = .next (s.fatal src.val info) := congrArg Host.Outcome.next (if_pos (by simp [takes, first]))

/-- A source that is ignored changes nothing, minor or major (11 R343). -/
theorem exec_event_ignored (ignored : s.srcIgnored src.val = true) (info : BitVec 40) :
    exec (.minorEvent src info) s = .next s ∧ exec (.majorEvent src info) s = .next s :=
  ⟨congrArg Host.Outcome.next (holds_of_ite (P := (· = s)) (if_pos ignored) rfl),
    congrArg Host.Outcome.next (holds_of_ite (P := (· = s)) (if_pos ignored) rfl)⟩

end

/-! ### Events are totalled, counted and recorded -/

/-- A minor event with its counters below the threshold: what is counted, and that nothing else changes. -/
theorem State.minor_below {s : State} {src : SourceId} (heard : s.srcIgnored src.val = false)
    (a : s.rd (FLT_SRC_COUNT.CNT_A src.val) + 1 < faultThreshold s src.val)
    (b : s.rd (FLT_SRC_COUNT.CNT_B src.val) + 1 < faultThreshold s src.val) (info : BitVec 40) (plus : Nat)
    (counts : s.minorUncounted src.val ∧ plus = 0 ∨ ¬ s.minorUncounted src.val ∧ plus = 1) :
    let t := s.minor src.val info
    t.rd (FLT_SRC_COUNT.CE_TOTAL src.val) = min (s.rd (FLT_SRC_COUNT.CE_TOTAL src.val) + 1) (2 ^ 20 - 1) ∧
      t.minors.look 0 src.val = s.minors.look 0 src.val + 1 ∧
      t.rd (FLT_SRC_COUNT.CNT_A src.val) = s.rd (FLT_SRC_COUNT.CNT_A src.val) + plus ∧
      t.rd (FLT_SRC_COUNT.CNT_B src.val) = s.rd (FLT_SRC_COUNT.CNT_B src.val) + plus ∧
      (∀ o, o ≠ FLT_SRC_COUNT.reg src.val → t.reg o = s.reg o) ∧ t = { s with regs := t.regs, minors := t.minors } := by
  have total := s.minorTotalled_total src.val
  have keptA : (s.minorTotalled src.val).rd (FLT_SRC_COUNT.CNT_A src.val) = s.rd (FLT_SRC_COUNT.CNT_A src.val) :=
    s.minorTotalled_rd_apart _ (Fld.apart_of_places rfl)
  have keptB : (s.minorTotalled src.val).rd (FLT_SRC_COUNT.CNT_B src.val) = s.rd (FLT_SRC_COUNT.CNT_B src.val) :=
    s.minorTotalled_rd_apart _ (Fld.apart_of_places rfl)
  have others (o : Nat) (ne : o ≠ FLT_SRC_COUNT.reg src.val) := s.minorTotalled_reg_ne src.val ne
  have number := s.minorTotalled_number src.val
  rcases counts with ⟨un, rfl⟩ | ⟨co, rfl⟩
  · rw [State.minor_uncounted heard un]
    exact ⟨total, number, keptA, keptB, others, s.minorTotalled_frame src.val⟩
  · obtain ⟨countA, countB, below⟩ := State.windowCount_below others keptA keptB a b
    rw [State.minor_counted heard co below]
    exact ⟨(State.windowCount_rd_apart _ _ (Fld.apart_of_places rfl) (Fld.apart_of_places rfl)).trans total,
      (congrArg (Tbl.look 0 src.val) (State.windowCount_minors _ _)).trans number, countA, countB,
      fun o ne => (State.windowCount_reg_ne _ _ ne).trans (others o ne),
      (s.minorTotalled_frame src.val).regsOnly (State.windowCount_frame _ _)⟩

/-- A major event with its counters below the threshold, no record open and the history not frozen. -/
theorem State.major_below {s : State} {src : SourceId} (heard : s.srcIgnored src.val = false)
    (unmasked : s.on (FLT_SRC_CFG.MASK src.val) = false) (transient : s.on (FLT_SRC_COUNT.PERM src.val) = false)
    (a : s.rd (FLT_SRC_COUNT.CNT_A src.val) + 1 < faultThreshold s src.val)
    (b : s.rd (FLT_SRC_COUNT.CNT_B src.val) + 1 < faultThreshold s src.val)
    (thawed : s.on FLT_HANDLING.FROZEN = false) (closed : s.on FLT_HANDLING.HANDLING = false) (info : BitVec 40) :
    let u := (s.majorTotalled src.val info).windowCount src.val
    s.major src.val info = u.announced 2 (s.newRecord src.val 2 false info) ∧
      u.rd (FLT_SRC_COUNT.UE_TOTAL src.val) = min (s.rd (FLT_SRC_COUNT.UE_TOTAL src.val) + 1) 4095 ∧
      u.rd (FLT_SRC_COUNT.CNT_A src.val) = s.rd (FLT_SRC_COUNT.CNT_A src.val) + 1 ∧
      u.rd (FLT_SRC_COUNT.CNT_B src.val) = s.rd (FLT_SRC_COUNT.CNT_B src.val) + 1 ∧
      u.rd FLT_HANDLING.NEXT = s.rd FLT_HANDLING.NEXT ∧ u.history = s.history := by
  intro u
  have frame := s.majorTotalled_frame src.val info
  have keptA : (s.majorTotalled src.val info).rd (FLT_SRC_COUNT.CNT_A src.val) = s.rd (FLT_SRC_COUNT.CNT_A src.val) :=
    s.majorTotalled_rd_apart _ _ (Fld.apart_of_places rfl)
  have keptB : (s.majorTotalled src.val info).rd (FLT_SRC_COUNT.CNT_B src.val) = s.rd (FLT_SRC_COUNT.CNT_B src.val) :=
    s.majorTotalled_rd_apart _ _ (Fld.apart_of_places rfl)
  have others (o : Nat) (ne : o ≠ FLT_SRC_COUNT.reg src.val) : u.reg o = s.reg o :=
    (State.windowCount_reg_ne _ _ ne).trans (s.majorTotalled_reg_ne _ _ ne)
  have handling (f : Fld) (own : f.off = FLT_HANDLING.reg) : u.rd f = s.rd f := by
    rw [State.rd, State.rd, others _ (own ▸ handling_ne_srcCount src)]
  obtain ⟨countA, countB, below⟩ := State.windowCount_below (fun o => s.majorTotalled_reg_ne src.val info) keptA keptB a b
  have aon : u.aon = s.aon := (State.windowCount_aon _ _).trans (by rw [frame])
  have record : u.newRecord src.val 2 false info = s.newRecord src.val 2 false info :=
    State.newRecord_congr (congrArg AlwaysOn.time aon) _ _ _ _
  have history : u.history = s.history := (State.windowCount_history _ _).trans (by rw [frame])
  refine ⟨?_, (State.windowCount_rd_apart _ _ (Fld.apart_of_places rfl) (Fld.apart_of_places rfl)).trans
    (s.majorTotalled_total src.val info), countA, countB, handling _ rfl, history⟩
  have frozen : u.on FLT_HANDLING.FROZEN = false := (congrArg (· != 0) (handling _ rfl)).trans thawed
  have free : u.on FLT_HANDLING.HANDLING = false := (congrArg (· != 0) (handling _ rfl)).trans closed
  rw [State.major_counted heard unmasked transient info below, State.openRecord_opens frozen free, record]
  exact if_neg (by decide)

/-- A fatal declaration with no record open and the history not frozen. -/
theorem State.fatal_below {s : State} {src : SourceId} (heard : s.srcIgnored src.val = false)
    (thawed : s.on FLT_HANDLING.FROZEN = false) (closed : s.on FLT_HANDLING.HANDLING = false) (info : BitVec 40) :
    let u := s.fatalTotalled src.val
    s.fatal src.val info = ((u.announced 4 (s.newRecord src.val 4 false info)).wr FLT_HANDLING.FROZEN 1).stopPip 1 ∧
      u.rd (FLT_SRC_COUNT.UE_TOTAL src.val) = min (s.rd (FLT_SRC_COUNT.UE_TOTAL src.val) + 1) 4095 ∧
      u.on (FLT_SRC_COUNT.FATAL src.val) = true ∧ u.rd FLT_HANDLING.NEXT = s.rd FLT_HANDLING.NEXT := by
  intro u
  have handling (f : Fld) (own : f.off = FLT_HANDLING.reg) : u.rd f = s.rd f := by
    have other : f.off ≠ FLT_SRC_COUNT.reg src.val := own ▸ handling_ne_srcCount src
    exact (State.rd_wr_off _ _ _ _ other).trans (s.rd_wr_off _ _ _ other)
  have frozen : u.on FLT_HANDLING.FROZEN = false := (congrArg (· != 0) (handling _ rfl)).trans thawed
  have free : u.on FLT_HANDLING.HANDLING = false := (congrArg (· != 0) (handling _ rfl)).trans closed
  refine ⟨?_, (State.rd_wr_apart _ _ (Fld.apart_of_places rfl)).trans (s.rd_ueTotal_inc src.val),
    State.on_wr_one _ _ rfl (by decide : 49 + 1 ≤ 64), handling _ rfl⟩
  rw [State.fatal_records heard, State.openRecord_opens frozen free]
  exact if_pos (by decide)

/-- Settles O42: a minor event by what it counts, a major one and a fatal declaration by the record that they open. -/
theorem faultEventsAreCountedAndRecorded : Obligations.FaultEventsAreCountedAndRecorded := by
  unfold Obligations.FaultEventsAreCountedAndRecorded
  intro s src info takes heard k n a b i plus counted
  obtain ⟨above, below⟩ := srcCount_range src
  have fits : i < 16 := s.rd_lt FLT_HANDLING.NEXT
  refine ⟨fun roomA roomB => ?_, fun masked => ?_, fun unmasked transient roomA roomB thawed closed => ?_,
    fun first thawed closed => ?_⟩
  · refine ⟨_, exec_minorEvent takes info, State.minor_below heard roomA roomB info plus ?_⟩
    by_cases un : s.minorUncounted src.val
    · exact .inl ⟨un, if_pos un⟩
    · exact .inr ⟨un, if_neg un⟩
  · refine ⟨_, (exec_majorEvent takes info).trans (congrArg Host.Outcome.next (State.major_masked heard masked info)),
      s.majorTotalled_total k info, fun o => s.majorTotalled_reg_ne k info, s.majorTotalled_frame k info⟩
  · obtain ⟨opens, total, countA, countB, next, history⟩ :=
      State.major_below heard unmasked transient roomA roomB thawed closed info
    generalize (s.majorTotalled src.val info).windowCount src.val = u at opens total countA countB next history
    have handled {f : Fld} {x : Nat} (mem : (f, x) ∈ openWrites i) :=
      State.announced_handling next 2 (s.newRecord k 2 false info) mem
    refine ⟨_, (exec_majorEvent takes info).trans (congrArg Host.Outcome.next opens), (u.announced_source _ _ above below).trans total,
      (u.announced_source _ _ above below).trans countA, (u.announced_source _ _ above below).trans countB, ?_,
      handled (by simp [openWrites]) fits rfl (by decide),
      handled (by simp [openWrites]) (Nat.mod_lt _ (by decide)) rfl (by decide), ?_, fun j other => ?_⟩
    · exact congrArg (· != 0) (handled (f := FLT_HANDLING.HANDLING) (x := 1) (by simp [openWrites]) (by decide) rfl (by decide))
    · exact (State.announced_record_same next 2 _).trans (s.newRecord_transient k 2 info)
    · rw [State.announced_record_ne next _ _ other, State.record, history]
      rfl
  · obtain ⟨opens, total, fatal, next⟩ := State.fatal_below heard thawed closed info
    generalize s.fatalTotalled src.val = u at opens total fatal next
    let r := s.newRecord k 4 false info
    let frozen := (u.announced 4 r).wr FLT_HANDLING.FROZEN 1
    have source {f : Fld} (own : f.off = FLT_SRC_COUNT.reg k) : (frozen.stopPip 1).rd f = u.rd f :=
      ((((CollectorKept.refl FLT_HANDLING.reg (u.announced 4 r)).wr 1 (.inr (Nat.le_refl _))).stopPip (by decide) 1).rd
        (own ▸ above) (own ▸ below)).trans (u.announced_source 4 r (own ▸ above) (own ▸ below))
    have kept := (CollectorKept.refl FLT_MERGED0.reg frozen).stopPip (by decide) 1
    refine ⟨_, (exec_fatalDeclaration takes first info).trans (congrArg Host.Outcome.next opens), (source rfl).trans total,
      (congrArg (· != 0) (source rfl)).trans fatal, ?_, State.stopPip_stopped _ 1, ?_⟩
    · exact (kept.on (by decide) (by decide)).trans (State.on_wr_one _ _ rfl (by decide))
    · rw [State.record, State.stopPip_history, State.wr_history]
      exact (State.announced_record_same next 4 r).trans (s.newRecord_transient k 4 info)

end Sys2Proof.Machine
end

section
/-! PROOFS. The statement of chapter 11 on wiring faults, windows and the end of a record (11 R343, R346, R347, R350). -/

namespace Sys2Proof.Machine

/-- What an escalation writes into the counts of its source (11 R347). -/
def escalationWrites (src : Nat) : List (Fld × Nat) :=
  [(FLT_SRC_COUNT.PERM src, 1), (FLT_SRC_COUNT.CNT_A src, 0), (FLT_SRC_COUNT.CNT_B src, 0)]

theorem State.escalate_eq (s : State) (src : Nat) (minor : Bool) (info : BitVec 40) : s.escalate src minor info =
    (s.wrAll (escalationWrites src)).openRecord src
      (2 + minor.toNat + if s.rd (FLT_SRC_CFG.ACTION src) = 2 then 4 else 0) true info := rfl

/-- The record of an escalation leaves the sources' registers as the escalation wrote them. -/
theorem State.escalate_source (s : State) (src : Nat) (minor : Bool) (info : BitVec 40) {f : Fld} (above : 0x50000 ≤ f.off)
    (below : f.off < FLT_HANDLING.reg) : (s.escalate src minor info).on f = (s.wrAll (escalationWrites src)).on f := by
  rw [State.escalate_eq]
  exact ((CollectorKept.refl _ _).openRecord _ _ _ _).on above below

/-- An escalated source is permanent. -/
theorem State.escalate_perm (s : State) (src : SourceId) (minor : Bool) (info : BitVec 40) :
    (s.escalate src.val minor info).on (FLT_SRC_COUNT.PERM src.val) = true := by
  obtain ⟨above, below⟩ := srcCount_range src
  have apart : (escalationWrites src.val).Pairwise fun a b => b.1.Apart a.1 := by
    simp [escalationWrites, Fld.Apart, FLT_SRC_COUNT.PERM, FLT_SRC_COUNT.CNT_A, FLT_SRC_COUNT.CNT_B]
  exact (s.escalate_source src.val minor info above below).trans
    (congrArg (· != 0) (State.rd_wrAll_fits (x := 1) (by decide : 1 < 2 ^ 1) (by decide : 48 + 1 ≤ 64) s apart
      (List.mem_cons_self ..)))

/-- An escalation says nothing of the wiring. -/
theorem State.escalate_wired (s : State) (src : SourceId) (minor : Bool) (info : BitVec 40) :
    (s.escalate src.val minor info).on (FLT_SRC_COUNT.WIRED src.val) = s.on (FLT_SRC_COUNT.WIRED src.val) := by
  obtain ⟨above, below⟩ := srcCount_range src
  refine (s.escalate_source src.val minor info above below).trans (congrArg (· != 0) (State.rd_wrAll_apart _ _ s fun e mem => ?_))
  simp only [escalationWrites, List.mem_cons, List.not_mem_nil, or_false] at mem
  rcases mem with rfl | rfl | rfl <;> exact Fld.apart_of_places rfl

/-- A wiring fault: WIRED set, and the event of source 0x5B recorded, which names the source and the pair (11 R343). -/
def State.wiringRecorded (s : State) (src : SourceId) (onMajor : Bool) : State :=
  (s.wr (FLT_SRC_COUNT.WIRED src.val) 1).openRecord 0x5B 8 false (BitVec.ofNat 40 (src.val + onMajor.toNat * 2 ^ 8))

theorem State.wiringRecorded_wired (s : State) (src : SourceId) (onMajor : Bool) :
    (s.wiringRecorded src onMajor).on (FLT_SRC_COUNT.WIRED src.val) = true := by
  obtain ⟨above, below⟩ := srcCount_range src
  exact (((CollectorKept.refl _ _).openRecord _ _ _ _).on above below).trans (s.on_wr_one _ rfl (by decide : 50 + 1 ≤ 64))

/-- The source is escalated unless it is permanent already. -/
theorem exec_wiringFault {s : State} {src : SourceId} (takes : s.takesEvents src = true) (heard : s.srcIgnored src.val = false)
    (onMajor : Bool) : exec (.wiringFault src onMajor) s = .next (
      if (s.wiringRecorded src onMajor).on (FLT_SRC_COUNT.PERM src.val) = true then s.wiringRecorded src onMajor
      else (s.wiringRecorded src onMajor).escalate src.val false (BitVec.ofNat 40 (src.val + onMajor.toNat * 2 ^ 8))) :=
  if_neg (by simp [takes, heard])

theorem exec_windowRestart_b {s : State} {src : SourceId} (due : s.now % max 1 (s.rd (FLT_SRC_CFG.W_US src.val)) =
    max 1 (s.rd (FLT_SRC_CFG.W_US src.val)) / 2) :
    exec (.windowRestart src true) s = .next (s.wr (FLT_SRC_COUNT.CNT_B src.val) 0) := if_neg (not_not.mpr due)

theorem exec_windowRestart_a {s : State} {src : SourceId} (due : s.now % max 1 (s.rd (FLT_SRC_CFG.W_US src.val)) = 0) :
    exec (.windowRestart src false) s = .next (s.wr (FLT_SRC_COUNT.CNT_A src.val) 0) := if_neg (not_not.mpr due)

theorem exec_handlingClose {s : State} (hm : s.mode ≠ 0) : exec .handlingClose s = .next (s.wr FLT_HANDLING.HANDLING 0) := if_neg hm

theorem exec_permClear {s : State} (hm : s.mode ≠ 0) (src : SourceId) :
    exec (.permClear src) s = .next (s.wr (FLT_SRC_COUNT.PERM src.val) 0) := if_neg hm

/-- Settles O43: a wiring fault by what its record and the escalation leave, the other commands by their equations. -/
theorem sourcesRestartClearAndFail : Obligations.SourcesRestartClearAndFail := by
  unfold Obligations.SourcesRestartClearAndFail
  intro s src b info
  refine ⟨fun takes heard => ⟨_, exec_wiringFault takes heard b, ?_⟩, exec_windowRestart_b, exec_windowRestart_a,
    fun hm => ⟨exec_handlingClose hm, exec_permClear hm src⟩⟩
  have silenced {t : State} (wired : t.on (FLT_SRC_COUNT.WIRED src.val) = true) (perm : t.on (FLT_SRC_COUNT.PERM src.val) = true) :
      t.on (FLT_SRC_COUNT.WIRED src.val) = true ∧ t.on (FLT_SRC_COUNT.PERM src.val) = true ∧
        exec (.minorEvent src info) t = .next t ∧ exec (.majorEvent src info) t = .next t :=
    ⟨wired, perm, exec_event_ignored (by rw [State.srcIgnored, wired, Bool.true_or]) info⟩
  have wired := s.wiringRecorded_wired src b
  split
  case isTrue perm => exact silenced wired perm
  case isFalse => exact silenced ((State.escalate_wired _ src _ _).trans wired) (State.escalate_perm _ src _ _)

end Sys2Proof.Machine
end

section
/-! PROOFS. The statement of chapter 11 on retirements (11 R361 to R371): which step a command takes, and what handing a core's logical
number to the spare leaves. -/

namespace Sys2Proof.Machine

/-! ### Slices (11 R366, R368) -/

theorem exec_sliceRetirement_next {s : State} {p : PhysSlice} {r : Retire} (hm : s.mode = 2) (running : s.retire 0 p.val = some r) :
    exec (.sliceRetirement p) s = .next (s.sliceStep p r) := by
  simp only [exec, execSliceRetirement, running, if_pos (Or.inl hm)]

theorem exec_sliceRetirement_begins {s : State} {p : PhysSlice} (hm : s.mode = 2) (idle : s.retire 0 p.val = none)
    (active : s.active p = true) (sound : s.slHusked p = false) (asked : s.retireAsked (0x10 + p.val) = true) :
    exec (.sliceRetirement p) s = .next (s.beginSliceRetirement p) := by
  have takes : s.mode = 2 ∧ s.active p = true ∧ (!s.slHusked p) = true ∧ s.retireAsked (0x10 + p.val) = true := by
    simp [hm, active, sound, asked]
  simp only [exec, execSliceRetirement, idle, if_pos takes]

/-! ### Ways (11 R362, R363) -/

/-- The retirement of a way of a slice, in progress. -/
def State.wayRetire (s : State) (p : PhysSlice) : Option Retire :=
  s.fw.retiring.find? fun x => (x.unit == 3 || x.unit == 4) && x.number == p.val

/-- What the spare way of an array stands for; 16 and above, nothing. -/
def State.spareFor (s : State) (p : PhysSlice) (filter : Bool) : Nat :=
  if filter then s.rd (SL_CTRL.SF_SPARE_FOR p.val) else s.rd (SL_HC_CTRL.SPARE_FOR p.val)

/-- Once the move has ended, the way that the spare stands for is recorded. -/
theorem exec_wayRetirement_ends {s : State} {p : PhysSlice} {r : Retire} (hm : s.mode = 2) (running : s.wayRetire p = some r)
    (begun : r.step ≠ 0) (still : s.on (SL_CTRL.MOVE_BUSY p.val) = false) : exec (.wayRetirement p) s =
      .next ((s.commit (.spareWay p.val (r.unit == 4) (s.spareFor p (r.unit == 4)))).endRetire r) := by
  unfold State.wayRetire at running
  simp only [exec, execWayRetirement, running, if_neg (not_not.mpr hm), if_neg begun, still, Bool.false_eq_true, if_false]
  rfl

/-- A retirement's entry put after the others. -/
def State.putRetire (s : State) (r : Retire) : State := { s with fw := { s.fw with retiring := s.fw.retiring ++ [r] } }

/-- With one faulty way and the spare way free the move begins. -/
theorem exec_wayRetirement_starts {s : State} {p : PhysSlice} {filter : Bool} {w : Nat} (hm : s.mode = 2) (idle : s.wayRetire p = none)
    (asked : s.retireAsked (0x10 + p.val) = true) (active : s.active p = true) (sound : s.slHusked p = false)
    (kept : s.retire 0 p.val = none) (faulty : s.faultyWay p = some (filter, w)) (known : w < 16)
    (still : s.on (SL_CTRL.MOVE_BUSY p.val) = false) (free : 16 ≤ s.spareFor p filter) : exec (.wayRetirement p) s =
      .next ((s.startMove p filter w).putRetire ⟨if filter then 4 else 3, p.val, 1, w⟩) := by
  unfold State.wayRetire at idle
  unfold State.spareFor at free
  have takes : ¬(s.mode ≠ 2 ∨ (!(s.retireAsked (0x10 + p.val) || !(s.sl p).tagLost.isEmpty)) = true ∨ (!s.active p) = true ∨
      s.slHusked p = true ∨ (s.retire 0 p.val).isSome = true) := by
    simp [hm, asked, active, sound, kept]
  have moves : (decide (16 ≤ if filter = true then s.rd (SL_CTRL.SF_SPARE_FOR p.val) else s.rd (SL_HC_CTRL.SPARE_FOR p.val)) &&
      decide (w < 16) && !s.on (SL_CTRL.MOVE_BUSY p.val)) = true := by
    simp [known, still, free]
  simp only [exec, execWayRetirement, idle, if_neg takes, faulty, if_pos moves]
  rfl

/-- The start of a move (11 R363): what firmware has in progress stays. -/
theorem State.startMove_starts {s : State} {p : PhysSlice} {filter : Bool} (w : Nat) (hm : s.mode ≠ 0)
    (still : s.on (SL_CTRL.MOVE_BUSY p.val) = false) (free : 16 ≤ s.spareFor p filter) :
    ((s.startMove p filter w).sl p).move = some ⟨filter, w, 0⟩ ∧ (s.startMove p filter w).fw = s.fw := by
  unfold State.spareFor at free
  have taken : ¬(s.mode = 0 ∨ s.on (SL_CTRL.MOVE_BUSY p.val) = true ∨
      (if filter = true then s.rd (SL_CTRL.SF_SPARE_FOR p.val) else s.rd (SL_HC_CTRL.SPARE_FOR p.val)) < 16) := by
    simp [hm, still, free]
  rw [State.startMove, if_neg taken]
  exact ⟨congrArg Slice.move (State.sl_setSl_same _ p _), rfl⟩

/-! ### Channels (11 R369) -/

theorem exec_channelRetirement_next {s : State} {c : Channel} {r : Retire} (hm : s.mode = 2) (running : s.retire 1 c.val = some r) :
    exec (.channelRetirement c) s = .next (s.channelStep c r) := by
  simp only [exec, execChannelRetirement, if_neg (not_not.mpr hm), running]

/-- The first step of a channel's retirement, where it is in progress. -/
def State.channelBegun (s : State) (c : Channel) : State :=
  match s.retire 1 c.val with
  | some r => s.channelStep c r
  | none => s

/-- A channel that the media front has husked. -/
theorem exec_channelRetirement_begins {s : State} {c : Channel} (hm : s.mode = 2) (idle : s.retire 1 c.val = none)
    (husked : s.chState c = 3) (fresh : s.on (FLT_SRC_COUNT.RETIRED (0x22 + c.val)) = false) :
    exec (.channelRetirement c) s = .next ((s.addRetire ⟨1, c.val, 1, 0⟩).channelBegun c) := by
  have asked : ((s.chState c == 3 && !s.on (FLT_SRC_COUNT.RETIRED (0x22 + c.val))) ||
      ((s.chState c == 1 || s.chState c == 2) && s.retireAsked (0x22 + c.val))) = true := by
    simp [husked, fresh]
  simp only [exec, execChannelRetirement, if_neg (not_not.mpr hm), idle, if_pos asked]
  rfl

/-! ### Control cores (11 R371) -/

/-- A failing core marked retired, and the reservation of its logical number dropped. -/
def State.coreFailed (s : State) (d : CoreId) (k : LogicalCore) : State :=
  (s.wr (FLT_SRC_COUNT.RETIRED (0x4A + d.val)) 1).dropReservation k

/-- A failing core's logical number given to the spare, and its core restarted. -/
def State.coreHandedOver (s : State) (d : CoreId) (k : LogicalCore) (n : Nat) : State :=
  ((s.coreFailed d k).setReg BOOT_CORE_MAP.reg (putBits ((s.coreFailed d k).reg BOOT_CORE_MAP.reg) (3 * k.val) 3 n)).modCore k s.startCore

/-- The hand-over recorded in the store, with its event. -/
def State.coreRecorded (s : State) (d : CoreId) : State :=
  ((s.commit (.coreMap ((s.reg BOOT_CORE_MAP.reg).extractLsb' 0 12))).commit (.retired 2 d.val)).fwEvent 0xE2 1 (2 + d.val * 2 ^ 8) s.now

theorem exec_controlCoreRetirement_spare {s : State} {d : CoreId} {k : LogicalCore} {n : Nat} (hm : s.mode = 2)
    (idle : s.retire 2 d.val = none) (asked : s.retireAsked (0x4A + d.val) = true)
    (serves : ((List.finRange 4).find? fun j => s.physCore j.val == d.val) = some k) (spare : s.spareCore = some n) :
    exec (.controlCoreRetirement d) s = .next ((s.coreHandedOver d k n).coreRecorded d) := by
  simp only [exec, execControlCoreRetirement, idle, if_pos (And.intro hm asked), State.retireCore, serves, spare]
  rfl

/-- The record and its event leave registers and cores alone. -/
theorem State.coreRecorded_regs (s : State) (d : CoreId) : (s.coreRecorded d).regs = s.regs := by
  have event (t : State) (typ prio info payload : Nat) : (t.fwEvent typ prio info payload).regs = t.regs :=
    holds_of_ite (P := fun u : State => u.regs = t.regs) rfl rfl
  rw [State.coreRecorded, event, State.commit_regs, State.commit_regs]

theorem State.coreRecorded_cores (s : State) (d : CoreId) : (s.coreRecorded d).cores = s.cores := by
  have event (t : State) (typ prio info payload : Nat) : (t.fwEvent typ prio info payload).cores = t.cores :=
    holds_of_ite (P := fun u : State => u.cores = t.cores) rfl rfl
  have commit (t : State) (e : RepairEntry) : (t.commit e).cores = t.cores :=
    holds_of_ite (P := fun u : State => u.cores = t.cores) rfl rfl
  rw [State.coreRecorded, event, commit, commit]

theorem State.dropReservation_regs (s : State) (k : LogicalCore) : (s.dropReservation k).regs = s.regs := by
  have frame := s.dropReservation_frame k
  generalize s.dropReservation k = t at frame ⊢
  rw [frame]

theorem State.coreFailed_reg (s : State) (d : CoreId) (k : LogicalCore) (o : Nat) :
    (s.coreFailed d k).reg o = (s.wr (FLT_SRC_COUNT.RETIRED (0x4A + d.val)) 1).reg o := by
  rw [State.coreFailed, State.reg, State.dropReservation_regs]
  rfl

theorem State.coreFailed_core (s : State) (d : CoreId) (k j : LogicalCore) : (s.coreFailed d k).core j = s.core j := by
  rw [State.coreFailed, State.dropReservation_core]
  rfl

/-- A core's source and the core map lie in different registers. -/
theorem coreSource_ne_coreMap (d : CoreId) : FLT_SRC_COUNT.reg (0x4A + d.val) ≠ BOOT_CORE_MAP.reg := by
  have := d.isLt
  rw [FLT_SRC_COUNT.reg, BOOT_CORE_MAP.reg]
  omega

theorem State.modCore_reg (s : State) (k : LogicalCore) (f : Core → Core) (o : Nat) : (s.modCore k f).reg o = s.reg o := rfl

theorem State.setReg_core (s : State) (o : Nat) (v : Word) (j : LogicalCore) : (s.setReg o v).core j = s.core j := rfl

/-- A spare core has a number below 5. -/
theorem State.spareCore_lt {s : State} {n : Nat} (spare : s.spareCore = some n) : n < 5 :=
  List.mem_range.mp (List.mem_of_find?_eq_some spare)

/-- The core map after the hand-over: the number's own field alone changes. -/
theorem State.coreHandedOver_map {s : State} {n : Nat} (d : CoreId) (k : LogicalCore) (fits : n < 8) :
    (s.coreHandedOver d k n).physCore k.val = n ∧
      ∀ j : LogicalCore, j ≠ k → (s.coreHandedOver d k n).physCore j.val = s.physCore j.val := by
  have map : (s.coreHandedOver d k n).reg BOOT_CORE_MAP.reg = putBits (s.reg BOOT_CORE_MAP.reg) (3 * k.val) 3 n := by
    rw [State.coreHandedOver, State.modCore_reg, State.reg_setReg_same, State.coreFailed_reg,
      s.reg_wr_ne (FLT_SRC_COUNT.RETIRED (0x4A + d.val)) 1 (coreSource_ne_coreMap d).symm]
  have low := k.isLt
  refine ⟨?_, fun j other => ?_⟩
  · rw [State.physCore, map, getBits_putBits_same _ _ _ _ (by omega)]
    exact Nat.mod_eq_of_lt fits
  · have apart : j.val ≠ k.val := fun same => other (Fin.ext same)
    rw [State.physCore, map, getBits_putBits_disjoint _ _ _ _ _ _ (by omega)]
    rfl

/-- The failing core's number restarts at the image's entry (11 R371, 12 R396; log 123); the others go on. -/
theorem State.coreHandedOver_core (s : State) (d : CoreId) (k : LogicalCore) (n : Nat) :
    (s.coreHandedOver d k n).core k = s.startCore (s.core k) ∧
      ∀ j, j ≠ k → (s.coreHandedOver d k n).core j = s.core j := by
  unfold State.coreHandedOver
  refine ⟨?_, fun j other => ?_⟩
  · rw [State.core_modCore_same, State.setReg_core, State.coreFailed_core]
  · rw [State.core_modCore_ne _ other, State.setReg_core, State.coreFailed_core]

theorem State.coreHandedOver_retired (s : State) (d : CoreId) (k : LogicalCore) (n : Nat) :
    (s.coreHandedOver d k n).on (FLT_SRC_COUNT.RETIRED (0x4A + d.val)) = true := by
  have own : (s.coreHandedOver d k n).reg (FLT_SRC_COUNT.reg (0x4A + d.val)) =
      (s.wr (FLT_SRC_COUNT.RETIRED (0x4A + d.val)) 1).reg (FLT_SRC_COUNT.reg (0x4A + d.val)) := by
    rw [State.coreHandedOver, State.modCore_reg, State.reg_setReg_ne _ _ (coreSource_ne_coreMap d), State.coreFailed_reg]
  exact (congrArg (fun v => getBits v 51 1 != 0) own).trans (s.on_wr_one _ rfl (by decide : 51 + 1 ≤ 64))

/-- Settles O46: each command by its equation, a way's move by its start, a core's hand-over by the core map and the cores it leaves. -/
theorem retirementsGoStepByStep : Obligations.RetirementsGoStepByStep := by
  unfold Obligations.RetirementsGoStepByStep
  intro s p c d k r w n filter hm
  refine ⟨exec_sliceRetirement_next hm, exec_sliceRetirement_begins hm, exec_wayRetirement_ends hm,
    fun idle asked active sound kept faulty known still free => ?_, exec_channelRetirement_next hm,
    exec_channelRetirement_begins hm, fun idle asked serves spare => ?_⟩
  · obtain ⟨move, firmware⟩ := State.startMove_starts w (show s.mode ≠ 0 by omega) still free
    exact ⟨_, exec_wayRetirement_starts hm idle asked active sound kept faulty known still free, move,
      congrArg (fun f : Firmware => f.retiring ++ [⟨if filter then 4 else 3, p.val, 1, w⟩]) firmware⟩
  · obtain ⟨map, otherNumbers⟩ := State.coreHandedOver_map (s := s) d k ((State.spareCore_lt spare).trans (by decide))
    obtain ⟨restarted, otherCores⟩ := s.coreHandedOver_core d k n
    have retired := s.coreHandedOver_retired d k n
    have regs := (s.coreHandedOver d k n).coreRecorded_regs d
    have cores := (s.coreHandedOver d k n).coreRecorded_cores d
    refine ⟨_, exec_controlCoreRetirement_spare hm idle asked serves spare, ?_⟩
    generalize (s.coreHandedOver d k n).coreRecorded d = t at regs cores ⊢
    have phys (j : Nat) : t.physCore j = (s.coreHandedOver d k n).physCore j := by
      rw [State.physCore, State.reg, regs]
      rfl
    have core (j : LogicalCore) : t.core j = (s.coreHandedOver d k n).core j := by
      rw [State.core, cores]
      rfl
    exact ⟨(phys k.val).trans map, fun j other => (phys j.val).trans (otherNumbers j other), (core k).trans restarted,
      fun j other => (core j).trans (otherCores j other), (congrArg (· != 0) (State.rd_congr regs _)).trans retired⟩

end Sys2Proof.Machine
end

section
/-! PROOFS. The statements about every step (95; 17 R499; logs 1, 2, 3, 4 and 9): what it takes from the queue and keeps, the state
after reset, and that no command but a block reset's early release stops the machine. -/

namespace Sys2Proof.Machine

open Host (Outcome)

/-! ### What every step keeps -/

/-- The canonical form does not speak of the queue of commands. -/
theorem State.Canonical.withPending {s : State} (c : s.Canonical) (q : List Instr) : (s.withPending q).Canonical := { c with }

/-- Settles O5: the clause of `Evolves` on the canonical form. -/
theorem stepKeepsCanonical : Obligations.StepKeepsCanonical := by
  unfold Obligations.StepKeepsCanonical
  intro s t canonical next
  exact (step_evolves next).canonical (canonical.withPending _)

/-- Settles O6: the clause of `Evolves` on the queue. -/
theorem commandLeavesTheQueue : Obligations.CommandLeavesTheQueue := by
  unfold Obligations.CommandLeavesTheQueue
  intro s t next
  exact (step_evolves next).pending

/-- Settles O7: the clauses of `Evolves` on the messages and the numbers. -/
theorem messagesAreNeverRetracted : Obligations.MessagesAreNeverRetracted := by
  unfold Obligations.MessagesAreNeverRetracted
  intro s t next
  have e := step_evolves next
  exact ⟨e.out, e.ids, e.free⟩

/-! ### What a step takes -/

/-- Settles O1. -/
theorem stepRunsFrontCommand : Obligations.StepRunsFrontCommand := by
  unfold Obligations.StepRunsFrontCommand
  exact fun _ _ _ => rfl

theorem step_of_idle {s : State} (idle : s.pending = []) : step s = .next s.tick := by
  unfold step
  rw [idle]

/-- The always-on island counts nothing before it has left its own reset, or without power (17 R499). -/
theorem State.tick_stopped {s : State} (stopped : (s.aon.power && s.aon.porDone) = false) : s.tick = s := by
  unfold State.tick
  rw [stopped, if_neg Bool.false_ne_true]

/-- Settles O2. -/
theorem idleStepLetsOneMicrosecondPass : Obligations.IdleStepLetsOneMicrosecondPass := by
  unfold Obligations.IdleStepLetsOneMicrosecondPass
  intro s idle
  refine ⟨step_of_idle idle, fun stopped => ?_⟩
  rw [step_of_idle idle, State.tick_stopped stopped]

/-! ### The state after reset -/

/-- Settles O3: every table is empty, and every register reads its reset value. -/
theorem resetIsHold : Obligations.ResetIsHold := by
  unfold Obligations.ResetIsHold
  exact ⟨rfl, rfl, rfl, rfl, rfl, fun _ => rfl, fun _ => rfl, rfl, fun _ => rfl, fun _ _ => rfl⟩

/-- Settles O4: every table is empty. -/
theorem resetIsCanonical : Obligations.ResetIsCanonical := by
  unfold Obligations.ResetIsCanonical
  constructor <;> rfl

/-! ### Commands that answer a next state -/

/-- An outcome that is a next state. -/
def Answers (o : Outcome State Fault Refusal) : Prop := ∃ t, o = .next t

theorem Answers.next (t : State) : Answers (.next t) := ⟨t, rfl⟩

theorem Answers.ite {c : Prop} [Decidable c] {a b : Outcome State Fault Refusal} (h : Answers a) (k : Answers b) :
    Answers (if c then a else b) := holds_of_ite h k

/-- Each meaning but that of a block reset's release ends, whichever of its branches it takes, in a next state. -/
theorem exec_answers {c : Instr} (other : ∀ ready, c ≠ .blockResetRelease ready) (s : State) : Answers (exec c s) := by
  cases c
  case blockResetRelease ready => exact absurd rfl (other ready)
  all_goals
    clear other
    dsimp -zeta only [exec,
      execUnsupportedRequest, execBirsp, execBiconflict, execBiWarnExpiry, execBiFenceExpiry, execSnoopReoffer, execLinkUp,
      execLinkDown, execHotReset, execBiEnableChange, execWidthReport, execL0pRefused, execGpfPhase2, execGpfPhase2Ack,
      execHpHuskWrite, execHpEnableClear, execHuskClear, execForgetHostWalkStep, execUrgentPassLineVisit, execTrackerFree,
      execFilterWayRetry, execHcWayRetry, execBudgetWaitProceed, execRequestAged, execSpillMapSet, execSpillMapSetAck,
      execSpillMapQuery, execSpillTokenTick, execIaRd, execIaWr, execFabricTimeout, execMediaReadRequest, execMediaLineWrite,
      execMetadataOnlyWrite, execDispatchPlaceFree, execMediaReadStatus, execBusyMigratingReissue, execHedgeDeadline,
      execMediaWriteStatus, execWriteRetry, execHedgeTraining, execChannelLightSleep, execMinorCounterExhausted, execRekeyStep,
      execMacFailure, execCounterUnreadable, execChannelRetire, execMfGroupMapWrite, execRebuildResume, execApertureRead,
      execApertureWrite, execResyncStart, execResyncStripeCheck, execMfHedgeTableLatch, execMediaDataReturn, execMediaWriteAck,
      execCleanerStep, execDirtyBudgetWrite, execPersistModeWrite, execRangeAgentLine, execPfwNAssert, execDrainHostPhaseEnd,
      execDrainSnoopTimeout, execCipherFlushDone, execRecordCloseAck, execAutomaticRestart, execModeReqServe, execModeReqDormant,
      execModeReqRepair, execModeReqHold, execDormantIdleDwell, execDormantEntryStepEnd, execDormantEntryTimeout,
      execDormantExitCount, execDormantExitStepEnd, execRepairCauseRelease, execRepairTimeout, execResetInvalidationDone,
      execAcornRomSequence, execRingEnumeration, execMeasuredLoadBlock, execOppTargetWrite, execRegulatorSettled,
      execRegulatorTimeout, execThermalReading, execClockMonitorCheck, execWiringFault, execWindowRestart, execHandlingClose,
      execPermClear, execWatchdogFeed, execWatchdogExpiry, execPipToggle, execMoveSetStep, execSfDrain, execSfDrainStep,
      execSliceHuskWrite, execSliceRetirement, execWayRetirement, execChannelRetirement, execControlCoreRetirement, execWordRemap,
      execRemapReadEntry, execInstallWithCopy, execRemapCopyExecute, execInstallZeroed, execEccTestUnlockKey, execEccUnlockExpiry,
      execEccTestArm, execScrubStartPass, execScrubVisit, execScrubMediaStripeVisit, execScrubRevisit, execPatrolPeriod,
      execSweeperChunkVisit, execSweeperLine, execSweeperChunkVisitEnd, execProgressCommit, execRegionPortRead,
      execRegionPortWrite, execHashCtrlWrite, execBootCoreMapWrite, execPqDataRead, execPqFillWrite, execPqReset,
      execPointerMismatchReset, execCrossingReplay, execMailboxDoorbell, execBootLoad, execBootSwitch, execBootConfirm,
      execTrialExpiry, execConfigProgramAck, execDmaGo, execDmaPause, execDmaResume, execDmaDisable, execDmaDrainDone,
      execDmaChannelStart, execDescriptorFetch, execDmaReadResponse, execDescriptorComplete, execDmaBusError, execPmuSnap,
      execPeakClr, execSampleCtrlWrite, execSampleSeedWrite, execSampleClear, execSampleDataRead, execRegisterWrite,
      execHostCreditAdvertised, execPowerOnReset, execPfwNDeassert, execStandardMemoryDeviceCommand]
    repeat' first | exact Answers.next _ | refine Answers.ite ?_ ?_ | (extract_lets +onlyGivenNames x; clear_value x) | split

/-- A block reset's release answers a next state too, unless it comes early (17 R499). -/
theorem exec_blockResetRelease_answers (ready : Bool) (s : State) :
    Answers (exec (.blockResetRelease ready) s) ∨
      (ready = false ∧ s.aon.blockReset = true ∧ s.aon.power = true ∧ s.aon.porDone = true ∧
        exec (.blockResetRelease ready) s = .fault .stateUndefined) := by
  simp only [exec, execBlockResetRelease]
  split
  next => exact .inl (.next s)
  next asserted =>
    simp only [Bool.not_eq_true', not_or, Bool.not_eq_false] at asserted
    cases ready with
    | true =>
      rw [if_neg (by decide)]
      exact .inl (.ite (.next _) (.next _))
    | false => exact .inr ⟨rfl, asserted.1, asserted.2.1, asserted.2.2, rfl⟩

/-- Settles O9. -/
theorem onlyAnEarlyReleaseStops : Obligations.OnlyAnEarlyReleaseStops := by
  unfold Obligations.OnlyAnEarlyReleaseStops
  intro s c
  by_cases other : ∀ ready, c ≠ .blockResetRelease ready
  · exact .inl (exec_answers other s)
  · push Not at other
    obtain ⟨ready, rfl⟩ := other
    exact (exec_blockResetRelease_answers ready s).imp_right fun ⟨early, rest⟩ => ⟨by rw [early], rest⟩

end Sys2Proof.Machine
end

section
/-! PROOFS. The statements of the pod queues (13 R400 to R415): reading an item, the idle item, the capture queue, resets and replays. -/

namespace Sys2Proof.Machine

/-! ### Reading an item -/

/-- The banks do not swap where the drain bank holds an item, nor where no item is committed (13 R400). -/
theorem State.pqSwap_still {s : State} {q : Nat} (h : (s.pq q).drain ≠ [] ∨ (s.pq q).fill = []) : s.pqSwap q = s :=
  if_neg fun ⟨empty, committed⟩ => h.elim (· empty) committed

/-- With no committed item in either bank a read finds none (13 R403). -/
theorem State.pqPop_idle {s : State} {q : Nat} (drain : (s.pq q).drain = []) (fill : (s.pq q).fill = []) : s.pqPop q = (s, none) := by
  simp [State.pqPop, State.pqSwap_still (.inr fill), drain]

theorem pickItem_arrival (l : List PqItem) : pickItem false l = 0 := rfl

/-- What a read in arrival order takes from a queue whose notices firmware does not log: the oldest item of the drain bank, its valid
bytes and its end of packet (13 R400, R401, R415). -/
def State.oldestPopped (s : State) (q : Nat) (i : PqItem) : State :=
  ((s.modPq q fun y => { y with drain := y.drain.eraseIdx 0, reading := if i.eop then [] else y.reading ++ [i.word] }).wr
    (PQ_STATUS.POP_VBC q) (min 16 i.vbc)).wb (PQ_STATUS.POP_EOP q) i.eop

theorem State.pqPop_oldest {s : State} {q : Nat} {i : PqItem} {rest : List PqItem} (drain : (s.pq q).drain = i :: rest)
    (arrival : s.on (PQ_CTRL.ORDER q) = false) (unlogged : 74 ≤ q) : s.pqPop q = (s.oldestPopped q i, some i) := by
  have still : s.pqSwap q = s := State.pqSwap_still (.inl (by simp [drain]))
  have taken : (s.pq q).drain[0]? = some i := by rw [drain]; rfl
  have other : ¬(70 ≤ q ∧ q < 74 ∧ i.eop = true) := by omega
  simp only [State.pqPop, still, arrival, pickItem_arrival, taken, if_neg other]
  rfl

theorem exec_pqDataRead_full {s : State} {q : QueueId} (hm : s.mode ≠ 0) (pod : 70 ≤ q.val) :
    exec (.pqDataRead q .full) s =
      .next ((s.pqPop q.val).1.emit (.pqItem q (match (s.pqPop q.val).2 with | some i => i.word | none => 0#128))) :=
  (if_neg hm).trans (if_neg (Nat.not_lt.mpr pod))

theorem exec_pqDataRead_oldest {s : State} {q : QueueId} {i : PqItem} {rest : List PqItem} (hm : s.mode ≠ 0)
    (drain : (s.pq q.val).drain = i :: rest) (arrival : s.on (PQ_CTRL.ORDER q.val) = false) (unlogged : 74 ≤ q.val) :
    exec (.pqDataRead q .full) s = .next ((s.oldestPopped q.val i).emit (.pqItem q i.word)) := by
  rw [exec_pqDataRead_full hm (by omega), State.pqPop_oldest drain arrival unlogged]

theorem State.oldestPopped_pq_same (s : State) (q : Nat) (i : PqItem) :
    (s.oldestPopped q i).pq q =
      { s.pq q with drain := (s.pq q).drain.eraseIdx 0, reading := if i.eop then [] else (s.pq q).reading ++ [i.word] } := by
  simp [State.oldestPopped, State.wb]

theorem State.oldestPopped_pq_ne (s : State) {k q : Nat} (i : PqItem) (other : k ≠ q) : (s.oldestPopped q i).pq k = s.pq k := by
  simp [State.oldestPopped, State.wb, other]

theorem State.oldestPopped_vbc (s : State) (q : Nat) (i : PqItem) : (s.oldestPopped q i).rd (PQ_STATUS.POP_VBC q) = min 16 i.vbc := by
  have apart : (PQ_STATUS.POP_EOP q).Apart (PQ_STATUS.POP_VBC q) := by simp [Fld.Apart, PQ_STATUS.POP_EOP, PQ_STATUS.POP_VBC]
  rw [State.oldestPopped, State.wb, State.rd_wr_apart _ _ apart, State.rd_wr_same _ _ _ (by simp [PQ_STATUS.POP_VBC])]
  exact Nat.mod_eq_of_lt (Nat.lt_of_le_of_lt (Nat.min_le_left _ _) (by simp [PQ_STATUS.POP_VBC]))

theorem State.oldestPopped_eop (s : State) (q : Nat) (i : PqItem) : (s.oldestPopped q i).on (PQ_STATUS.POP_EOP q) = i.eop :=
  State.on_wb_same _ _ _ rfl (by simp [PQ_STATUS.POP_EOP])

theorem exec_pqDataRead_low_idle {s : State} {q : QueueId} (hm : s.mode ≠ 0) (pod : 70 ≤ q.val) (idle : s.pqPop q.val = (s, none)) :
    exec (.pqDataRead q .low) s = .next (s.emit (.pqItem q 0#128)) := by
  simp [exec, execPqDataRead, hm, Nat.not_lt.mpr pod, idle]

/-- A crossing's PQ_DATA reads 0 (13 R410). -/
theorem exec_pqDataRead_full_crossing {s : State} {q : QueueId} (hm : s.mode ≠ 0) (crossing : q.val < 70) :
    exec (.pqDataRead q .full) s = .next (s.emit (.pqItem q 0#128)) := (if_neg hm).trans (if_pos crossing)

theorem exec_pqDataRead_high {s : State} {q : QueueId} (hm : s.mode ≠ 0) (pod : 70 ≤ q.val) :
    exec (.pqDataRead q .high) s = .next (s.emit (.pqItem q ((s.pq q.val).latched.setWidth 128))) := by
  simp [exec, execPqDataRead, hm, Nat.not_lt.mpr pod]

/-- Settles O51: a read finds no item, so the state stays as it is. -/
theorem idleItemChangesNothing : Obligations.IdleItemChangesNothing := by
  unfold Obligations.IdleItemChangesNothing
  intro s q pod hm drain fill
  have idle := State.pqPop_idle drain fill
  refine ⟨?_, exec_pqDataRead_low_idle hm pod idle, rfl⟩
  rw [exec_pqDataRead_full hm pod, idle]

/-! ### The capture queue, resets and replays -/

/-- Bytes that leave the open word short and end no packet close no word (13 R408). -/
theorem packBytes_open {old new : List Byte} (short : (old ++ new).length < 16) : packBytes old new false = ([], old ++ new) := by
  rw [packBytes, if_pos short, if_neg Bool.false_ne_true]

theorem exec_pqFillWrite_rewind {s : State} {v : Word} (taken : s.captureOpen = true) (rewind : getBits v 35 1 = 1) :
    exec (.pqFillWrite v) s = .next (s.modPq 75 fun y => { y with openBytes := [] }) := by
  simp [exec, execPqFillWrite, taken, rewind]

theorem exec_pqFillWrite_appends {s : State} {v : Word} (taken : s.captureOpen = true) (rewind : getBits v 35 1 = 0)
    (eop : getBits v 34 1 = 0) (short : (s.pq 75).openBytes.length + getBits v 32 2 + 1 < 16) :
    exec (.pqFillWrite v) s = .next (s.modPq 75 fun y =>
      { y with openBytes := (s.pq 75).openBytes ++ leBytes (getBits v 32 2 + 1) (getBits v 0 32) }) := by
  have packed : packBytes (s.pq 75).openBytes (leBytes (getBits v 32 2 + 1) (getBits v 0 32)) false = ([], _) :=
    packBytes_open (by rw [List.length_append, length_leBytes]; omega)
  simp [exec, execPqFillWrite, taken, rewind, eop, packed]

/-- A queue other than the boot intake queue is emptied, and bank 0 fills (13 R405). -/
theorem State.emptyQueue_eq (s : State) {q : Nat} (other : q ≠ 74) :
    s.emptyQueue q =
      (s.modPq q fun y => { y with fill := [], drain := [], openBytes := [], reading := [] }).wr (PQ_STATUS.FILL_BANK q) 0 :=
  if_neg other

theorem exec_pqReset {s : State} {q : QueueId} (hm : s.mode ≠ 0) (pod : 70 ≤ q.val) :
    exec (.pqReset q) s = .next (s.emptyQueue q.val) := if_neg (by omega)

/-- Settles O52. -/
theorem queuesAreReadFilledAndReset : Obligations.QueuesAreReadFilledAndReset := by
  unfold Obligations.QueuesAreReadFilledAndReset
  intro s q i rest v hm
  refine ⟨fun drain arrival valid => ?_, exec_pqDataRead_high hm, exec_pqDataRead_full_crossing hm, if_neg hm,
    exec_pqFillWrite_rewind, exec_pqFillWrite_appends, fun closed => ?_, fun pod other => ?_, fun crossing => if_pos (.inr crossing),
    if_neg hm, fun crossing seen => ?_⟩
  · have same := s.oldestPopped_pq_same 75 i
    refine ⟨(s.oldestPopped 75 i).emit (.pqItem 75 i.word), exec_pqDataRead_oldest (q := 75) hm drain arrival (by decide), rfl, ?_, ?_,
      (s.oldestPopped_vbc 75 i).trans (Nat.min_eq_right valid), s.oldestPopped_eop 75 i, fun k other => ?_, rfl⟩
    · rw [State.emit_pq, same, drain]
      rfl
    · rw [State.emit_pq, same]
    · rw [State.emit_pq, s.oldestPopped_pq_ne i other]
  · simp [exec, execPqFillWrite, closed]
  · refine ⟨_, exec_pqReset hm pod, ?_⟩
    rw [s.emptyQueue_eq other]
    exact ⟨by simp, by simp, by simp, State.on_wr_zero _ _ rfl (by simp [PQ_STATUS.FILL_BANK]), fun k ne => by simp [ne],
      fun o ne => State.reg_wr_ne _ _ _ ne, rfl⟩
  · simp [exec, execCrossingReplay, hm, Nat.not_le.mpr crossing, seen]

end Sys2Proof.Machine
end

section
/-! PROOFS. The statements of the performance monitor and of register stores (07 R235; 15 R459 to R468; 16 R470 to R475). -/

namespace Sys2Proof.Machine

open Host (Outcome)

/-! ### What a store makes of a field (00 R14) -/

theorem Access.apply_getLsbD (a : Access) (old v : Word) (i : Nat) :
    (a.apply old v).getLsbD i =
      (((old.getLsbD i && (decide (i < 64) && !a.rw.getLsbD i)) || (v.getLsbD i && a.rw.getLsbD i)) &&
        (decide (i < 64) && !(v.getLsbD i && a.w1c.getLsbD i))) := by
  simp only [Access.apply, BitVec.getLsbD_and, BitVec.getLsbD_or, BitVec.getLsbD_not]

/-- A field that takes stores reads as the field of the word stored. -/
theorem Access.getBits_apply {a : Access} {lo w : Nat} (taken : a.rw.extractLsb' lo w = BitVec.allOnes w)
    (kept : a.w1c.extractLsb' lo w = 0#w) (old v : Word) : getBits (a.apply old v) lo w = getBits v lo w := by
  unfold getBits
  congr 1
  refine BitVec.eq_of_getLsbD_eq fun i hi => ?_
  have stores : a.rw.getLsbD (lo + i) = true := by
    simpa [BitVec.getLsbD_extractLsb', hi] using congrArg (BitVec.getLsbD · i) taken
  have clears : a.w1c.getLsbD (lo + i) = false := by
    simpa only [BitVec.getLsbD_extractLsb', hi, decide_true, Bool.true_and, BitVec.getLsbD_zero] using congrArg (BitVec.getLsbD · i) kept
  have inside : lo + i < 64 := BitVec.lt_of_getLsbD stores
  simp only [BitVec.getLsbD_extractLsb', Access.apply_getLsbD, stores, clears, inside, hi, decide_true, Bool.not_true, Bool.and_false,
    Bool.and_true, Bool.true_and, Bool.false_or, Bool.not_false]

/-- Where no bit takes a store, a store changes nothing. -/
theorem Access.apply_none (old v : Word) : (⟨0#64, 0#64⟩ : Access).apply old v = old := by
  refine BitVec.eq_of_getLsbD_eq fun i hi => ?_
  rw [Access.apply_getLsbD]
  simp [hi]

theorem State.onlyRegs_setReg (s : State) (off : Nat) (v : Word) : s.OnlyRegs (s.setReg off v) [off] :=
  ⟨rfl, fun _ other => State.reg_setReg_ne _ _ fun e => other (by simp [e])⟩

theorem State.regs_of_slices {s t : State} (frame : t = { s with slices := t.slices }) : t.regs = s.regs := by rw [frame]

/-- A frame of registers stays one where slices have changed as well. -/
theorem State.OnlyRegs.of_slices {s t u : State} {l : List Nat} (h : s.OnlyRegs u l) (frame : t = { u with slices := t.slices }) :
    s.OnlyRegs { t with slices := s.slices } l := by
  obtain ⟨same, kept⟩ := h
  have back : { t with slices := s.slices } = u := by rw [frame, same]
  rw [back]
  exact ⟨same, kept⟩

theorem State.setReg_reg {s : State} (canonical : s.Canonical) (off : Nat) : s.setReg off (s.reg off) = s := by
  have same : s.regs.put (regReset off) off (s.reg off) = s.regs := Tbl.put_look regReset off canonical.regs
  rw [State.setReg, same]

/-! ### A change of every slice -/

/-- A change made once in each of some slices, to each its own, is made in each of them, and in no other. -/
theorem State.sl_foldl_modSl_each (f : PhysSlice → Slice → Slice) (q : PhysSlice) : ∀ (l : List PhysSlice) (s : State), l.Nodup →
    (l.foldl (fun s p => s.modSl p (f p)) s).sl q = if q ∈ l then f q (s.sl q) else s.sl q
  | [], _, _ => (if_neg List.not_mem_nil).symm
  | p :: l, s, distinct => by
    obtain ⟨fresh, distinct⟩ := List.nodup_cons.mp distinct
    rw [List.foldl_cons, sl_foldl_modSl_each f q l _ distinct]
    by_cases e : q = p
    · rw [e, if_neg fresh, if_pos List.mem_cons_self, State.sl_modSl_same]
    · simp only [State.sl_modSl_ne _ _ e, List.mem_cons, e, false_or]

theorem State.foldl_modSl_each_frame (f : PhysSlice → Slice → Slice) (l : List PhysSlice) (s : State) :
    l.foldl (fun s p => s.modSl p (f p)) s = { s with slices := (l.foldl (fun s p => s.modSl p (f p)) s).slices } :=
  holds_of_foldl (P := fun t : State => t = { s with slices := t.slices }) (fun _ _ h => by rw [h]; rfl) l s rfl

/-- The value that a seed gives a slice's LFSR (15 R463). -/
def lfsrLoaded (seed : Nat) (p : PhysSlice) : BitVec 32 :=
  let x := BitVec.ofNat 32 seed ^^^ BitVec.ofNat 32 (0x0001_0001 * (p.val + 1))
  if x = 0#32 then 1#32 else x

theorem State.loadLfsrs_eq (s : State) :
    s.loadLfsrs = allSlices.foldl (fun t p => t.modSl p fun y => { y with lfsr := lfsrLoaded (s.rd PMU_SAMPLE_SEED.SEED) p }) s := rfl

theorem State.loadLfsrs_frame (s : State) : s.loadLfsrs = { s with slices := s.loadLfsrs.slices } := State.foldl_modSl_each_frame _ _ _

theorem State.loadLfsrs_rd (s : State) (f : Fld) : s.loadLfsrs.rd f = s.rd f := State.rd_congr (State.regs_of_slices s.loadLfsrs_frame) f

theorem mem_allSlices (p : PhysSlice) : p ∈ allSlices := List.mem_finRange p

theorem State.loadLfsrs_sl (s : State) (p : PhysSlice) :
    s.loadLfsrs.sl p = { s.sl p with lfsr := lfsrLoaded (s.rd PMU_SAMPLE_SEED.SEED) p } := by
  rw [State.loadLfsrs_eq, State.sl_foldl_modSl_each (fun p y => { y with lfsr := lfsrLoaded (s.rd PMU_SAMPLE_SEED.SEED) p }) p _ _
    allSlices_nodup, if_pos (mem_allSlices p)]

/-- Without jitter a countdown is reloaded with the interval, after a step of its LFSR (15 R463). -/
def Slice.reloaded (n : Nat) (y : Slice) : Slice := { y with lfsr := lfsrStep y.lfsr, countdown := max 1 n }

theorem State.foldl_reloadCountdown {n : Nat} : ∀ (l : List PhysSlice) (s : State), s.rd PMU_SAMPLE_CTRL.N = n →
    s.rd PMU_SAMPLE_CTRL.JITTER = 0 → l.foldl (fun s p => s.reloadCountdown p) s = l.foldl (fun s p => s.modSl p (Slice.reloaded n)) s
  | [], _, _, _ => rfl
  | p :: l, s, interval, jitter => by
    have first : s.reloadCountdown p = s.modSl p (Slice.reloaded n) := by
      simp [State.reloadCountdown, interval, jitter, State.modSl, Slice.reloaded]
    rw [List.foldl_cons, List.foldl_cons, first]
    exact foldl_reloadCountdown l _ interval jitter

/-! ### The commands of the monitor -/

theorem exec_pmuSnap {s : State} (hm : s.mode ≠ 0) : exec .pmuSnap s = .next s.takeSnap := if_neg hm

theorem exec_sampleCtrlWrite {s : State} (hm : s.mode ≠ 0) (v : Word) : exec (.sampleCtrlWrite v) s = .next (s.writeSampleCtrl v) :=
  if_neg hm

/-- PMU_SAMPLE_CTRL as a store of a word leaves it. -/
def State.sampleCtrlStored (s : State) (v : Word) : State :=
  s.setReg PMU_SAMPLE_CTRL.reg ((access PMU_SAMPLE_CTRL.reg).apply (s.reg PMU_SAMPLE_CTRL.reg) v)

theorem State.sampleCtrlStored_rd (s : State) (v : Word) {f : Fld} (reg : f.off = PMU_SAMPLE_CTRL.reg)
    (taken : (access PMU_SAMPLE_CTRL.reg).rw.extractLsb' f.lo f.w = BitVec.allOnes f.w)
    (kept : (access PMU_SAMPLE_CTRL.reg).w1c.extractLsb' f.lo f.w = 0#f.w) : (s.sampleCtrlStored v).rd f = getBits v f.lo f.w := by
  rw [State.rd, reg, State.sampleCtrlStored, State.reg_setReg_same, Access.getBits_apply taken kept]

theorem State.sampleCtrlStored_n (s : State) (v : Word) : (s.sampleCtrlStored v).rd PMU_SAMPLE_CTRL.N = getBits v 32 32 :=
  s.sampleCtrlStored_rd v rfl (by decide) (by decide)

theorem State.sampleCtrlStored_jitter (s : State) (v : Word) : (s.sampleCtrlStored v).rd PMU_SAMPLE_CTRL.JITTER = getBits v 4 5 :=
  s.sampleCtrlStored_rd v rfl (by decide) (by decide)

theorem State.sampleCtrlStored_en (s : State) (v : Word) : (s.sampleCtrlStored v).rd PMU_SAMPLE_CTRL.EN = getBits v 0 1 :=
  s.sampleCtrlStored_rd v rfl (by decide) (by decide)

/-- The LFSRs and the countdowns that enabling without jitter loads (15 R463). -/
def State.samplingLoaded (s : State) (n : Nat) : State := allSlices.foldl (fun s p => s.modSl p (Slice.reloaded n)) s.loadLfsrs

theorem State.samplingLoaded_frame (s : State) (n : Nat) : s.samplingLoaded n = { s with slices := (s.samplingLoaded n).slices } := by
  have counted : s.samplingLoaded n = { s.loadLfsrs with slices := (s.samplingLoaded n).slices } := State.foldl_modSl_frame _ _ _
  rw [s.loadLfsrs_frame] at counted
  exact counted

theorem State.samplingLoaded_rd (s : State) (n : Nat) (f : Fld) : (s.samplingLoaded n).rd f = s.rd f :=
  State.rd_congr (State.regs_of_slices (s.samplingLoaded_frame n)) f

theorem State.samplingLoaded_sl (s : State) (n : Nat) (p : PhysSlice) :
    (s.samplingLoaded n).sl p = Slice.reloaded n { s.sl p with lfsr := lfsrLoaded (s.rd PMU_SAMPLE_SEED.SEED) p } := by
  rw [State.samplingLoaded, State.sl_foldl_modSl _ p _ _ allSlices_nodup, if_pos (mem_allSlices p), State.loadLfsrs_sl]

/-- A store that enables sampling, without CLEAR and without jitter (15 R463, R465). -/
theorem State.writeSampleCtrl_enables {s : State} {v : Word} (good : sampleRefused v = false) (off : s.on PMU_SAMPLE_CTRL.EN = false)
    (en : getBits v 0 1 = 1) (clear : getBits v 2 1 = 0) (jitter : getBits v 4 5 = 0) :
    s.writeSampleCtrl v = (s.sampleCtrlStored v).samplingLoaded (getBits v 32 32) := by
  have enabled : s.writeSampleCtrl v = allSlices.foldl (fun s p => s.reloadCountdown p) (s.sampleCtrlStored v).loadLfsrs := by
    simp [State.writeSampleCtrl, good, off, en, clear, State.sampleCtrlStored]
  rw [enabled]
  refine State.foldl_reloadCountdown _ _ ?_ ?_
  · rw [State.loadLfsrs_rd, State.sampleCtrlStored_n]
  · rw [State.loadLfsrs_rd, State.sampleCtrlStored_jitter, jitter]

theorem State.sampleCtrlStored_seed (s : State) (v : Word) : (s.sampleCtrlStored v).rd PMU_SAMPLE_SEED.SEED = s.rd PMU_SAMPLE_SEED.SEED := by
  rw [State.rd, State.sampleCtrlStored, State.reg_setReg_ne _ _ (by decide), State.rd]

theorem State.samplingLoaded_enables (s : State) {v : Word} (en : getBits v 0 1 = 1) (p : PhysSlice) :
    let t := (s.sampleCtrlStored v).samplingLoaded (getBits v 32 32)
    t.on PMU_SAMPLE_CTRL.EN = true ∧ t.rd PMU_SAMPLE_CTRL.N = getBits v 32 32 ∧ (t.sl p).countdown = max 1 (getBits v 32 32) ∧
      (t.sl p).lfsr = lfsrStep (lfsrLoaded (s.rd PMU_SAMPLE_SEED.SEED) p) ∧ s.OnlyRegs { t with slices := s.slices } [PMU_SAMPLE_CTRL.reg] := by
  intro t
  have slice : t.sl p = _ := State.samplingLoaded_sl _ _ p
  refine ⟨?_, (State.samplingLoaded_rd _ _ _).trans (s.sampleCtrlStored_n v), by rw [slice]; rfl, ?_,
    (s.onlyRegs_setReg _ _).of_slices (State.samplingLoaded_frame _ _)⟩
  · rw [State.on, State.samplingLoaded_rd, State.sampleCtrlStored_en, en]
    rfl
  · rw [slice, State.sampleCtrlStored_seed]
    rfl

theorem exec_sampleSeedWrite {s : State} (hm : s.mode ≠ 0) (v : Word) : exec (.sampleSeedWrite v) s = .next (s.writeSampleSeed v) :=
  if_neg hm

theorem State.writeSampleSeed_loads (s : State) (v : Word) (p : PhysSlice) :
    (s.writeSampleSeed v).rd PMU_SAMPLE_SEED.SEED = getBits v 0 32 ∧
      (s.writeSampleSeed v).sl p = { s.sl p with lfsr := lfsrLoaded (getBits v 0 32) p } ∧
      s.OnlyRegs { s.writeSampleSeed v with slices := s.slices } [PMU_SAMPLE_SEED.reg] := by
  have seed : (s.setReg PMU_SAMPLE_SEED.reg ((access PMU_SAMPLE_SEED.reg).apply (s.reg PMU_SAMPLE_SEED.reg) v)).rd PMU_SAMPLE_SEED.SEED =
      getBits v 0 32 := by
    rw [State.rd, PMU_SAMPLE_SEED.SEED, State.reg_setReg_same, Access.getBits_apply (by decide) (by decide)]
  refine ⟨?_, ?_, (s.onlyRegs_setReg _ _).of_slices (State.loadLfsrs_frame _)⟩
  · rw [State.writeSampleSeed, State.loadLfsrs_rd, seed]
  · rw [State.writeSampleSeed, State.loadLfsrs_sl, seed, State.setReg_sl]

/-- A snapshot copies the counters and its time, and takes the next sequence number (15 R459). -/
theorem State.takeSnap_takes (s : State) :
    s.takeSnap.snap = s.pmu ∧ s.takeSnap.rd PMU_SNAP_TIME.TIME = s.now % 2 ^ 64 ∧
      s.takeSnap.rd PMU_CTRL.SNAP_SEQ = (s.rd PMU_CTRL.SNAP_SEQ + 1) % 2 ^ 32 ∧ s.takeSnap.pmu = s.pmu ∧
      s.OnlyRegs { s.takeSnap with snap := s.snap } [PMU_SNAP_TIME.reg, PMU_CTRL.reg] := by
  refine ⟨rfl, ?_, State.rd_wr_same _ _ _ (by decide), rfl, rfl, fun o other => ?_⟩
  · rw [State.takeSnap, State.rd_wr_off _ _ _ _ (by decide), State.rd_wr_same _ _ _ (by decide)]
    rfl
  · simp only [List.mem_cons, List.not_mem_nil, or_false, not_or] at other
    have kept : s.takeSnap.reg o = s.reg o :=
      (State.reg_wr_ne _ PMU_CTRL.SNAP_SEQ _ other.2).trans (State.reg_wr_ne _ PMU_SNAP_TIME.TIME _ other.1)
    exact kept

theorem exec_peakClr {s : State} {p : PhysSlice} (hm : s.mode ≠ 0) (husk : s.slHusked p = false) :
    exec (.peakClr p) s = .next (s.wr (SL_TOR_STATUS.TRK_PEAK p.val) (s.sl p).trkUsed) := if_neg (by simp [hm, husk])

theorem exec_sampleClear {s : State} (hm : s.mode ≠ 0) : exec .sampleClear s = .next s.clearSamples := if_neg hm

theorem State.clearSamples_clears (s : State) :
    s.clearSamples.samples = [] ∧ s.clearSamples.rd PMU_SAMPLE_STATUS.LOST = 0 ∧ s.clearSamples.rd PMU_SAMPLE_STATUS.DISCARDED = 0 ∧
      s.clearSamples.rd PMU_SAMPLE_STATUS.ABANDONED = 0 ∧ s.OnlyRegs { s.clearSamples with samples := s.samples } [PMU_SAMPLE_STATUS.reg] := by
  have apart : [(PMU_SAMPLE_STATUS.LOST, 0), (PMU_SAMPLE_STATUS.DISCARDED, 0), (PMU_SAMPLE_STATUS.ABANDONED, 0)].Pairwise
      fun a b => b.1.Apart a.1 := by simp [Fld.Apart, PMU_SAMPLE_STATUS.LOST, PMU_SAMPLE_STATUS.DISCARDED, PMU_SAMPLE_STATUS.ABANDONED]
  have cleared (f : Fld) (fits : f.lo + f.w ≤ 64) (mem : (f, 0) ∈ _) : s.clearSamples.rd f = 0 :=
    (State.rd_wrAll_mem fits { s with samples := [] } apart mem).trans (Nat.zero_mod _)
  refine ⟨rfl, cleared _ (by decide) (by simp), cleared _ (by decide) (by simp), cleared _ (by decide) (by simp), rfl, fun o other => ?_⟩
  have ne : o ≠ PMU_SAMPLE_STATUS.reg := fun e => other (by simp [e])
  have kept : s.clearSamples.reg o = s.reg o :=
    ((State.reg_wr_ne _ PMU_SAMPLE_STATUS.ABANDONED _ ne).trans (State.reg_wr_ne _ PMU_SAMPLE_STATUS.DISCARDED _ ne)).trans
      (State.reg_wr_ne _ PMU_SAMPLE_STATUS.LOST _ ne)
  exact kept

theorem exec_sampleDataRead_record {s : State} {r : BitVec 256} {rest : List (BitVec 256)} (hm : s.mode ≠ 0)
    (oldest : s.samples = r :: rest) :
    exec .sampleDataRead s = .next ({ s with samples := rest }.emit (.sampleWord (r.extractLsb' 192 64))) := by
  simp [exec, execSampleDataRead, hm, oldest]

theorem exec_sampleDataRead_empty {s : State} (hm : s.mode ≠ 0) (empty : s.samples = []) :
    exec .sampleDataRead s = .next (s.emit (.sampleWord 0#64)) := by
  have still : { s with samples := [] } = s := by rw [← empty]
  simp [exec, execSampleDataRead, hm, empty, still]

/-! ### Register stores -/

theorem exec_registerWrite_hold {s : State} (hm : s.mode = 0) (off : Nat) (v : Word) : exec (.registerWrite off v) s = .next s := if_pos hm

theorem exec_registerWrite_misaligned {s : State} {off : Nat} (hm : s.mode ≠ 0) (mis : off % 8 ≠ 0) (v : Word) :
    exec (.registerWrite off v) s = .next (s.count 78 6) := (if_neg hm).trans (if_pos mis)

theorem exec_registerWrite_aligned {s : State} {off : Nat} (hm : s.mode ≠ 0) (aligned : off % 8 = 0) (v : Word) :
    exec (.registerWrite off v) s = .next (s.storeReg off v) := (if_neg hm).trans (if_neg (by simp [aligned]))

/-- Between the host ports and the slices stands no register (16 Table 16.1). -/
theorem access_unlisted {off : Nat} (low : 0x14000 ≤ off) (high : off < 0x20000) : access off = ⟨0#64, 0#64⟩ := by
  have single : accessSingle off = ⟨0#64, 0#64⟩ := by
    unfold accessSingle
    repeat rw [if_neg (Nat.ne_of_gt (Nat.lt_of_lt_of_le (by decide) low))]
    repeat rw [if_neg (Nat.ne_of_lt (Nat.lt_of_lt_of_le high (by decide)))]
  unfold access
  rw [if_neg (by omega), if_neg (by omega), if_neg (by omega), if_neg (by omega), if_neg (by simp only [MF_GROUP_MAP.reg]; omega),
    if_neg (by omega), if_neg (by omega), single]

theorem State.storeReg_unlisted {s : State} (canonical : s.Canonical) {off : Nat} (low : 0x14000 ≤ off) (high : off < 0x20000) (v : Word) :
    s.storeReg off v = s := by
  have plain : s.storeReg off v = s.plain off v := by
    unfold State.storeReg
    rw [if_neg (by omega), if_neg (by omega), if_neg (by omega), if_neg (by omega), if_neg (by omega), if_neg (by omega),
      if_neg (by omega), if_neg (by omega)]
    repeat rw [if_neg (Nat.ne_of_lt (Nat.lt_of_lt_of_le high (by decide)))]
  rw [plain, State.plain, access_unlisted low high, Access.apply_none, State.setReg_reg canonical]

/-- The fence responder answers a store to a register of a husked slice (16 R475). -/
theorem State.storeReg_husked {s : State} {p : PhysSlice} (husk : s.slHusked p = true) {k : Nat} (low : 0x10 < k) (high : k < 0x1000)
    (v : Word) : s.storeReg (0x20000 + 0x1000 * p.val + k) v = s.count 78 6 := by
  have slice : Fin.ofNat 18 ((0x20000 + 0x1000 * p.val + k - 0x20000) / 0x1000) = p := Fin.ext (by simp only [Fin.val_ofNat]; omega)
  have place : (0x20000 + 0x1000 * p.val + k) % 0x1000 = k := by omega
  unfold State.storeReg
  rw [if_neg (by omega), if_neg (by omega), if_pos (by omega), slice, place]
  exact if_pos ⟨husk, by omega, by omega, by omega⟩

/-- The registers of the fault sources take plain stores (16 Table 16.7). -/
theorem State.storeReg_fltSrcCfg (s : State) (n : Nat) (small : n < 96) (v : Word) :
    s.storeReg (FLT_SRC_CFG.reg n) v = s.plain (FLT_SRC_CFG.reg n) v := by
  unfold State.storeReg
  have off : FLT_SRC_CFG.reg n = 0x50000 + 8 * n := rfl
  rw [if_neg (by omega), if_neg (by omega), if_neg (by omega), if_neg (by omega), if_neg (by omega), if_neg (by omega),
    if_neg (by omega), if_neg (by omega)]
  repeat rw [if_neg (Nat.ne_of_lt (Nat.lt_of_lt_of_le (show FLT_SRC_CFG.reg n < 0x50300 by omega) (by decide)))]

theorem State.storeReg_rangeBase_busy {s : State} (busy : s.on HC_RANGE_STATUS.BUSY = true) (v : Word) :
    s.storeReg HC_RANGE_BASE.reg v = s := by
  have agents : s.storeReg HC_RANGE_BASE.reg v = s.storeAgents HC_RANGE_BASE.reg v := rfl
  rw [agents, State.storeAgents, if_pos (.inl rfl), if_pos busy]

/-- A command that answers a next state is that state. -/
theorem Answers.next_after {o : Outcome State Fault Refusal} (h : Answers o) (s : State) : .next (s.after o) = o := by
  obtain ⟨t, rfl⟩ := h
  rfl

/-- Settles O60. -/
theorem countersAndSamplesAreRead : Obligations.CountersAndSamplesAreRead := by
  unfold Obligations.CountersAndSamplesAreRead
  intro s p v r rest off loaded
  refine ⟨fun hm => exec_registerWrite_hold hm off v, fun hm => ⟨⟨_, exec_pmuSnap hm, s.takeSnap_takes⟩,
    fun husk => ⟨_, exec_peakClr hm husk, State.rd_wr_same _ _ _ (by simp [SL_TOR_STATUS.TRK_PEAK]), s.onlyRegs_wr _ _⟩,
    fun refused => ?_,
    fun good off en clear jitter => ⟨_, ?_, s.samplingLoaded_enables en p⟩,
    ⟨_, exec_sampleSeedWrite hm v, s.writeSampleSeed_loads v p⟩, ⟨_, exec_sampleClear hm, s.clearSamples_clears⟩,
    exec_sampleDataRead_record hm, exec_sampleDataRead_empty hm, fun mis => exec_registerWrite_misaligned hm mis v,
    fun aligned high low husk => ?_, fun canonical aligned low high => ?_, fun reg => ?_, fun busy => ?_, ?_, ?_, fun snap => ?_⟩⟩
  · refine ⟨_, (exec_sampleCtrlWrite hm v).trans (congrArg Outcome.next (if_pos refused)), State.on_wr_one _ _ rfl (by decide),
      State.rd_wr_apart _ _ (.inr (by decide)), State.rd_wr_apart _ _ (.inr (by decide)), s.onlyRegs_wr _ _⟩
  · rw [exec_sampleCtrlWrite hm, State.writeSampleCtrl_enables good off en clear jitter]
  · rw [exec_registerWrite_aligned hm (by omega), State.storeReg_husked husk low high]
  · rw [exec_registerWrite_aligned hm aligned, State.storeReg_unlisted canonical low high]
  · rcases reg with rfl | rfl | rfl
    · exact exec_registerWrite_aligned hm (by decide) v
    · exact exec_registerWrite_aligned hm (by decide) v
    · rw [exec_registerWrite_aligned hm (by simp only [FLT_SRC_CFG.reg]; omega), s.storeReg_fltSrcCfg _ (by omega)]
      rfl
  · rw [exec_registerWrite_aligned hm (by decide), State.storeReg_rangeBase_busy busy]
  · rw [exec_registerWrite_aligned hm (by decide)]
    exact (exec_answers (by simp) s : Answers (exec (.dirtyBudgetWrite v) s)).next_after s
  · rw [exec_registerWrite_aligned hm (by decide), exec_sampleCtrlWrite hm]
    rfl
  · have taken : s.storeReg PMU_CTRL.reg v = if getBits v 0 1 = 1 then s.takeSnap else s := rfl
    rw [exec_registerWrite_aligned hm (by decide), exec_pmuSnap hm, taken, if_pos snap]

end Sys2Proof.Machine
end

section
/-! PROOFS. The statements of the boot and of live activation (12 R383 to R398). -/

namespace Sys2Proof.Machine

open Host (Outcome)

/-! ### A measured load whose block number is past the image's last block -/

/-- A block that its image's header has no hash of is not taken. -/
theorem blockGood_unhashed {i : FwImage} {k : Nat} (later : k ≠ 0) (none : i.hashes = []) : blockGood i k = false := by
  simp [blockGood, later, none]

theorem exec_measuredLoadBlock_bad {s : State} {l : Load} (load : s.boot.load = some l) (valid : (s.store.image l.slot).valid = true)
    (blocks : (s.store.image l.slot).blocks ≠ 0) (bad : blockGood (s.store.image l.slot) l.block = false) :
    exec (.measuredLoadBlock true) s = .next ((s.loadBlock l.bankB (s.store.image l.slot) l.block).loadFailed l) := by
  simp [exec, execMeasuredLoadBlock, load, valid, blocks, bad]

/-- A boot load that fails is followed by the load of the other slot (12 R385). -/
theorem State.loadFailed_boot {s : State} {l : Load} (boot : l.boot = true) (first : s.boot.triedOther = false) :
    (s.loadFailed l).boot.load = some ⟨if l.slot = 1 then 2 else 1, false, 0, 0, true⟩ := by
  rw [State.loadFailed, if_pos boot, first, if_neg Bool.false_ne_true]
  rfl

/-- An image of its header alone, which no hash goes with. -/
def headerOnly : FwImage := { FwImage.none with valid := true, blocks := 1 }

/-- A boot load of block 1 of an image that has block 0 only. -/
def loadPastTheImage : Load := ⟨1, false, 1, 0, true⟩

/-- A state in which it is under way. -/
def loadingPastTheImage : State :=
  { State.reset with
    store := { State.reset.store with slot1 := headerOnly }, boot := { State.reset.boot with load := some loadPastTheImage } }

theorem loadingPastTheImage_loading : loadingPastTheImage.loading loadPastTheImage := by
  refine ⟨rfl, rfl, Nat.one_ne_zero, fun k inside => ?_⟩
  obtain rfl : k = 0 := Nat.lt_one_iff.mp inside
  rfl

/-- Refutes O57: the last block of a boot load is to end the load wherever its number is at or past the image's last, but that the hashes
of the image's blocks are good says nothing of a number past them. There the block is bad, and the load of the other slot follows. -/
theorem not_bootGoesStepByStep : ¬ Obligations.BootGoesStepByStep := by
  unfold Obligations.BootGoesStepByStep
  intro all
  obtain ⟨-, -, -, -, last, -⟩ := all loadingPastTheImage ⟨0#5, false⟩ [] loadPastTheImage
  obtain ⟨t, run, -, ended, -⟩ := last loadingPastTheImage_loading rfl (by decide)
  have failed := exec_measuredLoadBlock_bad (s := loadingPastTheImage) (l := loadPastTheImage) rfl rfl Nat.one_ne_zero
    (blockGood_unhashed Nat.one_ne_zero rfl)
  have goesOn : t.boot.load = some ⟨2, false, 0, 0, true⟩ := by
    rw [← Outcome.next.inj (failed.symm.trans run)]
    exact State.loadFailed_boot rfl rfl
  rw [ended] at goesOn
  exact absurd goesOn (by decide)

end Sys2Proof.Machine
end

section
/-! PROOFS. The statements of live activation and of the configuration store (12 R395 to R398; 17 R495). -/

namespace Sys2Proof.Machine

open Host (Outcome)

/-! ### What the measurements and the log leave -/

/-- What keeps BOOT_ACT and, of the boot state, all but the measurement log. -/
structure ActKept (s t : State) : Prop where
  act : t.reg BOOT_ACT.reg = s.reg BOOT_ACT.reg
  boot : t.boot = { s.boot with log := t.boot.log }

theorem ActKept.refl (s : State) : ActKept s s := ⟨rfl, rfl⟩

theorem ActKept.trans {s t u : State} (h : ActKept s t) (k : ActKept t u) : ActKept s u :=
  ⟨k.act.trans h.act, by rw [k.boot, h.boot]⟩

theorem ActKept.setReg {s t : State} (h : ActKept s t) {off : Nat} (other : off ≠ BOOT_ACT.reg) (v : Word) : ActKept s (t.setReg off v) :=
  h.trans ⟨State.reg_setReg_ne _ _ other.symm, rfl⟩

theorem ActKept.wr {s t : State} (h : ActKept s t) {f : Fld} (other : f.off ≠ BOOT_ACT.reg) (x : Nat) : ActKept s (t.wr f x) :=
  h.setReg other _

/-- A step that changes no register and nothing of the boot state. -/
theorem ActKept.of_eq {s t : State} (regs : t.regs = s.regs) (boot : t.boot = s.boot) : ActKept s t :=
  ⟨State.reg_congr regs _, by rw [boot]⟩

theorem ActKept.modCore {s t : State} (h : ActKept s t) (k : LogicalCore) (f : Core → Core) : ActKept s (t.modCore k f) :=
  h.trans (.of_eq rfl rfl)

theorem State.setMeas_actKept (s : State) (i : Nat) (d : BitVec 384) : ActKept s (s.setMeas i d) :=
  holds_of_foldl (P := ActKept s) (fun _ w h => h.setReg (by simp only [BOOT_MEAS.reg, BOOT_ACT.reg]; omega) _) _ _ (ActKept.refl s)

theorem State.setPend_actKept (s : State) (d : BitVec 384) : ActKept s (s.setPend d) :=
  holds_of_foldl (P := ActKept s) (fun _ w h => h.setReg (by simp only [BOOT_PEND.reg, BOOT_ACT.reg]; omega) _) _ _ (ActKept.refl s)

theorem State.setValid_regs (s : State) (m w n : Nat) (b : Bool) : (s.setValid m w n b).regs = s.regs := by
  unfold State.setValid
  split <;> rfl

theorem State.logMeas_actKept (s : State) (index event : Nat) (d : BitVec 384) : ActKept s (s.logMeas index event d) := by
  unfold State.logMeas
  extract_lets e n l valid boot s1 s2
  have h1 : ActKept s s1 := ⟨State.reg_congr (s.setValid_regs _ _ _ _) _, rfl⟩
  have h2 : ActKept s s2 := (h1.wr (by decide) _).wr (by decide) _
  exact holds_of_ite (P := ActKept s) (h2.wr (by decide) _) h2

theorem State.dropReservation_boot (s : State) (k : LogicalCore) : (s.dropReservation k).boot = s.boot := by
  have frame := s.dropReservation_frame k
  generalize s.dropReservation k = t at frame ⊢
  rw [frame]

/-! ### The cores restart -/

/-- One core restarts without its reservation, where it is not husked (12 R396). -/
def State.restartCore (s : State) (k : LogicalCore) : State :=
  let s1 := s.dropReservation k
  if (s1.core k).husked then s1 else s1.modCore k s.startCore

theorem State.restartCore_actKept (s : State) (k : LogicalCore) : ActKept s (s.restartCore k) := by
  have dropped : ActKept s (s.dropReservation k) := .of_eq (s.dropReservation_regs k) (s.dropReservation_boot k)
  exact holds_of_ite (P := ActKept s) dropped (dropped.modCore k _)

theorem State.restartCores_actKept (s : State) : ActKept s s.restartCores :=
  holds_of_foldl (P := ActKept s) (fun _ k h => h.trans (State.restartCore_actKept _ k)) _ _ (ActKept.refl s)

theorem State.restartCore_sramReserved (s : State) (k : LogicalCore) : (s.restartCore k).sramReserved = s.sramReserved.put 0 k.val 0 :=
  holds_of_ite (P := fun t : State => t.sramReserved = s.sramReserved.put 0 k.val 0) (s.dropReservation_sramReserved k)
    (s.dropReservation_sramReserved k)

/-- A core that restarts, or that had no reservation, has none. -/
theorem State.restartCores_unreserved (k : LogicalCore) : ∀ (l : List LogicalCore) (s : State),
    k ∈ l ∨ s.sramReserved.look 0 k.val = 0 → (l.foldl State.restartCore s).sramReserved.look 0 k.val = 0
  | [], _, h => h.resolve_left List.not_mem_nil
  | j :: l, s, h => by
    refine restartCores_unreserved k l _ ?_
    rw [State.restartCore_sramReserved]
    by_cases e : k = j
    · exact .inr (by rw [e, Tbl.look_put_same])
    · rw [Tbl.look_put_ne _ _ _ _ fun v => e (Fin.ext v)]
      exact h.imp_left fun mem => (List.mem_cons.mp mem).resolve_left e

/-! ### A switch of the banks -/

/-- The fields of BOOT_ACT that a switch writes (12 Table 12.10). -/
def State.switchWrites (s : State) : List (Fld × Nat) :=
  [(BOOT_ACT.ACTIVE, 1 - s.rd BOOT_ACT.ACTIVE), (BOOT_ACT.ACT_COUNT, s.rd BOOT_ACT.ACT_COUNT + 1), (BOOT_ACT.STANDBY_SLOT, s.boot.slot)]

theorem State.reg_wr_congr {s t : State} {f : Fld} (same : t.reg f.off = s.reg f.off) (x : Nat) :
    (t.wr f x).reg f.off = (s.wr f x).reg f.off := by
  rw [State.reg_wr_same, State.reg_wr_same, same]

/-- A switch up to its two log entries: the measurements change places, and the activation is counted. -/
def State.switchLogged (s : State) (event : Nat) : State :=
  let s1 := ((s.wr BOOT_ACT.ACTIVE (1 - s.rd BOOT_ACT.ACTIVE)).setMeas 2 s.pend).setPend (s.meas 2)
  let s2 := s1.wr BOOT_ACT.ACT_COUNT (s.rd BOOT_ACT.ACT_COUNT + 1)
  let s3 := s2.setMeas 5 (BitVec.ofNat 384 (s2.rd BOOT_ACT.ACT_COUNT))
  (s3.logMeas 2 event (s3.meas 2)).logMeas 5 event (s3.meas 5)

theorem State.switchLogged_act (s : State) (event : Nat) :
    (s.switchLogged event).reg BOOT_ACT.reg =
        ((s.wr BOOT_ACT.ACTIVE (1 - s.rd BOOT_ACT.ACTIVE)).wr BOOT_ACT.ACT_COUNT (s.rd BOOT_ACT.ACT_COUNT + 1)).reg BOOT_ACT.reg ∧
      (s.switchLogged event).boot = { s.boot with log := (s.switchLogged event).boot.log } := by
  unfold State.switchLogged
  extract_lets s1 s2 s3
  have before : ActKept (s.wr BOOT_ACT.ACTIVE (1 - s.rd BOOT_ACT.ACTIVE)) s1 :=
    (State.setMeas_actKept _ _ _).trans (State.setPend_actKept _ _)
  have after : ActKept s2 ((s3.logMeas 2 event (s3.meas 2)).logMeas 5 event (s3.meas 5)) :=
    ((State.setMeas_actKept _ _ _).trans (State.logMeas_actKept _ _ _ _)).trans (State.logMeas_actKept _ _ _ _)
  have counted : s2.boot = s1.boot := State.wr_boot _ _ _
  refine ⟨after.act.trans (State.reg_wr_congr (f := BOOT_ACT.ACT_COUNT) before.act _), ?_⟩
  rw [after.boot, counted, before.boot]
  rfl

/-- The other bank's image is the one in force, of the slot it was loaded from. -/
def State.switchImage (s : State) (image : FwImage) (slot : Nat) : State := { s with boot := { s.boot with running := image, slot := slot } }

theorem State.switchBanks_eq (s : State) (event : Nat) :
    s.switchBanks event =
      (((s.switchLogged event).wr BOOT_ACT.STANDBY_SLOT s.boot.slot).switchImage (s.bank s.standbyIsB)
        (s.rd BOOT_ACT.STANDBY_SLOT)).restartCores := by
  unfold State.switchBanks
  extract_lets old s1 s2 s3 s4 image s5
  have logged : s.switchLogged event = s4 := by unfold State.switchLogged; with_reducible rfl
  rw [logged, State.switchImage]

theorem State.switchBanks_act (s : State) (event : Nat) :
    (s.switchBanks event).reg BOOT_ACT.reg = (s.wrAll s.switchWrites).reg BOOT_ACT.reg ∧
      (s.switchBanks event).boot =
        { s.boot with running := s.bank s.standbyIsB, slot := s.rd BOOT_ACT.STANDBY_SLOT, log := (s.switchBanks event).boot.log } := by
  rw [s.switchBanks_eq]
  obtain ⟨act, boot⟩ := s.switchLogged_act event
  generalize s.switchLogged event = u at act boot ⊢
  have kept := State.restartCores_actKept ((u.wr BOOT_ACT.STANDBY_SLOT s.boot.slot).switchImage (s.bank s.standbyIsB)
    (s.rd BOOT_ACT.STANDBY_SLOT))
  refine ⟨kept.act.trans (State.reg_wr_congr (f := BOOT_ACT.STANDBY_SLOT) act _), ?_⟩
  rw [kept.boot, State.switchImage, State.wr_boot, boot]

theorem State.switchBanks_unreserved (s : State) (event : Nat) (k : LogicalCore) : (s.switchBanks event).sramReserved.look 0 k.val = 0 :=
  State.restartCores_unreserved k _ _ (.inl (List.mem_finRange k))

/-! ### What a switch shows -/

theorem State.reg_wrAll_congr {o : Nat} : ∀ (l : List (Fld × Nat)) {s t : State}, (∀ e ∈ l, e.1.off = o) → t.reg o = s.reg o →
    (t.wrAll l).reg o = (s.wrAll l).reg o
  | [], _, _, _, same => same
  | e :: l, s, t, own, same => by
    obtain ⟨first, later⟩ := List.forall_mem_cons.mp own
    subst first
    exact reg_wrAll_congr l later (State.reg_wr_congr same e.2)

theorem State.rd_of_reg {s t : State} {f : Fld} (same : t.reg f.off = s.reg f.off) : t.rd f = s.rd f := by
  rw [State.rd, State.rd, same]

/-- What a switch of the banks leaves, the boot state apart from its log and the time of the trial, where only the fields `l` of BOOT_ACT
are written after it. -/
structure State.Switched (s t : State) (l : List (Fld × Nat)) : Prop where
  act : t.reg BOOT_ACT.reg = (s.wrAll (s.switchWrites ++ l)).reg BOOT_ACT.reg
  boot : t.boot = { s.boot with running := s.bank s.standbyIsB, slot := s.rd BOOT_ACT.STANDBY_SLOT, log := t.boot.log,
                                trialUntil := t.boot.trialUntil }
  unreserved : ∀ k : LogicalCore, t.sramReserved.look 0 k.val = 0

theorem State.switchBanks_switched (s : State) (event : Nat) (l : List (Fld × Nat)) (own : ∀ e ∈ l, e.1.off = BOOT_ACT.reg) :
    s.Switched ((s.switchBanks event).wrAll l) l := by
  obtain ⟨act, boot⟩ := s.switchBanks_act event
  have unreserved := s.switchBanks_unreserved event
  generalize s.switchBanks event = u at act boot unreserved ⊢
  have regsOnly : u.RegsOnly (u.wrAll l) := (State.RegsOnly.refl u).wrAll l
  have written : (u.wrAll l).reg BOOT_ACT.reg = (s.wrAll (s.switchWrites ++ l)).reg BOOT_ACT.reg := by
    rw [State.wrAll_append]
    exact State.reg_wrAll_congr l own act
  generalize u.wrAll l = t at regsOnly written ⊢
  rw [State.RegsOnly] at regsOnly
  have same : t.boot = u.boot := by rw [regsOnly]
  have reserved : t.sramReserved = u.sramReserved := by rw [regsOnly]
  refine ⟨written, ?_, fun k => reserved ▸ unreserved k⟩
  rw [same, boot]

/-- What follows a switch and keeps BOOT_ACT, the reservations and, of the boot state, all but the time of the trial. -/
theorem State.Switched.kept {s t u : State} {l : List (Fld × Nat)} (h : s.Switched t l) (act : u.reg BOOT_ACT.reg = t.reg BOOT_ACT.reg)
    (boot : u.boot = { t.boot with trialUntil := u.boot.trialUntil }) (reserved : u.sramReserved = t.sramReserved) : s.Switched u l :=
  ⟨act.trans h.act, by rw [boot, h.boot], reserved ▸ h.unreserved⟩

/-- A field that a switch or what follows it writes holds what was written. -/
theorem State.Switched.rd {s t : State} {l : List (Fld × Nat)} (h : s.Switched t l) {f : Fld} {x : Nat} (own : f.off = BOOT_ACT.reg)
    (fits : f.lo + f.w ≤ 64) (apart : (s.switchWrites ++ l).Pairwise fun a b => b.1.Apart a.1) (mem : (f, x) ∈ s.switchWrites ++ l) :
    t.rd f = x % 2 ^ f.w :=
  (State.rd_of_reg (own ▸ h.act)).trans (State.rd_wrAll_mem fits s apart mem)

theorem State.Switched.exchanged {s t : State} {l : List (Fld × Nat)} (h : s.Switched t l)
    (apart : (s.switchWrites ++ l).Pairwise fun a b => b.1.Apart a.1) :
    t.rd BOOT_ACT.ACTIVE = 1 - s.rd BOOT_ACT.ACTIVE ∧ t.rd BOOT_ACT.ACT_COUNT = (s.rd BOOT_ACT.ACT_COUNT + 1) % 2 ^ 32 ∧
      t.rd BOOT_ACT.STANDBY_SLOT = s.boot.slot % 4 ∧ t.boot.slot = s.rd BOOT_ACT.STANDBY_SLOT ∧
      t.boot.running = s.bank s.standbyIsB ∧ t.boot.bankA = s.boot.bankA ∧ t.boot.bankB = s.boot.bankB ∧
      ∀ k : LogicalCore, t.sramReserved.look 0 k.val = 0 := by
  refine ⟨?_, h.rd rfl (by decide) apart (by simp [State.switchWrites]), h.rd rfl (by decide) apart (by simp [State.switchWrites]),
    by rw [h.boot], by rw [h.boot], by rw [h.boot], by rw [h.boot], h.unreserved⟩
  rw [h.rd (f := BOOT_ACT.ACTIVE) (x := 1 - s.rd BOOT_ACT.ACTIVE) rfl (by decide) apart (by simp [State.switchWrites])]
  exact Nat.mod_eq_of_lt (Nat.lt_succ_of_le (Nat.sub_le 1 _))

/-! ### The trial begins, is confirmed, or is rolled back -/

/-- What a switch adds in BOOT_ACT: a trial runs, and the switch was a live one. -/
def trialWrites : List (Fld × Nat) := [(BOOT_ACT.TRIAL, 1), (BOOT_ACT.LIVE, 1)]

/-- What a roll-back adds in BOOT_ACT. -/
def rollWrites : List (Fld × Nat) := [(BOOT_ACT.ROLLED_BACK, 1), (BOOT_ACT.TRIAL, 0)]

theorem State.trialWrites_apart (s : State) : (s.switchWrites ++ trialWrites).Pairwise fun a b => b.1.Apart a.1 := by
  simp [State.switchWrites, trialWrites, Fld.Apart, BOOT_ACT.ACTIVE, BOOT_ACT.ACT_COUNT, BOOT_ACT.STANDBY_SLOT, BOOT_ACT.TRIAL, BOOT_ACT.LIVE]

theorem State.rollWrites_apart (s : State) : (s.switchWrites ++ rollWrites).Pairwise fun a b => b.1.Apart a.1 := by
  simp [State.switchWrites, rollWrites, Fld.Apart, BOOT_ACT.ACTIVE, BOOT_ACT.ACT_COUNT, BOOT_ACT.STANDBY_SLOT, BOOT_ACT.TRIAL,
    BOOT_ACT.ROLLED_BACK]

theorem State.bootSwitch_switched (s : State) : s.Switched s.bootSwitch trialWrites := by
  have h := s.switchBanks_switched 1 trialWrites (by decide)
  rw [State.bootSwitch]
  generalize s.switchBanks 1 = u at h ⊢
  exact h.kept rfl rfl rfl

/-- An event of the firmware touches its logs and the boundary log. -/
theorem State.fwEvent_frame (s : State) (typ prio info payload : Nat) :
    s.fwEvent typ prio info payload =
      { s with fw := (s.fwEvent typ prio info payload).fw, out := (s.fwEvent typ prio info payload).out } :=
  holds_of_ite (P := fun t : State => t = { s with fw := t.fw, out := t.out }) rfl rfl

theorem State.rollBack_trialUntil (s : State) : s.rollBack.boot.trialUntil = none := by
  rw [State.rollBack, State.fwEvent_frame]

theorem State.rollBack_switched (s : State) : s.Switched s.rollBack rollWrites := by
  have h := s.switchBanks_switched 2 rollWrites (by decide)
  rw [State.rollBack, State.fwEvent_frame]
  generalize s.switchBanks 2 = u at h ⊢
  exact h.kept rfl rfl rfl

/-- A trial confirmed, up to its event: BOOT_ACT shows none, and the slot in force is committed. -/
def State.confirmed (s : State) : State :=
  { s.wr BOOT_ACT.TRIAL 0 with
    boot := { s.boot with trialUntil := none }
    store := { s.store with programs := s.store.programs ++ [.repair (.activeSlot s.boot.slot)] }
    out := s.out ++ [.storeProgram] }

theorem State.bootConfirm_of_trial {s : State} (trial : s.on BOOT_ACT.TRIAL = true) (running : s.store.stopped = false) :
    s.bootConfirm = s.confirmed.fwEvent 0xE3 1 0 (s.rd BOOT_ACT.ACT_COUNT) := by
  rw [State.bootConfirm, if_pos trial]
  refine congrArg (State.fwEvent · 0xE3 1 0 (s.rd BOOT_ACT.ACT_COUNT)) ?_
  exact if_neg (by simp [running])

theorem State.confirmed_only (s : State) : s.OnlyRegs { s.confirmed with boot := s.boot, store := s.store, out := s.out } [BOOT_ACT.reg] :=
  ⟨rfl, (s.onlyRegs_wr BOOT_ACT.TRIAL 0).2⟩

/-- BOOT_CONFIRM of a trial ends it and commits the slot in force. -/
theorem exec_bootConfirm_trial {s : State} (awake : s.mode ≠ 0) (trial : s.on BOOT_ACT.TRIAL = true) (running : s.store.stopped = false) :
    ∃ t, exec .bootConfirm s = .next t ∧ t.on BOOT_ACT.TRIAL = false ∧ t.boot = { s.boot with trialUntil := none } ∧
      t.store.programs = s.store.programs ++ [.repair (.activeSlot s.boot.slot)] ∧
      s.OnlyRegs { t with boot := s.boot, store := s.store, fw := s.fw, out := s.out } [BOOT_ACT.reg] := by
  refine ⟨s.bootConfirm, if_neg awake, ?_⟩
  rw [State.bootConfirm_of_trial trial running, State.fwEvent_frame]
  exact ⟨s.on_wr_zero _ rfl (by decide), rfl, rfl, s.confirmed_only⟩

/-! ### Loads of the standby bank -/

/-- BOOT_ACT where a load of the standby bank begins: BUSY is set, and the bank is no longer valid. -/
def State.loadBegun (s : State) (slot : Nat) : State :=
  ((s.wr BOOT_ACT.LOAD_SLOT slot).wr BOOT_ACT.STANDBY_VALID 0).wr BOOT_ACT.BUSY 1

/-- BOOT_LOAD by what the standby bank holds. -/
theorem exec_bootLoad {s : State} (awake : s.mode ≠ 0) (idle : s.on BOOT_ACT.BUSY = false) (slot : BitVec 2) :
    exec (.bootLoad slot) s = .next
      (if s.on BOOT_ACT.STANDBY_VALID = true ∧ s.rd BOOT_ACT.STANDBY_SLOT = slot.toNat then s.wr BOOT_ACT.LOAD_SLOT slot.toNat
      else (s.loadBegun slot.toNat).startLoad slot.toNat s.standbyIsB false) := by
  simp only [exec, execBootLoad, if_neg awake, State.loadStandby, idle, Bool.false_eq_true, if_false, State.loadBegun]

theorem State.loadBegun_slot (s : State) (slot : BitVec 2) : (s.loadBegun slot.toNat).rd BOOT_ACT.LOAD_SLOT = slot.toNat := by
  rw [State.loadBegun, State.rd_wr_apart _ _ (.inr (by decide)), State.rd_wr_apart _ _ (.inr (by decide)),
    State.rd_wr_same _ _ _ (by decide)]
  exact Nat.mod_eq_of_lt slot.isLt

theorem State.loadBegun_only (s : State) (n : Nat) : s.OnlyRegs (s.loadBegun n) [BOOT_ACT.reg] := by
  refine ⟨rfl, fun o other => ?_⟩
  have off (t : State) (f : Fld) (x : Nat) (own : f.off = BOOT_ACT.reg) : (t.wr f x).reg o = t.reg o :=
    (t.onlyRegs_wr f x).2 o (own ▸ other)
  rw [State.loadBegun, off _ _ _ rfl, off _ _ _ rfl, off _ _ _ rfl]

theorem State.loadBegun_notes (s : State) (n : Nat) :
    (s.loadBegun n).on BOOT_ACT.BUSY = true ∧ (s.loadBegun n).on BOOT_ACT.STANDBY_VALID = false := by
  refine ⟨State.on_wr_one _ _ rfl (by decide), ?_⟩
  rw [State.loadBegun, State.on_wr_apart _ _ (.inr (by decide))]
  exact State.on_wr_zero _ _ rfl (by decide)

/-- BOOT_LOAD of a slot that the standby bank does not hold begins its load. -/
theorem exec_bootLoad_begins {s : State} (awake : s.mode ≠ 0) (idle : s.on BOOT_ACT.BUSY = false) {slot : BitVec 2}
    (other : s.on BOOT_ACT.STANDBY_VALID = false ∨ s.rd BOOT_ACT.STANDBY_SLOT ≠ slot.toNat) :
    ∃ t, exec (.bootLoad slot) s = .next t ∧ t.on BOOT_ACT.BUSY = true ∧ t.on BOOT_ACT.STANDBY_VALID = false ∧
      t.rd BOOT_ACT.LOAD_SLOT = slot.toNat ∧ t.boot.load = some ⟨slot.toNat, !s.on BOOT_ACT.ACTIVE, 0, 0, false⟩ ∧
      s.OnlyRegs { t with boot := s.boot } [BOOT_ACT.reg] := by
  have absent : ¬(s.on BOOT_ACT.STANDBY_VALID = true ∧ s.rd BOOT_ACT.STANDBY_SLOT = slot.toNat) := fun ⟨valid, held⟩ =>
    other.elim (fun no => Bool.false_ne_true (no.symm.trans valid)) fun no => no held
  obtain ⟨busy, valid⟩ := s.loadBegun_notes slot.toNat
  have begun := exec_bootLoad awake idle slot
  rw [if_neg absent] at begun
  exact ⟨_, begun, busy, valid, s.loadBegun_slot slot, rfl,
    s.loadBegun_only slot.toNat⟩

/-! ### The statement -/

/-- Settles O58: BOOT_ACT is read field by field from what a switch and what follows it write there (12 Table 12.10), the boot state and
the reservations from what the restart of the cores leaves. -/
theorem liveActivationSwitchesAndRollsBack : Obligations.LiveActivationSwitchesAndRollsBack := by
  unfold Obligations.LiveActivationSwitchesAndRollsBack
  intro s slot w rest u count exchanged
  refine ⟨?busy, ?held, fun awake idle other => exec_bootLoad_begins awake idle other, ?switch, ?drain,
    fun awake => exec_bootConfirm_trial awake, ?noTrial, ?expires, ?notYet, ?program, ?noProgram⟩
  case busy =>
    intro awake busy
    simp [exec, execBootLoad, awake, State.loadStandby, busy]
  case held =>
    intro awake idle valid held
    rw [exec_bootLoad awake idle, if_pos ⟨valid, held⟩]
  case switch =>
    intro awake serving done _
    have h := s.bootSwitch_switched
    have shown {f : Fld} (own : f.off = BOOT_ACT.reg) (fits : f.lo + f.w ≤ 64) (w : f.w = 1) (mem : (f, 1) ∈ trialWrites) :
        s.bootSwitch.on f = true := by
      rw [State.on, h.rd own fits s.trialWrites_apart (List.mem_append_right _ mem), w]
      rfl
    exact ⟨_, if_neg (by simp [awake, serving, done]), h.exchanged s.trialWrites_apart, shown rfl (by decide) rfl (by decide),
      shown rfl (by decide) rfl (by decide), rfl⟩
  case drain =>
    intro drain
    exact if_pos (.inr (.inl drain))
  case noTrial =>
    intro awake none
    simp [exec, execBootConfirm, awake, State.bootConfirm, none]
  case expires =>
    intro until_ passed awake _
    have h := s.rollBack_switched
    have shown {f : Fld} {x : Nat} (own : f.off = BOOT_ACT.reg) (fits : f.lo + f.w ≤ 64) (mem : (f, x) ∈ rollWrites) :
        s.rollBack.on f = (x % 2 ^ f.w != 0) := by
      rw [State.on, h.rd own fits s.rollWrites_apart (List.mem_append_right _ mem)]
    exact ⟨s.rollBack, by simp [exec, execTrialExpiry, until_, passed, awake], h.exchanged s.rollWrites_apart,
      shown (x := 0) rfl (by decide) (by decide), shown (x := 1) rfl (by decide) (by decide), s.rollBack_trialUntil⟩
  case notYet =>
    rintro (none | ⟨until_, early⟩)
    · simp [exec, execTrialExpiry, none]
    · simp [exec, execTrialExpiry, until_, Nat.not_le.mpr early]
  case program =>
    intro waits
    exact ⟨{ s with store := { s.store.apply w with programs := rest } }, by simp [exec, execConfigProgramAck, waits], rfl, rfl, rfl⟩
  case noProgram =>
    intro none
    simp [exec, execConfigProgramAck, none]

end Sys2Proof.Machine
end

section
/-! PROOFS. The statement of the DMA engines (14 R433 to R449). -/

namespace Sys2Proof.Machine

open Host (Outcome)

/-! ### Channels, engines and their registers -/

theorem State.chan_modChan (s : State) (c : DmaChannel) (f : DmaState → DmaState) : (s.modChan c f).chan c = f (s.chan c) :=
  Tbl.look_put_same _ _ _ _

theorem State.engine_modEngine (s : State) (e : Nat) (f : Engine → Engine) : (s.modEngine e f).engine e = f (s.engine e) :=
  Tbl.look_put_same _ _ _ _

theorem State.modChan_regs (s : State) (c : DmaChannel) (f : DmaState → DmaState) : (s.modChan c f).regs = s.regs := rfl

theorem State.modEngine_regs (s : State) (e : Nat) (f : Engine → Engine) : (s.modEngine e f).regs = s.regs := rfl

theorem State.modChan_reg (s : State) (c : DmaChannel) (f : DmaState → DmaState) (o : Nat) : (s.modChan c f).reg o = s.reg o := rfl

theorem State.yieldEngine_reg (s : State) (c : DmaChannel) (o : Nat) : (s.yieldEngine c).reg o = s.reg o := rfl

theorem State.yieldEngine_chan (s : State) (c k : DmaChannel) : (s.yieldEngine c).chan k = s.chan k := rfl

theorem State.wr_chan (s : State) (f : Fld) (x : Nat) (k : DmaChannel) : (s.wr f x).chan k = s.chan k := rfl

theorem State.wr_engine (s : State) (f : Fld) (x e : Nat) : (s.wr f x).engine e = s.engine e := rfl

theorem State.modChan_engine (s : State) (c : DmaChannel) (f : DmaState → DmaState) (e : Nat) : (s.modChan c f).engine e = s.engine e := rfl

theorem State.setReg_chan (s : State) (o : Nat) (v : Word) (k : DmaChannel) : (s.setReg o v).chan k = s.chan k := rfl

theorem State.setReg_engine (s : State) (o : Nat) (v : Word) (e : Nat) : (s.setReg o v).engine e = s.engine e := rfl

theorem State.draw_chan (s : State) (k : DmaChannel) : s.draw.chan k = s.chan k := rfl

theorem State.draw_engine (s : State) (e : Nat) : s.draw.engine e = s.engine e := rfl

/-- A channel's state, once written. -/
theorem State.setDc_dcState (s : State) (c : DmaChannel) {x : Nat} (small : x < 8) : (s.setDc c x).dcState c = x :=
  (s.rd_wr_same (DC_STATUS.STATE c.val) x (Nat.le_of_ble_eq_true rfl)).trans (Nat.mod_eq_of_lt small)

theorem State.dcState_congr {s t : State} {c : DmaChannel} (same : t.reg (DC_STATUS.reg c.val) = s.reg (DC_STATUS.reg c.val)) :
    t.dcState c = s.dcState c := State.rd_of_reg same

/-- An engine that a channel yields does not run it. -/
theorem State.yieldEngine_running (s : State) (c : DmaChannel) : ((s.yieldEngine c).engine (engineOf c)).running ≠ some c := by
  rw [State.yieldEngine, State.engine_modEngine]
  split
  · exact Option.some_ne_none c ∘ Eq.symm
  · assumption

/-- Whether the engines are closed hangs on the mode and the sequence of DRAIN. -/
theorem State.dmaClosed_congr {s t : State} (mode : t.reg GLB_MODE.reg = s.reg GLB_MODE.reg) (aon : t.aon = s.aon) :
    t.dmaClosed = s.dmaClosed := by
  have same : t.mode = s.mode := State.rd_of_reg mode
  rw [State.dmaClosed, State.dmaClosed, same, aon]

/-! ### A channel that waits does nothing more -/

theorem State.dmaAct_of_not_running {s : State} {c : DmaChannel} (stopped : s.dcState c ≠ 2) : s.dmaAct c = none := if_pos (.inl stopped)

theorem State.dmaGoOn_of_waits {s : State} {c : DmaChannel} (waits : s.dmaAct c = none) : s.dmaGoOn c = s := by
  rw [State.dmaGoOn, State.dmaActs, waits]

/-- A channel that waits after one action. -/
theorem State.dmaGoOn_of_act {s t : State} {c : DmaChannel} (acts : s.dmaAct c = some t) (waits : t.dmaAct c = none) : s.dmaGoOn c = t := by
  rw [State.dmaGoOn, State.dmaActs, acts]
  dsimp only
  rw [State.dmaActs, waits]

/-! ### GO (14 R444) -/

/-- What GO writes to DC_STATUS. -/
def goWrites (n state : Nat) : List (Fld × Nat) :=
  [(DC_STATUS.DONE n, 0), (DC_STATUS.ERR n, 0), (DC_STATUS.CODE n, 0), (DC_STATUS.DESCS n, 0), (DC_STATUS.STATE n, state)]

theorem goWrites_apart (n state : Nat) : (goWrites n state).Pairwise fun a b => b.1.Apart a.1 := by
  simp [goWrites, Fld.Apart, DC_STATUS.DONE, DC_STATUS.ERR, DC_STATUS.CODE, DC_STATUS.DESCS, DC_STATUS.STATE]

/-- A channel dropped to its first state, but for the requests that are out. -/
def DmaState.dropped (x : DmaState) : DmaState := { DmaState.idle with reading := x.reading, writesOut := x.writesOut }

/-- A channel that GO makes ready, or paused. -/
def State.dmaWent (s : State) (c : DmaChannel) (state : Nat) : State :=
  let s1 := ((s.wr (DC_STATUS.DONE c.val) 0).wr (DC_STATUS.ERR c.val) 0).wr (DC_STATUS.CODE c.val) 0
  let s2 := (s1.wr (DC_STATUS.DESCS c.val) 0).modEngine (engineOf c) fun e => { e with stopped := false }
  (s2.modChan c DmaState.dropped).setDc c state

theorem exec_dmaGo {s : State} {c : DmaChannel} (awake : s.mode ≠ 0) (free : s.dcState c = 0 ∨ s.dcState c = 4)
    (enabled : c.val < 8 ∨ s.on (DC_CTRL.DISABLE c.val) = false) :
    exec (.dmaGo c) s = .next (s.dmaWent c (if c.val < 8 ∧ s.on (DC_CTRL.PAUSE c.val) = true then 3 else 1)) := by
  have taken : ¬((s.dcState c ≠ 0 ∧ s.dcState c ≠ 4) ∨ (8 ≤ c.val ∧ s.on (DC_CTRL.DISABLE c.val) = true)) := by
    rintro (⟨idle, halted⟩ | ⟨utility, disabled⟩)
    · exact free.elim idle halted
    · exact enabled.elim (Nat.not_lt.mpr utility) fun off => Bool.false_ne_true (off.symm.trans disabled)
  exact (if_neg awake).trans (congrArg Outcome.next (if_neg taken))

theorem State.dmaWent_regs (s : State) (c : DmaChannel) (state : Nat) : (s.dmaWent c state).regs = (s.wrAll (goWrites c.val state)).regs := by
  simp only [goWrites, State.wrAll_cons, State.wrAll_nil]
  exact State.wr_regs_congr (by rw [State.modChan_regs, State.modEngine_regs]) _ _

/-- A field of DC_STATUS as GO leaves it. -/
theorem State.dmaWent_rd (s : State) (c : DmaChannel) {state x : Nat} {f : Fld} (small : x < 2 ^ f.w) (fits : f.lo + f.w ≤ 64)
    (mem : (f, x) ∈ goWrites c.val state) : (s.dmaWent c state).rd f = x :=
  (State.rd_congr (s.dmaWent_regs c state) f).trans (State.rd_wrAll_fits small fits s (goWrites_apart _ _) mem)

theorem State.dmaWent_on (s : State) (c : DmaChannel) {state : Nat} {f : Fld} (fits : f.lo + f.w ≤ 64)
    (mem : (f, 0) ∈ goWrites c.val state) : (s.dmaWent c state).on f = false :=
  congrArg (· != 0) (s.dmaWent_rd c (Nat.two_pow_pos _) fits mem)

theorem State.dmaWent_reg_ne (s : State) (c : DmaChannel) (state : Nat) {o : Nat} (other : o ≠ DC_STATUS.reg c.val) :
    (s.dmaWent c state).reg o = s.reg o :=
  (State.reg_congr (s.dmaWent_regs c state) o).trans (State.reg_wrAll_ne (by simpa [goWrites, DC_STATUS.DONE, DC_STATUS.ERR, DC_STATUS.CODE,
    DC_STATUS.DESCS, DC_STATUS.STATE] using other.symm) s)

theorem State.dmaWent_chan (s : State) (c : DmaChannel) (state : Nat) : (s.dmaWent c state).chan c = (s.chan c).dropped := by
  rw [State.dmaWent, State.setDc, State.wr_chan, State.chan_modChan]
  rfl

theorem State.dmaWent_stopped (s : State) (c : DmaChannel) (state : Nat) : ((s.dmaWent c state).engine (engineOf c)).stopped = false := by
  rw [State.dmaWent, State.setDc, State.wr_engine, State.modChan_engine, State.engine_modEngine]

/-! ### PAUSE and RESUME (14 R446) -/

/-- DC_STATUS.STATE written keeps every other register. -/
theorem State.setDc_reg_ne (s : State) (c : DmaChannel) (x : Nat) {o : Nat} (other : o ≠ DC_STATUS.reg c.val) : (s.setDc c x).reg o = s.reg o :=
  s.reg_wr_ne _ _ other

theorem ctrl_ne_status (n k : Nat) : DC_CTRL.reg n ≠ DC_STATUS.reg k := by simp only [DC_CTRL.reg, DC_STATUS.reg]; omega

/-- A field of DC_CTRL and then DC_STATUS.STATE written. -/
theorem State.onlyRegs_ctrl_setDc (s : State) (c : DmaChannel) {f : Fld} (own : f.off = DC_CTRL.reg c.val) (x state : Nat) :
    s.OnlyRegs ((s.wr f x).setDc c state) [DC_CTRL.reg c.val, DC_STATUS.reg c.val] := by
  refine ⟨rfl, fun o other => ?_⟩
  obtain ⟨ctrl, status⟩ : o ≠ DC_CTRL.reg c.val ∧ o ≠ DC_STATUS.reg c.val := by simpa using other
  rw [State.setDc_reg_ne _ _ _ status, State.reg_wr_ne _ _ _ fun e => ctrl (e.trans own)]

theorem State.setDc_on_ctrl (s : State) (c : DmaChannel) (x : Nat) {f : Fld} (own : f.off = DC_CTRL.reg c.val) :
    (s.setDc c x).on f = s.on f :=
  congrArg (· != 0) (State.rd_of_reg (s.setDc_reg_ne c x (own ▸ ctrl_ne_status c.val c.val)))

theorem State.wr_ctrl_dcState (s : State) (c : DmaChannel) {f : Fld} (own : f.off = DC_CTRL.reg c.val) (x : Nat) :
    (s.wr f x).dcState c = s.dcState c :=
  State.dcState_congr (s.reg_wr_ne f x (own ▸ (ctrl_ne_status c.val c.val).symm))

theorem exec_dmaPause {s : State} {c : DmaChannel} (awake : s.mode ≠ 0) (data : c.val < 8) :
    exec (.dmaPause c) s = .next (if s.dcState c = 1 then (s.wr (DC_CTRL.PAUSE c.val) 1).setDc c 3
      else (s.wr (DC_CTRL.PAUSE c.val) 1).dmaGoOn c) :=
  (if_neg awake).trans (congrArg Outcome.next (if_neg (Nat.not_le.mpr data)))

theorem exec_dmaResume {s : State} {c : DmaChannel} (awake : s.mode ≠ 0) (data : c.val < 8) :
    exec (.dmaResume c) s = .next (if s.dcState c = 3 then (s.wr (DC_CTRL.PAUSE c.val) 0).setDc c 1
      else (s.wr (DC_CTRL.PAUSE c.val) 0).dmaGoOn c) :=
  (if_neg awake).trans (congrArg Outcome.next (if_neg (Nat.not_le.mpr data)))

/-- A running channel between descriptors, with PAUSE set, becomes paused. -/
theorem State.dmaAct_pauses {s : State} {c : DmaChannel} (runs : s.dcState c = 2) (opened : s.dmaClosed = false)
    (between : (s.chan c).desc = none) (quiet : (s.chan c).reading = none) (data : c.val < 8) (pause : s.on (DC_CTRL.PAUSE c.val) = true) :
    s.dmaAct c = some (s.becomePaused c) := by
  simp [State.dmaAct, runs, opened, between, quiet, data, pause]

theorem State.becomePaused_regs (s : State) (c : DmaChannel) : (s.becomePaused c).regs = (s.setDc c 3).regs := rfl

theorem State.becomePaused_dcState (s : State) (c : DmaChannel) : (s.becomePaused c).dcState c = 3 :=
  (State.dcState_congr (State.reg_congr (s.becomePaused_regs c) _)).trans (s.setDc_dcState c (by decide))

theorem State.becomePaused_running (s : State) (c : DmaChannel) : ((s.becomePaused c).engine (engineOf c)).running ≠ some c :=
  (s.setDc c 3).yieldEngine_running c

theorem exec_dmaPause_runs {s : State} {c : DmaChannel} (awake : s.mode ≠ 0) (data : c.val < 8) (runs : s.dcState c = 2)
    (opened : s.dmaClosed = false) (between : (s.chan c).desc = none) (quiet : (s.chan c).reading = none) :
    exec (.dmaPause c) s = .next ((s.wr (DC_CTRL.PAUSE c.val) 1).becomePaused c) := by
  have pauses := (s.wr (DC_CTRL.PAUSE c.val) 1).dmaAct_pauses (c := c) ((s.wr_ctrl_dcState c rfl 1).trans runs) (by
    rw [← opened]
    exact State.dmaClosed_congr (s.reg_wr_ne _ _ (by simp only [DC_CTRL.PAUSE, DC_CTRL.reg, GLB_MODE.reg]; omega)) rfl)
    between quiet data (s.on_wr_one _ rfl (Nat.le_of_ble_eq_true rfl))
  rw [exec_dmaPause awake data, if_neg (by rw [runs]; decide),
    State.dmaGoOn_of_act pauses (State.dmaAct_of_not_running (by rw [State.becomePaused_dcState]; decide))]

/-! ### DISABLE (14 R447) -/

/-- A utility channel that drains: its work is dropped, and its descriptor's address and count are free. -/
def State.dmaDisabled (s : State) (c : DmaChannel) : State :=
  let s1 := ((s.wr (DC_CTRL.DISABLE c.val) 1).setDc c 5)
  let s2 := (s1.yieldEngine c).modChan c DmaState.dropped
  ((s2.setReg (DC_DESC_PTR.reg c.val) (Config.freeWord s.freeTick &&& ~~~0x7F#64)).wr (DC_COUNT.COUNT c.val)
    ((Config.freeWord (s.freeTick + 1)).toNat % 2 ^ 40)).draw.draw

theorem exec_dmaDisable {s : State} {c : DmaChannel} (awake : s.mode ≠ 0) (utility : 8 ≤ c.val) (busy : s.dcState c ≠ 0)
    (undrained : s.dcState c ≠ 5) : exec (.dmaDisable c) s = .next (s.dmaDisabled c) := by
  have disabled : s.dmaDisable c = s.dmaDisabled c := by
    rw [State.dmaDisable, if_neg (Nat.not_lt.mpr utility), if_neg (not_or.mpr ⟨busy, undrained⟩)]
    rfl
  simp only [exec, execDmaDisable, if_neg awake, disabled]

theorem State.dmaDisabled_reg_ne (s : State) (c : DmaChannel) {o : Nat} (count : o ≠ DC_COUNT.reg c.val) (ptr : o ≠ DC_DESC_PTR.reg c.val) :
    (s.dmaDisabled c).reg o = ((s.wr (DC_CTRL.DISABLE c.val) 1).setDc c 5).reg o := by
  rw [State.dmaDisabled, State.draw_reg, State.draw_reg, State.reg_wr_ne _ _ _ count, State.reg_setReg_ne _ _ ptr, State.modChan_reg,
    State.yieldEngine_reg]

/-- What a channel that begins to drain shows, with nothing sent. -/
theorem State.dmaDisabled_notes (s : State) (c : DmaChannel) : (s.dmaDisabled c).on (DC_CTRL.DISABLE c.val) = true ∧
    (s.dmaDisabled c).dcState c = 5 ∧ (s.dmaDisabled c).chan c = (s.chan c).dropped ∧
    ((s.dmaDisabled c).engine (engineOf c)).running ≠ some c ∧ (s.dmaDisabled c).out = s.out := by
  refine ⟨?_, ?_, ?_, ?_, rfl⟩
  · rw [State.on, State.rd_of_reg (f := DC_CTRL.DISABLE c.val) (s.dmaDisabled_reg_ne c
      (by simp only [DC_CTRL.DISABLE, DC_CTRL.reg, DC_COUNT.reg]; omega) (by simp only [DC_CTRL.DISABLE, DC_CTRL.reg, DC_DESC_PTR.reg]; omega))]
    exact (State.setDc_on_ctrl _ c _ rfl).trans (s.on_wr_one _ rfl (Nat.le_of_ble_eq_true rfl))
  · rw [State.dcState_congr (s.dmaDisabled_reg_ne c (by simp only [DC_STATUS.reg, DC_COUNT.reg]; omega)
      (by simp only [DC_STATUS.reg, DC_DESC_PTR.reg]; omega))]
    exact State.setDc_dcState _ c (by decide)
  · rw [State.dmaDisabled, State.draw_chan, State.draw_chan, State.wr_chan, State.setReg_chan, State.chan_modChan]
    rfl
  · rw [State.dmaDisabled, State.draw_engine, State.draw_engine, State.wr_engine, State.setReg_engine, State.modChan_engine]
    exact State.yieldEngine_running _ c

/-! ### The next ready channel starts (14 R433) -/

/-- The next ready channel of an engine is one of its eight. -/
theorem State.nextReady_place {s : State} {e : Fin 2} {c : DmaChannel} (next : s.nextReady e.val = some c) :
    ∃ k < 8, c.val = 8 * e.val + k := by
  obtain ⟨k, -, rfl⟩ := List.mem_map.mp (List.mem_of_find?_eq_some next)
  refine ⟨((s.engine e.val).lastRun + 1 + k) % 8, Nat.mod_lt _ (by decide), ?_⟩
  simp only [Fin.ofNat_eq_cast, Fin.val_natCast]
  omega

/-- No channel of an engine that is not busy waits for a read. -/
theorem State.reading_of_engineBusy {s : State} {e : Nat} {c : DmaChannel} (quiet : s.engineBusy e = false) (place : ∃ k < 8, c.val = 8 * e + k) :
    (s.chan c).reading = none := by
  obtain ⟨k, below, at_⟩ := place
  have idle := List.any_eq_false.mp quiet k (List.mem_range.mpr below)
  rw [← at_] at idle
  have none : ¬(s.chan c).reading.isSome = true := fun some => idle (Bool.or_eq_true_iff.mpr (.inl some))
  exact Option.not_isSome_iff_eq_none.mp none

/-- A running channel between descriptors fetches the next. -/
theorem State.dmaAct_fetches {s : State} {c : DmaChannel} (runs : s.dcState c = 2) (opened : s.dmaClosed = false)
    (between : (s.chan c).desc = none) (quiet : (s.chan c).reading = none) (calm : (s.chan c).halting = none)
    (go : s.on (DC_CTRL.PAUSE c.val) = false) (place : s.descPlace (s.descAddr c) = true) :
    s.dmaAct c = some (s.dmaRead c .descriptor (s.descAddr c) 64) := by
  simp [State.dmaAct, runs, opened, between, quiet, calm, go, place]

/-- A running channel that waits for a descriptor does nothing. -/
theorem State.dmaAct_of_fetching {s : State} {c : DmaChannel} (between : (s.chan c).desc = none) {kind : DmaRead}
    (fetching : (s.chan c).reading = some kind) : s.dmaAct c = none := by
  simp [State.dmaAct, between, fetching]

/-- A read of a control memory crosses no ring. -/
theorem State.dmaRead_sram (s : State) (c : DmaChannel) (kind : DmaRead) {a : Nat} (n : Nat) (high : 2 ^ 63 ≤ a)
    (sram : (spaceOf a).1 = .data) : s.dmaRead c kind a n = s.modChan c fun x => { x with reading := some kind } := by
  have low : ¬a < 2 ^ 63 := Nat.not_lt.mpr high
  simp only [State.dmaRead, if_neg low, sram, reduceCtorEq, if_false]

theorem State.descPlace_data {s : State} {a : Nat} (high : 2 ^ 63 ≤ a) (place : s.descPlace a = true) : (spaceOf a).1 = .data := by
  have held := (Bool.and_eq_true_iff.mp place).2
  rw [if_neg (Nat.not_lt.mpr high)] at held
  exact eq_of_beq (Bool.and_eq_true_iff.mp held).1

/-- A place that is not in device memory is no matter of the registers. -/
theorem State.descPlace_high (s t : State) {a : Nat} (high : 2 ^ 63 ≤ a) : t.descPlace a = s.descPlace a := by
  rw [State.descPlace, State.descPlace, if_neg (Nat.not_lt.mpr high), if_neg (Nat.not_lt.mpr high)]

/-- A channel that an engine starts. -/
def State.dmaStarted (s : State) (e : Nat) (c : DmaChannel) : State :=
  (s.setDc c 2).modEngine e fun x => { x with running := some c, lastRun := c.val }

/-- A channel's read under way. -/
def State.dmaReading (s : State) (c : DmaChannel) (kind : DmaRead) : State := s.modChan c fun x => { x with reading := some kind }

theorem State.dmaStarted_reg_ne (s : State) (e : Nat) (c : DmaChannel) {o : Nat} (other : o ≠ DC_STATUS.reg c.val) :
    (s.dmaStarted e c).reg o = s.reg o := s.setDc_reg_ne c 2 other

theorem State.dmaStarted_descAddr (s : State) (e : Nat) (c : DmaChannel) : (s.dmaStarted e c).descAddr c = s.descAddr c :=
  congrArg (· * 128) (State.rd_of_reg (s.dmaStarted_reg_ne e c (by simp only [DC_DESC_PTR.ADDR, DC_DESC_PTR.reg, DC_STATUS.reg]; omega)))

theorem State.dmaStarted_engine (s : State) (e : Nat) (c : DmaChannel) :
    ((s.dmaStarted e c).engine e).running = some c ∧ ((s.dmaStarted e c).engine e).lastRun = c.val := by
  rw [State.dmaStarted, State.engine_modEngine]
  exact ⟨rfl, rfl⟩

theorem State.dmaStarted_only (s : State) (e : Nat) (c : DmaChannel) (kind : DmaRead) :
    s.OnlyRegs { (s.dmaStarted e c).dmaReading c kind with engines := s.engines, dma := s.dma } [DC_STATUS.reg c.val] :=
  s.onlyRegs_wr (DC_STATUS.STATE c.val) 2

theorem exec_dmaChannelStart {s : State} {e : Fin 2} {c : DmaChannel} (opened : s.dmaClosed = false)
    (free : (s.engine e.val).running = none) (started : (s.engine e.val).stopped = false) (quiet : s.engineBusy e.val = false)
    (next : s.nextReady e.val = some c) (between : (s.chan c).desc = none) (calm : (s.chan c).halting = none)
    (go : s.on (DC_CTRL.PAUSE c.val) = false) (high : 2 ^ 63 ≤ s.descAddr c) (place : s.descPlace (s.descAddr c) = true) :
    exec (.dmaChannelStart e) s = .next ((s.dmaStarted e.val c).dmaReading c .descriptor) := by
  have still : ((s.dmaStarted e.val c).chan c).desc = none := between
  have silent : ((s.dmaStarted e.val c).chan c).reading = none := State.reading_of_engineBusy quiet (State.nextReady_place next)
  have opened' : (s.dmaStarted e.val c).dmaClosed = false :=
    (State.dmaClosed_congr (s.dmaStarted_reg_ne e.val c (by simp only [GLB_MODE.reg, DC_STATUS.reg]; omega)) rfl).trans opened
  have go' : (s.dmaStarted e.val c).on (DC_CTRL.PAUSE c.val) = false := (s.setDc_on_ctrl c 2 rfl).trans go
  have runs : (s.dmaStarted e.val c).dcState c = 2 := s.setDc_dcState c (by decide)
  have place' : (s.dmaStarted e.val c).descPlace ((s.dmaStarted e.val c).descAddr c) = true := by
    rw [State.dmaStarted_descAddr, s.descPlace_high _ high, place]
  have fetches := State.dmaAct_fetches runs opened' still silent calm go' place'
  rw [State.dmaStarted_descAddr, State.dmaRead_sram _ c .descriptor 64 high (State.descPlace_data high place)] at fetches
  have waits : ((s.dmaStarted e.val c).dmaReading c .descriptor).dmaAct c = none :=
    State.dmaAct_of_fetching (kind := .descriptor) (by rw [State.dmaReading, State.chan_modChan, still])
      (by rw [State.dmaReading, State.chan_modChan])
  have plain : (s.dmaStarted e.val c).refetch c = s.dmaStarted e.val c := by rw [State.refetch, still]
  have goes := State.dmaGoOn_of_act fetches waits
  simp only [exec, execDmaChannelStart, opened, free, started, quiet, next, Option.isSome_none, Bool.false_eq_true, or_self, if_false]
  exact congrArg Outcome.next ((congrArg (State.dmaGoOn · c) plain).trans goes)

/-! ### Halts (14 R448) -/

/-- What a halt writes to DC_STATUS. -/
def haltWrites (n code side : Nat) : List (Fld × Nat) :=
  [(DC_STATUS.STATE n, 4), (DC_STATUS.ERR n, 1), (DC_STATUS.CODE n, code), (DC_STATUS.SIDE n, side)]

theorem haltWrites_apart (n code side : Nat) : (haltWrites n code side).Pairwise fun a b => b.1.Apart a.1 := by
  simp [haltWrites, Fld.Apart, DC_STATUS.ERR, DC_STATUS.CODE, DC_STATUS.SIDE, DC_STATUS.STATE]

/-- A halted channel, before its halt is counted and reported. -/
def State.dmaHalted (s : State) (c : DmaChannel) (code side : Nat) (addr : Word) : State :=
  let s1 := (((s.setDc c 4).wr (DC_STATUS.ERR c.val) 1).wr (DC_STATUS.CODE c.val) code).wr (DC_STATUS.SIDE c.val) side
  ((s1.setReg (DC_ERR.reg c.val) addr).yieldEngine c).modChan c fun x => { x with held := [], heldDst := [], heldMd := [], halting := none }

theorem engineOf_le (c : DmaChannel) : engineOf c ≤ 1 := by simp only [engineOf]; omega

/-- The report of a halt is the fault collector's work. -/
theorem State.haltWith_work (s : State) (c : DmaChannel) (code side : Nat) (addr : Word) :
    FaultWork ((s.dmaHalted c code side addr).count (76 + engineOf c) 4) (s.haltWith c code side addr) := by
  have engine := engineOf_le c
  exact ((FaultWork.refl _).queue ((QueueWork.refl _).notice _ _ _ _ _ _ _ (by decide))).major _ _ (by omega)

theorem State.haltWith_reg (s : State) (c : DmaChannel) (code side : Nat) (addr : Word) {o : Nat} (dma : 0x70000 ≤ o) :
    (s.haltWith c code side addr).reg o = ((s.wrAll (haltWrites c.val code side)).setReg (DC_ERR.reg c.val) addr).reg o := by
  rw [(s.haltWith_work c code side addr).regs o (by simp only [GLB_MODE.reg]; omega) (by omega), State.count_reg, State.dmaHalted,
    State.modChan_reg, State.yieldEngine_reg]
  rfl

theorem err_ne_status (n k : Nat) : DC_ERR.reg n ≠ DC_STATUS.reg k := by simp only [DC_ERR.reg, DC_STATUS.reg]; omega

/-- A field of DC_STATUS as a halt leaves it. -/
theorem State.haltWith_rd (s : State) (c : DmaChannel) {code side x : Nat} (addr : Word) {f : Fld} (small : x < 2 ^ f.w)
    (fits : f.lo + f.w ≤ 64) (own : f.off = DC_STATUS.reg c.val) (mem : (f, x) ∈ haltWrites c.val code side) :
    (s.haltWith c code side addr).rd f = x := by
  rw [State.rd_of_reg (s.haltWith_reg c code side addr (own ▸ by simp only [DC_STATUS.reg]; omega)),
    State.rd_of_reg (State.reg_setReg_ne _ _ (own ▸ (err_ne_status c.val c.val).symm))]
  exact State.rd_wrAll_fits small fits s (haltWrites_apart _ _ _) mem

theorem State.haltWith_dcState (s : State) (c : DmaChannel) (code side : Nat) (addr : Word) :
    (s.haltWith c code side addr).dcState c = 4 :=
  s.haltWith_rd c addr (f := DC_STATUS.STATE c.val) (show 4 < 2 ^ 3 by decide) (Nat.le_of_ble_eq_true rfl) rfl (by simp [haltWrites])

theorem State.haltWith_code (s : State) (c : DmaChannel) {code : Nat} (small : code < 16) (side : Nat) (addr : Word) :
    (s.haltWith c code side addr).rd (DC_STATUS.CODE c.val) = code :=
  s.haltWith_rd c addr (f := DC_STATUS.CODE c.val) small (Nat.le_of_ble_eq_true rfl) rfl (by simp [haltWrites])

theorem State.haltWith_err (s : State) (c : DmaChannel) (code side : Nat) (addr : Word) :
    (s.haltWith c code side addr).on (DC_STATUS.ERR c.val) = true :=
  congrArg (· != 0) (s.haltWith_rd c addr (f := DC_STATUS.ERR c.val) (show 1 < 2 ^ 1 by decide) (Nat.le_of_ble_eq_true rfl) rfl
    (by simp [haltWrites]))

theorem State.haltWith_addr (s : State) (c : DmaChannel) (code side : Nat) (addr : Word) :
    (s.haltWith c code side addr).reg (DC_ERR.reg c.val) = addr := by
  rw [s.haltWith_reg c code side addr (by simp only [DC_ERR.reg]; omega), State.reg_setReg_same]

/-- A halt of a channel leaves every other register of the engines. -/
theorem State.haltWith_reg_ne (s : State) (c : DmaChannel) (code side : Nat) (addr : Word) {o : Nat} (dma : 0x70000 ≤ o)
    (status : o ≠ DC_STATUS.reg c.val) (err : o ≠ DC_ERR.reg c.val) : (s.haltWith c code side addr).reg o = s.reg o := by
  rw [s.haltWith_reg c code side addr dma, State.reg_setReg_ne _ _ err]
  exact State.reg_wrAll_ne (by simpa [haltWrites, DC_STATUS.ERR, DC_STATUS.CODE, DC_STATUS.SIDE, DC_STATUS.STATE] using status.symm) s

/-! ### Descriptors and the data of reads (14 R438 to R440) -/

theorem State.descBad_congr {s t : State} (regs : t.regs = s.regs) (a : Nat) (b : BitVec 1024) : t.descBad a b = s.descBad a b := by
  simp only [State.descBad, State.descPlace, State.dpaIn, State.rd_congr regs]

theorem State.rangeFault_congr {s t : State} (regs : t.regs = s.regs) (c : DmaChannel) (d : Descriptor) :
    t.rangeFault c d = s.rangeFault c d := by
  simp only [State.rangeFault, State.spanAllowed, State.dpaIn, State.rd_congr regs]

/-- A channel whose read has been answered. -/
def State.dmaAnswered (s : State) (c : DmaChannel) : State := s.modChan c fun y => { y with reading := none }

/-- A descriptor from the ring is taken, and the channel goes on. -/
theorem exec_descriptorFetch {s : State} {c : DmaChannel} (b : BitVec 1024) (fetching : (s.chan c).reading = some .descriptor)
    (runs : s.dcState c = 2) (ring : s.descAddr c < 2 ^ 63) :
    exec (.descriptorFetch c b) s = .next (((s.dmaAnswered c).takeDescriptor c b).dmaGoOn c) :=
  (if_neg (not_not_intro fetching)).trans ((if_neg (not_not_intro runs)).trans (if_pos ring))

theorem State.takeDescriptor_bad {s : State} {c : DmaChannel} {b : BitVec 1024} (bad : s.descBad (s.descAddr c) b = true) :
    s.takeDescriptor c b = (s.setCount c (descOf b) 0).haltWith c 3 0 (BitVec.ofNat 64 (s.descAddr c)) := if_pos bad

theorem State.takeDescriptor_good {s : State} {c : DmaChannel} {b : BitVec 1024} (good : s.descBad (s.descAddr c) b = false)
    (within : s.rangeFault c (descOf b) = none) :
    s.takeDescriptor c b = (s.setCount c (descOf b) 0).modChan c fun y => { y with
      desc := some (descOf b), wr := 0, held := [], heldDst := [], heldMd := [], mismatches := 0, firstMismatch := none,
      resultOut := false, halting := none } := by
  simp only [State.takeDescriptor, good, within, Bool.false_eq_true, if_false]

/-- A halted channel does nothing more. -/
theorem State.haltWith_dmaGoOn (s : State) (c : DmaChannel) (code side : Nat) (addr : Word) :
    (s.haltWith c code side addr).dmaGoOn c = s.haltWith c code side addr :=
  State.dmaGoOn_of_waits (State.dmaAct_of_not_running (by rw [State.haltWith_dcState]; decide))

/-- A bad descriptor halts its channel. -/
theorem exec_descriptorFetch_bad {s : State} {c : DmaChannel} {b : BitVec 1024} (fetching : (s.chan c).reading = some .descriptor)
    (runs : s.dcState c = 2) (ring : s.descAddr c < 2 ^ 63) (bad : s.descBad (s.descAddr c) b = true) :
    exec (.descriptorFetch c b) s =
      .next (((s.dmaAnswered c).setCount c (descOf b) 0).haltWith c 3 0 (BitVec.ofNat 64 (s.descAddr c))) := by
  have bad' : (s.dmaAnswered c).descBad ((s.dmaAnswered c).descAddr c) b = true :=
    (State.descBad_congr (s.modChan_regs c _) _ b).trans bad
  rw [exec_descriptorFetch b fetching runs ring, State.takeDescriptor_bad bad', State.haltWith_dmaGoOn]
  rfl

theorem exec_descriptorFetch_good {s : State} {c : DmaChannel} {b : BitVec 1024} (fetching : (s.chan c).reading = some .descriptor)
    (runs : s.dcState c = 2) (ring : s.descAddr c < 2 ^ 63) (good : s.descBad (s.descAddr c) b = false)
    (within : s.rangeFault c (descOf b) = none) :
    exec (.descriptorFetch c b) s = .next ((((s.dmaAnswered c).setCount c (descOf b) 0).modChan c fun y => { y with
      desc := some (descOf b), wr := 0, held := [], heldDst := [], heldMd := [], mismatches := 0, firstMismatch := none,
      resultOut := false, halting := none }).dmaGoOn c) := by
  have good' : (s.dmaAnswered c).descBad ((s.dmaAnswered c).descAddr c) b = false :=
    (State.descBad_congr (s.modChan_regs c _) _ b).trans good
  have within' : (s.dmaAnswered c).rangeFault c (descOf b) = none := (State.rangeFault_congr (s.modChan_regs c _) c _).trans within
  rw [exec_descriptorFetch b fetching runs ring, State.takeDescriptor_good good' within']

/-- Source bytes from the ring join those that are held. -/
theorem exec_dmaReadResponse_source {s : State} {c : DmaChannel} {d : Descriptor} (line : LineData)
    (reading : (s.chan c).reading = some .source) (runs : s.dcState c = 2) (desc : (s.chan c).desc = some d)
    (ring : (d.srcAt ((s.chan c).wr + (s.chan c).held.length)).1 < 2 ^ 63) :
    exec (.dmaReadResponse c line false) s = .next ((((s.dmaAnswered c).count (76 + engineOf c) 1
      (d.srcAt ((s.chan c).wr + (s.chan c).held.length)).2).modChan c fun y => { y with
        held := y.held ++ bytesOfLine line ((d.srcAt ((s.chan c).wr + (s.chan c).held.length)).1 % 64)
          (d.srcAt ((s.chan c).wr + (s.chan c).held.length)).2 }).dmaGoOn c) := by
  simp only [exec, execDmaReadResponse, reading, desc, runs, ne_eq, not_true_eq_false, if_false, State.readBytes, ring, true_or, if_true,
    Bool.false_eq_true, State.dmaAnswered]

/-! ### A list ends (14 R445) -/

/-- A channel whose list is complete, before its notice. -/
def State.dmaCompleted (s : State) (c : DmaChannel) : State :=
  let s1 := (s.inc (DC_STATUS.DESCS c.val)).count (76 + engineOf c) 3
  let s2 := s1.modChan c fun _ => DmaState.idle
  ((s2.setDc c 0).wr (DC_STATUS.DONE c.val) 1).yieldEngine c

/-- What the end of a list writes to DC_STATUS. -/
def State.completeWrites (s : State) (n : Nat) : List (Fld × Nat) :=
  [(DC_STATUS.DESCS n, min (s.rd (DC_STATUS.DESCS n) + 1) (2 ^ 32 - 1)), (DC_STATUS.STATE n, 0), (DC_STATUS.DONE n, 1)]

theorem State.completeWrites_apart (s : State) (n : Nat) : (s.completeWrites n).Pairwise fun a b => b.1.Apart a.1 := by
  simp [completeWrites, Fld.Apart, DC_STATUS.DESCS, DC_STATUS.DONE, DC_STATUS.STATE]

theorem State.dmaCompleted_reg (s : State) (c : DmaChannel) (o : Nat) : (s.dmaCompleted c).reg o = (s.wrAll (s.completeWrites c.val)).reg o := by
  rw [State.dmaCompleted, State.yieldEngine_reg]
  refine State.reg_congr (State.wr_regs_congr (State.wr_regs_congr ?_ _ _) _ _) o
  rw [State.modChan_regs]
  rfl

/-- A field of DC_STATUS as the end of a list leaves it. -/
theorem State.dmaCompleted_rd (s : State) (c : DmaChannel) {x : Nat} {f : Fld} (small : x < 2 ^ f.w) (fits : f.lo + f.w ≤ 64)
    (mem : (f, x) ∈ s.completeWrites c.val) : (s.dmaCompleted c).rd f = x :=
  (State.rd_of_reg (s.dmaCompleted_reg c _)).trans (State.rd_wrAll_fits small fits s (s.completeWrites_apart _) mem)

theorem State.dmaCompleted_reg_ne (s : State) (c : DmaChannel) {o : Nat} (other : o ≠ DC_STATUS.reg c.val) :
    (s.dmaCompleted c).reg o = s.reg o := by
  rw [s.dmaCompleted_reg]
  exact State.reg_wrAll_ne (by simpa [completeWrites, DC_STATUS.DESCS, DC_STATUS.DONE, DC_STATUS.STATE] using other.symm) s

theorem State.dmaCompleted_chan (s : State) (c : DmaChannel) : (s.dmaCompleted c).chan c = DmaState.idle := by
  rw [State.dmaCompleted, State.yieldEngine_chan, State.wr_chan, State.setDc, State.wr_chan, State.chan_modChan]

theorem QueueWork.channels {s t : State} (h : QueueWork s t) (c : DmaChannel) (e : Nat) : t.chan c = s.chan c ∧ t.engine e = s.engine e := by
  obtain ⟨frame, -⟩ := h
  rw [frame]
  exact ⟨rfl, rfl⟩

/-- What a channel whose list is complete shows, whatever notice follows. -/
theorem State.dmaCompleted_notes (s : State) (c : DmaChannel) {t : State} (noticed : QueueWork (s.dmaCompleted c) t) : t.dcState c = 0 ∧
    t.on (DC_STATUS.DONE c.val) = true ∧ t.rd (DC_STATUS.DESCS c.val) = min (s.rd (DC_STATUS.DESCS c.val) + 1) (2 ^ 32 - 1) ∧
    t.chan c = DmaState.idle ∧ (t.engine (engineOf c)).running ≠ some c := by
  obtain ⟨chan, engine⟩ := noticed.channels c (engineOf c)
  obtain ⟨-, regs⟩ := noticed
  have status {f : Fld} (own : f.off = DC_STATUS.reg c.val) : t.rd f = (s.dmaCompleted c).rd f :=
    State.rd_of_reg (regs f.off (.inr (by rw [own, DC_STATUS.reg]; omega)))
  refine ⟨(status rfl).trans ?_, ?_, (status rfl).trans ?_, chan.trans (s.dmaCompleted_chan c), engine ▸ ?_⟩
  · exact s.dmaCompleted_rd c (Nat.two_pow_pos _) (Nat.le_of_ble_eq_true rfl) (by simp [completeWrites])
  · rw [State.on, status rfl, s.dmaCompleted_rd c (x := 1) (show 1 < 2 ^ 1 by decide) (Nat.le_of_ble_eq_true rfl) (by simp [completeWrites])]
    rfl
  · have small : min (s.rd (DC_STATUS.DESCS c.val) + 1) (2 ^ 32 - 1) < 2 ^ (DC_STATUS.DESCS c.val).w := by
      simp only [DC_STATUS.DESCS]
      omega
    exact s.dmaCompleted_rd c small (Nat.le_of_ble_eq_true rfl) (by simp [completeWrites])
  · rw [State.dmaCompleted]
    exact State.yieldEngine_running _ c

/-- DESCRIPTOR_COMPLETE at the end of a list, with its notice where the descriptor asks for one. -/
theorem exec_descriptorComplete_last {s : State} {c : DmaChannel} {d : Descriptor} (desc : (s.chan c).desc = some d) (runs : s.dcState c = 2)
    (written : d.length ≤ (s.chan c).wr) (quiet : (s.chan c).reading = none) (acked : (s.chan c).writesOut = [])
    (calm : (s.chan c).halting = none) (result : d.op ≠ 2#2 ∨ (s.chan c).resultOut = true) (last : d.last = true) :
    exec (.descriptorComplete c) s = .next (if d.irqEnd = true then (s.dmaCompleted c).notice 3 0x28 1 (0x50 + engineOf c) c.val (s.descAddr c)
      else s.dmaCompleted c) := by
  have compared : ¬(d.op = 2#2 ∧ (!(s.chan c).resultOut) = true) := fun ⟨compare, unwritten⟩ =>
    result.elim (fun other => other compare) fun out => by simp [out] at unwritten
  simp only [exec, execDescriptorComplete, desc, runs, Nat.not_lt.mpr written, quiet, acked, calm, compared, last, ne_eq, not_true_eq_false,
    Option.isSome_none, List.isEmpty_nil, Bool.not_true, Bool.false_eq_true, or_self, if_false, if_true]
  rfl

/-! ### Bus errors (14 R448, R449) -/

theorem State.blurWrites_regs (s : State) (ids : List Nat) : (s.blurWrites ids).regs = s.regs := by
  unfold State.blurWrites
  extract_lets f s1 s2
  refine holds_of_ite (P := fun t : State => t.regs = s.regs) rfl ?_
  rw [State.foldl_modSl_frame]
  rfl

/-- The ready and running channels of an engine. -/
def State.engineChannels (s : State) (e : Nat) : List DmaChannel :=
  (List.finRange 16).filter fun k => engineOf k == e && (s.dcState k == 1 || s.dcState k == 2)

/-- The channels of an engine in a bus error, each halted, before the engine stops. -/
def State.busHalted (s : State) (c : DmaChannel) (side : Nat) (addr : Word) : State :=
  (s.engineChannels (engineOf c)).foldl (fun s k => s.haltWith k 2 side addr)
    (s.blurWrites ((s.engineChannels (engineOf c)).flatMap fun k => (s.chan k).writesOut))

theorem State.busError_eq (s : State) (c : DmaChannel) (side : Nat) (addr : Word) : s.busError c side addr =
    (s.busHalted c side addr).modEngine (engineOf c) fun x => { x with running := none, stopped := true } := rfl

theorem State.busError_engine (s : State) (c : DmaChannel) (side : Nat) (addr : Word) :
    ((s.busError c side addr).engine (engineOf c)).stopped = true ∧ ((s.busError c side addr).engine (engineOf c)).running = none := by
  rw [State.busError_eq, State.engine_modEngine]
  exact ⟨rfl, rfl⟩

theorem State.busError_reg (s : State) (c : DmaChannel) (side : Nat) (addr : Word) (o : Nat) :
    (s.busError c side addr).reg o = (s.busHalted c side addr).reg o := by
  rw [State.busError_eq]
  exact State.reg_congr (State.modEngine_regs _ _ _) o

/-- What a channel shows of a halt: its state, its code and the address in error. -/
def State.haltNoted (k : DmaChannel) (s : State) : Nat × Nat × Word := (s.dcState k, s.rd (DC_STATUS.CODE k.val), s.reg (DC_ERR.reg k.val))

theorem State.haltWith_noted (s : State) (c : DmaChannel) (side : Nat) (addr : Word) : (s.haltWith c 2 side addr).haltNoted c = (4, 2, addr) := by
  rw [State.haltNoted, State.haltWith_dcState, State.haltWith_code _ _ (by decide), State.haltWith_addr]

theorem State.haltWith_noted_ne (s : State) {c k : DmaChannel} (side : Nat) (addr : Word) (other : k ≠ c) :
    (s.haltWith c 2 side addr).haltNoted k = s.haltNoted k := by
  have apart : k.val ≠ c.val := fun same => other (Fin.ext same)
  have status : (s.haltWith c 2 side addr).reg (DC_STATUS.reg k.val) = s.reg (DC_STATUS.reg k.val) :=
    s.haltWith_reg_ne c 2 side addr (by simp only [DC_STATUS.reg]; omega) (by simp only [DC_STATUS.reg]; omega)
      (by simp only [DC_STATUS.reg, DC_ERR.reg]; omega)
  have err : (s.haltWith c 2 side addr).reg (DC_ERR.reg k.val) = s.reg (DC_ERR.reg k.val) :=
    s.haltWith_reg_ne c 2 side addr (by simp only [DC_ERR.reg]; omega) (by simp only [DC_STATUS.reg, DC_ERR.reg]; omega)
      (by simp only [DC_ERR.reg]; omega)
  rw [State.haltNoted, State.dcState_congr status, State.rd_of_reg (f := DC_STATUS.CODE k.val) status, err]
  rfl

/-- Every ready or running channel of the engine halts. -/
theorem State.busError_halts (s : State) (c : DmaChannel) (side : Nat) (addr : Word) {k : DmaChannel} (same : engineOf k = engineOf c)
    (runs : s.dcState k = 1 ∨ s.dcState k = 2) : (s.busError c side addr).dcState k = 4 ∧
      (s.busError c side addr).rd (DC_STATUS.CODE k.val) = 2 ∧ (s.busError c side addr).reg (DC_ERR.reg k.val) = addr := by
  have mem : k ∈ s.engineChannels (engineOf c) := by simp [engineChannels, same, runs]
  have noted := (foldl_own (get := State.haltNoted) (key := id) (F := fun _ _ => (4, 2, addr)) (Q := fun _ => True) (fun _ _ _ => trivial)
    (fun u j _ => u.haltWith_noted j side addr) (fun u j k ne => u.haltWith_noted_ne side addr ne) (s.engineChannels (engineOf c))
    (s.blurWrites ((s.engineChannels (engineOf c)).flatMap fun k => (s.chan k).writesOut)) trivial
    (by rw [List.map_id]; exact (List.nodup_finRange 16).filter _)).2 k mem
  obtain ⟨state, code, at_⟩ : (s.busHalted c side addr).dcState k = 4 ∧ (s.busHalted c side addr).rd (DC_STATUS.CODE k.val) = 2 ∧
      (s.busHalted c side addr).reg (DC_ERR.reg k.val) = addr := by simpa [State.haltNoted, State.busHalted] using noted
  exact ⟨(State.dcState_congr (s.busError_reg c side addr _)).trans state, (State.rd_of_reg (s.busError_reg c side addr _)).trans code,
    (s.busError_reg c side addr _).trans at_⟩

theorem State.busError_count (s : State) (c k : DmaChannel) (side : Nat) (addr : Word) :
    (s.busError c side addr).reg (DC_COUNT.reg k.val) = s.reg (DC_COUNT.reg k.val) := by
  rw [s.busError_reg]
  refine holds_of_foldl (P := fun t : State => t.reg (DC_COUNT.reg k.val) = s.reg (DC_COUNT.reg k.val)) (fun u j h => ?_) _ _
    (State.reg_congr (s.blurWrites_regs _) _)
  exact (u.haltWith_reg_ne j 2 side addr (by simp only [DC_COUNT.reg]; omega) (by simp only [DC_COUNT.reg, DC_STATUS.reg]; omega)
    (by simp only [DC_COUNT.reg, DC_ERR.reg]; omega)).trans h

theorem State.blurWrites_modChan_reg (s : State) (ids : List Nat) (c : DmaChannel) (f : DmaState → DmaState) (o : Nat) :
    ((s.blurWrites ids).modChan c f).reg o = s.reg o := by
  rw [State.modChan_reg, State.reg_congr (s.blurWrites_regs ids)]

/-- An error response to a running channel's write is the engine's bus error; on a list's last write COUNT has reached 0. -/
theorem exec_dmaBusError {s : State} {c : DmaChannel} (quiet : (s.chan c).reading = none) (out : (s.chan c).writesOut ≠ [])
    (runs : s.dcState c = 2) (addr : Word) (last : Bool) :
    ∃ (u : State) (side : Nat), exec (.dmaBusError c addr last) s = .next (u.busError c side addr) ∧
      (∀ k : DmaChannel, u.dcState k = s.dcState k) ∧ (last = true → u.rd (DC_COUNT.COUNT c.val) = 0) := by
  have waits : ((s.chan c).writesOut.isEmpty) = false := by simpa using out
  refine ⟨_, _, by
    simp only [exec, execDmaBusError, quiet, waits, runs, Option.isNone_none, Bool.false_eq_true, and_false, ne_eq, not_true_eq_false,
      if_false]
    exact rfl, fun k => ?_, fun l => ?_⟩
  · refine State.dcState_congr ?_
    refine holds_of_ite (P := fun t : State => t.reg (DC_STATUS.reg k.val) = s.reg (DC_STATUS.reg k.val)) ?_
      (s.blurWrites_modChan_reg _ _ _ _)
    exact (State.reg_wr_ne _ _ _ (by simp only [DC_COUNT.COUNT, DC_COUNT.reg, DC_STATUS.reg]; omega)).trans (s.blurWrites_modChan_reg _ _ _ _)
  · rw [if_pos l]
    exact State.rd_wr_same _ _ _ (Nat.le_of_ble_eq_true rfl)

/-! ### The statement -/

/-- Settles O59, command by command: DC_STATUS is read from the fields that each writes in order, and a channel that goes on waits at once. -/
theorem dmaChannelsRunTheirLists : Obligations.DmaChannelsRunTheirLists := by
  unfold Obligations.DmaChannelsRunTheirLists
  intro s c b d line a e awake
  dsimp only
  refine ⟨?go, ?notGo, ?pauseReady, ?pauseRunning, ?resume, ?disable, ?drained, ?start, ?fetch, ?noRead, ?source, ?complete, ?noError, ?busError⟩
  case go =>
    intro free enabled
    have small : (if c.val < 8 ∧ s.on (DC_CTRL.PAUSE c.val) = true then 3 else 1) < 2 ^ 3 := by split <;> decide
    refine ⟨_, exec_dmaGo awake free enabled, s.dmaWent_rd c (f := DC_STATUS.STATE c.val) small (Nat.le_of_ble_eq_true rfl) (by simp [goWrites]),
      s.dmaWent_on c (Nat.le_of_ble_eq_true rfl) (by simp [goWrites]), s.dmaWent_on c (Nat.le_of_ble_eq_true rfl) (by simp [goWrites]),
      s.dmaWent_rd c (Nat.two_pow_pos _) (Nat.le_of_ble_eq_true rfl) (by simp [goWrites]),
      s.dmaWent_rd c (Nat.two_pow_pos _) (Nat.le_of_ble_eq_true rfl) (by simp [goWrites]), s.dmaWent_chan c _, s.dmaWent_stopped c _,
      fun o => s.dmaWent_reg_ne c _⟩
  case notGo =>
    intro idle halted
    exact (if_neg awake).trans (congrArg Outcome.next (if_pos (.inl ⟨idle, halted⟩)))
  case pauseReady =>
    intro data ready
    refine ⟨_, (exec_dmaPause awake data).trans (by rw [if_pos ready]), ?_, State.setDc_dcState _ c (by decide), s.onlyRegs_ctrl_setDc c rfl _ _⟩
    exact (State.setDc_on_ctrl _ c _ rfl).trans (s.on_wr_one _ rfl (Nat.le_of_ble_eq_true rfl))
  case pauseRunning =>
    intro data runs opened between quiet
    refine ⟨_, exec_dmaPause_runs awake data runs opened between quiet, ?_, State.becomePaused_dcState _ c, State.becomePaused_running _ c⟩
    rw [State.on, State.rd_congr (State.becomePaused_regs _ c)]
    exact (State.setDc_on_ctrl _ c _ rfl).trans (s.on_wr_one _ rfl (Nat.le_of_ble_eq_true rfl))
  case resume =>
    intro data paused
    refine ⟨_, (exec_dmaResume awake data).trans (by rw [if_pos paused]), ?_, State.setDc_dcState _ c (by decide),
      s.onlyRegs_ctrl_setDc c rfl _ _⟩
    exact (State.setDc_on_ctrl _ c _ rfl).trans (s.on_wr_zero _ rfl (Nat.le_of_ble_eq_true rfl))
  case disable =>
    intro utility busy undrained
    obtain ⟨on, state, chan, running, out⟩ := s.dmaDisabled_notes c
    refine ⟨_, exec_dmaDisable awake utility busy undrained, on, state, chan, running, out, fun o other => ?_⟩
    simp only [List.mem_cons, List.not_mem_nil, or_false, not_or] at other
    obtain ⟨ctrl, status, ptr, count⟩ := other
    rw [s.dmaDisabled_reg_ne c count ptr]
    exact (s.onlyRegs_ctrl_setDc c rfl 1 5).2 o (by simp [ctrl, status])
  case drained =>
    intro draining quiet acked
    refine ⟨_, if_pos ⟨draining, by simp [quiet], by simp [acked]⟩, s.setDc_dcState c (by decide), s.onlyRegs_wr _ 0⟩
  case start =>
    intro opened free started quiet next between calm go high place
    obtain ⟨running, lastRun⟩ := s.dmaStarted_engine e.val c
    refine ⟨_, exec_dmaChannelStart opened free started quiet next between calm go high place, s.setDc_dcState c (by decide), running,
      lastRun, ?_, s.dmaStarted_only e.val c .descriptor⟩
    rw [State.dmaReading, State.chan_modChan]
  case fetch =>
    intro fetching runs ring
    refine ⟨fun bad => ⟨_, exec_descriptorFetch_bad fetching runs ring bad, State.haltWith_dcState _ _ _ _ _, State.haltWith_err _ _ _ _ _,
      State.haltWith_code _ _ (by decide) _ _, State.haltWith_addr _ _ _ _ _, ?_⟩, exec_descriptorFetch_good fetching runs ring⟩
    rw [State.rd_of_reg (f := DC_COUNT.COUNT c.val) (State.haltWith_reg_ne _ c _ _ _ (by simp only [DC_COUNT.COUNT, DC_COUNT.reg]; omega)
      (by simp only [DC_COUNT.COUNT, DC_COUNT.reg, DC_STATUS.reg]; omega) (by simp only [DC_COUNT.COUNT, DC_COUNT.reg, DC_ERR.reg]; omega))]
    exact State.rd_wr_same _ _ _ (Nat.le_of_ble_eq_true rfl)
  case noRead =>
    intro quiet p
    have none : (s.chan c).reading = none := quiet
    simp only [exec, execDmaReadResponse, none]
  case source => exact fun reading runs desc => exec_dmaReadResponse_source line reading runs desc
  case complete =>
    intro desc runs written quiet acked calm result last
    have noticed : QueueWork (s.dmaCompleted c) (if d.irqEnd = true then
        (s.dmaCompleted c).notice 3 0x28 1 (0x50 + engineOf c) c.val (s.descAddr c) else s.dmaCompleted c) :=
      holds_of_ite (P := QueueWork _) ((QueueWork.refl _).notice _ _ _ _ _ _ _ (by decide)) (QueueWork.refl _)
    obtain ⟨state, done, descs, chan, running⟩ := s.dmaCompleted_notes c noticed
    refine ⟨_, exec_descriptorComplete_last desc runs written quiet acked calm result last, state, done, descs, chan, running,
      fun silent o other => ?_⟩
    rw [if_neg (by simp [silent]), s.dmaCompleted_reg_ne c other]
  case noError =>
    intro quiet acked l
    exact if_pos ⟨by simp [quiet], by simp [acked]⟩
  case busError =>
    intro quiet out runs l
    obtain ⟨u, side, run, state, count⟩ := exec_dmaBusError quiet out runs a l
    obtain ⟨stopped, running⟩ := u.busError_engine c side a
    refine ⟨_, run, stopped, running, fun k same ready => u.busError_halts c side a same (by rwa [state k]), fun last => ?_⟩
    rw [State.rd_of_reg (f := DC_COUNT.COUNT c.val) (u.busError_count c c side a)]
    exact count last

end Sys2Proof.Machine
end

section
/-! PROOFS. The mailbox commands that read state (13 R428, R429; 05 R179; 10 R333; 11 R373; 15 R469; 12 R380; 04 R144). -/

namespace Sys2Proof.Machine

open Host (Outcome)

section
variable {s : State} {mb : Mailbox} {b : List Byte}

/-! ### Status, summaries and inventories -/

theorem exec_getHomeStatus (h : s.Holds mb 0xC100 []) : exec (.getHomeStatus mb) s = .next (s.reply mb 0 s.homeStatus) :=
  h.runs (.inr rfl) (reservedClear_nil _) rfl

/-- The status begins with GLB_MODE. -/
theorem State.homeStatus_mode (s : State) : s.homeStatus.take 2 = leBytes 2 (s.view GLB_MODE.reg).toNat := by
  unfold State.homeStatus
  extract_lets bits low sl hp wt gstates busy flt pwr
  simp only [List.append_assoc]
  have first : (low GLB_MODE.reg 2).length = 2 := length_leBytes _ _
  rw [List.take_left' first]

theorem exec_getRangeSummary (h : s.Holds mb 0xC111 []) : exec (.getRangeSummary mb) s = .next (s.reply mb 0
    (s.regBytes [HC_RANGE_SUMMARY.reg 0, HC_RANGE_SUMMARY.reg 1, HC_RANGE_SUMMARY.reg 2, HC_RANGE_SUMMARY.reg 3]
      ++ leBytes 4 (getBits (s.reg HC_RANGE_STATUS.reg) 0 8))) :=
  h.runs (.inr rfl) (reservedClear_nil _) rfl

theorem exec_getScrubSummary (h : s.Holds mb 0xC121 []) : exec (.getScrubSummary mb) s = .next (s.reply mb 0
    (s.regBytes ((List.range 6).map SCRUB_SUMMARY.reg ++ [SCRUB_STATUS.reg]))) :=
  h.runs (.inr rfl) (reservedClear_nil _) rfl

/-- What stands before the records of the fault history. -/
def State.historyHead (s : State) : List Byte :=
  leBytes 1 s.validRecords.length ++ leBytes 3 (s.rd FLT_HANDLING.HANDLING + s.rd FLT_HANDLING.FROZEN * 2)
    ++ leBytes 8 (s.reg FLT_MERGED0.reg).toNat ++ leBytes 4 (s.rd FLT_MERGED1.SRC_HI)

theorem State.historyHead_shape (s : State) :
    s.historyHead.length = 16 ∧ s.historyHead.head? = some (BitVec.ofNat 8 s.validRecords.length) := by
  refine ⟨by simp [State.historyHead, length_leBytes], ?_⟩
  simp [State.historyHead, leBytes]

theorem exec_getFaultHistory (h : s.Holds mb 0xC130 []) :
    exec (.getFaultHistory mb) s = .next (s.reply mb 0 (s.historyHead ++ s.validRecords.flatMap fun r => leBytes 16 r.toNat)) :=
  h.runs (.inr rfl) (reservedClear_nil _) rfl

theorem exec_getSpareInventory (h : s.Holds mb 0xC140 []) : exec (.getSpareInventory mb) s = .next (s.reply mb 0 s.spareInventory) :=
  h.runs (.inr rfl) (reservedClear_nil _) rfl

theorem State.spareInventory_length (s : State) : s.spareInventory.length = 16 := by simp [State.spareInventory, length_leBytes]

theorem exec_getFwInfo (h : s.Holds mb 0x0200 []) : exec (.getFwInfo mb) s = .next (s.reply mb 0 s.fwInfo) :=
  h.runs (.inr rfl) (reservedClear_nil _) rfl

/-! ### Counters and samples -/

/-- A byte of an input as a number. -/
theorem leAt_byte {input : List Byte} {o v : Nat} (at_ : input[o]? = some (BitVec.ofNat 8 v)) (small : v < 256) : leAt input o 1 = v := by
  rw [leAt_succ, leAt_zero, Nat.add_zero, at_]
  simp
  omega

theorem exec_readCounterSnapshot {first n snap : Nat}
    (h : s.Holds mb 0xC170 [BitVec.ofNat 8 (snap % 2), BitVec.ofNat 8 first, BitVec.ofNat 8 n, 0#8]) (hf : first < 256) (hn : n < 256) :
    exec (.readCounterSnapshot mb) s = .next (
      if 1 ≤ n ∧ n ≤ 15 ∧ first + n ≤ 79 then
        let u := if snap % 2 = 1 then s.takeSnap else s
        u.reply mb 0 (leBytes 8 (u.rd PMU_SNAP_TIME.TIME)
          ++ ((List.range (32 * n)).map (32 * first + ·)).flatMap fun k => leBytes 8 (u.snap.look 0 k))
      else s.reply mb 2) := by
  generalize parts : [BitVec.ofNat 8 (snap % 2), BitVec.ofNat 8 first, BitVec.ofNat 8 n, 0#8] = input at h
  have asked : leAt input 0 1 = snap % 2 := leAt_byte (by rw [← parts]; rfl) (by omega)
  have from_ : leAt input 1 1 = first := leAt_byte (by rw [← parts]; rfl) hf
  have count : leAt input 2 1 = n := leAt_byte (by rw [← parts]; rfl) hn
  have rest : leAt input 3 1 = 0 := leAt_byte (by rw [← parts]; rfl) (by decide)
  have low : snap % 2 &&& 0xFE = 0 := and_eq_zero_of_lt 1 127 (Nat.mod_lt _ (by decide))
  refine h.runs (.inr (by rw [← parts]; rfl))
    (.cons (by rw [asked, low]) (.cons (by rw [rest]; rfl) (reservedClear_nil _))) ?_
  simp only [asked, from_, count, Nat.mod_mod]
  by_cases good : 1 ≤ n ∧ n ≤ 15 ∧ first + n ≤ 79
  · rw [if_pos good, if_neg (by omega)]
    rfl
  · rw [if_neg good, if_pos (by omega)]
    rfl

/-- What Read Sample Buffer answers. -/
def State.sampleBytes (s : State) (n : Nat) : List Byte :=
  leBytes 2 n ++ leBytes 2 (s.samples.length - n) ++ leBytes 2 (s.rd PMU_SAMPLE_STATUS.LOST) ++ leBytes 2 (s.rd PMU_SAMPLE_STATUS.ABANDONED)
    ++ (s.samples.take n).flatMap fun (r : BitVec 256) => leBytes 32 r.toNat

theorem State.sampleBytes_shape (s : State) (n : Nat) : (s.sampleBytes n).take 2 = leBytes 2 n ∧
    (s.sampleBytes n).drop 8 = (s.samples.take n).flatMap fun (r : BitVec 256) => leBytes 32 r.toNat := by
  refine ⟨?_, List.drop_left' (by simp [length_leBytes])⟩
  simp only [State.sampleBytes, List.append_assoc]
  exact List.take_left' (length_leBytes _ _)

theorem exec_readSampleBuffer {k : Nat} (h : s.Holds mb 0xC172 (leBytes 4 k)) (hk : k < 65536) :
    exec (.readSampleBuffer mb) s = .next (
      if 127 < k then s.reply mb 2
      else
        let n := min s.samples.length (if k = 0 then 127 else k)
        { s with samples := s.samples.drop n }.reply mb 0 (s.sampleBytes n)) := by
  have want : leAt (leBytes 4 k) 0 2 = k := by
    rw [leAt_leBytes 4 k (by decide), Nat.pow_zero, Nat.div_one]
    exact Nat.mod_eq_of_lt hk
  have clear : ReservedClear (leBytes 4 k) (rsvBytes 2 3) := reservedClear_rsvBytes fun o lo hi => by
    rw [leAt_leBytes 4 k (by omega)]
    exact byte_eq_zero 16 hk (by omega)
  refine h.runs (.inr (by rw [length_leBytes])) clear ?_
  simp only [want]
  rfl

/-! ### Owner settings and regions -/

theorem exec_getOwnerSetting {k : Nat} (h : s.Holds mb 0xC180 (leBytes 2 k)) (hk : k < 65536) :
    ∃ out, exec (.getOwnerSetting mb) s = .next (s.reply mb 0 out) ∧ out.length = 17 ∧ out.take 8 = leBytes 8 (s.inForce k) := by
  have key : leAt (leBytes 2 k) 0 2 = k := leAt_leBytes_whole hk
  refine ⟨_, h.runs (.inr (by rw [length_leBytes])) (reservedClear_nil _) (by simp only [key]; rfl), by simp [length_leBytes], ?_⟩
  simp only [List.append_assoc]
  exact List.take_left' (length_leBytes _ _)

theorem exec_getRegionEntry {i : Nat} (h : s.Holds mb 0xC1A1 (leBytes 2 i)) (hi : i < 16384) :
    ∃ out, exec (.getRegionEntry mb) s = .next (s.reply mb 0 out) ∧ out.length = 12 ∧
      out.take 4 = leBytes 4 (s.regionEntry i).toNat := by
  have region : leAt (leBytes 2 i) 0 2 = i := leAt_leBytes_whole (hi.trans (by decide))
  refine ⟨_, h.runs (.inr (by rw [length_leBytes])) (reservedClear_nil _) (by simp only [region, if_neg (Nat.not_le.mpr hi)]; rfl),
    by simp [length_leBytes], ?_⟩
  simp only [List.append_assoc]
  exact List.take_left' (length_leBytes _ _)

/-! ### The owner-loss list (04 R144; log 105) -/

theorem State.dropLosses_ownerLoss (s : State) (n : Nat) : (s.dropLosses n).ownerLoss = s.ownerLoss.drop n := by
  unfold State.dropLosses
  refine holds_of_foldl (P := fun t : State => t.ownerLoss = s.ownerLoss.drop n) (fun _ _ h => ?_) _ _ rfl
  exact h

/-- Where no entry of the list is lost, all of them are given. -/
theorem State.goodLosses {n : Nat} {l : List Word} (short : l.length ≤ n) (good : ∀ j < n, s.lossBad j = false) :
    (l.zipIdx.filter fun e => !s.lossBad e.2).map Prod.fst = l := by
  have all : (l.zipIdx.filter fun e => !s.lossBad e.2) = l.zipIdx := List.filter_eq_self.mpr fun e mem => by
    rw [good e.2 (Nat.lt_of_lt_of_le (List.snd_lt_of_mem_zipIdx mem) (by omega))]
    rfl
  rw [all, List.zipIdx_map_fst]

/-- The number of entries that a request for `k` of them gives. -/
def State.lossesGiven (s : State) (k : Nat) : Nat := min s.ownerLoss.length (min 511 (if k = 0 then 511 else k))

/-- What stands before the entries given: their number, the number left, and the ports whose list has overflowed. -/
def State.lossHead (s : State) (n left : Nat) : List Byte :=
  leBytes 2 n ++ leBytes 2 left ++ leBytes 4 ((List.range 16).foldl (fun a h => a + s.rd (HP_OWNER_LOSS.LIST_OVF h) * 2 ^ h) 0)

theorem State.lossHead_shape (s : State) (n left : Nat) :
    (s.lossHead n left).length = 8 ∧ (s.lossHead n left).take 4 = leBytes 2 n ++ leBytes 2 left :=
  ⟨by simp [State.lossHead, length_leBytes], List.take_left' (by simp [length_leBytes])⟩

theorem exec_getOwnerLossList {k : Nat} {consume : Bool}
    (h : s.Holds mb 0xC151 (leBytes 2 k ++ BitVec.ofNat 8 consume.toNat :: List.replicate 5 0#8)) (hk : k < 65536)
    (good : ∀ j < s.lossesGiven k, s.lossBad j = false) (same : (s.ctrlRead .loss 0 (8 * s.lossesGiven k)).1 = s)
    (clean : (s.ctrlRead .loss 0 (8 * s.lossesGiven k)).2.2 = false) :
    exec (.getOwnerLossList mb) s = .next (
      let u := if consume then s.dropLosses (s.lossesGiven k) else s
      u.reply mb 0 (s.lossHead (s.lossesGiven k) u.ownerLoss.length
        ++ (s.ownerLoss.take (s.lossesGiven k)).flatMap fun (w : Word) => leBytes 8 w.toNat)) := by
  have rest (o : Nat) : leAt (leBytes 2 k ++ BitVec.ofNat 8 consume.toNat :: List.replicate 5 0#8) (2 + o) 1 =
      leAt (BitVec.ofNat 8 consume.toNat :: List.replicate 5 0#8) o 1 := by
    rw [leAt_append_right _ _ (by rw [length_leBytes]; omega), length_leBytes, Nat.add_sub_cancel_left]
  have flags : leAt (leBytes 2 k ++ BitVec.ofNat 8 consume.toNat :: List.replicate 5 0#8) 2 1 = consume.toNat :=
    (rest 0).trans (leAt_byte rfl (by cases consume <;> decide))
  have max_ : leAt (leBytes 2 k ++ BitVec.ofNat 8 consume.toNat :: List.replicate 5 0#8) 0 2 = k :=
    leAt_whole (front := []) rfl rfl hk
  have clear : ReservedClear (leBytes 2 k ++ BitVec.ofNat 8 consume.toNat :: List.replicate 5 0#8) ((2, 0xFC) :: rsvBytes 3 7) := by
    refine .cons (by rw [flags]; cases consume <;> rfl) (reservedClear_rsvBytes fun o lo hi => ?_)
    rw [show o = 2 + (o - 2) by omega, rest]
    interval_cases o <;> rfl
  have taken : (s.ownerLoss.take (s.lossesGiven k)).length = s.lossesGiven k := List.length_take_of_le (Nat.min_le_left _ _)
  refine h.runs (.inr (by simp [length_leBytes])) clear ?_
  have given : min s.ownerLoss.length (min 511 (if k = 0 then 511 else k)) = s.lossesGiven k := rfl
  have all := State.goodLosses taken.le good
  simp only [max_, flags, given, all, taken, same, clean, Bool.false_eq_true, if_false]
  cases consume <;> simp [State.lossHead, rcSuccess]

/-! ### Event records, Identify and what is no command -/

theorem exec_getEventRecords (h : s.Holds mb 0x0100 b) (log : Fin 4) :
    ∃ out, exec (.getEventRecords mb log) s = .next (s.reply mb 0 out) ∧
      (out.drop 20).take 12 = leBytes 12 (min 31 (s.fw.logs.look [] log.val).length) := by
  refine ⟨_, h.runs_any rfl, ?_⟩
  rw [List.append_assoc, List.drop_left' (by simp [length_leBytes]), List.take_left' (length_leBytes _ _)]

theorem exec_identify (h : s.Holds mb 0x4000 b) : exec (.standardMemoryDeviceCommand mb 0x4000#16) s = .next (s.reply mb 0 s.identify) :=
  h.runs_any rfl

/-- A command of each form. -/
def mailboxCommands : List Instr :=
  [.getEventRecords .primary 0, .clearEventRecords .primary 0 0, .getFwInfo .primary, .transferFw .primary 0#2 FwImage.none,
    .activateFwOffline .primary 0#2, .getHomeStatus .primary, .setDirtyBudget .primary, .setPersistenceMode .primary, .requestMode .primary,
    .startRangeOperation .primary, .getRangeSummary .primary, .startScrubPass .primary, .getScrubSummary .primary, .getFaultHistory .primary,
    .setFaultPolicy .primary, .getSpareInventory .primary, .retireUnit .primary, .setOwnerLossPolicy .primary, .getOwnerLossList .primary,
    .setHedgePolicy .primary, .readCounterSnapshot .primary, .configureSampling .primary, .readSampleBuffer .primary,
    .getOwnerSetting .primary, .setOwnerSetting .primary, .resealRegion .primary, .setRegionEntry .primary, .getRegionEntry .primary]

/-- The opcodes of the commands that have a form. -/
def mailboxOpcodes : List Nat := mailboxCommands.filterMap fun c => (mailboxForm c).map fun f => f.2.1

theorem exec_standardMemoryDeviceCommand (op : BitVec 16) :
    exec (.standardMemoryDeviceCommand mb op) s = if mailboxOpcodes.contains op.toNat then .next s
      else .next (s.command mb op.toNat none [] fun s _ =>
        match op.toNat with
        | 0x4000 => s.reply mb rcSuccess s.identify
        | 0x4400 => if s.fw.bg.isSome then s.reply mb rcBusy else s.sanitise.startBg mb 0x4400 0 0
        | _ => s.reply mb rcUnsupported) := rfl

theorem exec_of_no_command {op : BitVec 16} (h : s.Holds mb op.toNat b) (identify : op ≠ 0x4000#16) (sanitise : op ≠ 0x4400#16)
    (none : ∀ c m n, mailboxForm c ≠ some (m, op.toNat, n)) :
    exec (.standardMemoryDeviceCommand mb op) s = .next (s.reply mb 3) := by
  have unlisted : ¬mailboxOpcodes.contains op.toNat = true := by
    rw [List.contains_iff_mem, mailboxOpcodes, List.mem_filterMap]
    rintro ⟨c, -, form⟩
    obtain ⟨⟨m, code, n⟩, form, rfl⟩ := Option.map_eq_some_iff.mp form
    exact none c m n form
  have notIdentify : op.toNat ≠ 0x4000 := fun e => identify (BitVec.eq_of_toNat_eq e)
  have notSanitise : op.toNat ≠ 0x4400 := fun e => sanitise (BitVec.eq_of_toNat_eq e)
  rw [exec_standardMemoryDeviceCommand, if_neg unlisted]
  refine h.runs_any ?_
  split
  · exact absurd ‹_› notIdentify
  · exact absurd ‹_› notSanitise
  · rfl

end

/-- Settles O54: each command by its equation, its output's parts by their lengths. -/
theorem readingCommandsAnswer : Obligations.ReadingCommandsAnswer := by
  unfold Obligations.ReadingCommandsAnswer
  intro s mb b log op k i
  refine ⟨fun h => ⟨exec_getHomeStatus h, s.homeStatus_mode⟩, exec_getRangeSummary, exec_getScrubSummary, fun h => ?_,
    fun h => ⟨exec_getSpareInventory h, s.spareInventory_length⟩, exec_getFwInfo, fun first n snap h hf hn => ?_, fun h few => ?_,
    fun h many hk => ?_, exec_getOwnerSetting, exec_getRegionEntry, fun h hk good same clean => ?_, fun h hk good same clean => ?_,
    fun h => exec_getEventRecords h log, exec_identify, exec_of_no_command⟩
  · obtain ⟨length, first⟩ := s.historyHead_shape
    exact ⟨_, length, first, exec_getFaultHistory h⟩
  · rw [exec_readCounterSnapshot h hf hn]
    split_ifs <;> rfl
  · have run := exec_readSampleBuffer h (by omega)
    rw [if_neg (Nat.not_lt.mpr few)] at run
    obtain ⟨first, rest⟩ := s.sampleBytes_shape (min s.samples.length (if k = 0 then 127 else k))
    exact ⟨_, _, run, rfl, first, rest⟩
  · rw [exec_readSampleBuffer h hk, if_pos many]
  · obtain ⟨length, first⟩ := s.lossHead_shape (s.lossesGiven k) (s.ownerLoss.length - s.lossesGiven k)
    have run := exec_getOwnerLossList (consume := true) h hk good same clean
    simp only [if_true, State.dropLosses_ownerLoss, List.length_drop] at run
    exact ⟨s.dropLosses_ownerLoss _, _, length, first, run⟩
  · obtain ⟨length, first⟩ := s.lossHead_shape (s.lossesGiven k) s.ownerLoss.length
    exact ⟨_, length, first, exec_getOwnerLossList (consume := false) h hk good same clean⟩

end Sys2Proof.Machine
end

section
/-! PROOFS. The statement of the mailboxes' doorbells, completions and refusals (13 R422 to R428). -/

namespace Sys2Proof.Machine

open Host (Outcome)

/-! ### What a write of a mailbox's payload leaves -/

/-- A write of a mailbox's payload, with what its code words report, leaves the rest of the mailbox, the other mailbox, MBX_CTRL and the
mode. -/
structure PayloadWork (mb : Mailbox) (s t : State) : Prop where
  own : t.mbx mb = { s.mbx mb with payload := (t.mbx mb).payload }
  other : t.mbx (otherMbx mb) = s.mbx (otherMbx mb)
  ctrl : t.reg MBX_CTRL.reg = s.reg MBX_CTRL.reg
  mode : t.mode = s.mode

theorem State.mbx_modMbx_other (s : State) (mb : Mailbox) (f : MbxState → MbxState) :
    (s.modMbx mb f).mbx (otherMbx mb) = s.mbx (otherMbx mb) := by
  cases mb <;> rfl

theorem State.modMbx_regs (s : State) (mb : Mailbox) (f : MbxState → MbxState) : (s.modMbx mb f).regs = s.regs := by
  cases mb <;> rfl

theorem State.emit_mbx (s : State) (o : Out) (mb : Mailbox) : (s.emit o).mbx mb = s.mbx mb := by cases mb <;> rfl

namespace PayloadWork

variable {mb : Mailbox} {s t u : State}

theorem refl (mb : Mailbox) (s : State) : PayloadWork mb s s := ⟨rfl, rfl, rfl, rfl⟩

theorem trans (h : PayloadWork mb s t) (k : PayloadWork mb t u) : PayloadWork mb s u :=
  ⟨by rw [k.own, h.own], k.other.trans h.other, k.ctrl.trans h.ctrl, k.mode.trans h.mode⟩

/-- A step that changes neither a register nor a mailbox. -/
theorem of_eq (regs : t.regs = s.regs) (mbx : ∀ k, t.mbx k = s.mbx k) : PayloadWork mb s t :=
  ⟨by rw [mbx], mbx _, State.reg_congr regs _, State.rd_congr regs _⟩

theorem of_faultWork (h : FaultWork s t) : PayloadWork mb s t where
  own := by rw [h.rest]; cases mb <;> rfl
  other := by rw [h.rest]; cases mb <;> rfl
  ctrl := h.regs _ (by decide) (.inr (.inr (by decide)))
  mode := h.mode

theorem devFinding (s : State) (m w : Nat) (up : Bool) (f : Found) : PayloadWork mb s (s.devFinding m w up f) := by
  have source : deviceSource m < 96 := by unfold deviceSource; split <;> omega
  cases f with
  | good => exact .refl mb s
  | corrected => exact .of_faultWork ((FaultWork.refl s).minor _ _ source)
  | uncorrectable => exact .of_faultWork ((FaultWork.refl s).major _ _ source)

theorem setDevError (s : State) (m w : Nat) (up : Bool) (e : WordError) : PayloadWork mb s (s.setDevError m w up e) :=
  .of_eq rfl fun k => by cases k <;> rfl

theorem setValid (s : State) (m w n : Nat) (b : Bool) : PayloadWork mb s (s.setValid m w n b) :=
  holds_of_ite (.refl mb s) (.of_eq rfl fun k => by cases k <;> rfl)

theorem readValid (s : State) (m w : Nat) : PayloadWork mb s (s.readValid m w).1 := by
  unfold State.readValid
  extract_lets b same
  split
  · exact .refl mb s
  · exact (setValid s m w 1 b).trans (devFinding (s.setValid m w 1 b) m w false .corrected)

theorem setCtrlByte (s : State) (o : Nat) (v : Byte) : PayloadWork mb s (s.setCtrlByte (.payload mb) o v) where
  own := by rw [State.setCtrlByte, State.mbx_modMbx]
  other := s.mbx_modMbx_other mb _
  ctrl := State.reg_congr (s.modMbx_regs mb _) _
  mode := State.rd_congr (s.modMbx_regs mb _) _

theorem firstWrite (s : State) (o m w : Nat) : PayloadWork mb s (s.firstWrite (.payload mb) o m w) := by
  have zeroed : PayloadWork mb s ((List.range 16).foldl (fun s i => s.setCtrlByte (.payload mb) (o / 16 * 16 + i) 0#8) s) :=
    holds_of_foldl (P := PayloadWork mb s) (fun u _ h => h.trans (setCtrlByte u _ _)) _ _ (.refl mb s)
  exact ((zeroed.trans (setDevError _ _ _ _ _)).trans (setDevError _ _ _ _ _)).trans (setValid _ _ _ _ _)

theorem ctrlWrite (s : State) (o : Nat) (bs : List Byte) : PayloadWork mb s (s.ctrlWrite (.payload mb) o bs) := by
  unfold State.ctrlWrite
  extract_lets checked written g
  have hc : PayloadWork mb s checked := holds_of_foldl (P := PayloadWork mb s) (fun u k hu => by
    split
    · exact hu
    next m w up _ =>
      extract_lets whole
      split
      next v valid e =>
      have read : PayloadWork mb u (u.readValid m w).1 := readValid u m w
      rw [e] at read
      have hv : PayloadWork mb s v := hu.trans read
      extract_lets f
      have hf : PayloadWork mb s (v.devFinding m w up f) := hv.trans (devFinding _ _ _ _ _)
      exact holds_of_ite (P := PayloadWork mb s) (hv.trans (firstWrite _ _ _ _))
        (holds_of_ite (P := PayloadWork mb s) (hv.trans (setDevError _ _ _ _ _)) (hf.trans (setDevError _ _ _ _ _)))) _ _ (.refl mb s)
  have hw : PayloadWork mb s written := holds_of_foldl (P := PayloadWork mb s) (fun u _ h => h.trans (setCtrlByte u _ _)) _ _ hc
  exact holds_of_ite (P := PayloadWork mb s) (hw.trans (.of_eq rfl fun k => by cases k <;> rfl)) hw

end PayloadWork

/-! ### The doorbell (13 R423) -/

theorem bellFld_off (mb : Mailbox) : (bellFld mb).off = MBX_CTRL.reg := by cases mb <;> rfl

theorem closedFld_off (mb : Mailbox) : (closedFld mb).off = MBX_CTRL.reg := by cases mb <;> rfl

theorem bellFld_fits (mb : Mailbox) : (bellFld mb).lo + (bellFld mb).w ≤ 64 := by cases mb <;> decide

theorem bellFld_w (mb : Mailbox) : (bellFld mb).w = 1 := by cases mb <;> rfl

theorem bellFld_apart (mb : Mailbox) : (bellFld mb).Apart (bellFld (otherMbx mb)) := by cases mb <;> exact .inr (by decide)

theorem State.on_of_reg {s t : State} {f : Fld} (same : t.reg f.off = s.reg f.off) : t.on f = s.on f :=
  congrArg (· != 0) (State.rd_of_reg same)

theorem PayloadWork.on {mb : Mailbox} {s t : State} (h : PayloadWork mb s t) {f : Fld} (own : f.off = MBX_CTRL.reg) : t.on f = s.on f :=
  State.on_of_reg (own ▸ h.ctrl)

theorem PayloadWork.reachable {mb : Mailbox} {s t : State} (h : PayloadWork mb s t) : t.mbxReachable mb = s.mbxReachable mb := by
  rw [State.mbxReachable, State.mbxReachable, h.mode, h.on (f := MBX_CTRL.MANAGING_VALID) rfl]

/-- The mailbox with the submitter's opcode, length and input, before the bell. -/
def State.submitted (s : State) (mb : Mailbox) (op : BitVec 16) (input : List Byte) : State :=
  (s.ctrlWrite (.payload mb) 0 (input.take 4096)).modMbx mb fun x => { x with opcode := op, len := input.length }

theorem State.submitted_notes (s : State) (mb : Mailbox) (op : BitVec 16) (input : List Byte) :
    ((s.submitted mb op input).mbx mb).opcode = op ∧ ((s.submitted mb op input).mbx mb).len = input.length ∧
      ((s.submitted mb op input).mbx mb).intEnable = (s.mbx mb).intEnable ∧
      (s.submitted mb op input).mbx (otherMbx mb) = s.mbx (otherMbx mb) ∧
      (s.submitted mb op input).mbxReachable mb = s.mbxReachable mb ∧
      (∀ f : Fld, f.off = MBX_CTRL.reg → (s.submitted mb op input).on f = s.on f) ∧
      (s.submitted mb op input).sram = (s.ctrlWrite (.payload mb) 0 (input.take 4096)).sram := by
  have written := PayloadWork.ctrlWrite (mb := mb) s 0 (input.take 4096)
  rw [State.submitted]
  generalize s.ctrlWrite (.payload mb) 0 (input.take 4096) = u at written ⊢
  have regs := u.modMbx_regs mb fun x => { x with opcode := op, len := input.length }
  refine ⟨by rw [State.mbx_modMbx], by rw [State.mbx_modMbx], ?_, (u.mbx_modMbx_other mb _).trans written.other, ?_, fun f own => ?_,
    by cases mb <;> rfl⟩
  · rw [State.mbx_modMbx, written.own]
  · rw [← written.reachable, State.mbxReachable, State.mbxReachable, State.mode, State.mode, State.rd_congr regs, State.on, State.on,
      State.rd_congr regs]
  · rw [← written.on own, State.on, State.on, State.rd_congr regs]

theorem exec_mailboxDoorbell {s : State} {mb : Mailbox} (reachable : s.mbxReachable mb = true) (silent : s.on (bellFld mb) = false)
    (op : BitVec 16) (input : List Byte) : exec (.mailboxDoorbell mb op input) s = .next ((s.submitted mb op input).doorbell mb) :=
  if_neg (by simp [reachable, silent])

/-- A doorbell on a closed mailbox. -/
theorem State.doorbell_closed {s : State} {mb : Mailbox} (reachable : s.mbxReachable mb = true) (silent : s.on (bellFld mb) = false)
    (closed : s.on (closedFld mb) = true) :
    s.doorbell mb = (s.modMbx mb fun x => { x with rc := BitVec.ofNat 16 rcBusy }).emit (.mbxDone mb (s.mbx mb).intEnable) := by
  simp [State.doorbell, reachable, silent, closed]

/-- A mailbox that rings, before firmware's notice. -/
def State.rung (s : State) (mb : Mailbox) : State :=
  (s.modMbx mb fun x => { x with since := s.nextId, answered := false }).bump.wr (bellFld mb) 1

theorem State.doorbell_rings {s : State} {mb : Mailbox} (reachable : s.mbxReachable mb = true) (silent : s.on (bellFld mb) = false)
    (open_ : s.on (closedFld mb) = false) : QueueWork (s.rung mb) (s.doorbell mb) := by
  simp only [State.doorbell, State.rung, reachable, silent, open_, Bool.not_true, Bool.false_eq_true, or_self, if_false]
  exact (QueueWork.refl _).notice _ _ _ _ _ _ _ (by decide)

theorem QueueWork.mailbox {s t : State} (h : QueueWork s t) : (∀ k, t.mbx k = s.mbx k) ∧ t.sram = s.sram ∧
    t.reg MBX_CTRL.reg = s.reg MBX_CTRL.reg := by
  obtain ⟨frame, regs⟩ := h
  refine ⟨fun k => ?_, by rw [frame], regs _ (.inr (by decide))⟩
  rw [frame]
  cases k <;> rfl

theorem State.rung_mbx (s : State) (mb : Mailbox) :
    (s.rung mb).mbx mb = { s.mbx mb with since := s.nextId, answered := false } ∧ (s.rung mb).mbx (otherMbx mb) = s.mbx (otherMbx mb) ∧
      (s.rung mb).sram = s.sram := by
  cases mb <;> exact ⟨rfl, rfl, rfl⟩

/-! ### Completions and the ends of background commands (13 R423, R424) -/

theorem exec_completeOf (mb : Mailbox) (s : State) : exec (completeOf mb) s = .next (s.complete mb) := by cases mb <;> rfl

theorem exec_bgDoneOf (mb : Mailbox) (s : State) : exec (bgDoneOf mb) s = .next (s.bgDone mb) := by cases mb <;> rfl

/-- A mailbox whose command is completed. -/
def State.completed (s : State) (mb : Mailbox) : State :=
  ((s.wr (bellFld mb) 0).modMbx mb fun x => { x with answered := false }).emit (.mbxDone mb (s.mbx mb).intEnable)

theorem State.completed_regs (s : State) (mb : Mailbox) : (s.completed mb).regs = (s.wr (bellFld mb) 0).regs :=
  (s.wr (bellFld mb) 0).modMbx_regs mb _

theorem State.completed_notes (s : State) (mb : Mailbox) : (s.completed mb).mbx mb = { s.mbx mb with answered := false } ∧
    (s.completed mb).mbx (otherMbx mb) = s.mbx (otherMbx mb) ∧ (s.completed mb).out = s.out ++ [.mbxDone mb (s.mbx mb).intEnable] := by
  cases mb <;> exact ⟨rfl, rfl, rfl⟩

/-- BG_DONE where the mailbox has no background command. -/
theorem State.bgDone_of_none {s : State} {mb : Mailbox} (awake : s.mode ≠ 0) (none : ∀ g, s.fw.bg = some g → g.mb ≠ mb) :
    s.bgDone mb = s.emit (.mbxBgDone mb (s.mbx mb).bgIntEnable) := by
  rw [State.bgDone, if_neg awake]
  cases bg : s.fw.bg with
  | none => rfl
  | some g => exact if_pos (none g bg)

theorem State.bgDone_of_working {s : State} {mb : Mailbox} {g : Background} (awake : s.mode ≠ 0) (bg : s.fw.bg = some g) (own : g.mb = mb)
    (working : s.bgEnded g = none) : s.bgDone mb = s.bgGoOn g := by
  simp only [State.bgDone, if_neg awake, bg, own, ne_eq, not_true_eq_false, if_false, working]

/-- A background command whose work has ended, up to the interrupt. -/
def State.bgCompleted (s : State) (mb : Mailbox) (g : Background) (rc : Nat) : State :=
  ({ s with fw := { s.fw with bg := none } }.bgFinal g).modMbx mb fun x => { x with bgPercent := 100, bgRc := BitVec.ofNat 16 rc }

theorem State.bgDone_of_ended {s : State} {mb : Mailbox} {g : Background} {rc : Nat} (awake : s.mode ≠ 0) (bg : s.fw.bg = some g)
    (own : g.mb = mb) (ended : s.bgEnded g = some rc) :
    s.bgDone mb = (s.bgCompleted mb g rc).emit (.mbxBgDone mb ((s.bgCompleted mb g rc).mbx mb).bgIntEnable) := by
  simp only [State.bgDone, if_neg awake, bg, own, ne_eq, not_true_eq_false, if_false, ended, State.bgCompleted]

theorem State.bgGoOn_still {s : State} {g : Background} (other : g.opcode ≠ 0xC1A0#16 ∨ s.recalling g.arg = true) : s.bgGoOn g = s :=
  if_neg fun ⟨region, idle, _⟩ => other.elim (fun no => no region) fun recalls => by simp [recalls] at idle

/-! ### Refusals (13 R425, R426, R428) -/

/-- A mailbox command is the taking of its opcode and length. -/
theorem exec_of_mailboxForm {i : Instr} {mb : Mailbox} {code : Nat} {n : Option Nat} (form : mailboxForm i = some (mb, code, n)) (s : State) :
    ∃ reserved body, exec i s = .next (s.command mb code n reserved body) := by
  unfold mailboxForm at form
  split at form
  all_goals cases form
  all_goals exact ⟨_, _, rfl⟩

/-- An answer with a code and no output. -/
def State.answered (s : State) (mb : Mailbox) (rc : BitVec 16) : State := s.modMbx mb fun x => { x with rc := rc, len := 0, answered := true }

section
variable {s : State} {mb : Mailbox} {code : Nat} {n : Option Nat} {reserved : List (Nat × Nat)} {body : State → List Byte → State}

theorem State.command_other (other : s.mayAnswer mb = false ∨ (s.mbx mb).opcode.toNat ≠ code) : s.command mb code n reserved body = s :=
  if_pos (other.imp_left fun no => by rw [no]; rfl)

theorem State.command_closing (may : s.mayAnswer mb = true) (own : (s.mbx mb).opcode.toNat = code) (closing : s.drainClosing = true) :
    s.command mb code n reserved body = s.answered mb 6#16 :=
  (if_neg (by simp [may, own])).trans (if_pos closing)

/-- A command taken reads its input. -/
theorem State.command_reads (may : s.mayAnswer mb = true) (own : (s.mbx mb).opcode.toNat = code) (early : s.drainClosing = false)
    {u : State} {b : List Byte} {bad : Bool} (read : s.ctrlRead (.payload mb) 0 (min 4096 (s.mbx mb).len) = (u, b, bad)) :
    s.command mb code n reserved body =
      if bad then u.reply mb rcInternal
      else if n ≠ none ∧ n ≠ some (s.mbx mb).len then u.reply mb rcLength
      else if reserved.any fun r => leAt b r.1 1 &&& r.2 != 0 then u.reply mb rcInvalidInput
      else body u b := by
  have taken : ¬((!s.mayAnswer mb) = true ∨ (s.mbx mb).opcode.toNat ≠ code) := by simp [may, own]
  rw [State.command, if_neg taken, if_neg (by rw [early]; exact Bool.false_ne_true)]
  simp only [read]

end

/-! ### The statement -/

/-- Settles O53: the doorbell by what the write of the payload and the notice leave, the ends and refusals by their equations. -/
theorem mailboxDoorbellsAndRefusals : Obligations.MailboxDoorbellsAndRefusals := by
  unfold Obligations.MailboxDoorbellsAndRefusals
  intro s mb op input g
  refine ⟨?ignored, ?closed, ?rings, ?notRung, ?completes, fun awake none => ?_, fun awake bg own working => ⟨?_, fun other => ?_⟩,
    fun rc awake bg own ended => ?_, fun i code n form => ?refusals⟩
  case ignored =>
    intro ignored
    exact if_pos (ignored.imp_left fun no => by rw [no]; rfl)
  case closed =>
    intro reachable silent closed
    obtain ⟨-, -, irq, other, reach, bells, -⟩ := s.submitted_notes mb op input
    have silent' := (bells _ (bellFld_off mb)).trans silent
    have run := (exec_mailboxDoorbell reachable silent op input).trans (congrArg Outcome.next
      (State.doorbell_closed (reach.trans reachable) silent' ((bells _ (closedFld_off mb)).trans closed)))
    generalize s.submitted mb op input = u at irq other silent' run
    refine ⟨_, run, ?_, ?_, ?_, ?_⟩
    · rw [State.on, State.emit_rd, State.rd_congr (u.modMbx_regs mb _)]
      exact silent'
    · rw [State.emit_mbx, State.mbx_modMbx]
      rfl
    · rw [State.emit, List.getLast?_concat, irq]
    · rw [State.emit_mbx, State.mbx_modMbx_other, other]
  case rings =>
    intro reachable silent open_
    obtain ⟨opcode, len, -, other, reach, bells, sram⟩ := s.submitted_notes mb op input
    have rings := State.doorbell_rings (reach.trans reachable) ((bells _ (bellFld_off mb)).trans silent)
      ((bells _ (closedFld_off mb)).trans open_)
    have run := exec_mailboxDoorbell reachable silent op input
    generalize s.submitted mb op input = u at opcode len other sram rings run
    obtain ⟨mbx, kept, ctrl⟩ := rings.mailbox
    obtain ⟨own, others, held⟩ := u.rung_mbx mb
    refine ⟨_, run, ?_, ?_, ?_, ?_, ?_, ?_⟩
    · have bell : (u.doorbell mb).on (bellFld mb) = (u.rung mb).on (bellFld mb) := State.on_of_reg (by rw [bellFld_off, ctrl])
      rw [bell, State.rung]
      exact State.on_wr_one _ _ (bellFld_w mb) (bellFld_fits mb)
    · rw [mbx, own, opcode]
    · rw [mbx, own, len]
    · rw [mbx, own]
    · rw [mbx, others, other]
    · rw [kept, held, sram]
  case notRung =>
    intro idle
    rw [exec_completeOf]
    exact congrArg Outcome.next (if_pos (idle.imp_right fun off => by rw [off]; rfl))
  case completes =>
    intro awake rung
    have completes : s.complete mb = s.completed mb := if_neg (by simp [awake, rung])
    obtain ⟨own, other, out⟩ := s.completed_notes mb
    refine ⟨_, (exec_completeOf mb s).trans (congrArg Outcome.next completes), ?_, ?_, own, other, out, fun o ne => ?_⟩
    · rw [State.on, State.rd_congr (s.completed_regs mb)]
      exact s.on_wr_zero _ (bellFld_w mb) (bellFld_fits mb)
    · rw [State.on, State.rd_congr (s.completed_regs mb)]
      exact s.on_wr_apart 0 (bellFld_apart mb)
    · rw [State.reg_congr (s.completed_regs mb)]
      exact s.reg_wr_ne _ 0 (bellFld_off mb ▸ ne)
  · rw [exec_bgDoneOf, State.bgDone_of_none awake none]
  · rw [exec_bgDoneOf, State.bgDone_of_working awake bg own working]
  · rw [exec_bgDoneOf, State.bgDone_of_working awake bg own working, State.bgGoOn_still other]
  · have run := (exec_bgDoneOf mb s).trans (congrArg Outcome.next (State.bgDone_of_ended awake bg own ended))
    refine ⟨_, ((s.bgCompleted mb g rc).mbx mb).bgIntEnable, run, ?_, ?_, ?_⟩
    · rw [State.emit_mbx, State.bgCompleted, State.mbx_modMbx]
    · rw [State.emit_mbx, State.bgCompleted, State.mbx_modMbx]
    · rw [State.emit, List.getLast?_concat]
  case refusals =>
    obtain ⟨reserved, body, run⟩ := exec_of_mailboxForm form s
    rw [run]
    refine ⟨fun other => by rw [State.command_other other], fun may own => ⟨fun closing => ?_, fun early u b bad read => ?_⟩⟩
    · rw [State.command_closing may own closing]
      rfl
    · rw [State.command_reads may own early read]
      refine ⟨fun lost => ?_, fun sound k fixed wrong => ?_⟩
      · rw [if_pos lost]
        rfl
      · rw [if_neg (by simp [sound]), if_pos (by simp [fixed, wrong])]
        rfl

end Sys2Proof.Machine
end
